-- ==== Sys2Proof/Word.lean ====
section
/-! DEFINITION. The plain words of the device: bytes, 32-bit register words and the index types of its units (spec 00 R1, R10). -/

namespace Sys2Proof

/-- One byte. -/
abbrev Byte := BitVec 8
/-- One 32-bit register (R437). -/
abbrev Word := BitVec 32
/-- One 64-bit scalar, counter or debug datum. -/
abbrev Word64 := BitVec 64

/-- A Pod, 0 to 63 (R1, R3). -/
abbrev PodId := Fin 64
/-- A physical fabric port, 0 to 15 (R1). -/
abbrev PortId := Fin 16
/-- A host stream, 0 to 63; stream 0 is the admin stream (R3). -/
abbrev StreamId := Fin 64
/-- A compute die, 0 to 3 (R1). -/
abbrev DieId := Fin 4
/-- An IO die with its Fabric Sequencer: 0 is die A, 1 is die B (R201). -/
abbrev FsqId := Fin 2
/-- A Root stack, 0 to 11 (R178). -/
abbrev StackId := Fin 12
/-- A Pod clock region, 0 to 15 (R354). -/
abbrev RegionId := Fin 16
/-- A Matrix Engine of a Pod (R43). -/
abbrev EngineId := Fin 4

end Sys2Proof
end

