-- ==== Sys2Proof/Syntax.lean ====
section
/-! DEFINITION. The commands of the device: one constructor per row of spec/opcode_table.json, with the operands the
spec gives the row. A Pod operation carries the fields of its slot (R136); a register write carries the value written;
an event carries what its surroundings supply (a received packet, a measured value, the bytes a host read returned). -/

namespace Sys2Proof

/-- The fields of the ME slot, its opcode apart (R136). -/
structure MeFields where
  engine : BitVec 2
  quad   : BitVec 3
  md     : BitVec 4
  acc    : BitVec 1
  start  : BitVec 2
  areg   : BitVec 5
  breg   : BitVec 5
  dreg   : BitVec 5
  buf    : BitVec 1
  rsv    : BitVec 30
  deriving DecidableEq, Repr

/-- The fields of the VU slot, its opcode apart (R136). -/
structure VuFields where
  vd    : BitVec 5
  va    : BitVec 5
  vb    : BitVec 5
  vc    : BitVec 5
  mask  : BitVec 3
  fmt   : BitVec 4
  rmode : BitVec 3
  fmt2  : BitVec 4
  src   : BitVec 1
  seed  : BitVec 8
  sreg  : BitVec 5
  sub   : BitVec 4
  sa    : BitVec 2
  start : BitVec 1
  rsv   : BitVec 1
  deriving DecidableEq, Repr

/-- The fields of the TE slot, its opcode apart (R136). -/
structure TeFields where
  half : BitVec 1
  xa   : BitVec 5
  xb   : BitVec 5
  fmt  : BitVec 1
  rsv  : BitVec 16
  deriving DecidableEq, Repr

/-- The fields of the MEM slot, its opcode apart (R136). -/
structure MemFields where
  rd  : BitVec 5
  ra  : BitVec 5
  imm : BitVec 16
  q   : BitVec 4
  rt  : BitVec 5
  rsv : BitVec 7
  deriving DecidableEq, Repr

/-- The fields of the CTL slot, its opcode apart (R136). -/
structure CtlFields where
  rd  : BitVec 5
  ra  : BitVec 5
  rb  : BitVec 5
  imm : BitVec 27
  deriving DecidableEq, Repr

/-- A packet of either plane: its 128-bit header (R197) and its payload. -/
structure Packet where
  offset   : BitVec 24
  circuit  : BitVec 16
  stakeTag : BitVec 8
  rsv      : BitVec 7
  mcast    : Bool
  resend   : Bool
  fence    : Bool
  lenM1    : BitVec 6
  src      : BitVec 24
  dst      : BitVec 24
  type     : BitVec 4
  seq      : BitVec 12
  payload  : List Byte
  deriving DecidableEq, Repr

/-- The agents that reach registers, each with its own read latches (R438, R439). -/
inductive Agent where
  | host | keeper | debug
  | pod (p : PodId)
  deriving DecidableEq, Repr

/-- The rails of R450. -/
inductive Rail where
  | vddCd (d : DieId) | vddSram | vddIo | avddSer0v9 | avddSer1v2 | rootVpp | rootVdd | rootVddq | vdd1v8
  deriving DecidableEq, Repr

/-- The PLLs of R354 and R369, the Keeper's KPLL apart (R368). -/
inductive Pll where
  | podRegion (r : RegionId) | network (d : DieId) | root (d : DieId) | pcie | fabric | refout
  deriving DecidableEq, Repr

/-- A die with a junction sensor (R377, R466). -/
inductive DieName where
  | compute (d : DieId) | ioA | ioB
  deriving DecidableEq, Repr

/-- The rows of R384 at whose deadline a function still INIT is reported. -/
inductive Deadline where
  | pods | roots
  deriving DecidableEq, Repr

/-- A frame at the management port that carries a PTP message, from its destination address to its frame check sequence (R408). -/
structure PtpFrame where
  bytes : List Byte
  deriving DecidableEq, Repr

/-- A debug-port command as DBG holds it, its OP apart (R427). -/
structure DbgFields where
  pod  : Byte
  addr : BitVec 48
  data : Word64
  /-- DBG_TCK in MHz while the command is shifted in (R355, R427). -/
  tckMhz : Nat
  deriving DecidableEq, Repr

/-- A register of a Pod that a result is written to (R134, R159). -/
inductive Dest where
  | s (i : Fin 32) | v (i : Fin 32) | m (i : Fin 8) | md (i : Fin 16) | sa (i : Fin 4)
  deriving DecidableEq, Repr

/-- A load whose buffer completes (R146, R96). -/
inductive BufferName where
  | bb (e : EngineId) (b : Fin 2)
  | fb (h : Fin 2)
  | nodes
  deriving DecidableEq, Repr

/-- The commands, in the order of spec/opcode_table.json. -/
inductive Instr where
  | powerOnReset (straps : BitVec 16)
  | railTrip (rail : Rail)
  | sysRstN (lowNs : Nat) (straps : BitVec 16)
  | cfgResetCold (value : Word) (straps : BitVec 16)
  | cfgResetWarm (value : Word)
  | conventionalReset
  | hotReset
  | flr
  | configCommit
  | keeperReady
  | pcieReady
  | podBistDone (p : PodId) (failed : Option Byte)
  | rootReady (k : StackId) (failed : Option Byte)
  | bootDeadline (d : Deadline)
  | mgmtLinkUp
  | mgmtLinkDown
  | refLoss
  | referenceReturn (edges : Nat)
  | pllUnlock (pll : Pll)
  | pllRelock (pll : Pll)
  | kpllLockLoss
  | clkKeeperWrite (value : Word)
  | clkGateWrite (value : Word)
  | droopDetect (r : RegionId) (belowMv : Nat)
  | stretchEnd (r : RegionId)
  | thermtrip (d : DieName)
  | arm (value : Word)
  | cancel (value : Word)
  | pstepVoltageRaise
  | pstepFinalCheck (locked : BitVec 16) (railMv : List Nat)
  | pstepSwitch
  | pstepVoltageLower
  | start (value : Word)
  | fcountWindowEnd (edges : Word)
  | powerRateUpdate
  | powerMeasureInterval (readings : List (Option (BitVec 16)))
  | errPwrClear (value : Word)
  | stakeBoundary (stackTemps : List Byte) (cdTemps : List Byte) (ioTemps : List Byte)
  | pick (incomplete : BitVec 16)
  | departureReadDone (f : FsqId) (channel : Fin 8) (circuit : BitVec 16)
  | localWrite (f : FsqId)
  | checkPoint
  | pairDigestTimeout
  | commitPoint
  | holdQuantumStart
  | podFrameStart
  | snapshot
  | refreshSlot (k : StackId) (c : Fin 32)
  | refreshEnd (k : StackId) (c : Fin 32)
  | flitSlot (p : PortId)
  | unalignedAlignSend
  | flitRx (p : PortId) (raw : List Byte)
  | warpPacketRx (p : PortId) (pkt : Packet)
  | write (p : Option PortId) (pkt : Packet)
  | fadd (p : Option PortId) (pkt : Packet)
  | ocommit (p : Option PortId) (pkt : Packet)
  | mgmtReq (p : PortId) (pkt : Packet)
  | mgmtRsp (p : PortId) (pkt : Packet)
  | done (p : Option PortId) (pkt : Packet)
  | msg (p : Option PortId) (pkt : Packet)
  | byp (p : PortId) (pkt : Packet)
  | twinePacketRx (p : PortId) (pkt : Packet)
  | queuedEntryAccept (p : PodId) (q : Fin 8)
  | twineRequestServed (p : PortId)
  | notice (p : PortId) (pkt : Packet)
  | faultNotice (p : PortId) (pkt : Packet)
  | rsqRx (p : PortId) (pkt : Packet)
  | alignRx (p : PortId) (payload : List Byte)
  | alignAdopt
  | tickRootAlign
  | altRootAlign
  | alignTimeout
  | pairDigestRx (payload : List Byte)
  | laneSignalDetect (p : PortId)
  | trainDeadline (p : PortId)
  | announce (p : PortId) (payload : List Byte)
  | delayReq (p : PortId) (payload : List Byte)
  | delayRsp (p : PortId) (payload : List Byte)
  | ready (p : PortId) (payload : List Byte)
  | recover (p : PortId) (payload : List Byte)
  | laneLockLoss (p : PortId)
  | recoverFail (p : PortId)
  | ackTimeout (p : PortId)
  | twineReplayTimeout (p : PortId)
  | elasticSlip (p : PortId) (pointer : Int)
  | darkExpected (p : PortId)
  | retrain (p : PortId) (value : Word)
  | enable (p : PortId) (value : Word)
  | prtPortMapWrite (hi : Bool) (value : Word)
  | tokenComplete (p : PodId) (q : Fin 8)
  | geRequestServe (d : DieId)
  | entropyHealthFail (p : PodId)
  | podCycle (p : PodId)
  | resultReadable (p : PodId) (d : Dest)
  | bufferComplete (p : PodId) (b : BufferName)
  | accumulatorFree (p : PodId) (e : EngineId)
  | rangeRelease (p : PodId) (op : Nat)
  | teWindowDone (p : PodId)
  | meMma (p : PodId) (f : MeFields)
  | meDrain (p : PodId) (f : MeFields)
  | meBload (p : PodId) (f : MeFields)
  | teNload (p : PodId) (f : TeFields)
  | teFload (p : PodId) (f : TeFields)
  | teWin (p : PodId) (f : TeFields)
  | vuAdd (p : PodId) (f : VuFields)
  | vuSub (p : PodId) (f : VuFields)
  | vuMul (p : PodId) (f : VuFields)
  | vuMin (p : PodId) (f : VuFields)
  | vuMax (p : PodId) (f : VuFields)
  | vuAbs (p : PodId) (f : VuFields)
  | vuNeg (p : PodId) (f : VuFields)
  | vuCmp (p : PodId) (f : VuFields)
  | vuSel (p : PodId) (f : VuFields)
  | vuAnd (p : PodId) (f : VuFields)
  | vuOr (p : PodId) (f : VuFields)
  | vuXor (p : PodId) (f : VuFields)
  | vuShl (p : PodId) (f : VuFields)
  | vuShr (p : PodId) (f : VuFields)
  | vuFma (p : PodId) (f : VuFields)
  | vuCvt (p : PodId) (f : VuFields)
  | vuXadd (p : PodId) (f : VuFields)
  | vuXcvti (p : PodId) (f : VuFields)
  | vuXcvto (p : PodId) (f : VuFields)
  | vuMxq (p : PodId) (f : VuFields)
  | vuRsum (p : PodId) (f : VuFields)
  | vuRmax (p : PodId) (f : VuFields)
  | vuRmin (p : PodId) (f : VuFields)
  | vuRargmax (p : PodId) (f : VuFields)
  | vuSamov (p : PodId) (f : VuFields)
  | vuSort (p : PodId) (f : VuFields)
  | vuMerge (p : PodId) (f : VuFields)
  | vuTrans (p : PodId) (f : VuFields)
  | vuBcast (p : PodId) (f : VuFields)
  | vuMovs (p : PodId) (f : VuFields)
  | mLdv (p : PodId) (f : MemFields)
  | mStv (p : PodId) (f : MemFields)
  | mLds (p : PodId) (f : MemFields)
  | mSts (p : PodId) (f : MemFields)
  | mMdld (p : PodId) (f : MemFields)
  | mCopy (p : PodId) (f : MemFields)
  | qFetch (p : PodId) (f : MemFields)
  | qStore (p : PodId) (f : MemFields)
  | qWait (p : PodId) (f : MemFields)
  | qWaitTimeout (p : PodId) (f : MemFields)
  | qPop (p : PodId) (f : MemFields)
  | qSel (p : PodId) (f : MemFields)
  | qSelord (p : PodId) (f : MemFields)
  | twSend (p : PodId) (f : MemFields)
  | twFadd (p : PodId) (f : MemFields)
  | twOcommit (p : PodId) (f : MemFields)
  | geReq (p : PodId) (f : MemFields)
  | cAdd (p : PodId) (f : CtlFields)
  | cSub (p : PodId) (f : CtlFields)
  | cAnd (p : PodId) (f : CtlFields)
  | cOr (p : PodId) (f : CtlFields)
  | cXor (p : PodId) (f : CtlFields)
  | cShl (p : PodId) (f : CtlFields)
  | cShr (p : PodId) (f : CtlFields)
  | cMul (p : PodId) (f : CtlFields)
  | cAddi (p : PodId) (f : CtlFields)
  | cSlt (p : PodId) (f : CtlFields)
  | cLi (p : PodId) (f : CtlFields)
  | cLih (p : PodId) (f : CtlFields)
  | cBr (p : PodId) (f : CtlFields)
  | cBz (p : PodId) (f : CtlFields)
  | cJmp (p : PodId) (f : CtlFields)
  | cCall (p : PodId) (f : CtlFields)
  | cRet (p : PodId) (f : CtlFields)
  | cLoop (p : PodId) (f : CtlFields)
  | cIdle (p : PodId) (f : CtlFields)
  | cFend (p : PodId) (f : CtlFields)
  | cSync (p : PodId) (f : CtlFields)
  | cStep (p : PodId) (f : CtlFields)
  | cRds (p : PodId) (f : CtlFields)
  | cCsrw (p : PodId) (f : CtlFields)
  | cCsrr (p : PodId) (f : CtlFields)
  | podEgress (p : PodId) (value : Word)
  | podTeCfgWrite (p : PodId) (value : Word)
  | hstSqTail (s : StreamId) (value : Word)
  | hstCqHead (s : StreamId) (value : Word)
  | descriptorFetchFail (s : StreamId) (hostAddr : Word64)
  | submit (s : StreamId) (desc : List Byte) (segments : List Byte) (readFails : Bool)
  | inputStaged (s : StreamId) (input : List Byte)
  | completionRecord (s : StreamId)
  | hstSCtrlEnable (s : StreamId) (value : Word)
  | hstSCtrlReset (s : StreamId) (value : Word)
  | streamResetDone (s : StreamId)
  | nop (desc : List Byte)
  | loadWeave (desc : List Byte) (image : List Byte) (seedSet : List Byte) (readFails : Bool)
  | quietStakeDone
  | spliceReloadDone (p : PodId)
  | load (desc : List Byte) (bytes : List Byte) (readFails : Bool)
  | loadComplete
  | read (desc : List Byte)
  | manifest (desc : List Byte) (bytes : List Byte) (readFails : Bool)
  | bundleWrite (desc : List Byte) (bytes : List Byte) (readFails : Bool)
  | bundleVerify (desc : List Byte)
  | bundleCommit (desc : List Byte)
  | bundleRead (desc : List Byte)
  | cfgSelect (value : Word)
  | controlBlockWritten
  | cfgIdentityAck (value : Word)
  | timCtrlSet (value : Word)
  | timCtrlAddOffset (value : Word)
  | timCtrlSynced (value : Word)
  | timIncrWrite (value : Word)
  | ptpEventTx (f : PtpFrame)
  | ptpEventRx (f : PtpFrame)
  | devSnapArm (value : Word)
  | release (value : Word)
  | errCapRearm (group : Fin 19) (value : Word)
  | registerWrite (a : Agent) (offset : BitVec 26) (size : Nat) (value : Word64)
  | getVersion (req : List Byte)
  | getCapabilities (req : List Byte)
  | negotiateAlgorithms (req : List Byte)
  | getDigests (req : List Byte)
  | getCertificate (req : List Byte)
  | challenge (req : List Byte)
  | getMeasurements (req : List Byte)
  | doeDiscovery (req : List Byte)
  | doeAbort
  | extest
  | idcode
  | samplePreload
  | clamp
  | highz
  | bypass
  | dbgTrstN
  | dbgHalt (f : DbgFields)
  | dbgResume (f : DbgFields)
  | dbgStep (f : DbgFields)
  | dbgBreak (f : DbgFields)
  | dbgWatch (f : DbgFields)
  | dbgRead (f : DbgFields)
  | dbgWrite (f : DbgFields)
  | readCore (f : DbgFields)
  | writeCore (f : DbgFields)
  | dbgStatusCmd (f : DbgFields)
  | dbgChallenge (f : DbgFields)
  | response (f : DbgFields)
  | unlock (f : DbgFields)
  | lock (f : DbgFields)
  | config (f : DbgFields)
  | blockRead (i3c : Bool) (c : Byte)
  | targetWrite (i3c : Bool) (bytes : List Byte)
  | alertResponse
  | entdaa (addr : BitVec 7)
  | setdasa (addr : BitVec 7)
  | perstNRelease
  | pciePllTimeout
  | kpllLock
  | fecLock (p : PortId) (phasePs : BitVec 12)
  deriving DecidableEq, Repr

end Sys2Proof
end

