-- ==== Sys2Proof/Decode.lean ====
section
/-! DEFINITION. The command a word spells. No row of the table gives bits: the device's commands are events and register
accesses, and none has an encoding of its own, so no word spells a command. -/

namespace Sys2Proof

/-- The command that a word of the table's bits spells: none, for every row. -/
def decodeTableWord (_nbits _w : Nat) : Option Instr := none

end Sys2Proof
end

