-- ==== Sys2Proof/Config.lean ====
section
/-! DEFINITION. The values the spec leaves open. Each is a constant with no body, so nothing can be proved of it; an argument
`n` is the running number of the draw (State.fresh), the other arguments are the operands the value belongs to. -/

namespace Sys2Proof.Config

/-- R117: a 64-bit draw of a Pod's physical noise source, by draw number and lane. -/
opaque entropyDraw : Nat → Nat → Word64

/-- R148: an integer ADD, SUB, MUL, ABS or NEG whose exact result lies outside the lane's format, by opcode, format and
operands. The spec states no result there. -/
opaque intOutOfRange : Nat → BitVec 4 → Word → Word → Word

/-- R61, R149: what decides the COUNT of the blocks of a VU.XCVTI whose S[SREG] names a COUNT of 0 or above 36. -/
opaque countOutOfRange : Nat → Nat

/-- R107: the value (low half) and index (high half) of an accumulator into which VU.RARGMAX has taken no element, every lane
being masked off, by source format. The spec states no result there. -/
opaque argmaxEmpty : BitVec 4 → Word64

/-- R110: lane `i` of output register `r` of a VU.MERGE whose sources are not sorted, by the two sources and their payloads.
The spec states no result there. -/
opaque mergeUnsorted : List (Nat × Nat) → List (Nat × Nat) → Nat → Nat → Word

/-- R112: RCP and RSQRT are faithful: which of the two neighbours of the exact value is given, by function, target format,
rounding mode and operand. -/
opaque faithfulUp : Nat → BitVec 4 → Nat → Word → Bool

/-- R112: TANH and SIGMOID lie within 2 ulp: the distance taken, by function, target format and operand. -/
opaque withinTwoUlp : Nat → BitVec 4 → Word → Nat

/-- R131, R158: the trap cause recorded where several conditions hold in the trapping slot. -/
opaque trapChoice : Nat → Nat

/-- R157: the crossing delay of a resume, 0 to 2 Pod cycles. -/
opaque crossingDelay : Nat → Nat

/-- R127: which STATUS is written where several of the errors found at one tick of R126 hold, by the request's bytes and its step
counter: a function of the inputs alone (R300). -/
opaque gatherStatus : List Byte → Word64 → Nat

/-- R123, R176: the bytes with which the Gather Engine fills the last 64-bit word of a part of its output, by their store offset. The spec states no
value there. -/
opaque gatherFill : Nat → Byte

/-- R37: the code of Pod `p` of device `d` that a weave image holds. The spec gives the sections' offsets, not the layout of
the bundle-code section. -/
opaque bundleCode : List Byte → Nat → Nat → List (BitVec 256)

/-- R37, R220: the overlay entries, 16-byte headers and records in sequence, that splice weaves bring for IO die `f` of device
`d`. The spec gives the entry and the directory, not where a splice's overlays lie. -/
opaque spliceOverlays : List Byte → Nat → Nat → List Byte

/-- R40: the 128-byte header of splice `k` of a weave image. The spec does not give its place. -/
opaque spliceHeader : List Byte → Nat → List Byte

/-- R225: the code with which splice `k` replaces that of Pod `p` of device `d`, or none where it replaces none. -/
opaque spliceCode : List Byte → Nat → Nat → Nat → Option (List (BitVec 256))

/-- R39, R211: the refusal code reported where several checks fail, by draw number. -/
opaque refusalChoice : Nat → Nat

/-- R38, R39: the weave ABI major and minor version the device supports. -/
opaque weaveAbi : Nat

/-- R395, R405: the vendor's public key digest fused into the device. -/
opaque vendorKeyDigest : List Byte

/-- R433: the debug-authorisation public key fused into the device. -/
opaque debugKey : List Byte

/-- R403: the public key fused into the device, x then y. -/
opaque publicKey : List Byte

/-- R403: the private key fused into the device. It is read by the signature of an SPDM response and by nothing else. -/
opaque privateKey : List Byte

/-- R403: the leaf certificate fused into the device. -/
opaque leafCert : List Byte

/-- R401: whether a cold reset during a control-block write loses the selection. -/
opaque selectionLost : Nat → Bool

/-- R349: the signature of an SPDM response: private key, what is signed, draw number. ECDSA draws a number of its own for each signature. -/
opaque spdmSignature : List Byte → List Byte → Nat → List Byte

/-- R349, R350: what the device answers to a DOE request beside what the spec states, by draw number and request: the message formats are those of
DMTF SPDM 1.2. -/
opaque identityAnswer : Nat → List Byte → List Byte

/-- R350, R396: the measurement of index `k`, 1 to 5, on a device that runs no bundle: measurement 1 is the SHA-256 of the boot ROM
image; for the others the spec states no value. -/
opaque romMeasurement : Nat → List Byte

/-- R433: the nonce of a debug challenge. -/
opaque debugNonce : Nat → List Byte

/-- R405, R411: the nanoseconds that SET loads from a TIM_SET_NS above 999,999,999. -/
opaque setNsOutOfRange : Word → Nat

/-- R453: whether a low pulse of 0.5 to 1 microsecond on SYS_RST_N resets the device. -/
opaque shortResetSeen : Nat → Bool

/-- R265, R289: the device's fixed transmit and receive delay in ticks. The spec gives no figure. -/
opaque fixedDelay : Nat

/-- R270: where in PRBS31 the payload of a TEST flit begins, by draw number. The spec gives no starting point. -/
opaque testStart : Nat → Nat

end Sys2Proof.Config
end

