-- ==== Sys2Proof/Machine/Table.lean ====
section
/-! DEFINITION. Sparse tables in one canonical form: keys strictly rising, no entry equal to what an unlisted key reads as.
Memory, the register file and the large arrays of the Pods are such tables, so equal contents are equal data. -/

namespace Sys2Proof.Machine

/-- A sparse table: pairs of a key and a value. -/
abbrev Tab (α : Type) := List (Nat × α)

/-- What key `k` reads as: its entry, or `d` where none is listed. -/
def tabGet {α : Type} (d : α) : Tab α → Nat → α
  | [], _ => d
  | (j, v) :: t, k => if j = k then v else tabGet d t k

/-- Drop every entry of `k`. -/
def tabErase {α : Type} : Tab α → Nat → Tab α
  | [], _ => []
  | (j, v) :: t, k => if j = k then tabErase t k else (j, v) :: tabErase t k

/-- Put `v` at `k` in key order. -/
def tabInsert {α : Type} : Tab α → Nat → α → Tab α
  | [], k, v => [(k, v)]
  | (j, w) :: t, k, v =>
    if j < k then (j, w) :: tabInsert t k v else if j = k then (k, v) :: t else (k, v) :: (j, w) :: t

/-- Write `v` at `k`, keeping the canonical form: writing what an unlisted key reads as removes the entry. -/
def tabSet {α : Type} [DecidableEq α] (d : α) (t : Tab α) (k : Nat) (v : α) : Tab α :=
  if v = d then tabErase t k else tabInsert t k v

/-- Every key lies above `lo` and the keys rise; no entry equals the default of its key. -/
def tabRising {α : Type} [DecidableEq α] (d : Nat → α) : Option Nat → Tab α → Bool
  | _, [] => true
  | lo, (j, v) :: t =>
    (match lo with
      | none => true
      | some l => decide (l < j)) && decide (v ≠ d j) && tabRising d (some j) t

/-- The canonical form of a table whose unlisted keys read as `d` of the key. -/
def tabWf {α : Type} [DecidableEq α] (d : Nat → α) (t : Tab α) : Bool := tabRising d none t

/-- Apply `f` to the values of `n` keys from `lo`. -/
def tabUpdateRange {α : Type} [DecidableEq α] (d : α) (f : Nat → α → α) : Nat → Nat → Tab α → Tab α
  | _, 0, t => t
  | lo, n + 1, t => tabUpdateRange d f (lo + 1) n (tabSet d t lo (f lo (tabGet d t lo)))

end Sys2Proof.Machine
end

