-- ==== Sys2Proof/Machine/State.lean ====
section
/-! DEFINITION. The state of the device as plain data. Every BAR0 register is an entry of one register table, keyed by its
BAR0 offset (R437, R444); device memory is one byte table, keyed by device address (R192); what the spec gives the device
beside these (register files, accumulators, queues, buffers, protocol state) stands in the structures below. -/

namespace Sys2Proof.Machine

/-! ## Registers -/

/-- The reset value of the register at BAR0 offset `o`, as the index of R444 gives it. DEV_ID (fuses), DEV_PLACE (straps) and
the registers the boot flow sets are written by the boot commands; here they read what State.reset's fuses give or zero. -/
def regDefault (o : Nat) : Word :=
  if o < 0x30000 then
    if o = 0x10000 then 0xDFF0FFFF            -- CLK_STATUS
    else if o = 0x10004 then 0x80000000       -- CLK_KEEPER
    else if o = 0x1000C then 0x000004B0       -- CLK_NOC
    else if o = 0x10010 then 0x0000007F       -- CLK_GATE
    else if o = 0x10014 then 0x00020000       -- CLK_REFOUT
    else if o = 0x10100 then 0x00352708       -- CLK_PSTEP[0-7] (R361)
    else if o = 0x10104 then 0x00320640
    else if o = 0x10108 then 0x002F8578
    else if o = 0x1010C then 0x002D04B0
    else if o = 0x10110 then 0x002B23E8
    else if o = 0x10114 then 0x00294320
    else if o = 0x10118 then 0x00276258
    else if o = 0x1011C then 0x00258190
    else if o = 0x10120 then 0x00000707       -- CLK_PSTEP_REQ
    else if o = 0x10200 then 0x00003C1E       -- CLK_DROOP
    else if o = 0x20000 then 0x000004B0       -- PWR_CAP
    else if o = 0x20004 then 0x00000024       -- PWR_PRIO
    else if o = 0x20008 then 0x00000888       -- PWR_STATUS
    else if o = 0x20100 then 901              -- PWR_COEF[0-9] (R379)
    else if o = 0x20104 then 833
    else if o = 0x20108 then 556
    else if o = 0x2010C then 55
    else if o = 0x20110 then 1794
    else if o = 0x20114 then 2250
    else if o = 0x20118 then 5790
    else if o = 0x2011C then 15000
    else if o = 0x20120 then 20000
    else if o = 0x20124 then 120000
    else 0
  else if o = 0x30020 then 0x80000000         -- TIM_INCR
  else if o = 0x40160 then 0x0000000C         -- CFG_PAIR
  else if 0x102000 ≤ o ∧ o < 0x103000 then
    if o % 0x40 = 0x10 then 0x00040004        -- HST_S_RING
    else if o % 0x40 = 0x14 then 0x00010000   -- HST_S_BIND
    else 0
  else if 0x108000 ≤ o ∧ o < 0x108480 then
    if o % 16 = 12 then 1 else 0              -- MSI-X vector control: masked (PCIe MSI-X, R330)
  else if o = 0x200010 then 0x00001000        -- FSQ_HOLD_CTRL
  else if o = 0x200044 then 0xFFFF0000        -- FSQ_SPLICE
  else if o = 0x200800 then 0x20000FA0        -- PRT_LINK_CFG
  else if o = 0x200804 then 0x03010000        -- PRT_VERSION
  else if o = 0x200810 then 0x76543210        -- PRT_PORT_MAP_LO
  else if o = 0x200814 then 0xFEDCBA98        -- PRT_PORT_MAP_HI
  else if 0x201000 ≤ o ∧ o < 0x202000 then
    if o % 0x100 = 0 then 1                   -- PRT_CTRL
    else if o % 0x100 = 0x38 then BitVec.ofNat 32 ((o - 0x201000) / 0x100 * 0x100000)   -- PRT_DISC
    else 0
  else if 0x1000000 ≤ o ∧ o < 0x1400000 then
    if o % 0x10000 = 0x400 then 4             -- POD_ME_CFG
    else if o % 0x10000 = 0x600 then 4        -- POD_VU_CFG
    else if 0x820 ≤ o % 0x10000 ∧ o % 0x10000 < 0x840 then 0x80000000   -- POD_Q_STATUS[8-15]
    else 0
  else if o = 0x2000000 then 0x00012000       -- ROOT_CTRL
  else 0

/-! ## Pods: register files and engines -/

/-- A cell accumulator ACC with its flags, product count and residue modulo 3 (R43, R51 to R57, R73). -/
structure Acc where
  val : BitVec 96
  nan : Bool
  pinf : Bool
  ninf : Bool
  range : Bool
  kOver : Bool
  count : Nat
  /-- The residue carried beside the accumulator (R73). -/
  res : Nat
  deriving DecidableEq, Repr

/-- An accumulator after ZERO (R54). -/
def Acc.zero : Acc := ⟨0, false, false, false, false, false, 0, 0⟩

/-- A column accumulator CACC with its flags and residue (R45, R55, R57, R73). -/
structure Col where
  val : BitVec 640
  nan : Bool
  pinf : Bool
  ninf : Bool
  range : Bool
  kOver : Bool
  count : Nat
  /-- The residue carried beside the accumulator (R73). -/
  res : Nat
  deriving DecidableEq, Repr

/-- A column accumulator after ZERO (R54). -/
def Col.zero : Col := ⟨0, false, false, false, false, false, 0, 0⟩

/-- A cycle and the operation whose figure it is: a withheld or refused cycle of that operation moves it by one (R144,
R172). -/
structure Due where
  op : Nat
  cyc : Nat
  deriving DecidableEq, Repr

/-- A B buffer: the format and length it was loaded with and its elements' bytes, column after column (R142, R146). -/
structure BBuf where
  fmt : BitVec 4
  k : Nat
  data : List Byte
  /-- First Pod cycle in which a dependent operation may issue (R146, R162). -/
  ready : Due
  /-- Last operand cycle of an ME.MMA that reads it, plus one. -/
  used : Due
  deriving DecidableEq, Repr

/-- A drain in progress (R46, R145): the rows or blocks still to take a rounding slot, as store offset and length. -/
structure Drain where
  op : Nat
  /-- 0 to 3 a quadrant, 4 the whole array or a column drain. -/
  quad : Nat
  acc : Fin 2
  /-- Cycle of its next slot. -/
  next : Nat
  /-- Cycles from a slot to the rounded row. -/
  latency : Nat
  rows : List (Nat × Nat)
  deriving DecidableEq, Repr

/-- The products that an ME.MMA has still to form (R72): those of one cycle in which its operands enter, and those left. -/
structure Forming where
  op : Nat
  per : Nat
  left : Nat
  deriving DecidableEq, Repr

/-- One Matrix Engine (R43 to R47, R71, R147). Cells are keyed by acc × 4096 + row × 64 + column, column accumulators by
acc × 64 + column; the stored E_BASE is kept per cell accumulator and quadrant, acc × 4 + quadrant. A figure of an accumulator stands
at acc × 4 + quadrant for the cells and at 8 + acc for the columns, which are guarded by themselves (R71). -/
structure Engine where
  cells : Tab Acc
  cols : Tab Col
  bases : Vector (Option Int) 8
  bufs : Vector BBuf 2
  /-- Per quadrant: first cycle in which the next ME.MMA may issue (R144, R147). -/
  nextMma : Vector Due 4
  /-- Per quadrant: the cycle after the last operand cycle; the engine is active before it (R147). -/
  activeUntil : Vector Due 4
  /-- Per quadrant: the cycle in which the operands of the present operation start to enter (R144, R168). -/
  admitFrom : Vector Due 4
  /-- Per accumulator and quadrant: first cycle in which a drain may issue, and in which a CONTINUE may (R144). -/
  drainReady : Vector Due 10
  contReady : Vector Due 10
  /-- Per accumulator and quadrant: first cycle in which it may be started again after a drain (R145). -/
  accFree : Vector Due 10
  drains : List Drain
  /-- Drains whose rows may not all be visible yet, and whether each is a quadrant's (R147). -/
  drainOps : List (Nat × Bool)
  /-- ME.MMA operations whose products may still be in the pipeline, and whether each is a quadrant's (R147). -/
  mmaOps : List (Nat × Bool)
  /-- Products not yet formed (R72). -/
  forming : List Forming
  /-- Rows of drains not yet written: operation, store offset, and the POD_ME_FLAGS bits that the write of the row sets (R72). -/
  results : List (Nat × Nat × Nat)
  deriving DecidableEq, Repr

/-- A vector-unit scalar accumulator: value, index, the reductions since its ZERO and their kind (R107). -/
structure ScalarAcc where
  val : Word
  idx : Word
  /-- RARGMAX operations since ZERO, the r of R107. -/
  runs : Nat
  /-- A NaN has been reduced into it since ZERO. -/
  sawNan : Bool
  /-- It holds a value: no RARGMAX with ZERO has left it without an element (R107). -/
  started : Bool
  deriving DecidableEq, Repr

/-- An open zero-overhead loop (R156). -/
structure Loop where
  start : Nat
  stop : Nat
  lc : Fin 4
  deriving DecidableEq, Repr

/-- A result that an issued operation has formed and that is not yet readable (R159, R162). -/
structure PendWrite where
  op : Nat
  /-- Slot of the operation (R158). -/
  slot : Nat
  dest : Dest
  value : BitVec 8192
  due : Nat
  deriving DecidableEq, Repr

/-- An entry of the store-range table (R160): a read or write range, with the bytes its write makes visible on release. -/
structure StoreRange where
  op : Nat
  /-- Class of the operation, as C.SYNC numbers them: 0 ME, 2 TE, 3 stores and M.COPY, 4 queue operations, 5 GE.REQ, 6
  Q.POP; 7 a unit of a commit that is still to be written (R309) and 8 a write of the on-die network (R175, R192), which are no entries
  of the table, and 8 holds no operation back (R163). -/
  cls : Nat
  write : Bool
  lo : Nat
  hi : Nat
  /-- The range belongs to GE.REQ (R160, R121). -/
  ge : Bool
  /-- The cycle of release, or none where a token's completion releases it. -/
  due : Option Nat
  /-- Device address and bytes of the writes whose lines no bank has granted yet (R167). -/
  writes : List (Nat × List Byte)
  /-- Granted writes: the cycle from which readers see them, device address and bytes (R167). -/
  landing : List (Nat × Nat × List Byte)
  /-- The bytes enter the pair digest as they are written: an M.COPY, whose source may still change at issue (R167, R323). -/
  digest : Bool
  deriving DecidableEq, Repr

/-- The lines an operation still has to present to the banks (R172). `step` counts from 0; the lines of each step follow from
the operation's kind and addresses. -/
structure LineStream where
  op : Nat
  /-- Rank of R169, lower first. -/
  rank : Nat
  /-- Order within the rank: the engine or line class, then the issue serial. -/
  order : Nat
  write : Bool
  base : Nat
  /-- Bytes between the lines of consecutive steps. -/
  stride : Nat
  /-- Bytes presented in one step. -/
  width : Nat
  /-- Cycle of the next step, and cycles between steps. -/
  nextAt : Nat
  every : Nat
  stepsLeft : Nat
  /-- Lines of the present step where they do not follow from `base` and `width`: those a bank has refused, or those of an
  ME.BLOAD step. -/
  refused : List Nat
  deriving DecidableEq, Repr

/-- What the bytes of a read are for: a result register, a B buffer, a feature half, the data of a queue's token, the node slots of a
TE.NLOAD from store offset `dst`, an M.COPY to store offset `dst`. -/
inductive ReadTarget where
  | result | bbuf (e : EngineId) (b : Fin 2) | half (h : Fin 2) | token (q : Fin 8) | nodes (dst : Nat) | copy (dst : Nat)
  deriving DecidableEq, Repr

/-- A read whose lines are not all granted: each line takes the bytes of the store as they stand when a bank grants it (R167). The
bytes are those of the pieces, store offset and length, one after another. -/
structure ReadJob where
  op : Nat
  target : ReadTarget
  pieces : List (Nat × Nat)
  deriving DecidableEq, Repr

/-! ## Pods: Tree Engine -/

/-- A feature half (R76, R92): features per sample as loaded, and the words sample after sample. -/
structure FeatureHalf where
  features : Nat
  words : List Word
  /-- Cycles in which the loads of the half complete (R96). -/
  loads : List Due
  deriving DecidableEq, Repr

/-- A window that TE.WIN has issued and whose record is not yet visible (R95). -/
structure Window where
  op : Nat
  half : Fin 2
  issued : Nat
  length : Nat
  flags : BitVec 4
  /-- Compares of the walk cycles still to come (R102). -/
  steps : List Nat
  /-- Release cycle of R95. -/
  due : Nat
  deriving DecidableEq, Repr

/-- The Tree Engine (R75 to R102). -/
structure TreeEngine where
  halves : Vector FeatureHalf 2
  windows : List Window
  /-- Cycles in which the TE.NLOADs complete (R96). -/
  nloads : List Due
  /-- A write of POD_TE_CFG held until the engine is idle (R80). -/
  heldCfg : Option Word
  deriving DecidableEq, Repr

/-! ## Pods: queues -/

/-- What an outstanding token stands for (R185, R188). -/
inductive TokenKind where
  | fetch | store | gather | twSend | twMsg | twByp | twFadd | twOcommit
  deriving DecidableEq, Repr

/-- An outstanding token of an outbound queue (R186, R188). -/
structure Token where
  seq : Word
  kind : TokenKind
  op : Nat
  /-- Tick of issue (R190). -/
  issuedTick : Nat
  /-- Weave frame of issue (R310, R421). -/
  frame : Nat
  /-- The transfer itself is done; the token completes in queue order. -/
  transferDone : Bool
  /-- The data of a Q.FETCH has arrived, or the output of a gather has been formed: its lines ask the banks (R172, R188). -/
  begun : Bool
  /-- For a Root transfer: the Root address, the Pod-store offset and the length in bytes. -/
  root : Nat
  store : Nat
  len : Nat
  /-- The source bytes that a Q.STORE or TW operation has read (R188). -/
  data : List Byte
  /-- For a twine operation: the destination device coordinate, whose DONE or acknowledgement completes it (R256). -/
  dstDev : Nat
  deriving DecidableEq, Repr

/-- An outbound queue (R185, R186). -/
structure OutQueue where
  nextSeq : Word
  tokens : List Token
  deriving DecidableEq, Repr

/-- A TW operation whose source is still being read (R172, R188): the fields of its packet, the bytes before the source's, and the
unconfirmed packets that a FENCE packet waits for (R200, R259). -/
structure TwineSend where
  op : Nat
  queue : Fin 8
  type : Nat
  src : Nat
  dst : Nat
  offset : Nat
  fence : Bool
  pre : List Byte
  earlier : List (Nat × Nat × Word)
  deriving DecidableEq, Repr

/-- An ME.MMA whose operand lines are not all granted (R167, R172): its engine, its slot fields and descriptor, the addresses of its streams, the
engine as it was at issue, and the bytes of its pieces as the banks have granted them so far. -/
structure MmaJob where
  op : Nat
  engine : EngineId
  f : MeFields
  md : BitVec 512
  /-- Addresses of A, B and the seed blocks, register sums included. -/
  base : Nat × Nat × Nat
  prior : Engine
  pieces : List (Nat × Nat)
  data : List Byte
  /-- Some granted line held other bytes than at issue. -/
  changed : Bool
  deriving DecidableEq, Repr

/-- An entry of an inbound queue: 64 bytes, the Pod frame and the tick of its acceptance, and the stream and number of a host
submission (R191, R35, R36, R339). -/
structure Entry where
  bytes : List Byte
  stampFrame : Nat
  stampTick : Nat
  stream : Option (StreamId × Nat)
  deriving DecidableEq, Repr

/-- An entry that found its inbound queue full and waits (R191): where it came from and its bytes. -/
structure WaitingEntry where
  queue : Fin 8
  bytes : List Byte
  stream : Option (StreamId × Nat)
  /-- The packet that waits in a receive buffer, with the port it holds credit of. -/
  held : Option (Option PortId × Packet)
  deriving DecidableEq, Repr

/-- A post of results (R341): stream, count, the step counter and W at its issue (R343). -/
structure Post where
  stream : StreamId
  count : Nat
  step : Word64
  weight : List Byte
  /-- A reset of the stream was accepted after its issue: the post is discarded (R342). -/
  void : Bool
  deriving DecidableEq, Repr

/-- A GE.REQ not yet served or complete (R120). -/
structure GatherReq where
  op : Nat
  addr : Nat
  queue : Fin 8
  seq : Word
  step : Word64
  deriving DecidableEq, Repr

/-- A data watchpoint (R430). -/
structure Watch where
  addr : Nat
  len : Nat
  onRead : Bool
  onWrite : Bool
  deriving DecidableEq, Repr

/-- The control-core part of a Pod that is no register: what the next bundle waits on (R154 to R158, R429). -/
structure Core where
  /-- The free-running Pod-cycle phase n (R170): the cycle about to run. -/
  cycle : Nat
  /-- Issue serial of the next operation. -/
  nextOp : Nat
  /-- Cycle from which the next bundle may issue, and the cause counted until then: branch bubbles or C.IDLE (R155). -/
  holdUntil : Nat
  holdIdle : Bool
  /-- First cycle in which the present bundle came up for issue (R154). -/
  upSince : Option Nat
  /-- Tick of the frame-end stamp (R357). -/
  fendTick : Option Nat
  /-- Step counter at the last C.FEND (R421). -/
  fendStep : Word64
  /-- Step counter at the C.FEND of the frame before the present one (R421). -/
  fendStepPrev : Word64
  /-- Cycle of the frame's resume bundle, and bundles issued since (R155, R326). -/
  resumeCycle : Nat
  frameBundles : Nat
  /-- Digest of the present frame's writes (R323). -/
  pairSum : Word64
  /-- Next cycles at which SORT, MERGE and TRANS may issue (R111, R112). -/
  sortNext : Nat
  mergeNext : Nat
  transNext : Nat
  haltCause : Byte
  haltNum : Byte
  /-- The bundle about to issue has already met its breakpoint (R430). -/
  skipBreak : Bool
  /-- A STEP is in progress (R429). -/
  stepping : Bool
  /-- Splice reload or quiet-stake work is not finished (R225, R228). -/
  loading : Bool
  /-- Outbound queues whose head token completed since the present bundle came up, in order (R153). -/
  selSeen : List Nat
  /-- The next bundle index is 16,384, which POD_CTL_STATUS.PC does not show (R133). -/
  beyond : Bool
  deriving DecidableEq, Repr

/-- One Pod (R131 to R195). -/
structure Pod where
  s : Vector Word64 32
  v : Vector (BitVec 8192) 32
  m : Vector (BitVec 512) 8
  md : Vector (BitVec 512) 16
  sa : Vector ScalarAcc 4
  lc : Vector Word 4
  stack : List (BitVec 14)
  loops : List Loop
  code : List (BitVec 256)
  core : Core
  pend : List PendWrite
  ranges : List StoreRange
  lines : List LineStream
  reads : List ReadJob
  mmas : List MmaJob
  me : Vector Engine 4
  te : TreeEngine
  outq : Vector OutQueue 8
  sends : List TwineSend
  inq : Vector (List Entry) 8
  waiting : List WaitingEntry
  posts : List Post
  gathers : List GatherReq
  breaks : Vector (Option (BitVec 14)) 4
  watches : Vector (Option Watch) 2
  deriving DecidableEq, Repr

/-! ## Fabric Sequencers -/

/-- A circuit record (R208), with the table position it belongs to (R207, R210). -/
structure Record where
  position : Nat
  circuit : Nat
  offset : Nat
  pod : Fin 64
  lenM1 : Nat
  twin : Fin 16
  twinEn : Bool
  path : Bool
  reduce : Bool
  partner : Nat
  mask : BitVec 13
  srcDev : Nat
  runM1 : Nat
  pick : Nat
  input : Nat
  rsv : Nat
  deriving DecidableEq, Repr

/-- A splice overlay (R220). -/
structure Overlay where
  splice : Nat
  position : Nat
  input : Nat
  records : List Record
  deriving DecidableEq, Repr

/-- A packet on its way through the crossbar or over the other die's lanes (R202): it acts in pick `atPick`. -/
structure InFlight where
  atPick : Nat
  /-- Input index of this FSQ at which it is presented. -/
  input : Nat
  pkt : Packet
  deriving DecidableEq, Repr

/-- Warp data waiting at a TX port for its pick, or late traffic waiting for a free slot (R202, R216). -/
structure TxItem where
  port : PortId
  /-- The pick in which it is to be sent, or none for late traffic. -/
  atPick : Option Nat
  /-- The first pick in which late traffic may leave (R202). -/
  earliest : Nat
  pkt : Packet
  deriving DecidableEq, Repr

/-- LOCAL data staged for the on-die network (R203, R206). -/
structure Staged where
  pod : PodId
  addr : Nat
  payload : List Byte
  src : Nat
  circuit : Nat
  /-- Pick in which LOCAL takes it, late traffic or scheduled, and the serial of its request for the Pod's banks (R169, R201, R202). -/
  pick : Nat
  late : Bool
  op : Option Nat
  deriving DecidableEq, Repr

/-- A retained copy of a DP packet (R218). -/
structure Retained where
  weaveStake : Nat
  pkt : Packet
  deriving DecidableEq, Repr

/-- A reduction that has one input only (R214). -/
structure HalfReduce where
  record : Record
  /-- The packet held, and whether it is the primary's. -/
  pkt : Packet
  primary : Bool
  run : Nat
  deriving DecidableEq, Repr

/-- A packet a record expected in its pick and that has not come (R209, R216). -/
structure Missing where
  input : Nat
  circuit : Nat
  record : Record
  run : Nat
  deriving DecidableEq, Repr

/-- One Fabric Sequencer (R196 to R232). -/
structure Fsq where
  records : List Record
  overlays : List Overlay
  arriving : List InFlight
  staged : List Staged
  /-- (SRC device, CIRCUIT) pairs written in this stake (R206). -/
  written : List (Nat × Nat)
  retained : List Retained
  halves : List HalfReduce
  missing : List Missing
  /-- Departure reads incomplete at their pick: record and run index (R205). -/
  lateReads : List (Record × Nat)
  /-- LOCAL data that the on-die network has taken into the arrival halves, by Pod and store offset: a Pod reads it from its next frame on
  (R21, R203). -/
  landed : List (PodId × Nat × List Byte)
  deriving DecidableEq, Repr

/-- A Pod window (R204, R210). -/
structure PodWindow where
  depBase : Nat
  depHalf : Nat
  arrBase : Nat
  arrHalf : Nat
  deriving DecidableEq, Repr

/-! ## Weaves and stakes -/

/-- What a loaded weave brings (R37, R38, R210, R220). -/
structure Weave where
  sheet : BitVec 16
  profile : Byte
  envelope : Nat
  pathMode : Bool
  vMask : Word64
  spliceCount : Nat
  period : Nat
  ckptInterval : Nat
  ckptList : List Nat
  windows : List PodWindow
  records : List (List Record)
  overlays : List (List Overlay)
  overlayUnits : List Nat
  /-- The splice directory: device coordinate, port, splice index (R220). -/
  directory : List (Nat × Nat × Nat)
  /-- Bundle code of each Pod with code. -/
  code : Tab (List (BitVec 256))
  startStake : Nat
  startStep : Word64
  /-- Weave stake at which the run starts: c + 1 after a restart, else 0 (R423). -/
  firstWeaveStake : Nat
  seeds : List Word64
  seedId : Word64
  /-- P, the program digest (R319). -/
  program : List Byte
  /-- Root copy area and length of the image (R346, R225). -/
  rootCopy : Nat
  length : Nat
  /-- Stake in which the load was accepted (R417). -/
  acceptedStake : Nat
  deriving DecidableEq, Repr

/-- A notice held for the current stake (R222, R223). -/
structure Notice where
  failStake : Nat
  reporter : Nat
  port : Nat
  splice : Nat
  deriving DecidableEq, Repr

/-- The stake timer and the hold protocol beyond their registers (R18, R25 to R32). -/
structure StakeState where
  /-- The current round r. -/
  round : Nat
  /-- Holding indications accepted or asserted for this round. -/
  held : Bool
  /-- The check point and the commit point of the round have passed. -/
  checked : Bool
  committed : Bool
  /-- The hold tag of the last round whose commit point passed without an extension (R31). -/
  refusedRound : Option Nat
  /-- Pod frame number k (weave frame while a weave runs), R20. -/
  frame : Nat
  /-- Physical frame count: one more at every POD_FRAME_START. -/
  frames : Nat
  notices : List Notice
  /-- Notices of failed ports of this device, to be sent again at their check point (R222). -/
  noticesAgain : List Notice
  /-- Round in which the first NOTICE for the current stake was taken (R223). -/
  noticeRound : Nat
  /-- The work at the end of the present Pod frame is done (R323, R324, R421). -/
  frameEnded : Bool
  /-- The causes that held at the end of the tick before the check point, and the lowest Pod not ready (R23). -/
  judged : Option (Nat × Nat)
  /-- Causes that have arisen since the previous commit point (R25). -/
  arisen : Nat
  /-- The next Pod frame has begun in this stake (R20). -/
  frameStarted : Bool
  /-- Every NOTICE accepted (R222). -/
  seen : List Notice
  /-- The first tick of the present Pod frame (R20, R36). -/
  frameTick : Nat
  deriving DecidableEq, Repr

/-! ## Ports -/

/-- A retained warp copy at the sender (R243, R247). -/
structure WarpCopy where
  seq : BitVec 12
  pkt : Packet
  sentPick : Nat
  naked : Bool
  retryPick : Option Nat
  scheduled : Bool
  /-- A report of the receiver has decided the number (R245, R248). -/
  decided : Bool
  deriving DecidableEq, Repr

/-- A lost warp number awaiting its retry at the receiver (R244, R246). -/
structure LostNum where
  seq : BitVec 12
  reports : Nat
  deriving DecidableEq, Repr

/-- Flits of a packet being received (R239). -/
structure Partial where
  plane : Bool
  flits : List (List Byte)
  spoiled : Bool
  deriving DecidableEq, Repr

/-- The discovery and training state of a port (R264, R265, R282). -/
structure TrainState where
  /-- Step reached: 0 equalising, 1 flit mode, 2 announced, 3 delay measured, 4 decided, 5 READY sent. -/
  step : Nat
  attempts : Nat
  delays : List Nat
  peerReady : Option Byte
  /-- A RECOVER flit of the peer has been accepted since the entry to RECOVER. -/
  peerRecover : Bool
  peer : Option (List Byte)
  peerBufs : List Nat
  /-- TRAIN payloads waiting to be sent, with the tick of the request each answers. -/
  replies : List (List Byte × Nat)
  /-- A DELAY_REQ is unanswered. -/
  asked : Bool
  /-- Flits sent since the last ANNOUNCE. -/
  sinceAnnounce : Nat
  deriving DecidableEq, Repr

/-- One fabric port beyond its registers (R233 to R294). -/
structure Port where
  train : TrainState
  /-- Stakes in which RECOVER was entered, and the tick of the last entry (R267). -/
  recoverStakes : List Nat
  recoverTick : Nat
  /-- Uncorrectable flags of the last 64 received flits (R267). -/
  rxHistory : List Bool
  rxPartial : Option Partial
  txWarpSeq : BitVec 12
  rxWarpSeq : BitVec 12
  copies : List WarpCopy
  lost : List LostNum
  racks : List LostNum
  /-- Uncertain expected picks since the last sync: PATH flags (R244). -/
  uncertain : List Bool
  txTwineSeq : BitVec 12
  rxTwineSeq : BitVec 12
  /-- Unacknowledged twine packets, oldest first, and how many of them are to be replayed now. -/
  replay : List Packet
  replayLeft : Nat
  replaysNoProgress : Nat
  /-- Tick since which the oldest unacknowledged twine packet has seen no progress, and tick of the last NAK_T (R249). -/
  replaySince : Nat
  nakTTick : Nat
  nakTSent : Option (BitVec 12)
  sendNakT : Bool
  /-- Twine packets waiting for their first transmission: BYP, RSP, REQ, each with the port whose receive buffer holds it
  while it is forwarded (R252). -/
  txByp : List (Option PortId × Packet)
  txRsp : List (Option PortId × Packet)
  txReq : List (Option PortId × Packet)
  /-- Packets in the receive buffers. -/
  rxReq : List Packet
  rxRsp : List Packet
  rxByp : List Packet
  /-- Own cumulative LIMIT of REQ, RSP, BYP (R252). -/
  limits : Vector (BitVec 16) 3
  /-- Cursor of CREDIT_VC (R253). -/
  creditVc : Nat
  /-- Warp retries, RSQs and re-sends waiting (R217, R247). -/
  txWarpExtra : List Packet
  txNotices : List Packet
  /-- Flits of the packet being sent. -/
  txFlits : List (List Byte × BitVec 64)
  /-- Flit-mode counts: next to send, next expected, unacknowledged counted flits (R240). -/
  txCount : BitVec 12
  rxCount : BitVec 12
  flitReplay : List (BitVec 3 × List Byte)
  flitResend : List (BitVec 3 × List Byte)
  sendIdleF : Bool
  nakF : Bool
  /-- Counted flits are discarded until an IDLE names the expected count (R240). -/
  hunt : Bool
  flitsSinceIdle : Nat
  /-- Of the present pick: intact IDLE flits received, and an intact warp-plane packet has come (R244). -/
  pickIdles : Nat
  pickGot : Bool
  /-- Flit slots left for twine, modulo 8 (R372). -/
  twinePhase : Nat
  /-- ALIGN sent in this stake (R289). -/
  alignSent : Bool
  deriving DecidableEq, Repr

/-! ## Host streams -/

/-- An accepted or completed submission of a stream, in SEQ order (R339, R343). -/
inductive SubmitStatus where
  /-- The input is being staged (R339). -/
  | staging
  /-- The entry was refused by a full queue and is offered again (R340). -/
  | refused
  /-- In an inbound queue or popped, not posted. -/
  | queued
  /-- Completed; the record waits to be written. -/
  | complete (status : BitVec 7) (skein : List Byte) (step : Word64) (seedId : Word64) (vMask : Byte)
  deriving DecidableEq, Repr

/-- One consumed submission (R337, R339). -/
structure Submission where
  seq : Word
  desc : List Byte
  samples : Nat
  slot : Nat
  inLen : Nat
  status : SubmitStatus
  /-- I(s, n) (R319). -/
  input : List Byte
  deriving DecidableEq, Repr

/-- One stream beyond its registers (R332 to R352). -/
structure Stream where
  sqTail : Nat
  cqHead : Nat
  phase : Bool
  accepted : Nat
  digest : List Byte
  subs : List Submission
  /-- Records formed and not yet written, without time and phase, each with its IRQ wish (R344, R347). -/
  records : List (List Byte × Bool)
  /-- Records written since the vector was last signalled, and whether one asked for it (R348). -/
  irqPending : Bool
  /-- Submissions that an FLR dropped while their entries stay in inbound queues: their posts are discarded (R351). -/
  orphans : Nat
  deriving DecidableEq, Repr

/-! ## Admin, boot, debug, outputs -/

/-- One bundle slot of the flash (R389 to R398). -/
structure SlotImage where
  bytes : Tab Byte
  state : BitVec 4
  tries : BitVec 4
  deriving DecidableEq, Repr

/-- What the tray's flash holds for the device (R389, R390). -/
structure Flash where
  slots : Vector SlotImage 2
  selected : Fin 2
  previous : Fin 2
  ackDigest : List Byte
  manifest : List Byte
  /-- A control-block write of a selection is in progress (R401). -/
  selecting : Option (Fin 2)
  /-- The slot that ran when that write began, which PREVIOUS takes; 2 is the boot ROM's Keeper (R398). -/
  selectRan : Nat
  /-- The two copies of the control block, byte for byte; the fields above and the slots' STATE and TRIES are the block in force
  (R389, R390). -/
  copies : Vector (List Byte) 2
  /-- The manifest area holds a manifest that no boot has installed yet (R404). -/
  manifestNew : Bool
  deriving DecidableEq, Repr

/-- Tick alignment (R288 to R292): candidates as depth, logical port, offset, stake, stake start; the tick of the first. -/
structure AlignState where
  candidates : List (Nat × Nat × Int × Nat × Nat)
  firstTick : Nat
  deriving DecidableEq, Repr

/-- The debug port (R425 to R434). -/
structure Debug where
  /-- The TAP instruction in force (R425). -/
  tap : Byte
  locked : Bool
  nonce : List Byte
  signature : Vector Word64 12
  /-- Failed unlocks since the last cold reset. -/
  fails : Nat
  /-- The last response: DATA, ADDR, STATUS. -/
  rspData : Word64
  rspAddr : BitVec 48
  rspStatus : Byte
  /-- The Pod of a STEP in progress. -/
  stepPod : Option PodId
  /-- A WRITE in progress: it waits until the Tree Engine of its Pod is not walking (R431). -/
  heldWrite : Option (BitVec 48 × Word64)
  deriving DecidableEq, Repr

/-- Device time: seconds, and nanoseconds with 32 fraction bits (R405, R406). -/
structure TimeState where
  secs : BitVec 48
  ns32 : Nat
  setPending : Bool
  offsetPending : Bool
  /-- The increment in force: TIM_INCR as it stood at the stake's first tick (R406). -/
  incr : Word
  deriving DecidableEq, Repr

/-- Event counts of the present power intervals and the measurement state (R374 to R379). -/
structure PowerState where
  meCycles : Nat
  teCycles : Nat
  vuOps : Nat
  lines : Nat
  rootUnits : Nat
  flits : Nat
  estimates : List Nat
  /-- Parts of the latest estimate in µW: what no rate scales, then the scaled parts of links, memory and compute (R374). -/
  parts : List Nat
  mismatches : Nat
  invalids : Nat
  ceiling : Nat
  regulators : Tab Byte
  deriving DecidableEq, Repr

/-- Clock state beyond the registers (R354 to R370). -/
structure ClockState where
  refLost : Bool
  keeperHung : Bool
  /-- Stretch in force per region: 0, 25 or 50 percent (R364). -/
  stretch : Vector Nat 16
  fcountRunning : Bool
  /-- The present Keeper beat (1,024 Keeper cycles) in fifths of a tick of REF: one a tick on REF, five on KPLL. -/
  beatTicks : Nat
  /-- The armed P-step request: its stake and its target (R362). -/
  request : Option (Nat × Nat)
  /-- After a switch to a lower voltage: the stake at which the rails are lowered, and the voltage in mV (R362). -/
  lowerAt : Option (Nat × Nat)
  /-- The final check of the armed request has passed (R362). -/
  finalPassed : Bool
  /-- The Pod clock in force, in MHz: the entry of the P-step in force, at most the grade's ceiling (R7, R361). -/
  podMhz : Nat
  /-- Per region: Pod cycles since its supply was last below each droop threshold (R364). -/
  since25 : Vector Nat 16
  since50 : Vector Nat 16
  deriving DecidableEq, Repr

/-- The requests that the DOE mailbox takes (R349). -/
inductive DoeKind where
  | discovery | version | capabilities | algorithms | digests | certificate | challenge | measurements
  deriving DecidableEq, Repr

/-- DOE and SPDM responder (R349). -/
structure Doe where
  /-- 0 none, 1 version got, 2 capabilities got, 3 algorithms negotiated. -/
  spdm : Nat
  /-- The request in progress: its kind and bytes. -/
  request : Option (DoeKind × List Byte)
  deriving DecidableEq, Repr

/-- A fault notice already seen (R417): REPORTER, FAIL_STAKE, ERR_OFFSET, BIT. -/
abbrev SeenFault := Nat × Nat × Nat × Nat

/-- What the device sends to its surroundings, in order. -/
inductive Output where
  | hostWrite (addr : Word64) (bytes : List Byte)
  | msix (vector : Nat)
  | flit (p : PortId) (bytes : List Byte)
  | avs (rail : Fin 4) (mv : Nat)
  | idcode (value : Word)
  | debugRsp (data : Word64) (addr : BitVec 48) (status : Byte)
  | busRead (i3c : Bool) (bytes : List Byte)
  /-- A write of the status window is acknowledged (R463). -/
  | busAck (i3c : Bool)
  | alert (low : Bool)
  | inBandIrq
  | thermtrip
  | doe (bytes : List Byte)
  /-- A departing frame with its time stamp written into it (R408). -/
  | ptpOneStep (frame : List Byte)
  | ptpTxTime (secs : BitVec 48) (ns : Word) (frac : BitVec 16)
  | ptpRxTime (secs : BitVec 48) (ns : Word) (frac : BitVec 16)
  | keeperPacket (pkt : Packet)
  | arpAddress (addr : Byte)
  deriving DecidableEq, Repr

/-- The fuses of the part (R6, R8, R403, R433). -/
structure Fuses where
  stepping : Byte
  grade : BitVec 4
  debugOpen : Bool
  /-- The ECDSA P-384 key pair, x and y of the public key and the private key, and the leaf certificate (R403). -/
  publicKey : List Byte
  privateKey : List Byte
  leafCert : List Byte
  deriving DecidableEq, Repr

/-- A FENCE packet whose source waits for the delivery confirmation of earlier packets to the same device (R200, R259): each
earlier packet by the Pod, queue and sequence number of its token. -/
structure Fenced where
  pkt : Packet
  waits : List (Nat × Nat × Word)
  deriving DecidableEq, Repr

/-- What a transfer of the on-die network is for (R169, rank 5): a twine packet that is delivered, by the port it came in on and the step of its
delivery; the host's READ and LOAD; the input of a stream's submission; a request of a Gather Engine; an access of the debug port. -/
inductive NetKey where
  | packet (src : Option PortId) (k : Packet) (step : Nat)
  | read (addr len : Nat)
  | load
  | input (i : StreamId) (seq : Word)
  | output (i : StreamId) (seq : Word)
  | gather (d : DieId) (op : Nat)
  | debug (write : Bool) (addr : BitVec 48)
  deriving DecidableEq, Repr

/-- A transfer of the on-die network at the banks of a Pod: the name of its lines, the Pod, what it is for, and for a read the pieces and the bytes
granted so far (R167, R175, R192). -/
structure NetJob where
  op : Nat
  pod : PodId
  key : NetKey
  pieces : List (Nat × Nat)
  data : List Byte
  deriving DecidableEq, Repr

/-- Small device-wide state. -/
structure Misc where
  /-- The internal power-on reset is asserted (R383, R450). -/
  porAsserted : Bool
  /-- SYS_RST_N is low (R447). -/
  sysRstLow : Bool
  /-- The PCIe function is in D3hot (R330). -/
  d3hot : Bool
  perstLow : Bool
  /-- SMB_ALERT_N is driven low (R464). -/
  alertLow : Bool
  thermtripLow : Bool
  i3cAddr : Option (BitVec 7)
  /-- Sequence number of the admin command last taken. -/
  adminSeq : Word
  eventCount : Nat
  seenFaults : List SeenFault
  /-- Free response slots of the two IO dies (R257). -/
  rspSlots : Vector Nat 2
  /-- A WEIGHT or STAGE load whose bytes still land: its descriptor's KIND and IRQ and its bytes' digest (R346, R319). -/
  loading : Option (Byte × Bool × List Byte)
  /-- W now in force for posts, and W after the last completed load (R319). -/
  weightNow : List Byte
  weightNext : List Byte
  /-- Pair digests of the last frames: weave frame and 64 values (R324). -/
  pairOwn : List (Nat × List Word64)
  pairPeer : List (Nat × Nat × List Word64)
  /-- Records that LOCATE has written to the capture area (R326). -/
  captures : Nat
  /-- Commits of the two halves: weave frame, Pod, offset, lanes (R308, R309). -/
  commits : List (Nat × PodId × Nat × List Word)
  /-- Fault cleanup waits for the stake boundary (R418). -/
  faultCleanup : Bool
  /-- Round-robin position of each Gather Engine (R120). -/
  geNext : Vector Nat 4
  /-- Pseudo-channels in refresh, stack × 32 + channel, with the tick at which the refresh began (R181). -/
  refreshing : List (Nat × Nat)
  /-- Twine routes fixed at the last building: destination coordinate to logical port (R296). -/
  routes : Tab Nat
  routesBuilt : Bool
  /-- FENCE packets held back at this source (R200, R259). -/
  fenced : List Fenced
  /-- Packets of this device to itself: OCOMMITs that found their half of the commit buffer full, and released FENCE packets on their way
  (R200, R296, R310). -/
  localReq : List Packet
  /-- Requests of the on-die network at the banks of a Pod, in arrival order, and the serial of the next (R169, rank 5). -/
  netLines : List (PodId × LineStream)
  netSerial : Nat
  /-- Transfers of the on-die network whose lines are at the banks, or granted and not yet made use of (R175, R192). -/
  netJobs : List NetJob
  /-- The stake of the armed snapshot (R436). -/
  snapStake : Nat
  deriving DecidableEq, Repr

/-- The reasons the machine stops with a fault. -/
inductive Fault where
  /-- Raised by no meaning of this model: the device of spec/ meets every command with a next state, and an error it detects
  is a sticky bit (R2, R413). Safe: it stands for a stop where a later repair would need one. -/
  | unspecified
  deriving DecidableEq, Repr

/-- The reasons a command has no meaning here. -/
inductive Refusal where
  /-- Raised only by an arm of exec whose command has no meaning yet, named by its mnemonic. Safe: the machine stops. -/
  | notModelled (mnemonic : String)
  deriving DecidableEq, Repr

/-- The whole device. -/
structure State where
  pending : List Instr
  regs : Tab Word
  mem : List Host.Cell
  /-- Check bits that disagree with their unit, keyed by the device address of the 8-byte store word or 32-byte Root unit:
  1 correctable, 2 uncorrectable (R176, R177, R184). -/
  ecc : Tab Nat
  fuses : Fuses
  pods : Vector Pod 64
  fsqs : Vector Fsq 2
  ports : Vector Port 16
  streams : Vector Stream 64
  stake : StakeState
  active : Option Weave
  loaded : Option Weave
  flash : Flash
  /-- The installed manifest as the Keeper read it (R277 to R281). -/
  manifest : Option (List Byte)
  align : AlignState
  dport : Debug
  time : TimeState
  power : PowerState
  clock : ClockState
  doe : Doe
  misc : Misc
  txItems : List TxItem
  /-- Read latches per agent: agent number × 2^26 + offset of the HI register (R439). -/
  latches : Tab Word
  /-- The snapshot's shadow copies, by register offset (R436). -/
  shadow : Tab Word
  out : List Output
  /-- The model's own: how many free values have been drawn (no field of the spec). -/
  fresh : Nat
  deriving DecidableEq, Repr

/-! ## Reset -/

/-- A figure that holds nothing back. -/
def Due.zero : Due := ⟨0, 0⟩

/-- A B buffer that nothing has loaded. -/
def BBuf.empty : BBuf := ⟨0, 0, [], Due.zero, Due.zero⟩

/-- An engine as at weave load (R54): accumulators zero, no stored E_BASE. -/
def Engine.reset : Engine where
  cells := []
  cols := []
  bases := Vector.replicate 8 none
  bufs := Vector.replicate 2 BBuf.empty
  nextMma := Vector.replicate 4 Due.zero
  activeUntil := Vector.replicate 4 Due.zero
  admitFrom := Vector.replicate 4 Due.zero
  drainReady := Vector.replicate 10 Due.zero
  contReady := Vector.replicate 10 Due.zero
  accFree := Vector.replicate 10 Due.zero
  drains := []
  drainOps := []
  mmaOps := []
  forming := []
  results := []

/-- A scalar accumulator of zero (R134). -/
def ScalarAcc.zero : ScalarAcc := ⟨0, 0, 0, false, true⟩

/-- A Tree Engine that is idle, with no features loaded. -/
def TreeEngine.reset : TreeEngine where
  halves := Vector.replicate 2 ⟨0, [], []⟩
  windows := []
  nloads := []
  heldCfg := none

/-- A control core with nothing to wait on. -/
def Core.reset : Core where
  cycle := 0
  nextOp := 0
  holdUntil := 0
  holdIdle := false
  upSince := none
  fendTick := none
  fendStep := 0
  fendStepPrev := 0
  resumeCycle := 0
  frameBundles := 0
  pairSum := 0
  sortNext := 0
  mergeNext := 0
  transNext := 0
  haltCause := 0
  haltNum := 0
  skipBreak := false
  stepping := false
  loading := false
  selSeen := []
  beyond := false

/-- A Pod idle with no code, every register zero and M0 all ones (R133, R134). -/
def Pod.reset : Pod where
  s := Vector.replicate 32 0
  v := Vector.replicate 32 0
  m := Vector.replicate 8 0
  md := Vector.replicate 16 0
  sa := Vector.replicate 4 ScalarAcc.zero
  lc := Vector.replicate 4 0
  stack := []
  loops := []
  code := []
  core := Core.reset
  pend := []
  ranges := []
  lines := []
  reads := []
  mmas := []
  me := Vector.replicate 4 Engine.reset
  te := TreeEngine.reset
  outq := Vector.replicate 8 ⟨0, []⟩
  sends := []
  inq := Vector.replicate 8 []
  waiting := []
  posts := []
  gathers := []
  breaks := Vector.replicate 4 none
  watches := Vector.replicate 2 none

/-- An FSQ with empty tables. -/
def Fsq.reset : Fsq := ⟨[], [], [], [], [], [], [], [], [], []⟩

/-- A port in OFF with nothing sent or received. -/
def Port.reset : Port where
  train := ⟨0, 0, [], none, false, none, [], [], false, 63⟩
  recoverStakes := []
  recoverTick := 0
  rxHistory := []
  rxPartial := none
  txWarpSeq := 0
  rxWarpSeq := 0
  copies := []
  lost := []
  racks := []
  uncertain := []
  txTwineSeq := 0
  rxTwineSeq := 0
  replay := []
  replayLeft := 0
  replaysNoProgress := 0
  replaySince := 0
  nakTTick := 0
  nakTSent := none
  sendNakT := false
  txByp := []
  txRsp := []
  txReq := []
  rxReq := []
  rxRsp := []
  rxByp := []
  limits := Vector.replicate 3 0
  creditVc := 0
  txWarpExtra := []
  txNotices := []
  txFlits := []
  txCount := 0
  rxCount := 0
  flitReplay := []
  flitResend := []
  sendIdleF := false
  nakF := false
  hunt := false
  flitsSinceIdle := 0
  pickIdles := 0
  pickGot := false
  twinePhase := 0
  alignSent := false

/-- Thirty-two zero bytes (R319). -/
def zeroDigest : List Byte := List.replicate 32 0

/-- A DISABLED stream (R334). -/
def Stream.reset : Stream := ⟨0, 0, true, 0, zeroDigest, [], [], false, 0⟩

/-- Flash before anything programmed a bundle: both slots EMPTY, A selected. DESIGN CHOICE (log 5): the flash is the tray's
and the spec gives its contents no reset value. -/
def Flash.reset : Flash where
  slots := Vector.replicate 2 ⟨[], 0, 0⟩
  selected := 0
  previous := 1
  ackDigest := zeroDigest
  manifest := []
  selecting := none
  selectRan := 0
  copies := Vector.replicate 2 []
  manifestNew := false

/-- The device right after reset, before its boot commands: every register at its reset value (R444), memory zero (R472), no
weave, every port OFF, every Pod idle with no code. The fuses are those of a B0-P part (DESIGN CHOICE, log 4). -/
def State.reset : State where
  pending := []
  regs := [(0x0, 0x8240B000), (0x3000000, 0x80000000)]
  mem := []
  ecc := []
  fuses := ⟨0xB0, 0, false, Config.publicKey, Config.privateKey, Config.leafCert⟩
  pods := Vector.replicate 64 Pod.reset
  fsqs := Vector.replicate 2 Fsq.reset
  ports := Vector.replicate 16 Port.reset
  streams := Vector.replicate 64 Stream.reset
  stake := ⟨0, false, false, false, none, 0, 0, [], [], 0, false, none, 0, false, [], 0⟩
  active := none
  loaded := none
  flash := Flash.reset
  manifest := none
  align := ⟨[], 0⟩
  dport := ⟨0x01, true, List.replicate 32 0, Vector.replicate 12 0, 0, 0, 0, 0, none, none⟩
  time := ⟨0, 0, false, false, 0x80000000⟩
  power := ⟨0, 0, 0, 0, 0, 0, [], [], 0, 0, 8, []⟩
  clock := ⟨false, false, Vector.replicate 16 0, false, 0, none, none, false, 400, Vector.replicate 16 0, Vector.replicate 16 0⟩
  doe := ⟨0, none⟩
  misc := ⟨false, false, false, true, false, false, none, 0, 0, [], Vector.replicate 2 256, none, zeroDigest, zeroDigest, [], [], 0, [],
    false, Vector.replicate 4 0, [], [], false, [], [], [], 0, [], 0⟩
  txItems := []
  latches := []
  shadow := []
  out := []
  fresh := 0

end Sys2Proof.Machine
end

