-- ==== Sys2Proof/Machine/Bits.lean ====
section
/-! DEFINITION. Bit fields of registers and headers, byte order, sign extension and the small list helpers the meanings use
(R10: little-endian throughout). -/

namespace Sys2Proof.Machine

/-- Bits [lo + len − 1 : lo] of `x`. -/
def getF {n : Nat} (x : BitVec n) (lo len : Nat) : Nat := x.toNat / 2 ^ lo % 2 ^ len

/-- Bit `i` of `x`. -/
def getB {n : Nat} (x : BitVec n) (i : Nat) : Bool := x.getLsbD i

/-- The mask of bits [lo + len − 1 : lo]. -/
def maskF (n lo len : Nat) : BitVec n := BitVec.ofNat n ((2 ^ len - 1) * 2 ^ lo)

/-- `x` with bits [lo + len − 1 : lo] replaced by `v`. -/
def setF {n : Nat} (x : BitVec n) (lo len v : Nat) : BitVec n :=
  (x &&& ~~~ maskF n lo len) ||| (BitVec.ofNat n (v % 2 ^ len * 2 ^ lo))

/-- `x` with bit `i` replaced. -/
def setB {n : Nat} (x : BitVec n) (i : Nat) (b : Bool) : BitVec n := setF x i 1 b.toNat

/-- A number of 0 or 1. -/
def b2n (b : Bool) : Nat := if b then 1 else 0

/-- The two's complement value of the low `w` bits of `x`. -/
def signed (w x : Nat) : Int :=
  let y := x % 2 ^ w
  if 2 ^ (w - 1) ≤ y then (y : Int) - (2 : Int) ^ w else y

/-- The low `w` bits of an integer in two's complement. -/
def wrap (w : Nat) (x : Int) : Nat := (x % (2 : Int) ^ w).toNat

/-- The number that bytes hold, lowest first. -/
def leNat : List Byte → Nat
  | [] => 0
  | b :: t => b.toNat + 256 * leNat t

/-- The `n` bytes of a number, lowest first. -/
def leBytes : Nat → Nat → List Byte
  | 0, _ => []
  | n + 1, x => BitVec.ofNat 8 x :: leBytes n (x / 256)

/-- `n` bytes from position `o`; what lies past the end reads as zero. -/
def sliceB (l : List Byte) (o n : Nat) : List Byte :=
  let t := (l.drop o).take n
  t ++ List.replicate (n - t.length) 0

/-- The little-endian number of `n` bytes at position `o`. -/
def numAt (l : List Byte) (o n : Nat) : Nat := leNat (sliceB l o n)

/-- Replace the bytes at `o` by `b`. -/
def patchB (l : List Byte) (o : Nat) (b : List Byte) : List Byte :=
  sliceB l 0 o ++ b ++ l.drop (o + b.length)

/-- Every byte of `n` at `o` is zero. -/
def zeroAt (l : List Byte) (o n : Nat) : Bool := (sliceB l o n).all (· = 0)

/-- Round `x` up to a multiple of `k`. -/
def ceilTo (k x : Nat) : Nat := (x + k - 1) / k * k

/-- The quotient rounded up. -/
def ceilDiv (x k : Nat) : Nat := (x + k - 1) / k

/-- Cut bytes into pieces of `n`, `fuel` of them. -/
def chunksB (n : Nat) : Nat → List Byte → List (List Byte)
  | 0, _ => []
  | fuel + 1, l => sliceB l 0 n :: chunksB n fuel (l.drop n)

/-- Keep the last `n` elements. -/
def lastN {α : Type} (n : Nat) (l : List α) : List α := l.drop (l.length - n)

/-- Replace one element of a vector by a function of it. -/
def vmod {α : Type} {n : Nat} (v : Vector α n) (i : Fin n) (f : α → α) : Vector α n := v.set i.val (f v[i.val]) i.isLt

/-- Put one element of a vector. -/
def vput {α : Type} {n : Nat} (v : Vector α n) (i : Fin n) (a : α) : Vector α n := v.set i.val a i.isLt

/-- Read one element of a vector. -/
def vget {α : Type} {n : Nat} (v : Vector α n) (i : Fin n) : α := v[i.val]

/-- A number taken into a bounded index. -/
def fin (n : Nat) (h : 0 < n) (x : Nat) : Fin n := ⟨x % n, Nat.mod_lt x h⟩

/-- A Pod index. -/
def toPod (x : Nat) : PodId := fin 64 (by decide) x
/-- A port index. -/
def toPort (x : Nat) : PortId := fin 16 (by decide) x
/-- A stream index. -/
def toStream (x : Nat) : StreamId := fin 64 (by decide) x

/-- The numbers below `n`, rising. -/
def upTo (n : Nat) : List Nat := List.range n

/-- Insert by key, keeping earlier equal keys first. -/
def insertBy {α : Type} (le : α → α → Bool) (a : α) : List α → List α
  | [] => [a]
  | b :: t => if le b a then b :: insertBy le a t else a :: b :: t

/-- A stable insertion sort. -/
def sortBy {α : Type} (le : α → α → Bool) (l : List α) : List α := l.foldl (fun acc a => insertBy le a acc) []

end Sys2Proof.Machine
end

