-- ==== Sys2Proof/Machine/Float.lean ====
section
/-! DEFINITION. The element formats (R48, R103, R137) and the one rounding every unit uses: exact values, the grid of a
format, the modes of R58 and R116, overflow and special results. -/

namespace Sys2Proof.Machine

/-- A value of an element format: NaN, an infinity, or a sign with m × 2^e. -/
inductive Fp where
  | nan
  | inf (neg : Bool)
  | fin (neg : Bool) (m : Nat) (e : Int)
  deriving DecidableEq, Repr

/-- A rounding mode with its draw for SR (R58, R116). -/
inductive RMode where
  | rne | rtz | rup | rdn
  | sr (draw : Word64)
  deriving DecidableEq, Repr

/-- The mode of the code of R58. -/
def rmodeOf (code : Nat) : RMode :=
  if code % 4 = 0 then .rne else if code % 4 = 1 then .rtz else if code % 4 = 2 then .rup else .rdn

/-! ## Formats by the code of R137 -/

/-- Bits of an element. -/
def fmtBits (c : Nat) : Nat :=
  if c = 0 ∨ c = 1 ∨ c = 5 ∨ c = 7 then 8
  else if c = 2 ∨ c = 3 then 6
  else if c = 4 ∨ c = 6 then 4
  else if c = 8 ∨ c = 9 ∨ c = 0xD then 16 else 32

/-- Width of the exponent field. -/
def fmtExp (c : Nat) : Nat :=
  if c = 0 then 4 else if c = 1 then 5 else if c = 2 then 3 else if c = 3 then 2 else if c = 4 then 2
  else if c = 8 then 8 else if c = 9 then 5 else 8

/-- Width of the mantissa field. -/
def fmtMant (c : Nat) : Nat :=
  if c = 0 then 3 else if c = 1 then 2 else if c = 2 then 2 else if c = 3 then 3 else if c = 4 then 1
  else if c = 8 then 7 else if c = 9 then 10 else 23

/-- The exponent bias (R48). -/
def fmtBias (c : Nat) : Int :=
  if c = 0 then 7 else if c = 1 then 15 else if c = 2 then 3 else if c = 3 then 1 else if c = 4 then 1
  else if c = 9 then 15 else 127

/-- A two's complement or unsigned integer format. -/
def fmtIsInt (c : Nat) : Bool := c = 5 || c = 6 || c = 0xB || c = 0xC || c = 0xD

/-- The format has infinities. -/
def fmtHasInf (c : Nat) : Bool := c = 1 || c = 8 || c = 9 || c = 0xA

/-- Magnitude code of the largest finite value (R48). -/
def fmtMax (c : Nat) : Nat :=
  if c = 0 then 0x7E else if c = 1 then 0x7B else if c = 2 then 0x1F else if c = 3 then 0x1F else if c = 4 then 0x7
  else if c = 8 then 0x7F7F else if c = 9 then 0x7BFF else 0x7F7FFFFF

/-- The canonical NaN (R59, R104). -/
def fmtNan (c : Nat) : Nat :=
  if c = 0 then 0x7F else if c = 1 then 0x7E else if c = 8 then 0x7FC0 else if c = 9 then 0x7E00 else 0x7FC00000

/-- The sign bit of a format. -/
def fmtSign (c : Nat) (neg : Bool) : Nat := if neg then 2 ^ (fmtBits c - 1) else 0

/-- The infinity of a sign. -/
def fmtInf (c : Nat) (neg : Bool) : Nat :=
  fmtSign c neg + (if c = 1 then 0x7C else if c = 8 then 0x7F80 else if c = 9 then 0x7C00 else 0x7F800000)

/-- The largest finite value of a sign. -/
def fmtLargest (c : Nat) (neg : Bool) : Nat := fmtSign c neg + fmtMax c

/-- An integer as a value. -/
def fpOfInt (v : Int) (e : Int) : Fp := .fin (decide (v < 0)) v.natAbs e

/-- The value of element code `x` in format `c` (R48, R103). -/
def fpDecode (c : Nat) (x : Nat) : Fp :=
  if c = 0xC then .fin false (x % 2 ^ 32) 0
  else if c = 7 then fpOfInt (signed 8 x) (-6)
  else if fmtIsInt c then fpOfInt (signed (fmtBits c) x) 0
  else
    let mb := fmtMant c
    let y := x % 2 ^ (fmtBits c - 1)
    let neg := decide (2 ^ (fmtBits c - 1) ≤ x % 2 ^ fmtBits c)
    let ex := y / 2 ^ mb
    let mant := y % 2 ^ mb
    if c = 0 ∧ y = 0x7F then .nan
    else if fmtHasInf c ∧ ex = 2 ^ fmtExp c - 1 then (if mant = 0 then .inf neg else .nan)
    else if ex = 0 then .fin neg mant (1 - fmtBias c - mb)
    else .fin neg (2 ^ mb + mant) (ex - fmtBias c - mb)

/-! ## Rounding -/

/-- Whether a magnitude with remainder `rem` of 2^d (d > 0) above the kept integer `t` rounds away from zero. In SR the top d
bits of the draw are compared with the dropped bits (R116); where d exceeds 64, the draw stands for its top 64 bits and the
rest count as zero. DEDUCED. -/
def roundsAway (mode : RMode) (neg : Bool) (t rem d : Nat) : Bool :=
  match mode with
  | .rne => decide (2 ^ d < 2 * rem) || (decide (2 * rem = 2 ^ d) && decide (t % 2 = 1))
  | .rtz => false
  | .rup => !neg && decide (rem ≠ 0)
  | .rdn => neg && decide (rem ≠ 0)
  | .sr r => if d ≤ 64 then decide (r.toNat / 2 ^ (64 - d) < rem) else decide (r.toNat * 2 ^ (d - 64) < rem)

/-- The integer n with m × 2^e rounded to n × 2^q, and whether bits were dropped. -/
def roundGrid (mode : RMode) (neg : Bool) (m : Nat) (e q : Int) : Nat × Bool :=
  if q ≤ e then (m * 2 ^ (e - q).toNat, false)
  else
    let d := (q - e).toNat
    let t := m / 2 ^ d
    let rem := m % 2 ^ d
    (if roundsAway mode neg t rem d then t + 1 else t, decide (rem ≠ 0))

/-- The magnitude code of m × 2^e rounded to floating-point format `c`, before any overflow rule, and whether it is inexact. -/
def roundMag (c : Nat) (mode : RMode) (neg : Bool) (m : Nat) (e : Int) : Nat × Bool :=
  if m = 0 then (0, false)
  else
    let mb := fmtMant c
    let minE : Int := 1 - fmtBias c - mb
    let q := max minE ((Nat.log2 m : Int) + e - mb)
    let r := roundGrid mode neg m e q
    ((q - minE).toNat * 2 ^ mb + r.1, r.2)

/-- IEEE 754 overflow by mode: whether the result is the infinity (else the largest finite value). SR overflows to the
infinity. -/
def overflowsToInf (mode : RMode) (neg : Bool) : Bool :=
  match mode with
  | .rne => true
  | .rtz => false
  | .rup => !neg
  | .rdn => neg
  | .sr _ => true

/-- A finished result: its code, and the conditions met. -/
structure FpRes where
  code : Nat
  /-- A finite value went beyond the largest finite magnitude. -/
  ovf : Bool
  inexact : Bool
  deriving DecidableEq, Repr

/-- Round to BF16, FP16 or FP32 by IEEE 754, an exact zero keeping its sign (R104). -/
def fpFinish (c : Nat) (mode : RMode) : Fp → FpRes
  | .nan => ⟨fmtNan c, false, false⟩
  | .inf neg => ⟨fmtInf c neg, false, false⟩
  | .fin neg m e =>
    let r := roundMag c mode neg m e
    if fmtMax c < r.1 then ⟨if overflowsToInf mode neg then fmtInf c neg else fmtLargest c neg, true, true⟩
    else ⟨fmtSign c neg + r.1, false, r.2⟩

/-! ## Exact arithmetic -/

/-- The signed integer of m × 2^e on the grid 2^q, q ≤ e. -/
def onGrid (neg : Bool) (m : Nat) (e q : Int) : Int :=
  let v : Int := (m * 2 ^ (e - q).toNat : Nat)
  if neg then -v else v

/-- Exact sum (IEEE 754: an exact zero of unlike signs is +0, or −0 in RDN). -/
def fpAdd (mode : RMode) (a b : Fp) : Fp :=
  match a, b with
  | .nan, _ => .nan
  | _, .nan => .nan
  | .inf x, .inf y => if x = y then .inf x else .nan
  | .inf x, .fin _ _ _ => .inf x
  | .fin _ _ _, .inf y => .inf y
  | .fin s m e, .fin t n f =>
    let q := min e f
    let v := onGrid s m e q + onGrid t n f q
    if v = 0 then .fin (if s = t then s else decide (mode = .rdn)) 0 0
    else .fin (decide (v < 0)) v.natAbs q

/-- Sign reversed. -/
def fpNeg : Fp → Fp
  | .nan => .nan
  | .inf s => .inf (!s)
  | .fin s m e => .fin (!s) m e

/-- Magnitude. -/
def fpAbs : Fp → Fp
  | .nan => .nan
  | .inf _ => .inf false
  | .fin _ m e => .fin false m e

/-- Exact product. -/
def fpMul (a b : Fp) : Fp :=
  match a, b with
  | .nan, _ => .nan
  | _, .nan => .nan
  | .inf x, .inf y => .inf (x != y)
  | .inf x, .fin t n _ => if n = 0 then .nan else .inf (x != t)
  | .fin s m _, .inf y => if m = 0 then .nan else .inf (s != y)
  | .fin s m e, .fin t n f => .fin (s != t) (m * n) (e + f)

/-- Is NaN. -/
def fpIsNan : Fp → Bool
  | .nan => true
  | _ => false

/-- Sign bit of a value that is no NaN. -/
def fpSign : Fp → Bool
  | .nan => false
  | .inf s => s
  | .fin s _ _ => s

/-- Numeric comparison of values that are no NaN: a < b (zeros equal). -/
def fpLt (a b : Fp) : Bool :=
  match a, b with
  | .nan, _ => false
  | _, .nan => false
  | .inf x, .inf y => x && !y
  | .inf x, .fin _ _ _ => x
  | .fin _ _ _, .inf y => !y
  | .fin s m e, .fin t n f =>
    let q := min e f
    decide (onGrid s m e q < onGrid t n f q)

/-- Numeric equality of values that are no NaN. -/
def fpEq (a b : Fp) : Bool := !fpIsNan a && !fpIsNan b && !fpLt a b && !fpLt b a

/-- The order of MIN and MAX: −0 below +0 (R106). -/
def fpBelow (a b : Fp) : Bool := fpLt a b || (fpEq a b && fpSign a && !fpSign b)

/-- MIN and MAX of R106: any NaN gives NaN. -/
def fpMin (a b : Fp) : Fp := if fpIsNan a || fpIsNan b then .nan else if fpBelow b a then b else a
/-- As fpMin. -/
def fpMax (a b : Fp) : Fp := if fpIsNan a || fpIsNan b then .nan else if fpBelow a b then b else a

/-- FP32 code of a sum rounded by RNE (R107, R307). -/
def addRne32 (a b : Nat) : Nat := (fpFinish 0xA .rne (fpAdd .rne (fpDecode 0xA a) (fpDecode 0xA b))).code

/-! ## Conversions -/

/-- The range of an integer format, least and greatest. -/
def intRange (c : Nat) : Int × Int :=
  if c = 0xC then (0, 4294967295)
  else if c = 0xB then (-2147483648, 2147483647)
  else if c = 0xD then (-32768, 32767)
  else if c = 6 then (-8, 7)
  else (-128, 127)

/-- Flags of POD_VU_FLAGS as a mask: OVERFLOW 1, XPS_OVERFLOW 2, XPS_K_OVER 4, XPS_INEXACT 8, INVALID 16, SAT 32 (R129). -/
abbrev VFlags := Nat

/-- A result with flags. -/
abbrev Flagged := Nat × VFlags

/-- A conversion into an integer or MXINT8 target (R470). -/
def cvtInt (c : Nat) (mode : RMode) (x : Fp) : Flagged :=
  let q : Int := if c = 7 then -6 else 0
  let (lo, hi) := intRange c
  let w := fmtBits c
  match x with
  | .nan => (0, 16)
  | .inf neg => (wrap w (if neg then lo else hi), 32)
  | .fin neg m e =>
    let n := (roundGrid mode neg m e q).1
    let v : Int := if neg then -(n : Int) else n
    if v < lo then (wrap w lo, 32) else if hi < v then (wrap w hi, 32) else (wrap w v, 0)

/-- A conversion into FP6 or FP4 (R470). -/
def cvtTiny (c : Nat) (mode : RMode) (x : Fp) : Flagged :=
  match x with
  | .nan => (0, 16)
  | .inf neg => (fmtLargest c neg, 32)
  | .fin neg m e =>
    let r := (roundMag c mode neg m e).1
    if fmtMax c < r then (fmtLargest c neg, 32) else (fmtSign c neg + r, 0)

/-- The FP8 result out of range (R106, R470): code, and whether it is saturated or a NaN of a value that was none. -/
def fp8Over (c : Nat) (sat neg : Bool) : Flagged :=
  if sat then (fmtLargest c neg, 32)
  else if c = 1 then (fmtInf c neg, 0) else (fmtNan c, 16)

/-- A conversion into FP8 (R106, R470). -/
def cvtFp8 (c : Nat) (sat : Bool) (mode : RMode) (x : Fp) : Flagged :=
  match x with
  | .nan => (fmtNan c, 0)
  | .inf neg => fp8Over c sat neg
  | .fin neg m e =>
    let r := (roundMag c mode neg m e).1
    if fmtMax c < r then fp8Over c sat neg
    else (fmtSign c neg + r, 0)

/-- A conversion of a value into format `c` with its flags (R104, R106, R470). -/
def fpConvert (c : Nat) (sat : Bool) (mode : RMode) (x : Fp) : Flagged :=
  if fmtIsInt c || c = 7 then cvtInt c mode x
  else if c = 2 ∨ c = 3 ∨ c = 4 then cvtTiny c mode x
  else if c = 0 ∨ c = 1 then cvtFp8 c sat mode x
  else
    let r := fpFinish c mode x
    (r.code, if r.ovf then 1 else 0)

end Sys2Proof.Machine
end

