-- ==== Sys2Proof/Machine/Regs.lean ====
section
/-! DEFINITION. The registers by their BAR0 offsets (R437, R444), reads and writes of whole registers and fields, and the
64-bit pairs. -/

namespace Sys2Proof.Machine

/-! ## Offsets (R444) -/

def rDevId : Nat := 0x0
def rReady : Nat := 0x10
def rReadyPodLo : Nat := 0x14
def rReadyPodHi : Nat := 0x18
def rReadyLink : Nat := 0x1C
def rPlace : Nat := 0x100
def rManifest : Nat := 0x104
def rAlign : Nat := 0x108
def rManifestDigest : Nat := 0x120
def rSnapCtrl : Nat := 0x200
def rSnapAtLo : Nat := 0x204
def rFunc (f : Nat) : Nat := 0x400 + 4 * f

def rClkStatus : Nat := 0x10000
def rClkKeeper : Nat := 0x10004
def rClkBeat : Nat := 0x10008
def rClkNoc : Nat := 0x1000C
def rClkGate : Nat := 0x10010
def rClkRefout : Nat := 0x10014
def rFcountCtrl : Nat := 0x10018
def rFcount : Nat := 0x1001C
def rPstep (i : Nat) : Nat := 0x10100 + 4 * i
def rPstepReq : Nat := 0x10120
def rPstepAt : Nat := 0x10124
def rDroop : Nat := 0x10200
def rStretch25 (r : Nat) : Nat := 0x10300 + 8 * r
def rStretch50 (r : Nat) : Nat := 0x10304 + 8 * r

def rPwrCap : Nat := 0x20000
def rPwrPrio : Nat := 0x20004
def rPwrStatus : Nat := 0x20008
def rPwrEst : Nat := 0x2000C
def rPwrMeas : Nat := 0x20010
def rPwrEnvelope : Nat := 0x20014
def rPwrTemp : Nat := 0x20018
def rPwrTempIo : Nat := 0x2001C
def rPwrCoef (i : Nat) : Nat := 0x20100 + 4 * i

def rTick : Nat := 0x30000
def rNowNs : Nat := 0x30010
def rTimIncr : Nat := 0x30020
def rSetNs : Nat := 0x30024
def rSetSLo : Nat := 0x30028
def rSetSHi : Nat := 0x3002C
def rTimOffset : Nat := 0x30030
def rTimCtrl : Nat := 0x30034
def rEpochTick : Nat := 0x30040
def rEpochNs : Nat := 0x30048
def rPtpCtrl : Nat := 0x30060
def rPtpLat : Nat := 0x30064

def rCfgStatus : Nat := 0x40000
def rCfgSlot (i : Nat) : Nat := 0x40004 + 4 * i
def rCfgSlotVer (i : Nat) : Nat := 0x4000C + 4 * i
def rCfgSelect : Nat := 0x40014
def rCfgReset : Nat := 0x40018
def rCfgImgVer (i : Nat) : Nat := 0x40020 + 4 * i
def rCfgIdentity : Nat := 0x40030
def rCfgIdDigest : Nat := 0x40040
def rRepro : Nat := 0x40100
def rSeedId : Nat := 0x40108
def rProgDigest : Nat := 0x40120
def rWeightDigest : Nat := 0x40140
def rPair : Nat := 0x40160
def rPairStatus : Nat := 0x40164
def rPairCap : Nat := 0x40168
def rPairLocStake : Nat := 0x40170
def rPairLoc : Nat := 0x40178
def rPairLocAddr : Nat := 0x40180

def rErrSummary : Nat := 0x80000
def rFaultState : Nat := 0x80010
def rFaultOrigin : Nat := 0x80014
def rFaultStake : Nat := 0x80018
def rFaultMore : Nat := 0x80020
/-! The checkpoint and restart registers of R424: LAST, PREV, the status and the restart stake. -/

def rCkptLast : Nat := 0x80040
def rCkptLastStep : Nat := 0x80048
def rCkptPrev : Nat := 0x80050
def rCkptPrevStep : Nat := 0x80058
def rCkptStatus : Nat := 0x80060
def rRestart : Nat := 0x80068
def rErrStake : Nat := 0x80100
def rErrResidue : Nat := 0x80200
def rErrTeEcc : Nat := 0x80210
def rErrEntropy : Nat := 0x80218
def rErrGe : Nat := 0x80220
def rErrTrap : Nat := 0x80228
def rErrStoreUe : Nat := 0x80230
def rErrRootUe : Nat := 0x80238
def rErrFsq : Nat := 0x80240
def rErrLink (p : Nat) : Nat := 0x80300 + 4 * p
def rErrTwine : Nat := 0x80340
def rErrPlace : Nat := 0x80344
def rErrDisc : Nat := 0x80348
def rErrPair : Nat := 0x80350
def rErrHost : Nat := 0x80360
def rErrClk : Nat := 0x80370
def rErrPwr : Nat := 0x80374
def rErrBoot : Nat := 0x80380
def rErrDbg : Nat := 0x80390
def rCap (b : Nat) : Nat := 0x80800 + 0x20 * b

def rPostsDropped : Nat := 0x100010
def rStream (s o : Nat) : Nat := 0x102000 + 0x40 * s + o
def rMsixTable (v : Nat) : Nat := 0x108000 + 16 * v
def rMsixPba : Nat := 0x109000

def rStake : Nat := 0x200000
def rStakeStart : Nat := 0x200008
def rHoldCtrl : Nat := 0x200010
def rHoldStatus : Nat := 0x200014
def rHoldCause : Nat := 0x200018
def rHoldTotal : Nat := 0x200020
def rWeaveStake : Nat := 0x200030
def rStartStake : Nat := 0x200038
def rWeaveState : Nat := 0x200040
def rSplice : Nat := 0x200044
def rFsq (f o : Nat) : Nat := 0x200400 + 0x200 * f + o
def rLinkCfg : Nat := 0x200800
def rPrtVersion : Nat := 0x200804
def rPortMapLo : Nat := 0x200810
def rPortMapHi : Nat := 0x200814
def rMapStatus : Nat := 0x200818
def rPort (p o : Nat) : Nat := 0x201000 + 0x100 * p + o

def rPod (p o : Nat) : Nat := 0x1000000 + 0x10000 * p + o
def rRootCtrl : Nat := 0x2000000
def rRefresh : Nat := 0x2000004
def rStackTemp (s : Nat) : Nat := 0x2000100 + 4 * s
def rRootEcc (s : Nat) : Nat := 0x2000140 + 4 * s
def rGe (d o : Nat) : Nat := 0x20F0000 + 0x100 * d + o
def rDbgStatus : Nat := 0x3000000
def rDbgHalted : Nat := 0x3000004

/-! ## Whole registers and fields -/

/-- The register at offset `o`. -/
def reg (s : State) (o : Nat) : Word := tabGet (regDefault o) s.regs o

/-- Write the register at offset `o`, keeping the table's canonical form. -/
def setReg (s : State) (o : Nat) (v : Word) : State := { s with regs := tabSet (regDefault o) s.regs o v }

/-- Change the register at `o` by a function. -/
def modReg (s : State) (o : Nat) (f : Word → Word) : State := setReg s o (f (reg s o))

/-- Bits [lo + len − 1 : lo] of a register. -/
def field (s : State) (o lo len : Nat) : Nat := getF (reg s o) lo len

/-- Write a field of a register. -/
def setField (s : State) (o lo len v : Nat) : State := setReg s o (setF (reg s o) lo len v)

/-- One bit of a register. -/
def flag (s : State) (o i : Nat) : Bool := getB (reg s o) i

/-- Write one bit of a register. -/
def setFlag (s : State) (o i : Nat) (b : Bool) : State := setField s o i 1 b.toNat

/-- OR a mask into a register. -/
def orReg (s : State) (o : Nat) (m : Nat) : State := modReg s o (· ||| BitVec.ofNat 32 m)

/-- The 64-bit value of a LO/HI pair, HI four bytes after LO. -/
def reg64 (s : State) (o : Nat) : Nat := (reg s o).toNat + 2 ^ 32 * (reg s (o + 4)).toNat

/-- Write a LO/HI pair. -/
def setReg64 (s : State) (o v : Nat) : State :=
  setReg (setReg s o (BitVec.ofNat 32 v)) (o + 4) (BitVec.ofNat 32 (v / 2 ^ 32))

/-- Advance a 64-bit counter. -/
def add64 (s : State) (o n : Nat) : State := setReg64 s o (reg64 s o + n)

/-- Advance a 32-bit counter that saturates. -/
def addSat (s : State) (o n : Nat) : State := setReg s o (BitVec.ofNat 32 (min 0xFFFFFFFF ((reg s o).toNat + n)))

/-- Write eight registers from 32 digest bytes, four to a register (R297, R327, R410). -/
def setDigest (s : State) (o : Nat) (d : List Byte) : State :=
  (upTo 8).foldl (fun t n => setReg t (o + 4 * n) (BitVec.ofNat 32 (numAt d (4 * n) 4))) s

/-- The 32 bytes of a digest held in eight registers. -/
def getDigest (s : State) (o : Nat) : List Byte :=
  (upTo 8).flatMap (fun n => leBytes 4 (reg s (o + 4 * n)).toNat)

/-- Put every register of [lo, hi) back to its reset value. -/
def resetRange (s : State) (lo hi : Nat) : State :=
  { s with regs := s.regs.filter (fun e => decide (e.1 < lo) || decide (hi ≤ e.1)) }

/-! ## Pods, streams and ports as records of State -/

/-- One Pod. -/
def pod (s : State) (p : PodId) : Pod := vget s.pods p
/-- Replace a Pod. -/
def setPod (s : State) (p : PodId) (x : Pod) : State := { s with pods := vput s.pods p x }
/-- Change a Pod. -/
def modPod (s : State) (p : PodId) (f : Pod → Pod) : State := { s with pods := vmod s.pods p f }
/-- Change the control core of a Pod. -/
def modCore (s : State) (p : PodId) (f : Core → Core) : State := modPod s p (fun x => { x with core := f x.core })
/-- Change every Pod. -/
def modPods (s : State) (f : Nat → Pod → Pod) : State :=
  { s with pods := Vector.ofFn (fun i => f i.val (vget s.pods i)) }
/-- One port. -/
def port (s : State) (p : PortId) : Port := vget s.ports p
/-- Change a port. -/
def modPort (s : State) (p : PortId) (f : Port → Port) : State := { s with ports := vmod s.ports p f }
/-- One stream. -/
def strm (s : State) (i : StreamId) : Stream := vget s.streams i
/-- Change a stream. -/
def modStrm (s : State) (i : StreamId) (f : Stream → Stream) : State := { s with streams := vmod s.streams i f }
/-- One FSQ. -/
def fsq (s : State) (f : FsqId) : Fsq := vget s.fsqs f
/-- Change an FSQ. -/
def modFsq (s : State) (f : FsqId) (g : Fsq → Fsq) : State := { s with fsqs := vmod s.fsqs f g }
/-- Change the small device-wide state. -/
def modMisc (s : State) (f : Misc → Misc) : State := { s with misc := f s.misc }
/-- Append an output. -/
def emit (s : State) (o : Output) : State := { s with out := s.out ++ [o] }
/-- Draw a free value: its number, and the state with the count advanced. -/
def draw (s : State) : Nat × State := (s.fresh, { s with fresh := s.fresh + 1 })

/-- Apply a state change for each number of a list. -/
def forEach {α : Type} (l : List α) (s : State) (f : State → α → State) : State := l.foldl f s

/-- Every Pod, in rising order. -/
def allPods : List PodId := List.finRange 64
/-- Every port, in rising order. -/
def allPorts : List PortId := List.finRange 16
/-- Every stream, in rising order. -/
def allStreams : List StreamId := List.finRange 64
/-- Both FSQs. -/
def allFsqs : List FsqId := List.finRange 2

/-- A register of Pod `p` at Pod-block offset `o`. -/
def pReg (s : State) (p : PodId) (o : Nat) : Word := reg s (rPod p o)

/-! ## Often-used values -/

/-- TICK_COUNT (R13). -/
def tick (s : State) : Nat := reg64 s rTick
/-- The current stake number (R18). -/
def stakeNo (s : State) : Nat := reg64 s rStake
/-- Ticks since the first tick of the current stake. -/
def stakeTick (s : State) : Nat := tick s - reg64 s rStakeStart
/-- The current pick (R16). -/
def pickNo (s : State) : Nat := stakeTick s / 36
/-- FSQ_WEAVE_STATE.ACTIVE (R230). -/
def weaveActive (s : State) : Bool := flag s rWeaveState 31
/-- FSQ_WEAVE_STATE.PENDING. -/
def weavePending (s : State) : Bool := flag s rWeaveState 30
/-- The device coordinate RACK × 128 + TRAY × 4 + SLOT, bits [23:9] of an endpoint coordinate (R273). -/
def deviceCoord (s : State) : Nat := field s rPlace 0 15
/-- The device is in reset: power-on reset is asserted, or SYS_RST_N is low (R447). -/
def inReset (s : State) : Bool := s.misc.porAsserted || s.misc.sysRstLow
/-- The reference reaches the clocks: it is present and the device is out of reset (R366, R447). -/
def refRuns (s : State) : Bool := flag s rClkStatus 31 && !inReset s
/-- The covered pins follow boundary scan: EXTEST, CLAMP or HIGHZ is selected (R426). -/
def boundaryScan (s : State) : Bool := s.dport.tap = 0x00 || s.dport.tap = 0x05 || s.dport.tap = 0x06
/-- The part is an A1 (R6, R8). -/
def isA1 (s : State) : Bool := decide (s.fuses.stepping = 0xA1)

end Sys2Proof.Machine
end

