-- ==== Sys2Proof/Machine/Sha.lean ====
section
/-! DEFINITION. The standard algorithms the spec names: SHA-256 (R281, R319, R320), SHA-384 and ECDSA on NIST P-384 (R393, R433),
mix64 and ctr_draw (R117). -/

namespace Sys2Proof.Machine

/-! ## SHA-2

The constants are written as FIPS 180-4 defines them, the leading fraction bits of roots of the first primes, in place of tables. -/

/-- The first eighty primes, in tens. -/
def firstPrimes : List Nat :=
  [2, 3, 5, 7, 11, 13, 17, 19, 23, 29] ++ [31, 37, 41, 43, 47, 53, 59, 61, 67, 71] ++ [73, 79, 83, 89, 97, 101, 103, 107, 109, 113] ++
  [127, 131, 137, 139, 149, 151, 157, 163, 167, 173] ++ [179, 181, 191, 193, 197, 199, 211, 223, 227, 229] ++
  [233, 239, 241, 251, 257, 263, 269, 271, 277, 281] ++ [283, 293, 307, 311, 313, 317, 331, 337, 347, 349] ++
  [353, 359, 367, 373, 379, 383, 389, 397, 401, 409]

/-- The whole part of the `e`-th root of `t`, found from bit `n - 1` down; `r` holds the bits found so far. -/
def wholeRoot (e t : Nat) : Nat → Nat → Nat
  | 0, r => r
  | n + 1, r => wholeRoot e t n (if (r + 2 ^ n) ^ e ≤ t then r + 2 ^ n else r)

/-- The first `w` fraction bits of the `e`-th root of `p`, for a root below 32. -/
def rootFraction (e w p : Nat) : Nat := wholeRoot e (p * 2 ^ (e * w)) (w + 5) 0 % 2 ^ w

/-- The two word sizes differ in their rounds and in the shifts of the two round functions and of the two schedule functions; a
shift is two rotations and a third step, which in the schedule functions drops its bits. -/
structure Sha2 (w : Nat) where
  rounds : Nat
  roundA : List Nat
  roundE : List Nat
  older : List Nat
  newer : List Nat

/-- The shifts of SHA-256. -/
def sha2w32 : Sha2 32 := { rounds := 64, roundA := [2, 13, 22], roundE := [6, 11, 25], older := [7, 18, 3], newer := [17, 19, 10] }

/-- The shifts of SHA-384. -/
def sha2w64 : Sha2 64 := { rounds := 80, roundA := [28, 34, 39], roundE := [14, 18, 41], older := [1, 8, 7], newer := [19, 61, 6] }

/-- The exclusive or of a word's rotations. -/
def rotations {w : Nat} (ns : List Nat) (x : BitVec w) : BitVec w := ns.foldl (fun a n => a ^^^ x.rotateRight n) 0

/-- A schedule function: the first two steps rotate and the third drops its bits. -/
def mixed {w : Nat} (ns : List Nat) (x : BitVec w) : BitVec w := rotations (ns.take 2) x ^^^ x >>> ns.getD 2 0

/-- The last sixteen schedule words, latest first, moved one word on. -/
def nextWord {w : Nat} (h : Sha2 w) (win : List (BitVec w)) : List (BitVec w) :=
  (win.getD 15 0 + mixed h.older (win.getD 14 0) + (win.getD 6 0 + mixed h.newer (win.getD 1 0))) :: win.take 15

/-- One step of the two four-word histories, latest word first: `u` is what the fourth word of the second history gives with the
round's constant and schedule word. -/
def turn {w : Nat} (h : Sha2 w) (as es : List (BitVec w)) (kw : BitVec w) : List (BitVec w) × List (BitVec w) :=
  let pick := es.getD 2 0 ^^^ (es.getD 0 0 &&& (es.getD 1 0 ^^^ es.getD 2 0))
  let most := (as.getD 0 0 &&& (as.getD 1 0 ||| as.getD 2 0)) ||| (as.getD 1 0 &&& as.getD 2 0)
  let u := es.getD 3 0 + kw + pick + rotations h.roundE (es.getD 0 0)
  ((u + most + rotations h.roundA (as.getD 0 0)) :: as.take 3, (u + as.getD 3 0) :: es.take 3)

/-- The rounds over the constants that are left, with the window's oldest word scheduled in each. -/
def turns {w : Nat} (h : Sha2 w) : List (BitVec w) → List (BitVec w) → List (BitVec w) → List (BitVec w) → List (BitVec w)
  | [], _, as, es => as ++ es
  | k :: ks, win, as, es =>
    let t := turn h as es (k + win.getD 15 0)
    turns h ks (nextWord h win) t.1 t.2

/-- The round constants: cube roots of the first primes. -/
def roundConstants {w : Nat} (h : Sha2 w) : List (BitVec w) :=
  (firstPrimes.take h.rounds).map (fun p => BitVec.ofNat w (rootFraction 3 w p))

/-- Bytes as a number, highest first. -/
def beNat (l : List Byte) : Nat := l.foldl (fun a b => a * 256 + b.toNat) 0

/-- The `n` bytes of a number, highest first. -/
def beBytes (n x : Nat) : List Byte := (leBytes n x).reverse

/-- A block of sixteen words added into the hash value. -/
def absorb {w : Nat} (h : Sha2 w) (ks v : List (BitVec w)) (b : List Byte) : List (BitVec w) :=
  let ws := (chunksB (w / 8) 16 b).map (fun x => BitVec.ofNat w (beNat x))
  List.zipWith (· + ·) v (turns h ks ws.reverse (v.take 4) (v.drop 4))

/-- What stands after a message of `n` bytes: a one bit, zeros, and the number of bits in two words, up to a whole block. -/
def shaTail (w n : Nat) : List Byte :=
  let rest := n + 1 + w / 4
  0x80#8 :: List.replicate ((rest + (w * 2 - 1)) / (w * 2) * (w * 2) - rest) 0 ++ beBytes (w / 4) (8 * n)

/-- The hash of a message whose initial value is the square roots of eight primes from number `skip` on, as bytes. -/
def sha2 {w : Nat} (h : Sha2 w) (skip : Nat) (m : List Byte) : List Byte :=
  let p := m ++ shaTail w m.length
  let v := ((firstPrimes.drop skip).take 8).map (fun p => BitVec.ofNat w (rootFraction 2 w p))
  ((chunksB (w * 2) (p.length / (w * 2)) p).foldl (absorb h (roundConstants h)) v).flatMap (fun x => beBytes (w / 8) x.toNat)

/-- SHA-256: 32 bytes. -/
def sha256 (m : List Byte) : List Byte := sha2 sha2w32 0 m

/-- SHA-384: the first 48 bytes. -/
def sha384 (m : List Byte) : List Byte := (sha2 sha2w64 8 m).take 48

/-! ## ECDSA on NIST P-384 -/

/-- The field prime. -/
def p384P : Nat := 2 ^ 384 - 2 ^ 128 - 2 ^ 96 + 2 ^ 32 - 1
/-- The group order. -/
def p384N : Nat := 0xffffffffffffffffffffffffffffffffffffffffffffffffc7634d81f4372ddf581a0db248b0a77aecec196accc52973
/-- The curve coefficient b; a is −3. -/
def p384B : Nat := 0xb3312fa7e23ee7e4988e056be3f82d19181d9c6efe8141120314088f5013875ac656398d8a2ed19d2a85c8edd3ec2aef
/-- The base point. -/
def p384G : Nat × Nat :=
  (0xaa87ca22be8b05378eb1c71ef320ad746e1d3b628ba79b9859f741e082542a385502f25dbf55296c3a545e3872760ab7,
   0x3617de4a96262c6f5d9e98bf9292dc29f8f41dbd289a147ce9da3113b5f0b8c00a60b1ce1d7e819d7a431d7c90ea0e5f)

/-- Modular power, over `fuel` bits of the exponent. -/
def powMod (m : Nat) : Nat → Nat → Nat → Nat
  | 0, _, _ => 1 % m
  | fuel + 1, b, e =>
    let r := powMod m fuel (b * b % m) (e / 2)
    if e % 2 = 1 then r * b % m else r

/-- The inverse modulo a prime below 2^384. -/
def invMod (p x : Nat) : Nat := powMod p 384 (x % p) (p - 2)

/-- Point addition; none is the point at infinity. -/
def ecAdd : Option (Nat × Nat) → Option (Nat × Nat) → Option (Nat × Nat)
  | none, q => q
  | p, none => p
  | some (x1, y1), some (x2, y2) =>
    let p := p384P
    if x1 = x2 ∧ (y1 + y2) % p = 0 then none
    else
      let l := if x1 = x2 then (3 * x1 * x1 + (p - 3)) * invMod p (2 * y1) % p
               else (y2 + p - y1) * invMod p (x2 + p - x1) % p
      let x3 := (l * l + 2 * p - x1 - x2) % p
      some (x3, (l * (x1 + p - x3) + p - y1) % p)

/-- Scalar multiplication over `fuel` bits. -/
def ecMul : Nat → Nat → Option (Nat × Nat) → Option (Nat × Nat)
  | 0, _, _ => none
  | fuel + 1, k, q =>
    let r := ecMul fuel (k / 2) (ecAdd q q)
    if k % 2 = 1 then ecAdd r q else r

/-- ECDSA with SHA-384: `key` is x ‖ y and `sig` is r ‖ s, 48 bytes each, big-endian (SEC 1, R393). -/
def ecdsaVerify (key msg sig : List Byte) : Bool :=
  let x := beNat (key.take 48)
  let y := beNat ((key.drop 48).take 48)
  let r := beNat (sig.take 48)
  let s := beNat ((sig.drop 48).take 48)
  let n := p384N
  if x ≥ p384P ∨ y ≥ p384P ∨ (y * y) % p384P ≠ (x * x * x + (p384P - 3) * x + p384B) % p384P then false
  else if r = 0 ∨ s = 0 ∨ r ≥ n ∨ s ≥ n then false
  else
    let e := beNat (sha384 msg)
    let w := invMod n s
    match ecAdd (ecMul 384 (e * w % n) (some p384G)) (ecMul 384 (r * w % n) (some (x, y))) with
    | none => false
    | some (px, _) => px % n = r

/-! ## Draws -/

/-- mix64 of R117. -/
def mix64 (x0 : Word64) : Word64 :=
  let x := x0 ^^^ (x0 >>> 31)
  let x := x * 0x9F3B5A17C6D284E5
  let x := x ^^^ (x >>> 29)
  let x := x * 0xE1C47A932B6F0D59
  x ^^^ (x >>> 32)

/-- ctr_draw of R117. -/
def ctrDraw (seed step word : Word64) : Word64 := mix64 (mix64 (mix64 seed ^^^ step) ^^^ word)

end Sys2Proof.Machine
end

