-- ==== Sys2Proof/Machine/Ops.lean ====
section
/-! DEFINITION. The shared operations: device memory (R192), store and Root error checks (R176, R177, R184), sticky errors and
their captures (R413 to R415), events and interrupts (R347, R348) and machine faults (R416 to R419). -/

namespace Sys2Proof.Machine

/-! ## The part (R7, R330, R403) -/

/-- The ceiling of the Pod clock in MHz by grade (R7). -/
def gradeCeiling (s : State) : Nat := if s.fuses.grade = 1 then 1600 else 1800

/-- The identity digest: SHA-256 of the public key, x then y (R403). -/
def identityDigest (s : State) : List Byte := sha256 s.fuses.publicKey

/-- The identity of the PCIe function: Vendor, Device, Subsystem Vendor and Subsystem ID, class code, Revision ID (R330). -/
def pcieIdentity (s : State) : List Nat :=
  [0x1F4D, 0x8240, 0x1F4D, if s.fuses.grade = 1 then 2 else 1, 0x120000, s.fuses.stepping.toNat]

/-! ## Device memory -/

/-- End of Root memory (R178). -/
def rootEnd : Nat := 0x9000000000
/-- First device address of the Pod stores (R192). -/
def podBase : Nat := 0x10000000000
/-- End of the Pod stores. -/
def podEnd : Nat := 0x10100000000
/-- Device address of the register window. -/
def regWindow : Nat := 0x20000000000
/-- Bytes of one Pod store. -/
def podSize : Nat := 0x4000000
/-- Bytes of one Root die region (R179). -/
def dieSize : Nat := 0x2400000000

/-- Device address of offset `o` of the store of Pod `p`. -/
def podAddr (p : PodId) (o : Nat) : Nat := podBase + p.val * podSize + o

/-- The address holds memory (R192). -/
def isMem (a : Nat) : Bool := decide (a < rootEnd) || (decide (podBase ≤ a) && decide (a < podEnd))

/-- One byte of device memory. What nothing has written reads zero (R472), and so do reserved addresses (R12). -/
def memByte (s : State) (a : Nat) : Byte := tabGet 0 s.mem a

/-- `n` bytes from address `a`. -/
def memRead (s : State) (a : Nat) : Nat → List Byte
  | 0 => []
  | n + 1 => memByte s a :: memRead s (a + 1) n

/-- Write bytes into the byte table; a byte at a reserved address is dropped (R12). -/
def memPut (m : List Host.Cell) (a : Nat) : List Byte → List Host.Cell
  | [] => m
  | b :: t => memPut (if isMem a then tabSet 0 m a b else m) (a + 1) t

/-- Bytes of the unit that check bits cover: a 32-byte unit of Root memory, an 8-byte word of a Pod store (R176, R184). -/
def eccWidth (a : Nat) : Nat := if a < rootEnd then 32 else 8

/-- Drop the error marks of the units that a write of `n` bytes at `a` covers (R176: the next write replaces the word). -/
def eccClear (e : Tab Nat) (a n : Nat) : Tab Nat := e.filter (fun x => decide (x.1 + eccWidth x.1 ≤ a) || decide (a + n ≤ x.1))

/-- Write bytes to device memory. -/
def memWrite (s : State) (a : Nat) (b : List Byte) : State :=
  { s with mem := memPut s.mem a b, ecc := eccClear s.ecc a b.length }

/-- The little-endian number of `n` bytes at `a`. -/
def memNum (s : State) (a n : Nat) : Nat := leNat (memRead s a n)

/-- Make every byte of [lo, hi) zero, with valid check bits (R204, R472). -/
def memZero (s : State) (lo hi : Nat) : State :=
  { s with mem := s.mem.filter (fun e => decide (e.1 < lo) || decide (hi ≤ e.1)),
           ecc := s.ecc.filter (fun e => decide (e.1 < lo) || decide (hi ≤ e.1)) }

/-- Marks of kind `k` (1 correctable, 2 uncorrectable) among the units that [a, a + n) touches. -/
def eccIn (s : State) (k a n : Nat) : List Nat :=
  (s.ecc.filter (fun x => decide (x.2 = k) && decide (x.1 < a + n) && decide (a < x.1 + eccWidth x.1))).map (·.1)

/-- Split of a Root address into stack (R179). -/
def rootStack (a : Nat) : Nat := 3 * (a / dieSize) + (a % dieSize / 4096) % 3

/-- The offset within the stack of a Root address (R179). -/
def rootOffset (a : Nat) : Nat := (a % dieSize / 4096) / 3 * 4096 + a % 4096

/-- The pseudo-channel of a Root address (R179). -/
def rootChannel (a : Nat) : Nat :=
  let q := rootOffset a
  Nat.xor (q / 256) (q / 8192) % 32

/-- The node region of a Pod is in force and [o, o + n) touches it (R78, R473). -/
def touchesNodes (s : State) (p : PodId) (o n : Nat) : Bool :=
  flag s (rPod p 0x500) 0 && decide (o < 0x1000000) && decide (0xC00000 < o + n)

/-- Bytes read from offset `o` of a Pod store by another agent than the compare units: those of the node region read as zero (R79, R204). -/
def maskNodes (s : State) (p : PodId) (o : Nat) (b : List Byte) : List Byte :=
  if touchesNodes s p o b.length then
    (List.zip b (upTo b.length)).map (fun e => if 0xC00000 ≤ o + e.2 ∧ o + e.2 < 0x1000000 then 0 else e.1)
  else b

/-! ## Interrupts -/

/-- Signal MSI-X vector `v`: a masked vector sets its pending bit, and so does every vector in D3hot (R330, R348; log 44). -/
def msix (s : State) (v : Nat) : State :=
  if flag s (rMsixTable v + 12) 0 || s.misc.d3hot then orReg s (rMsixPba + 4 * (v / 32)) (2 ^ (v % 32)) else emit s (.msix v)

/-! ## The admin completion ring's events -/

/-- A stream's state, HST_S_STATUS.STATE (R334): 0 DISABLED, 1 ENABLED, 2 PAUSED, 3 RESETTING, 4 ERROR. -/
def strmState (s : State) (i : StreamId) : Nat := field s (rStream i 0x34) 29 3

/-- An admin record with its time and phase still zero (R347). -/
def adminRecord (data : List Byte) (arg0 arg1 kind status seq : Nat) : List Byte :=
  sliceB data 0 32 ++ leBytes 8 arg0 ++ leBytes 8 arg1 ++ List.replicate 10 0 ++ leBytes 1 kind ++ leBytes 1 status
    ++ leBytes 4 seq

/-- Queue a record of the admin stream. -/
def queueAdmin (s : State) (r : List Byte) (irq : Bool) : State :=
  modStrm s 0 (fun x => { x with records := x.records ++ [(r, irq)] })

/-- Post an event on the admin ring while stream 0 is enabled (R347). -/
def postEvent (s : State) (kind arg0 arg1 : Nat) (data : List Byte) : State :=
  if strmState s 0 = 1 then
    modMisc (queueAdmin s (adminRecord data arg0 arg1 kind 0 (0x80000000 + s.misc.eventCount % 0x80000000)) false)
      (fun m => { m with eventCount := m.eventCount + 1 })
  else s

/-! ## Notices and faults -/

/-- PRT_STATE.LSTATE (R263): 0 OFF, 1 DETECT, 2 TRAIN, 3 FLIT_HELD, 4 PARLEY, 5 PACKET, 6 RECOVER, 7 DOWN. -/
def lstate (s : State) (p : PortId) : Nat := field s (rPort p 0x04) 28 4

/-- A port is UP exactly when it is in PACKET (R263). -/
def portUp (s : State) (p : PortId) : Bool := decide (lstate s p = 5)

/-- The STAKE_TAG of what the device sends now: the weave stake's low byte, zero with no weave (R197, R226; DEDUCED, log 14). -/
def tagNow (s : State) : Nat := if weaveActive s then reg64 s rWeaveStake % 256 else 0

/-- The header of a NOTICE packet and its payload (R222, R197). -/
def noticePacket (s : State) (payload : List Byte) : Packet where
  offset := 0
  circuit := 0
  stakeTag := BitVec.ofNat 8 (tagNow s)
  rsv := 0
  mcast := false
  resend := false
  fence := false
  lenM1 := 0
  src := BitVec.ofNat 24 (deviceCoord s * 512)
  dst := 0
  type := 4
  seq := 0
  payload := payload

/-- The payload of a fault notice (R417). -/
def faultPayload (failStake reporter errOffset bit unit : Nat) : List Byte :=
  leBytes 8 failStake ++ leBytes 2 reporter ++ [0xFF, 0] ++ leBytes 2 0xFFFE ++ leBytes 4 errOffset ++ leBytes 1 bit
    ++ leBytes 1 unit ++ List.replicate 44 0

/-- Queue a NOTICE on every UP port, in the order of the ports, except the one it came from. -/
def floodNotice (s : State) (pkt : Packet) (except_ : Option PortId) : State :=
  forEach allPorts s (fun t p =>
    if portUp t p && decide (except_ ≠ some p) then modPort t p (fun x => { x with txNotices := x.txNotices ++ [pkt] })
    else t)

/-- V_CLASS_MASK[7:0] of the active weave, which completions carry (R304, R344). -/
def weaveMask (s : State) : Byte :=
  match s.active with
  | some w => w.vMask.setWidth 8
  | none => 0

/-- Complete every unposted submission of a stream with a status, with zero digest, step and seed (R351). -/
def endSubmissions (x : Stream) (st : BitVec 7) (mask : Byte) : Stream :=
  { x with subs := x.subs.map (fun u =>
      match u.status with
      | .complete _ _ _ _ _ => u
      | _ => { u with status := .complete st zeroDigest 0 0 mask }) }

/-- Write a stream's state. -/
def setStrmState (s : State) (i : StreamId) (v : Nat) : State := setField s (rStream i 0x34) 29 3 v

/-- The input of the submission is not yet in the ingress queue: the SQ head still points at its descriptor (R340). -/
def isEntering (u : Submission) : Bool :=
  match u.status with
  | .staging => true
  | .refused => true
  | _ => false

/-- A submission was accepted and is not posted. -/
def isQueued (u : Submission) : Bool :=
  match u.status with
  | .queued => true
  | _ => false

/-- The SQ head passes a descriptor (R340). -/
def passHead (s : State) (i : StreamId) : State :=
  setField s (rStream i 0x38) 0 16 ((field s (rStream i 0x38) 0 16 + 1) % 2 ^ field s (rStream i 0x10) 0 5)

/-- Every unposted submission of a stream completes with a status; the head passes a descriptor that was entering. -/
def endStream (s : State) (i : StreamId) (st : BitVec 7) : State :=
  let s1 := modStrm s i (fun x => endSubmissions x st (weaveMask s))
  if (strm s i).subs.any isEntering then passHead s1 i else s1

/-- The streams' part of a machine fault (R335, R351): ENABLED scoring streams pause and every unposted submission of a
scoring stream, whatever its state, completes FAULT. -/
def faultStreams (s : State) : State :=
  forEach allStreams s (fun t i =>
    if i.val = 0 then t
    else endStream (if strmState t i = 1 then setStrmState t i 2 else t) i 0x4A)

/-- A board bus works: its bit of CLK_GATE is 1 and its pins do not follow boundary scan (R358, R426, R461). -/
def busRuns (s : State) (gate : Nat) : Bool := flag s rClkGate gate && !boundaryScan s

/-- SMB_ALERT_N is driven low and the in-band interrupt raised (R464), each by its bus: a gated one stops, and a pin under boundary scan
shows nothing of it (R358, R426, R461). -/
def raiseAlert (s : State) : State :=
  let s1 := if flag s rClkGate 5 then modMisc s (fun m => { m with alertLow := true }) else s
  let s2 := if busRuns s 5 then emit s1 (.alert true) else s1
  if busRuns s 4 then emit s2 .inBandIrq else s2

/-- The weave's part of entering FAULTED (R418): Pods with code stop issuing, a pending load is cancelled, and the weave is
cleared at the next stake boundary. -/
def faultWeave (s : State) : State :=
  if weaveActive s || weavePending s then
    let s1 := forEach allPods s (fun t p => setFlag t (rPod p 0x100) 31 false)
    let s2 := setFlag s1 rWeaveState 30 false
    let s3 := { s2 with loaded := none, misc := { s2.misc with faultCleanup := weaveActive s } }
    faultStreams s3
  else s

/-- Enter FAULTED with a fault notice's contents (R416 to R419). A first fault records itself, posts a FAULT event, signals
vector 64 and raises the alert. -/
def enterFaulted (s : State) (isLocal : Bool) (failStake reporter errOffset bit unit : Nat) : State :=
  if flag s rFaultState 31 then (if isLocal then s else addSat s rFaultMore 1)
  else
    let s1 := setReg s rFaultState (BitVec.ofNat 32 (0x80000000 + (if isLocal then 0x40000000 else 0) + errOffset % 0x10000))
    let s2 := setReg s1 rFaultOrigin (BitVec.ofNat 32 (reporter % 0x8000 * 0x10000 + bit % 256 * 256 + unit % 256))
    let s3 := setReg (setReg64 s2 rFaultStake failStake) rFaultMore 0
    let detail := failStake % 2 ^ 32 * 2 ^ 32 + unit % 256 * 2 ^ 24 + bit % 256 * 2 ^ 16
      + (if isLocal then 0x8000 else 0) + reporter % 0x8000
    raiseAlert (msix (postEvent (faultWeave s3) 5 errOffset detail []) 64)

/-- Fault the machine for an error this device detected (R416, R417). -/
def machineFault (s : State) (errOffset bit unit : Nat) : State :=
  let k := (deviceCoord s, stakeNo s, errOffset, bit)
  let s1 := modMisc s (fun m => { m with seenFaults := k :: m.seenFaults })
  let s2 := floodNotice s1 (noticePacket s1 (faultPayload (stakeNo s) (deviceCoord s) errOffset bit unit)) none
  enterFaulted s2 true (stakeNo s) (deviceCoord s) errOffset bit unit

/-! ## Sticky errors -/

/-- Fill capture record `b` (R415). -/
def fillCapture (s : State) (b off bit unit addr : Nat) : State :=
  let s1 := setReg s (rCap b) (BitVec.ofNat 32 (0x80000000 + bit * 0x10000 + off % 0x10000))
  let s2 := setReg s1 (rCap b + 4) (BitVec.ofNat 32 (unit % 256))
  let s3 := setReg64 s2 (rCap b + 8) (stakeNo s)
  let s4 := setReg s3 (rCap b + 0x10) (BitVec.ofNat 32 (tick s))
  setReg64 s4 (rCap b + 0x14) (addr % 2 ^ 48)

/-- The rank of an event among those of one tick: REG, then BIT, then UNIT. -/
def captureRank (off bit unit : Nat) : Nat := off % 0x10000 * 0x10000 + bit * 256 + unit % 256

/-- Record an event of group `b` in its first-error capture (R415). -/
def capture (s : State) (b off bit unit addr : Nat) : State :=
  if flag s (rCap b) 31 then
    let s1 := addSat s (rCap b + 0x1C) 1
    let sameTick := decide (reg64 s (rCap b + 8) = stakeNo s) && decide (reg s (rCap b + 0x10) = BitVec.ofNat 32 (tick s))
    let old := captureRank (field s (rCap b) 0 16) (field s (rCap b) 16 8) (field s (rCap b + 4) 0 8)
    if sameTick && decide (captureRank off bit unit < old) then fillCapture s1 b off bit unit addr else s1
  else fillCapture s b off bit unit addr

/-- Set bit `bit` of the ERR register at `off` of group `b`, capture the event and signal vector 65 for a newly set bit (R348,
R413, R415). -/
def raiseErr (s : State) (b off bit unit addr : Nat) : State :=
  let fresh_ := !flag s off bit
  let s1 := capture (setFlag s off bit true) b off bit unit addr
  if fresh_ then msix s1 65 else s1

/-- Raise an error that faults the machine. -/
def raiseFault (s : State) (b off bit unit addr : Nat) : State :=
  machineFault (raiseErr s b off bit unit addr) off bit unit

/-- Raise bit `p` of a LO/HI Pod mask. -/
def raisePodErr (s : State) (b off : Nat) (p : PodId) (addr : Nat) (faults : Bool) : State :=
  let o := off + 4 * (p.val / 32)
  if faults then raiseFault s b o (p.val % 32) p.val addr else raiseErr s b o (p.val % 32) p.val addr

/-- ERR_SUMMARY.GROUP (R414): the registers of each group. -/
def errRegs : Nat → List Nat
  | 0 => [rErrStake]
  | 1 => [rErrResidue, rErrResidue + 4]
  | 2 => [rErrTeEcc, rErrTeEcc + 4]
  | 3 => [rErrEntropy, rErrEntropy + 4]
  | 4 => [rErrGe]
  | 5 => [rErrTrap, rErrTrap + 4]
  | 6 => [rErrStoreUe, rErrStoreUe + 4]
  | 7 => [rErrRootUe]
  | 8 => [rErrFsq]
  | 9 => (upTo 16).map rErrLink
  | 10 => [rErrTwine]
  | 11 => [rErrPlace]
  | 12 => [rErrDisc]
  | 13 => [rErrPair]
  | 14 => [rErrHost]
  | 15 => [rErrClk]
  | 16 => [rErrPwr]
  | 17 => [rErrBoot]
  | 18 => [rErrDbg]
  | _ => []

/-- ERR_SUMMARY as it reads. -/
def errSummary (s : State) : Nat :=
  ((upTo 19).map (fun b => if (errRegs b).any (fun o => decide (reg s o ≠ 0)) then 2 ^ b else 0)).sum

/-! ## Checked reads -/

/-- Read `n` bytes at offset `o` of a Pod store, with the reactions of R176 and R177. -/
def storeRead (s : State) (p : PodId) (o n : Nat) : State × List Byte :=
  let a := podAddr p o
  let corr := eccIn s 1 a n
  let s1 := forEach corr s (fun t w => addSat t (rPod p (if w < podAddr p 0x1000000 then 0x700 else 0x704)) 1)
  let s2 := match (eccIn s 2 a n).head? with
    | some w => raisePodErr s1 6 rErrStoreUe p w true
    | none => s1
  (s2, memRead s a n)

/-- Root units of 64 bytes are transferred: they count for the power estimate (R379). -/
def countRoot (s : State) (n : Nat) : State :=
  { s with power := { s.power with rootUnits := s.power.rootUnits + ceilDiv n 64 } }

/-- The first unit of each stack among units of Root memory. -/
def firstOfStacks : List Nat → List Nat → List Nat
  | _, [] => []
  | seen, a :: l => if seen.contains (rootStack a) then firstOfStacks seen l else a :: firstOfStacks (rootStack a :: seen) l

/-- Read `n` bytes of Root memory at `a`, with the reactions of R184: every stack with an uncorrectable unit sets its bit. The flag says
that there was one. -/
def rootRead (s0 : State) (a n : Nat) : State × List Byte × Bool :=
  let s := countRoot s0 n
  let corr := eccIn s 1 a n
  let s1 := forEach corr s (fun t w => addSat t (rRootEcc (rootStack w)) 1)
  let bad := firstOfStacks [] (eccIn s 2 a n)
  (forEach bad s1 (fun t w => raiseFault t 7 rErrRootUe (rootStack w) (rootStack w) w), memRead s a n, !bad.isEmpty)

/-! ## Lines (R169, R172, R192) -/

/-- A line stream of one step (R172). -/
def oneStep (op rank order : Nat) (write : Bool) (a n start : Nat) : LineStream := ⟨op, rank, order, write, a, n, n, start, 1, 1, []⟩

/-- The lines of a transfer in units of 128 bytes, one a cycle. -/
def unitLines (op order : Nat) (write : Bool) (a n start : Nat) : List LineStream :=
  (if n < 128 then [] else [⟨op, 4, order * 2 ^ 40 + op, write, a, 128, 128, start, 1, n / 128, []⟩])
    ++ (if n % 128 = 0 then [] else [oneStep op 4 (order * 2 ^ 40 + op) write (a + n / 128 * 128) (n % 128) (start + n / 128)])

/-- The on-die network asks the banks of a Pod for the lines of operation `op`, after every transfer that arrived before it (R169, rank 5). -/
def netStream (s : State) (p : PodId) (op : Nat) (write : Bool) (o n : Nat) : State :=
  let k := s.misc.netSerial
  let l := (unitLines op 0 write o n 0).map (fun l => (p, { l with rank := 5, order := k }))
  modMisc s (fun m => { m with netSerial := k + 1, netLines := m.netLines ++ l })

/-- A transfer from outside the Pod, which is no operation of the Pod (R192): its number lies past every issue serial. -/
def netRequest (s : State) (p : PodId) (write : Bool) (o n : Nat) : State := netStream s p (2 ^ 64 + s.misc.netSerial) write o n

/-- The banks of a Pod have granted every line of a transfer of the on-die network. -/
def netGranted (s : State) (p : PodId) (op : Nat) : Bool := !s.misc.netLines.any (fun e => e.1 = p && e.2.op = op)

/-- The open transfer for a purpose. -/
def netJob (s : State) (key : NetKey) : Option NetJob := s.misc.netJobs.find? (fun j => decide (j.key = key))

/-- The banks have granted every line of a transfer, and what it wrote is visible (R167). -/
def netDone (s : State) (j : NetJob) : Bool :=
  netGranted s j.pod j.op && !(pod s j.pod).ranges.any (fun r => decide (r.op = j.op))

/-- A transfer has been made use of. -/
def closeJob (s : State) (key : NetKey) : State :=
  modMisc s (fun m => { m with netJobs := m.netJobs.filter (fun j => decide (j.key ≠ key)) })

/-- The on-die network asks the banks of a Pod for pieces of its store (R167, R169, R175). -/
def askRead (s : State) (p : PodId) (key : NetKey) (pieces : List (Nat × Nat)) : State :=
  let op := 2 ^ 64 + s.misc.netSerial
  let s1 := forEach pieces s (fun t e => netStream t p op false e.1 e.2)
  modMisc s1 (fun m => { m with
    netJobs := m.netJobs ++ [⟨op, p, key, pieces, pieces.flatMap (fun e => memRead s (podAddr p e.1) e.2)⟩] })

/-- The units of 64 bytes of a write from outside the Pod, those of the node region left out (R192, R473). -/
def keptUnits (s : State) (p : PodId) (o : Nat) (b : List Byte) : List (Nat × List Byte) :=
  ((upTo (ceilDiv b.length 64)).map (fun i => (o + 64 * i, (b.drop (64 * i)).take 64))).filter (fun u => !touchesNodes s p u.1 u.2.length)

/-- The on-die network asks the banks of a Pod to write pieces of [o, o + n): each line is written as a bank grants it (R167, R169). -/
def startWrite (s : State) (p : PodId) (key : NetKey) (o n : Nat) (w : List (Nat × List Byte)) : State :=
  let op := 2 ^ 64 + s.misc.netSerial
  let s1 := netStream s p op true o n
  modPod (modMisc s1 (fun m => { m with netJobs := m.netJobs ++ [⟨op, p, key, [], []⟩] })) p (fun x => { x with
    ranges := x.ranges ++ [⟨op, 8, true, o, o + n, false, none, w.map (fun u => (podAddr p u.1, u.2)), [], false⟩] })

/-- A write of host DMA or the twine plane asks the banks of a Pod: node-region units are dropped and counted (R192). -/
def askWrite (s : State) (p : PodId) (key : NetKey) (o : Nat) (b : List Byte) : State :=
  let kept := keptUnits s p o b
  let lost := ceilDiv b.length 64 - kept.length
  let s1 := if lost = 0 then s else addSat s (rPod p 0x884) lost
  if kept.isEmpty then s1 else startWrite s1 p key o b.length kept

/-- A read of a Pod store over the on-die network: its bytes once the banks have granted them. Until then the request stands. -/
def netRead (s : State) (p : PodId) (key : NetKey) (pieces : List (Nat × Nat)) : State × Option (List Byte) :=
  match netJob s key with
  | none => (askRead (forEach pieces s (fun t e => (storeRead t p e.1 e.2).1)) p key pieces, none)
  | some j => if netDone s j then (closeJob s key, some j.data) else (s, none)

/-- A write into a Pod store over the on-die network; the flag says that it stands there. Until then the request stands. -/
def netPut (s : State) (p : PodId) (key : NetKey) (o : Nat) (b : List Byte) : State × Bool :=
  match netJob s key with
  | none => (askWrite s p key o b, (keptUnits s p o b).isEmpty)
  | some j => if netDone s j then (closeJob s key, true) else (s, false)

/-- A write from outside the Pod into its store: node-region units are dropped and counted (R192, R473). -/
def externalWrite (s : State) (p : PodId) (o : Nat) (b : List Byte) : State :=
  forEach (upTo (ceilDiv b.length 64)) s (fun t i =>
    let part := (b.drop (64 * i)).take 64
    if touchesNodes t p (o + 64 * i) part.length then addSat t (rPod p 0x884) 1
    else memWrite t (podAddr p (o + 64 * i)) part)

/-- The Pod and the store offset of a device address within the Pod stores (R192). -/
def podOfAddr (a : Nat) : PodId := toPod ((a - podBase) / podSize)
/-- As podOfAddr. -/
def offsetOf (a : Nat) : Nat := (a - podBase) % podSize
/-- A device address lies in a Pod store. -/
def inPodStore (a : Nat) : Bool := decide (podBase ≤ a) && decide (a < podEnd)

/-- A write by host DMA to a device address, at rank 5 where it goes to a Pod store (R169, R192); the flag says that it stands there. -/
def hostPut (s : State) (key : NetKey) (a : Nat) (b : List Byte) : State × Bool :=
  if inPodStore a then netPut s (podOfAddr a) key (offsetOf a) b
  else (memWrite (if a < rootEnd then countRoot s b.length else s) a b, true)

/-- A read by host DMA at a device address (R169, R177, R184, R192): its bytes once they are there. -/
def hostGet (s : State) (key : NetKey) (a n : Nat) : State × Option (List Byte) :=
  if inPodStore a then netRead s (podOfAddr a) key [(offsetOf a, n)]
  else if a < rootEnd then ((rootRead s a n).1, some (rootRead s a n).2.1)
  else (s, some (memRead s a n))

/-! ## Functions and readiness -/

/-- The readiness state of function `f` (R385, R386): 0 OFF, 1 INIT, 2 READY, 3 FAILED, 4 HELD. -/
def func (s : State) (f : Nat) : Nat := field s (rFunc f) 0 3

/-- Post a READY or IDENTITY event, which vector 66 signals (R348, R388, R404). -/
def postState (s : State) (kind arg0 arg1 : Nat) : State :=
  if strmState s 0 = 1 then msix (postEvent s kind arg0 arg1 []) 66 else s

/-- Write the readiness state and DETAIL of function `f` and post a READY event on a change of state (R386, R388). -/
def setFunc (s : State) (f st detail : Nat) : State :=
  let s1 := setReg s (rFunc f) (BitVec.ofNat 32 (detail % 256 * 256 + st))
  if func s f = st then s1 else postState s1 1 f st

/-- Function codes (R385). -/
def fPcie : Nat := 0
def fKeeper : Nat := 1
def fRoot (k : Nat) : Nat := 0x10 + k
def fPod (p : Nat) : Nat := 0x20 + p
def fLink (p : Nat) : Nat := 0x60 + p
def fTime : Nat := 0x70
def fAlign : Nat := 0x71
def fMgmt : Nat := 0x72

/-- Every function code, rising. -/
def allFuncs : List Nat :=
  [0, 1] ++ (upTo 12).map fRoot ++ (upTo 64).map fPod ++ (upTo 16).map fLink ++ [0x70, 0x71, 0x72]

end Sys2Proof.Machine
end

