-- ==== Sys2Proof/Machine/Install.lean ====
section
/-! DEFINITION. The installation manifest: its sections (R278, R279), its checks (R280), the implied manifest, the cable set of
a pattern (R276) and the far end of a port (R282). -/

namespace Sys2Proof.Machine

/-! ## Sections -/

/-- PATTERN, RACK_COUNT, TICK_ROOT and TICK_ROOT_ALT of a manifest. -/
def mfPattern (b : List Byte) : Nat := numAt b 6 1
def mfRacks (b : List Byte) : Nat := numAt b 8 2
def mfRoot (b : List Byte) : Nat := numAt b 0x0A 2
def mfAltRoot (b : List Byte) : Nat := numAt b 0x0C 2
/-- The section counts. -/
def mfPositions (b : List Byte) : Nat := numAt b 0x10 4
def mfCables (b : List Byte) : Nat := numAt b 0x14 4
def mfGroups (b : List Byte) : Nat := numAt b 0x18 4
/-- TOTAL_BYTES. -/
def mfTotal (b : List Byte) : Nat := numAt b 0x28 8

/-- A position entry (R279). -/
structure Position where
  node : Nat
  part : Nat
  stepping : Nat
  rsvZero : Bool
  identity : List Byte
  deriving DecidableEq, Repr

/-- A cable entry. -/
structure Cable where
  nodeA : Nat
  nodeB : Nat
  portA : Nat
  portB : Nat
  flags : Nat
  rsv : Nat
  deriving DecidableEq, Repr

/-- A group entry. -/
structure Group where
  node : Nat
  ports : Nat
  flags : Nat
  rsvZero : Bool
  deriving DecidableEq, Repr

/-- The position section. -/
def positions (b : List Byte) : List Position :=
  (chunksB 48 (mfPositions b) (b.drop 64)).map (fun e =>
    ⟨numAt e 0 2, numAt e 2 2, numAt e 4 1, zeroAt e 5 11, sliceB e 16 32⟩)

/-- The cable section. -/
def cables (b : List Byte) : List Cable :=
  (chunksB 8 (mfCables b) (b.drop (64 + 48 * mfPositions b))).map (fun e =>
    ⟨numAt e 0 2, numAt e 2 2, numAt e 4 1, numAt e 5 1, numAt e 6 1, numAt e 7 1⟩)

/-- The group section. -/
def groups (b : List Byte) : List Group :=
  (chunksB 8 (mfGroups b) (b.drop (64 + 48 * mfPositions b + 8 * mfCables b))).map (fun e =>
    ⟨numAt e 0 2, numAt e 2 2, numAt e 4 1, zeroAt e 5 3⟩)

/-! ## Nodes and patterns -/

/-- A NODE names an S128. -/
def isS128 (n : Nat) : Bool := decide (0x8000 ≤ n)
/-- The rack of a NODE. -/
def nodeRack (n : Nat) : Nat := n % 0x8000 / 128
/-- The in-rack index of a device. -/
def nodeIndex (n : Nat) : Nat := n % 128
/-- The NODE of plane `p` of a rack. -/
def planeNode (rack p : Nat) : Nat := 0x8000 + rack * 128 + p

/-- Every NODE of one rack under RACK. -/
def rackNodes (r : Nat) : List Nat := (upTo 128).map (fun i => r * 128 + i)
/-- The planes of one rack. -/
def rackPlanes (r : Nat) : List Nat := (upTo 12).map (planeNode r)

/-- A NODE value is well formed (R279). -/
def nodeOk (n : Nat) : Bool := !isS128 n || (decide (n / 16 % 8 = 0) && decide (n % 16 < 12))

/-- The position set that a pattern implies, given the nodes listed (R276). -/
def patternSet (pattern racks : Nat) (l : List Nat) : Bool :=
  let first := l.headD 0
  if pattern = 0 then decide (l.length = 1) && !isS128 first
  else if pattern = 1 then !isS128 first && decide (l = (upTo 4).map (fun i => first / 4 * 4 + i))
  else if pattern = 2 then !isS128 first && decide (l = rackNodes (nodeRack first) ++ rackPlanes (nodeRack first))
  else if pattern = 3 then decide (l = (upTo racks).flatMap rackNodes ++ (upTo racks).flatMap rackPlanes)
  else true

/-- The far end of logical port `p` of device `node`: its NODE and port (R276). -/
def farEnd (b : List Byte) (node p : Nat) : Option (Nat × Nat) :=
  let pat := mfPattern b
  let i := nodeIndex node
  let n := mfRacks b
  if pat = 1 then
    if p < 12 then some (node / 4 * 4 + Nat.xor (node % 4) (1 + p % 3), p) else none
  else if pat = 2 ∨ pat = 3 then
    if p < 12 then some (planeNode (nodeRack node) p, i)
    else if pat = 3 then
      let d := (4 * i + (p - 12)) % (n - 1) + 1
      some (Nat.xor (nodeRack node) d * 128 + i, p)
    else none
  else if pat = 4 then
    match (cables b).find? (fun c => (c.nodeA = node && c.portA = p) || (c.nodeB = node && c.portB = p)) with
    | some c => if c.nodeA = node ∧ c.portA = p then some (c.nodeB, c.portB) else some (c.nodeA, c.portA)
    | none => none
  else none

/-! ## Checks (R280) -/

/-- A power of two from 2 to 256. -/
def powerRacks (n : Nat) : Bool := (upTo 8).any (fun i => decide (n = 2 ^ (i + 1)))

/-- RACK_COUNT under each pattern (R278). -/
def racksOk (b : List Byte) : Bool :=
  let n := mfRacks b
  if mfPattern b ≤ 2 then n = 1
  else if mfPattern b = 3 then powerRacks n
  else decide (1 ≤ n) && decide (n ≤ 256) && (positions b).all (fun p => decide (nodeRack p.node < n))

/-- Ascending, no number repeated. -/
def ascending : List Nat → Bool
  | [] => true
  | [_] => true
  | a :: b :: l => decide (a < b) && ascending (b :: l)

/-- A position entry is right. -/
def positionOk (p : Position) : Bool :=
  nodeOk p.node && decide (p.part = if isS128 p.node then 0x1280 else 0x8240) && p.rsvZero

/-- The ends of a cable. -/
def cableEnds (c : Cable) : List (Nat × Nat) := [(c.nodeA, c.portA), (c.nodeB, c.portB)]

/-- A cable keeps R275 and names listed nodes. -/
def cableOk (l : List Nat) (c : Cable) : Bool :=
  let reach := decide (c.flags = 1)
  let ports := (cableEnds c).all (fun e => if isS128 e.1 then decide (e.2 < 128) else decide (e.2 < 16))
  let sameRack := decide (nodeRack c.nodeA = nodeRack c.nodeB)
  let joins := if reach then
      !isS128 c.nodeA && !isS128 c.nodeB && decide (12 ≤ c.portA) && decide (12 ≤ c.portB) && !sameRack
    else sameRack && decide (c.nodeA ≠ c.nodeB) && (cableEnds c).all (fun e => isS128 e.1 || decide (e.2 < 12))
      && !(isS128 c.nodeA && isS128 c.nodeB)
  l.contains c.nodeA && l.contains c.nodeB && decide (c.flags ≤ 1) && c.rsv = 0 && ports && joins

/-- No end carries two cables. -/
def distinctEnds : List (Nat × Nat) → Bool
  | [] => true
  | e :: l => !l.contains e && distinctEnds l

/-- A group entry is right. -/
def groupOk (g : Group) : Bool :=
  let sub := fun (m : Nat) => decide (Nat.land g.ports m = g.ports)
  (g.node = 0xFFFF || nodeOk g.node) && (sub 0x00FF || sub 0x0F00 || sub 0xF000) && decide (g.flags ≤ 1) && g.rsvZero

/-- A manifest is accepted by the Keeper. -/
def manifestOk (b : List Byte) : Bool :=
  let nodes := (positions b).map (·.node)
  let device := fun (n : Nat) => !isS128 n && nodes.contains n
  decide (mfTotal b ≤ 0x400000) && decide (mfTotal b ≤ b.length) && decide (64 ≤ b.length)
    && numAt b 0 4 = 0x4D584D46 && numAt b 4 2 = 1 && decide (mfPattern b ≤ 4)
    && zeroAt b 7 1 && zeroAt b 0x0E 2 && zeroAt b 0x1C 4 && zeroAt b 0x30 16
    && decide (mfTotal b = 64 + 48 * mfPositions b + 8 * mfCables b + 8 * mfGroups b)
    && (mfPattern b = 4 || mfCables b = 0) && racksOk b
    && (positions b).all positionOk && ascending nodes && patternSet (mfPattern b) (mfRacks b) nodes
    && (cables b).all (cableOk nodes) && distinctEnds ((cables b).flatMap cableEnds)
    && (groups b).all groupOk && device (mfRoot b) && device (mfAltRoot b)

/-- The implied manifest of a device (R280): 112 bytes. -/
def impliedManifest (node : Nat) : List Byte :=
  leBytes 4 0x4D584D46 ++ leBytes 2 1 ++ [0, 0] ++ leBytes 2 1 ++ leBytes 2 node ++ leBytes 2 node ++ leBytes 2 0
    ++ leBytes 4 1 ++ leBytes 4 0 ++ leBytes 4 0 ++ leBytes 4 0 ++ leBytes 8 0 ++ leBytes 8 112 ++ List.replicate 16 0
    ++ leBytes 2 node ++ leBytes 2 0x8240 ++ List.replicate 44 0

/-! ## The device's own manifest -/

/-- The bytes of the installed manifest, or none before the Keeper has read one. -/
def installed (s : State) : List Byte :=
  match s.manifest with
  | some m => m
  | none => []

/-- This device's position is listed (R281). -/
def isListed (s : State) : Bool := (positions (installed s)).any (fun p => p.node = deviceCoord s)

/-- The manifest digest (R281). -/
def manifestDigest (s : State) : List Byte := getDigest s rManifestDigest

/-- The far end that the manifest gives at logical port `l`; none without a cable, or where the device is not listed. -/
def cableAt (s : State) (l : PortId) : Option (Nat × Nat) :=
  if isListed s then farEnd (installed s) (deviceCoord s) l.val else none

/-- The physical port that carries logical port `l` (R286). -/
def physOf (s : State) (l : PortId) : PortId :=
  if l.val < 8 then toPort (field s rPortMapLo (4 * l.val) 4) else toPort (field s rPortMapHi (4 * (l.val - 8)) 4)

/-- The logical port that physical port `p` carries: PRT_DISC.LOGICAL. -/
def logicalOf (s : State) (p : PortId) : PortId := toPort (field s (rPort p 0x38) 20 4)

/-- Physical port `p` has a cable in the manifest. -/
def cabled (s : State) (p : PortId) : Bool := (cableAt s (logicalOf s p)).isSome

/-! ## Twine routes (R296) -/

/-- The S128 `t` has a cable to device `d`. -/
def s128Joins (b : List Byte) (t d : Nat) : Bool :=
  (cables b).any (fun c => (c.nodeA = t && c.nodeB = d) || (c.nodeB = t && c.nodeA = d))

/-- The rack-local route from device `a` to device `d`: a logical rack port, by the ports that `up` selects. -/
def rackRoute (b : List Byte) (a d : Nat) (up : Nat → Bool) : Option Nat :=
  let pat := mfPattern b
  let ports := (upTo 12).filter up
  if a = d ∨ nodeRack a ≠ nodeRack d then none
  else if pat = 2 ∨ pat = 3 then ports.head?
  else if pat = 1 then
    if a / 4 = d / 4 then ports.find? (fun p => decide (p % 3 = Nat.xor (a % 4) (d % 4) - 1)) else none
  else if pat = 4 then
    match ports.find? (fun p => match farEnd b a p with | some e => e.1 = d | none => false) with
    | some p => some p
    | none => ports.find? (fun p => match farEnd b a p with | some e => isS128 e.1 && s128Joins b e.1 d | none => false)
  else none

/-- The reach ports of device `a` joined to device `d`. -/
def reachRoute (b : List Byte) (a d : Nat) (up : Nat → Bool) : Option Nat :=
  ((upTo 4).map (· + 12)).find? (fun p => up p && (match farEnd b a p with | some e => e.1 = d | none => false))

/-- The logical port towards device `d` (R296): a rack-local route, then a reach cable, then the rack-local route to the device
with the lowest coordinate that a reach cable joins to `d`. -/
def routePort (b : List Byte) (a d : Nat) (up : Nat → Bool) : Option Nat :=
  match rackRoute b a d up with
  | some p => some p
  | none =>
    match reachRoute b a d up with
    | some p => some p
    | none =>
      let joined := fun (v : Nat) => (reachRoute b v d (fun _ => true)).isSome
      (((positions b).map (·.node)).filter (fun v => !isS128 v && joined v)).findSome? (fun v => rackRoute b a v up)

/-- Build the route table from the ports now in PACKET (R296); logical port l stands as l + 1. -/
def buildRoutes (s : State) : State :=
  let b := installed s
  let up := fun (l : Nat) => portUp s (physOf s (toPort l))
  let devices := ((positions b).map (·.node)).filter (fun n => !isS128 n && n ≠ deviceCoord s)
  let table := if isListed s then
      devices.foldl (fun t d => match routePort b (deviceCoord s) d up with
        | some l => tabSet 0 t d (l + 1)
        | none => t) []
    else []
  modMisc s (fun m => { m with routes := table, routesBuilt := true })

end Sys2Proof.Machine
end

