-- ==== Sys2Proof/Machine/Operands.lean ====
section
/-! DEFINITION. The operands of Pod operations: the slots of a bundle and their fields (R131, R136, R471), the register files
(R134), vector lanes (R103), the pending results of the scoreboard (R159, R162), the store ranges (R160), the latency sheets
(R138, R315) and the V classes (R139, R303). -/

namespace Sys2Proof.Machine

/-! ## Slots -/

/-- An operation with its slot, its opcode and its fields (R131). -/
inductive SlotOp where
  | me (code : Nat) (f : MeFields)
  | vu (code : Nat) (f : VuFields)
  | te (code : Nat) (f : TeFields)
  | mem (code : Nat) (f : MemFields)
  | ctl (code : Nat) (f : CtlFields)
  deriving DecidableEq, Repr

/-- The slot number of R158. -/
def slotNo : SlotOp → Nat
  | .me _ _ => 0
  | .vu _ _ => 1
  | .te _ _ => 2
  | .mem _ _ => 3
  | .ctl _ _ => 4

/-- The slot's bits, its opcode included (R136). -/
def slotBits : SlotOp → Nat
  | .me c f => c + f.engine.toNat * 2 ^ 6 + f.quad.toNat * 2 ^ 8 + f.md.toNat * 2 ^ 11 + f.acc.toNat * 2 ^ 15
      + f.start.toNat * 2 ^ 16 + f.areg.toNat * 2 ^ 18 + f.breg.toNat * 2 ^ 23 + f.dreg.toNat * 2 ^ 28
      + f.buf.toNat * 2 ^ 33 + f.rsv.toNat * 2 ^ 34
  | .vu c f => c + f.vd.toNat * 2 ^ 8 + f.va.toNat * 2 ^ 13 + f.vb.toNat * 2 ^ 18 + f.vc.toNat * 2 ^ 23
      + f.mask.toNat * 2 ^ 28 + f.fmt.toNat * 2 ^ 31 + f.rmode.toNat * 2 ^ 35 + f.fmt2.toNat * 2 ^ 38
      + f.src.toNat * 2 ^ 42 + f.seed.toNat * 2 ^ 43 + f.sreg.toNat * 2 ^ 51 + f.sub.toNat * 2 ^ 56
      + f.sa.toNat * 2 ^ 60 + f.start.toNat * 2 ^ 62 + f.rsv.toNat * 2 ^ 63
  | .te c f => c + f.half.toNat * 2 ^ 4 + f.xa.toNat * 2 ^ 5 + f.xb.toNat * 2 ^ 10 + f.fmt.toNat * 2 ^ 15
      + f.rsv.toNat * 2 ^ 16
  | .mem c f => c + f.rd.toNat * 2 ^ 6 + f.ra.toNat * 2 ^ 11 + f.imm.toNat * 2 ^ 16 + f.q.toNat * 2 ^ 32
      + f.rt.toNat * 2 ^ 36 + f.rsv.toNat * 2 ^ 41
  | .ctl c f => c + f.rd.toNat * 2 ^ 6 + f.ra.toNat * 2 ^ 11 + f.rb.toNat * 2 ^ 16 + f.imm.toNat * 2 ^ 21

/-- The ME slot of a bundle (R131, R136). -/
def meSlot (b : BitVec 256) : SlotOp :=
  .me (getF b 0 6) ⟨b.extractLsb' 6 2, b.extractLsb' 8 3, b.extractLsb' 11 4, b.extractLsb' 15 1, b.extractLsb' 16 2,
    b.extractLsb' 18 5, b.extractLsb' 23 5, b.extractLsb' 28 5, b.extractLsb' 33 1, b.extractLsb' 34 30⟩

/-- The VU slot of a bundle. -/
def vuSlot (b : BitVec 256) : SlotOp :=
  .vu (getF b 64 8) ⟨b.extractLsb' 72 5, b.extractLsb' 77 5, b.extractLsb' 82 5, b.extractLsb' 87 5, b.extractLsb' 92 3,
    b.extractLsb' 95 4, b.extractLsb' 99 3, b.extractLsb' 102 4, b.extractLsb' 106 1, b.extractLsb' 107 8,
    b.extractLsb' 115 5, b.extractLsb' 120 4, b.extractLsb' 124 2, b.extractLsb' 126 1, b.extractLsb' 127 1⟩

/-- The TE slot of a bundle. -/
def teSlot (b : BitVec 256) : SlotOp :=
  .te (getF b 128 4) ⟨b.extractLsb' 132 1, b.extractLsb' 133 5, b.extractLsb' 138 5, b.extractLsb' 143 1,
    b.extractLsb' 144 16⟩

/-- The MEM slot of a bundle. -/
def memSlot (b : BitVec 256) : SlotOp :=
  .mem (getF b 160 6) ⟨b.extractLsb' 166 5, b.extractLsb' 171 5, b.extractLsb' 176 16, b.extractLsb' 192 4,
    b.extractLsb' 196 5, b.extractLsb' 201 7⟩

/-- The CTL slot of a bundle. -/
def ctlSlot (b : BitVec 256) : SlotOp :=
  .ctl (getF b 208 6) ⟨b.extractLsb' 214 5, b.extractLsb' 219 5, b.extractLsb' 224 5, b.extractLsb' 229 27⟩

/-- The five slots in the order they count as issued (R132). -/
def bundleSlots (b : BitVec 256) : List SlotOp := [meSlot b, vuSlot b, teSlot b, memSlot b, ctlSlot b]

/-- The opcode. -/
def opcode : SlotOp → Nat
  | .me c _ => c
  | .vu c _ => c
  | .te c _ => c
  | .mem c _ => c
  | .ctl c _ => c

/-- A run of `len` ones from bit `lo`. -/
def ones (lo len : Nat) : Nat := (2 ^ len - 1) * 2 ^ lo

/-- The bits of the ME slot an opcode uses (R136, R142). -/
def meUses (c : Nat) : Option Nat :=
  let base := ones 0 6 + ones 6 2 + ones 11 4
  if c = 1 then some (base + ones 8 3 + ones 15 1 + ones 16 2 + ones 18 5 + ones 23 5 + ones 33 1)
  else if c = 2 then some (base + ones 8 3 + ones 15 1 + ones 28 5)
  else if c = 3 then some (base + ones 23 5 + ones 33 1)
  else none

/-- The bits of the VU slot an opcode uses (R471), those used under a condition included where it holds. -/
def vuUses (c : Nat) (f : VuFields) : Option Nat :=
  let op := ones 0 8
  let vd := ones 8 5
  let va := ones 13 5
  let vb := ones 18 5
  let vc := ones 23 5
  let mask := ones 28 3
  let fmt := ones 31 4
  let rmode := ones 35 3
  let fmt2 := ones 38 4
  let sreg := ones 51 5
  let srU := if f.rmode = 5 then ones 42 1 + (if f.src = 0 then ones 43 8 else 0) else 0
  if c = 1 ∨ c = 2 ∨ c = 3 then some (op + vd + va + vb + mask + fmt + rmode)
  else if c = 4 ∨ c = 5 then some (op + vd + va + vb + mask + fmt)
  else if c = 6 ∨ c = 7 then some (op + vd + va + mask + fmt)
  else if c = 8 then some (op + ones 8 3 + va + vb + mask + fmt + ones 56 3)
  else if 9 ≤ c ∧ c ≤ 0xE then some (op + vd + va + vb + mask + fmt)
  else if c = 0x10 then some (op + vd + va + vb + vc + mask + fmt + rmode)
  else if c = 0x11 then some (op + vd + va + mask + fmt + rmode + fmt2 + ones 56 1 + srU)
  else if c = 0x12 then some (op + vd + va + vb + mask)
  else if c = 0x13 then some (op + vd + va + mask + rmode + sreg)
  else if c = 0x14 then some (op + vd + va + mask + rmode)
  else if c = 0x15 then some (op + vd + va + rmode + fmt2 + srU)
  else if 0x18 ≤ c ∧ c ≤ 0x1B then some (op + va + mask + fmt + ones 60 2 + ones 62 1)
  else if c = 0x1C then some (op + vd + ones 60 2)
  else if c = 0x20 then some (op + vd + va + fmt + ones 56 2 + (if f.sub.getLsbD 1 then vb else 0))
  else if c = 0x21 then some (op + vd + va + vb + fmt + ones 56 1)
  else if c = 0x24 then some (op + vd + va + mask + fmt + rmode + ones 56 4)
  else if c = 0x28 then some (op + vd + fmt + sreg)
  else if c = 0x29 then some (op + vd + va + fmt + sreg)
  else none

/-- The bits of the TE slot an opcode uses (R151). -/
def teUses (c : Nat) : Option Nat :=
  let base := ones 0 4 + ones 5 5
  if c = 1 then some (base + ones 10 5)
  else if c = 2 then some (base + ones 4 1)
  else if c = 3 then some (base + ones 10 5 + ones 4 1 + ones 15 1)
  else none

/-- The bits of the MEM slot an opcode uses (R152). -/
def memUses (c : Nat) : Option Nat :=
  let op := ones 0 6
  let rd := ones 6 5
  let ra := ones 11 5
  let imm := ones 16 16
  let q := ones 32 4
  let rt := ones 36 5
  if c = 1 ∨ c = 2 ∨ c = 3 ∨ c = 4 ∨ c = 6 then some (op + rd + ra + imm)
  else if c = 5 then some (op + ones 6 4 + ra + imm)
  else if c = 8 ∨ c = 9 ∨ c = 0x11 ∨ c = 0x12 then some (op + rd + ra + imm + q + rt)
  else if c = 0xA then some (op + rd + ra + imm)
  else if c = 0xB then some (op + rd + q + rt)
  else if c = 0xC ∨ c = 0xD then some (op + rd + imm)
  else if c = 0x10 then some (op + rd + ra + imm + ones 32 3 + rt)
  else if c = 0x14 then some (op + ra + q + rt)
  else none

/-- The bits of the CTL slot an opcode uses (R136, R155). -/
def ctlUses (c : Nat) : Option Nat :=
  let op := ones 0 6
  let rd := ones 6 5
  let ra := ones 11 5
  let rb := ones 16 5
  let tgt := ones 21 14
  if (1 ≤ c ∧ c ≤ 8) ∨ c = 0xA then some (op + rd + ra + rb)
  else if c = 9 ∨ c = 0xC then some (op + rd + ra + ones 21 27)
  else if c = 0xB then some (op + rd + ones 21 27)
  else if c = 0x10 ∨ c = 0x11 then some (op + ra + tgt)
  else if c = 0x12 ∨ c = 0x13 ∨ c = 0x18 then some (op + tgt)
  else if c = 0x14 ∨ c = 0x1A then some op
  else if c = 0x15 then some (op + ones 6 2 + ra + tgt)
  else if c = 0x16 then some (op + ones 21 27)
  else if c = 0x19 then some (op + ones 21 6)
  else if c = 0x1B then some (op + rd + ones 21 3)
  else if c = 0x1E then some (op + ra + ones 21 16)
  else if c = 0x1F then some (op + rd + ones 21 16)
  else none

/-- The bits a slot's operation uses, or none for an unlisted opcode; the no-operation uses only its opcode (R131). -/
def slotUses (o : SlotOp) : Option Nat :=
  if opcode o = 0 then some 0
  else match o with
    | .me c _ => meUses c
    | .vu c f => vuUses c f
    | .te c _ => teUses c
    | .mem c _ => memUses c
    | .ctl c _ => ctlUses c

/-- Some bit outside `m` is set. -/
def bitsOutside (x m : Nat) : Bool := decide (Nat.land x m ≠ x)

/-! ## Registers of a Pod (R134) -/

/-- S[i]; S0 reads zero. -/
def sReg (x : Pod) (i : BitVec 5) : Word64 := if i = 0 then 0 else vget x.s (fin 32 (by decide) i.toNat)

/-- S[i] as a number. -/
def sNum (x : Pod) (i : BitVec 5) : Nat := (sReg x i).toNat

/-- M[i]; M0 reads as all ones. -/
def mReg (x : Pod) (i : BitVec 3) : BitVec 512 :=
  if i = 0 then BitVec.allOnes 512 else vget x.m (fin 8 (by decide) i.toNat)

/-- V[i]. -/
def vReg (x : Pod) (i : BitVec 5) : BitVec 8192 := vget x.v (fin 32 (by decide) i.toNat)

/-- MD[i], its 64 bytes. -/
def mdReg (x : Pod) (i : BitVec 4) : BitVec 512 := vget x.md (fin 16 (by decide) i.toNat)

/-- Write a register of a Pod; writes to S0 and M0 are dropped (R134). A scalar accumulator takes its value in bits [31:0]
and its index in bits [63:32]. -/
def writeDest (x : Pod) (d : Dest) (v : BitVec 8192) : Pod :=
  match d with
  | .s i => if i = 0 then x else { x with s := vput x.s i (v.setWidth 64) }
  | .v i => { x with v := vput x.v i v }
  | .m i => if i = 0 then x else { x with m := vput x.m i (v.setWidth 512) }
  | .md i => { x with md := vput x.md i (v.setWidth 512) }
  | .sa i => { x with sa := vmod x.sa i (fun a => { a with val := v.setWidth 32, idx := (v >>> 32).setWidth 32 }) }

/-- The destination S[i]. -/
def destS (i : BitVec 5) : Dest := .s (fin 32 (by decide) i.toNat)
/-- The destination V[i]. -/
def destV (i : BitVec 5) : Dest := .v (fin 32 (by decide) i.toNat)
/-- The destination V[n], modulo 32. -/
def destVn (n : Nat) : Dest := .v (fin 32 (by decide) n)

/-- A result held until Pod cycle `due` (R159, R162). -/
def addPend (x : Pod) (op slot : Nat) (d : Dest) (v : Nat) (due : Nat) : Pod :=
  { x with pend := x.pend ++ [⟨op, slot, d, BitVec.ofNat 8192 v, due⟩] }

/-- Make readable every result due by the present cycle that `sel` selects (R162). -/
def settlePend (sel : PendWrite → Bool) (x : Pod) : Pod :=
  let ready := x.pend.filter (fun w => sel w && decide (w.due ≤ x.core.cycle))
  ready.foldl (fun y w => writeDest y w.dest w.value)
    { x with pend := x.pend.filter (fun w => !(sel w && decide (w.due ≤ x.core.cycle))) }

/-! ## Lanes (R103) -/

/-- The lanes of `w` bits of a vector register, lowest first. -/
def lanes (w : Nat) (v : BitVec 8192) : List Nat := (upTo (8192 / w)).map (fun i => getF v (w * i) w)

/-- The number that lanes of `w` bits form. -/
def joinLanes (w : Nat) : List Nat → Nat
  | [] => 0
  | x :: t => x % 2 ^ w + 2 ^ w * joinLanes w t

/-- Bits of a lane of format `c` (R103). -/
def laneBits (c : Nat) : Nat := if c = 0xA ∨ c = 0xB ∨ c = 0xC then 32 else 16

/-- The lane formats of R103. -/
def isLaneFmt (c : Nat) : Bool := decide (8 ≤ c) && decide (c ≤ 0xD)

/-- Replace the lanes whose mask bit is 1 (R148). -/
def mergeLanes (mask : BitVec 512) (old new : List Nat) : List Nat :=
  (List.zip (List.zip old new) (upTo old.length)).map (fun p => if mask.getLsbD p.2 then p.1.2 else p.1.1)

/-! ## Store ranges (R160) -/

/-- The smallest 64-byte-aligned span of a list of (offset, length). -/
def spanOf : List (Nat × Nat) → Option (Nat × Nat)
  | [] => none
  | (a, n) :: t =>
    match spanOf t with
    | none => some (a / 64 * 64, ceilTo 64 (a + n))
    | some (lo, hi) => some (min lo (a / 64 * 64), max hi (ceilTo 64 (a + n)))

/-- Two half-open spans overlap. -/
def overlaps (a b : Nat × Nat) : Bool := decide (a.1 < b.2) && decide (b.1 < a.2)

/-- Register a range. -/
def addRange (x : Pod) (op cls : Nat) (write : Bool) (span : Option (Nat × Nat)) (due : Option Nat)
    (writes : List (Nat × List Byte)) : Pod :=
  match span with
  | none => x
  | some (lo, hi) => { x with ranges := x.ranges ++ [⟨op, cls, write, lo, hi, cls = 5, due, writes, [], false⟩] }

/-- The ranges due by the present cycle that `sel` selects. -/
def dueRanges (sel : StoreRange → Bool) (x : Pod) : List StoreRange :=
  x.ranges.filter (fun r => sel r && (match r.due with | some d => decide (d ≤ x.core.cycle) | none => false))

/-- The rows of drains that `sel` selects are written: each sets its bits of POD_ME_FLAGS (R72). -/
def writeResults (sel : Nat × Nat × Nat → Bool) (s : State) (p : PodId) : State :=
  let x := pod s p
  let rows := x.me.toList.flatMap (fun e => e.results.filter sel)
  if rows.isEmpty then s
  else orReg (setPod s p { x with me := x.me.map (fun e => { e with results := e.results.filter (fun r => !sel r) }) }) (rPod p 0x404)
    ((rows.map (·.2.2)).foldl Nat.lor 0)

/-- The granted writes of a Pod's ranges that readers see from the present cycle on become visible (R145, R167, R168). -/
def settleLandings (s : State) (p : PodId) : State :=
  let x := pod s p
  let now := x.core.cycle
  let s1 := setPod s p { x with ranges := x.ranges.map (fun r => { r with landing := r.landing.filter (fun w => decide (now < w.1)) }) }
  forEach x.ranges s1 (fun t r => forEach (r.landing.filter (fun w => decide (w.1 ≤ now))) t (fun u w => memWrite u w.2.1 w.2.2))

/-- Store offset `a` lies in Husk store (R166). -/
def isHusk (a : Nat) : Bool := decide (0x1000000 ≤ a)

/-- The range [a, a + n) leaves the Pod store or crosses from near into Husk store (R152). -/
def badSpan (a n : Nat) : Bool :=
  decide (podSize < a + n) || (decide (a < 0x1000000) && decide (0x1000000 < a + n))

/-! ## Latency sheets (R138, R314, R315) -/

/-- The column of the part's own silicon: the A1 figure on an A1, else the B0 figure plus the pin of its group. -/
def sheetLat (s : State) (p : PodId) (a1 b0 pinReg pinLo : Nat) : Nat :=
  if isA1 s then a1 else b0 + getF (pReg s p pinReg) pinLo 4

/-- ME_PROD. -/
def latMeProd (s : State) (p : PodId) (a1 b0 : Nat) : Nat := sheetLat s p a1 b0 0x910 28
/-- ME_DRAIN. -/
def latMeDrain (s : State) (p : PodId) (a1 b0 : Nat) : Nat := sheetLat s p a1 b0 0x910 24
/-- COL_STEP. -/
def latColStep (s : State) (p : PodId) (a1 b0 : Nat) : Nat := sheetLat s p a1 b0 0x910 20
/-- COL_DRAIN. -/
def latColDrain (s : State) (p : PodId) (a1 b0 : Nat) : Nat := sheetLat s p a1 b0 0x910 16
/-- VU_BASIC. -/
def latVuBasic (s : State) (p : PodId) (a1 b0 : Nat) : Nat := sheetLat s p a1 b0 0x910 12
/-- VU_XPS. -/
def latVuXps (s : State) (p : PodId) : Nat := sheetLat s p 6 5 0x910 8
/-- VU_MXQ. -/
def latVuMxq (s : State) (p : PodId) : Nat := sheetLat s p 8 6 0x910 4
/-- VU_RSUM: cycles from issue until the accumulator is readable (R109). -/
def latVuRsum (s : State) (p : PodId) : Nat := sheetLat s p 19 15 0x910 0
/-- VU_SORT. -/
def latVuSort (s : State) (p : PodId) : Nat := sheetLat s p 48 40 0x914 12
/-- VU_MERGE. -/
def latVuMerge (s : State) (p : PodId) : Nat := sheetLat s p 24 20 0x914 8
/-- BRANCH. -/
def latBranch (s : State) (p : PodId) : Nat := sheetLat s p 3 2 0x914 4
/-- TE_SUM: cycles from L to the release of the record (R95). -/
def latTeRelease (s : State) (p : PodId) : Nat := sheetLat s p 17 16 0x914 0
/-- TE_SUM: cycles from L to the first output line. -/
def latTeOut (s : State) (p : PodId) : Nat := sheetLat s p 10 9 0x914 0

/-! ## V classes (R139, R303) -/

/-- An operation of V-class bit `b` traps: REPRO_EN is set, or the bit is clear in the active weave's mask. -/
def vTraps (s : State) (b : Nat) : Bool :=
  flag s rRepro 0 || !(match s.active with
    | some w => w.vMask.getLsbD b
    | none => false)

/-- The V-class bit of an operation, if it has one. -/
def vClass : SlotOp → Option Nat
  | .vu c f => if (c = 0x11 ∨ c = 0x15) ∧ f.rmode = 5 ∧ f.src = 1 then some 0 else none
  | .mem c f =>
    if c = 0x11 then some 1 else if c = 0xC then some 2 else if c = 0xA ∧ f.imm ≠ 0 then some 3 else none
  | .ctl c f =>
    if c = 0x1B ∧ (f.imm = 3 ∨ f.imm = 4) then some 4
    else if c = 0x1F ∧ getF f.imm 0 16 ≠ 0x400 ∧ getF f.imm 0 16 ≠ 0x500 ∧ getF f.imm 0 16 ≠ 0x600 then some 5
    else none
  | _ => none

/-! ## Trap codes (R158) -/

def tOpcode : Nat := 1
def tOperand : Nat := 2
def tAddress : Nat := 3
def tState : Nat := 4
def tPc : Nat := 5
def tConflict : Nat := 6
def tCall : Nat := 7
def tVclass : Nat := 8
def tEntropy : Nat := 9

/-- A trap code where a condition holds. -/
def trapIf (b : Bool) (c : Nat) : List Nat := if b then [c] else []

/-- The traps every slot shares: opcode, unused fields, V class (R131, R136, R139). -/
def slotTraps (s : State) (o : SlotOp) : List Nat :=
  match slotUses o with
  | none => [tOpcode]
  | some m =>
    trapIf (bitsOutside (slotBits o) m) tOperand
      ++ (match vClass o with | some b => trapIf (vTraps s b) tVclass | none => [])

/-! ## The program counter -/

/-- POD_CTL_STATUS.PC: the index of the next bundle to issue (R165). -/
def pcOf (s : State) (p : PodId) : Nat := getF (pReg s p 0x100) 0 14
/-- Set the program counter. -/
def setPc (s : State) (p : PodId) (v : Nat) : State := setField s (rPod p 0x100) 0 14 v
/-- POD_CTL_STATUS.RUNNING. -/
def podRunning (s : State) (p : PodId) : Bool := getB (pReg s p 0x100) 31
/-- HALTED. -/
def podHalted (s : State) (p : PodId) : Bool := getB (pReg s p 0x100) 30
/-- TRAPPED. -/
def podTrapped (s : State) (p : PodId) : Bool := getB (pReg s p 0x100) 29
/-- AT_FEND. -/
def podAtFend (s : State) (p : PodId) : Bool := getB (pReg s p 0x100) 28
/-- The Pod has code (R133). -/
def hasCode (s : State) (p : PodId) : Bool := decide (pReg s p 0x108 ≠ 0)

/-- The step counter of a Pod (R312). -/
def stepCount (s : State) (p : PodId) : Nat := reg64 s (rPod p 0x900)

/-- The weave frame the Pods run (R20, R226). -/
def weaveFrame (s : State) : Nat := s.stake.frame

/-- A cause of R25 arises. It counts for the next check point, unless it falls between a check point and its commit point. -/
def causeArises (s : State) (bits : Nat) : State :=
  if s.stake.checked && !s.stake.committed then s else { s with stake := { s.stake with arisen := Nat.lor s.stake.arisen bits } }

/-- Take the next issue serial of a Pod. -/
def nextSerial (s : State) (p : PodId) : Nat × State :=
  ((pod s p).core.nextOp, modCore s p (fun c => { c with nextOp := c.nextOp + 1 }))

/-! ## Pair digests (R323) -/

/-- pair_unit of R323. -/
def pairUnit (k addr : Nat) (w : List Nat) : Word64 :=
  w.foldl (fun x y => mix64 (x ^^^ BitVec.ofNat 64 y)) (mix64 (mix64 (BitVec.ofNat 64 k) ^^^ BitVec.ofNat 64 addr))

/-- The units a write of bytes `b` at device address `a` touches: the address of the first byte written in the unit, and the
unit's eight words with uncovered words zero. -/
def pairUnits (a : Nat) (b : List Byte) : List (Nat × List Nat) :=
  let lo := a / 64
  let hi := ceilDiv (a + b.length) 64
  (upTo (hi - lo)).map (fun i =>
    let u := (lo + i) * 64
    let start := max a u
    let stop := min (a + b.length) (u + 64)
    let bytes := List.replicate (start - u) (0 : Byte) ++ sliceB b (start - a) (stop - start)
      ++ List.replicate (u + 64 - stop) 0
    (start, (upTo 8).map (fun j => numAt bytes (8 * j) 8)))

/-- LOCATE captures the writes of this Pod in this frame (R326). -/
def locating (s : State) (p : PodId) : Bool :=
  flag s rPair 29 && decide (reg64 s rPairLocStake = weaveFrame s) && decide (field s rPairLoc 16 6 = p.val)

/-- Write one capture record, unless the area is full or leaves Root memory (R326). -/
def captureUnit (s : State) (p : PodId) (slot addr : Nat) (h : Word64) : State :=
  let n := s.misc.captures
  let base := (reg s rPairCap).toNat * 0x10000
  if n < 2097152 ∧ base + 0x4000000 ≤ rootEnd then
    let issue := (pod s p).core.frameBundles
    let rec_ := leBytes 4 issue ++ leBytes 2 (pcOf s p) ++ leBytes 1 slot ++ [0] ++ leBytes 8 addr ++ leBytes 8 h.toNat
      ++ List.replicate 8 0
    modMisc (memWrite s (base + 32 * n) rec_)
      (fun m => { m with captures := m.captures + 1 })
  else raiseErr s 13 rErrPair 2 0xFF (weaveFrame s)

/-- Add a write of a Pod's own operation to the pair digest and, in LOCATE mode, to the capture (R323, R326). -/
def digestWrite (s : State) (p : PodId) (slot : Nat) (a : Nat) (b : List Byte) : State :=
  forEach (pairUnits a b) s (fun t u =>
    let h := pairUnit (weaveFrame t) u.1 u.2
    let t1 := modCore t p (fun c => { c with pairSum := c.pairSum + h })
    if locating t1 p then captureUnit t1 p slot u.1 h else t1)

/-! ## Ranges that are released (R160, R167, R323) -/

/-- The bytes of a range that no bank has granted yet enter the pair digest as they are written, where the range asks for it. -/
def digestRange (s : State) (p : PodId) (r : StoreRange) : State :=
  if r.digest then forEach r.writes s (fun t w => digestWrite t p 3 w.1 w.2) else s

/-- What a range holds becomes visible: the writes that a bank has granted, then the others. -/
def writeRange (p : PodId) (s : State) (r : StoreRange) : State :=
  forEach r.writes (forEach r.landing (digestRange s p r) (fun u w => memWrite u w.2.1 w.2.2)) (fun u w => memWrite u w.1 w.2)

/-- Release the due ranges that `sel` selects: their writes become visible (R160, R167). -/
def settleRanges (sel : StoreRange → Bool) (s : State) (p : PodId) : State :=
  let x := pod s p
  let gone := dueRanges sel x
  let s1 := setPod s p { x with ranges := x.ranges.filter (fun r =>
    !(sel r && (match r.due with | some d => decide (d ≤ x.core.cycle) | none => false))) }
  writeResults (fun w => gone.any (fun r => r.op = w.1)) (forEach gone s1 (writeRange p)) p

end Sys2Proof.Machine
end

