-- ==== Sys2Proof/Machine/Time.lean ====
section
/-! DEFINITION. Device time (R405 to R408) and the passing of one tick (R13, R406). -/

namespace Sys2Proof.Machine

/-! ## Clock domains (R354, R366, R368) -/

/-- The fabric tick runs: the reference is present and the fabric PLL locked. -/
def fabricRuns (s : State) : Bool := refRuns s && flag s rClkStatus 30

/-- The clock of Pod `p` runs: the reference is present and the Pod PLL of its region locked. -/
def podClockRuns (s : State) (p : PodId) : Bool := refRuns s && flag s rClkStatus (p.val / 4)

/-- The Keeper clock runs (R359, R366): it is not hung and the clock it selects runs. -/
def keeperRuns (s : State) : Bool :=
  refRuns s && !s.clock.keeperHung && (if flag s rClkKeeper 0 then flag s rClkKeeper 30 else true)

/-- The PCIe function works: its clock runs, so that the link to the host is up, and it is in D0; else no host access arrives and no DMA
leaves (R330, R354, R366, R368; log 44). -/
def pcieRuns (s : State) : Bool := refRuns s && flag s rClkStatus 28 && !s.misc.d3hot

/-- The on-die network of die `d` runs (R354, R368, R378). -/
def networkRuns (s : State) (d : Nat) : Bool := refRuns s && flag s rClkStatus (20 + d % 4)

/-- The Root controllers of die `d` run (R354, R368, R378). -/
def rootRuns (s : State) (d : Nat) : Bool := refRuns s && flag s rClkStatus (24 + d % 4)

/-! ## The stake timer (R18, R20, R28, R29) -/

/-- Ticks since the first tick of the stake. -/
def stakeOffset (s : State) : Nat := (tick s + 2 ^ 64 - reg64 s rStakeStart) % 2 ^ 64

/-- Ticks since tick `t` of the present count. -/
def ticksSince (s : State) (t : Nat) : Nat := (tick s + 2 ^ 64 - t) % 2 ^ 64

/-- Picks of 36 ticks, counted over all stakes (R17, R18). -/
def absPick (s : State) : Nat := tick s / 36

/-- The check point of the present round: pick 928 + 256r (R20, R29). -/
def checkOffset (s : State) : Nat := 33408 + 9216 * s.stake.round

/-- The commit point of the present round: pick 1008 + 256r (R28). -/
def commitOffset (s : State) : Nat := 36288 + 9216 * s.stake.round

/-- The end of a stake with the quanta applied to it: h of R18 is the number of its round. -/
def endOffset (s : State) : Nat := 36864 + 9216 * s.stake.round

/-- The present tick is a check point that has not been judged yet. -/
def checkDue (s : State) : Bool := fabricRuns s && decide (stakeOffset s = checkOffset s) && !s.stake.checked

/-- The present tick is a commit point that has not passed yet. -/
def commitDue (s : State) : Bool := fabricRuns s && decide (stakeOffset s = commitOffset s) && !s.stake.committed

/-- The present tick is the first of the next stake: the stake has had its length, and its last commit point did not extend it. -/
def boundaryDue (s : State) : Bool := fabricRuns s && decide (stakeOffset s = endOffset s) && s.stake.committed

/-- The present tick is the stake's final check point as far as this device can tell: judged, with no hold for the round (R20, R24). -/
def atFinalCheck (s : State) : Bool :=
  fabricRuns s && decide (stakeOffset s = checkOffset s) && s.stake.checked && !s.stake.held

/-! ## Device time -/

/-- Nanoseconds of one second, in units of 2^-32 ns. -/
def secondNs32 : Nat := 1000000000 * 2 ^ 32

/-- Device time advanced by `n` units of 2^-32 ns. -/
def addTime (t : TimeState) (n : Nat) : TimeState :=
  { t with ns32 := (t.ns32 + n) % secondNs32, secs := t.secs + BitVec.ofNat 48 ((t.ns32 + n) / secondNs32) }

/-- NS of R405. -/
def timeNs (t : TimeState) : Nat := t.ns32 / 2 ^ 32
/-- FRAC of R405. -/
def timeFrac (t : TimeState) : Nat := t.ns32 / 2 ^ 16 % 2 ^ 16

/-- Device time moved by a signed number of nanoseconds (ADD_OFFSET). -/
def offsetTime (t : TimeState) (ns : Int) : TimeState :=
  let total : Int := (t.secs.toNat : Int) * (secondNs32 : Int) + t.ns32 + ns * 2 ^ 32
  let m := (total % ((2 ^ 48 * secondNs32 : Nat) : Int)).toNat
  { t with secs := BitVec.ofNat 48 (m / secondNs32), ns32 := m % secondNs32 }

/-- The nanoseconds of TIM_SET_NS. NS runs from 0 to 999,999,999 (R405); what SET loads from a larger value is a free value. -/
def setNs (v : Word) : Nat :=
  if v.toNat < 1000000000 then v.toNat else Config.setNsOutOfRange v % 1000000000

/-- The writes that wait for the stake, applied at its first tick: SET, then the offset, then the increment (R406). -/
def applyTimeWrites (s : State) : State :=
  let t := s.time
  let t := if t.setPending then
      { t with
        secs := BitVec.ofNat 48 ((reg s rSetSLo).toNat + field s rSetSHi 0 16 * 2 ^ 32)
        ns32 := setNs (reg s rSetNs) * 2 ^ 32 }
    else t
  let t := if t.offsetPending then offsetTime t (signed 32 (reg s rTimOffset).toNat) else t
  { s with time := { t with setPending := false, offsetPending := false, incr := reg s rTimIncr } }

/-- TICK_EPOCH: the stake's first tick with its device time (R407). -/
def latchEpoch (s : State) : State :=
  let s := setReg64 s rEpochTick (tick s)
  let s := setReg s rEpochNs (BitVec.ofNat 32 (timeNs s.time))
  let s := setReg s (rEpochNs + 4) (s.time.secs.setWidth 32)
  let s := setReg s (rEpochNs + 8) ((s.time.secs >>> 32).setWidth 32)
  setReg s (rEpochNs + 12) (BitVec.ofNat 32 (timeFrac s.time))

/-! ## One tick -/

/-- Units of the Keeper's beat in 1,024 Keeper cycles of 100 MHz: 20 ticks each. -/
def beatUnits : Nat := 20480

/-- The Keeper's beat counter advances while its clock runs (R359, R378): five times faster on KPLL. -/
def keeperTick (s : State) : State :=
  if keeperRuns s then
    let n := s.clock.beatTicks + (if flag s rClkKeeper 0 then 5 else 1)
    if beatUnits ≤ n then
      setReg { s with clock := { s.clock with beatTicks := n - beatUnits } } rClkBeat (reg s rClkBeat + 1)
    else { s with clock := { s.clock with beatTicks := n } }
  else s

/-- One tick of 500 ps passes (R13): TICK_COUNT and device time advance while the fabric clock runs, and the Keeper's beat
while its own does. -/
def passTick (s : State) : State :=
  let s := keeperTick s
  if fabricRuns s then
    add64 { s with time := addTime s.time s.time.incr.toNat } rTick 1
  else s

end Sys2Proof.Machine
end

