-- ==== Sys2Proof/Machine/Tokens.lean ====
section
/-! DEFINITION. Outbound queues and their tokens (R185 to R190), inbound queues (R191, R36) and the Root transfers (R183,
R189). -/

namespace Sys2Proof.Machine

/-! ## Outbound queues -/

/-- An outbound queue of a Pod. -/
def outQ (x : Pod) (q : Fin 8) : OutQueue := vget x.outq q

/-- A queue number below 8. -/
def queueIx (q : Nat) : Fin 8 := fin 8 (by decide) q

/-- Raise the high-water mark of queue `q` (0 to 15) to a depth (R193). -/
def noteDepth (s : State) (p : PodId) (q depth : Nat) : State :=
  let o := rPod p (0x800 + 4 * q)
  if field s o 16 7 < depth then setField s o 16 7 depth else s

/-- Issue a token on an outbound queue: its sequence number, and the state that holds it (R186). -/
def addToken (s : State) (p : PodId) (q : Fin 8) (kind : TokenKind) (op root store len : Nat) (data : List Byte)
    (dstDev : Nat) : Word × State :=
  let oq := outQ (pod s p) q
  let t : Token := ⟨oq.nextSeq, kind, op, tick s, weaveFrame s, false, false, root, store, len, data, dstDev⟩
  let s1 := modPod s p (fun x => { x with outq := vput x.outq q ⟨oq.nextSeq + 1, oq.tokens ++ [t]⟩ })
  (oq.nextSeq, noteDepth s1 p q.val (oq.tokens.length + 1))

/-- The token value of queue `q` and number `seq` (R186). -/
def tokenValue (q : Fin 8) (seq : Word) : Nat := q.val * 2 ^ 32 + seq.toNat

/-- Mark the oldest token of the queue that `sel` selects as done. -/
def markDone (sel : Token → Bool) : List Token → List Token
  | [] => []
  | t :: l => if sel t && !t.transferDone then { t with transferDone := true } :: l else t :: markDone sel l

/-- Drop the done tokens at the head of a list. -/
def dropDone : List Token → List Token
  | [] => []
  | t :: l => if t.transferDone then dropDone l else t :: l

/-- The done tokens at the head of a list. -/
def takeDone : List Token → List Token
  | [] => []
  | t :: l => if t.transferDone then t :: takeDone l else []

/-- A token of a Root access. -/
def isRootToken (t : Token) : Bool := t.kind = .fetch || t.kind = .store || t.kind = .gather

/-- Ticks since the last commit point before the next check point: of this round, or of the one before it (R25, R28). -/
def sinceCommit (s : State) : Nat :=
  if s.stake.committed then stakeOffset s - commitOffset s
  else if s.stake.round = 0 then stakeOffset s + 576 else stakeOffset s + 9216 - commitOffset s

/-- A token that has just completed was outstanding beyond the stake budget, and went beyond it since the last commit point (R25, R190). -/
def ranOver (s : State) (t : Token) : Bool :=
  let age := ticksSince s t.issuedTick
  let budget := field s rRootCtrl 0 24
  isRootToken t && decide (budget < age) && decide (age - budget ≤ sinceCommit s)

/-- Complete the tokens at the head of a queue whose transfers are done (R188): their store ranges are released (R160), and
the completion is there for Q.SEL to observe (R153). -/
def completeHeads (s : State) (p : PodId) (q : Fin 8) : State :=
  let oq := outQ (pod s p) q
  let gone := takeDone oq.tokens
  if gone.isEmpty then s
  else
    let ops := gone.map (·.op)
    let s1 := if gone.any (ranOver s) && weaveActive s then causeArises s 4 else s
    modPod s1 p (fun x => { x with
      outq := vput x.outq q { oq with tokens := dropDone oq.tokens }
      ranges := x.ranges.filter (fun r => !(ops.contains r.op && r.due.isNone))
      core := { x.core with selSeen := x.core.selSeen ++ [q.val] } })

/-- The transfer of the oldest open token that `sel` selects has finished; tokens complete in queue order (R188). -/
def finishTransfer (s : State) (p : PodId) (q : Fin 8) (sel : Token → Bool) : State :=
  completeHeads (modPod s p (fun x =>
    { x with outq := vmod x.outq q (fun o => { o with tokens := markDone sel o.tokens }) })) p q

/-- The oldest open token of a queue that `sel` selects. -/
def openToken (s : State) (p : PodId) (q : Fin 8) (sel : Token → Bool) : Option Token :=
  (outQ (pod s p) q).tokens.find? (fun t => sel t && !t.transferDone)

/-- Gather requests of a Pod that are outstanding (R120). -/
def gathersOut (x : Pod) : Nat :=
  (x.outq.toList.map (fun q => (q.tokens.filter (fun t => decide (t.kind = .gather) && !t.transferDone)).length)).sum

/-- The token of a twine operation. -/
def isTwineToken (t : Token) : Bool :=
  t.kind = .twSend || t.kind = .twMsg || t.kind = .twByp || t.kind = .twFadd || t.kind = .twOcommit

/-! ## Root transfers (R183, R184, R189) -/

/-- Data of operation `op` arrives at a Pod from the on-die network: its lines ask the banks last of rank 4, in the order of arrival (R169, R172),
and its bytes are written as they are granted (R167). -/
def arriveData (s : State) (p : PodId) (op : Nat) (w : List (Nat × List Byte)) : State :=
  let n := nextSerial s p
  modPod n.2 p (fun x => { x with
    lines := x.lines ++ w.flatMap (fun e => (unitLines op 3 true e.1 e.2.length x.core.cycle).map (fun l => { l with order := 3 * 2 ^ 40 + n.1 }))
    ranges := x.ranges.map (fun r =>
      if r.op = op && r.write then { r with writes := r.writes ++ w.map (fun e => (podAddr p e.1, e.2)) } else r)
    outq := x.outq.map (fun o => { o with tokens := o.tokens.map (fun t => if t.op = op then { t with begun := true } else t) }) })

/-- The data of a Q.FETCH arrives (R183). -/
def beginFetch (s : State) (p : PodId) (t : Token) : State :=
  let r := rootRead s t.root t.len
  arriveData r.1 p t.op [(t.store, r.2.1)]

/-- A source line of operation `op` is still to be read (R188). -/
def sourceOpen (x : Pod) (op : Nat) : Bool := x.lines.any (fun l => decide (l.op = op) && !l.write)

/-- Every byte that operation `op` writes is visible in the Pod store (R167, R188). -/
def allVisible (x : Pod) (op : Nat) : Bool :=
  !x.lines.any (fun l => decide (l.op = op) && l.write)
    && x.ranges.all (fun r => decide (r.op ≠ op) || (r.writes.isEmpty && r.landing.isEmpty))

/-- The pseudo-channel of a Root address is in refresh (R181). -/
def inRefresh (s : State) (a : Nat) : Bool := s.misc.refreshing.any (fun e => e.1 = rootStack a * 32 + rootChannel a)

/-- The network of a Pod's die and the controllers of a Root address run (R354, R368). -/
def transferRuns (s : State) (p : PodId) (a : Nat) : Bool := networkRuns s (p.val / 16) && rootRuns s (rootStack a / 3)

/-- The Root access of a token cannot be made: its pseudo-channel is in refresh, or the network or the controllers stand still. -/
def rootHeld (s : State) (p : PodId) (t : Token) : Bool := inRefresh s (t.root + t.len - 1) || !transferRuns s p t.root

/-- A token of a Root transfer that TOKEN_COMPLETE moves on: a gather only once its output has been formed. -/
def rootReady (t : Token) : Bool := t.kind = .fetch || t.kind = .store || (t.kind = .gather && t.begun)

/-- The oldest Root transfer of a queue moves on (R188): a Q.STORE whose source has been read is written to Root memory and done; the data of a
Q.FETCH arrives, and the fetch, as a gather, is done once every byte of it is visible in the Pod store. Tokens complete in queue order. The spec
gives no event of its own to the arrival of a fetch's data: it is the token's first TOKEN_COMPLETE (DESIGN CHOICE, log 57). -/
def completeToken (s : State) (p : PodId) (q : Fin 8) : State :=
  match openToken s p q rootReady with
  | none => completeHeads s p q
  | some t =>
    let done_ := fun (u : State) => finishTransfer u p q (fun v => decide (v.op = t.op))
    if t.kind = .store then
      if sourceOpen (pod s p) t.op || rootHeld s p t then s else done_ (memWrite (countRoot s t.len) t.root t.data)
    else if t.begun then if allVisible (pod s p) t.op then done_ s else s
    else if rootHeld s p t then s
    else beginFetch s p t

/-! ## Inbound queues (R191, R35, R36) -/

/-- The inbound queue has room. -/
def inqRoom (s : State) (p : PodId) (q : Fin 8) : Bool := decide ((vget (pod s p).inq q).length < 64)

/-- Accept an entry, stamped with the present Pod frame and the present tick. -/
def acceptEntry (s : State) (p : PodId) (q : Fin 8) (bytes : List Byte) (stream : Option (StreamId × Nat)) : State :=
  let e : Entry := ⟨bytes, s.stake.frames, tick s, stream⟩
  let s1 := modPod s p (fun x => { x with inq := vmod x.inq q (· ++ [e]) })
  noteDepth s1 p (8 + q.val) (vget (pod s p).inq q).length.succ

/-- An entry found its queue full (R191). -/
def refuseEntry (s : State) (p : PodId) : State := addSat s (rPod p 0x880) 1

/-- An entry was stamped before the present Pod frame (R36): in an earlier one, and not at the tick that ended it, which belongs to the present
frame (R35). -/
def stampedBefore (s : State) (e : Entry) : Bool :=
  decide (e.stampFrame < s.stake.frames) && !(decide (e.stampFrame + 1 = s.stake.frames) && decide (e.stampTick = s.stake.frameTick))

/-- The oldest entry a Pod may pop: entries keep their order, and the head must have been stamped before the present frame. -/
def visibleHead (s : State) (p : PodId) (q : Fin 8) : Option Entry :=
  match vget (pod s p).inq q with
  | [] => none
  | e :: _ => if stampedBefore s e then some e else none

end Sys2Proof.Machine
end

