-- ==== Sys2Proof/Machine/Twine.lean ====
section
/-! DEFINITION. The twine plane inside the device: the logical port map (R286), routes (R258, R296), sending (R200, R259),
delivery of WRITE, MSG, FADD, OCOMMIT, DONE and BYP (R256, R262, R307, R308) and the queues that hold packets back (R191,
R257). -/

namespace Sys2Proof.Machine

/-! ## Packets -/

/-- The header of a packet as its 128-bit value (R197). -/
def headerNat (k : Packet) : Nat :=
  k.seq.toNat + k.type.toNat * 2 ^ 12 + k.dst.toNat * 2 ^ 16 + k.src.toNat * 2 ^ 40 + k.lenM1.toNat * 2 ^ 64
    + b2n k.fence * 2 ^ 70 + b2n k.resend * 2 ^ 71 + b2n k.mcast * 2 ^ 72 + k.rsv.toNat * 2 ^ 73
    + k.stakeTag.toNat * 2 ^ 80 + k.circuit.toNat * 2 ^ 88 + k.offset.toNat * 2 ^ 104

/-- A packet's header bytes. -/
def headerBytes (k : Packet) : List Byte := leBytes 16 (headerNat k)

/-- The packet that a header's 128 bits and a payload form. -/
def packetOf (h : Nat) (payload : List Byte) : Packet :=
  let f := fun (lo len : Nat) => h / 2 ^ lo % 2 ^ len
  { offset := BitVec.ofNat 24 (f 104 24), circuit := BitVec.ofNat 16 (f 88 16), stakeTag := BitVec.ofNat 8 (f 80 8)
    rsv := BitVec.ofNat 7 (f 73 7), mcast := decide (f 72 1 = 1), resend := decide (f 71 1 = 1)
    fence := decide (f 70 1 = 1), lenM1 := BitVec.ofNat 6 (f 64 6), src := BitVec.ofNat 24 (f 40 24)
    dst := BitVec.ofNat 24 (f 16 24), type := BitVec.ofNat 4 (f 12 4), seq := BitVec.ofNat 12 (f 0 12)
    payload := payload }

/-- A twine packet of this device; the port gives it its number at its first transmission (R242). -/
def twinePacket (type src dst offset : Nat) (fence : Bool) (payload : List Byte) : Packet where
  offset := BitVec.ofNat 24 offset
  circuit := 0
  stakeTag := 0
  rsv := 0
  mcast := false
  resend := false
  fence := fence
  lenM1 := BitVec.ofNat 6 (payload.length / 64 - 1)
  src := BitVec.ofNat 24 src
  dst := BitVec.ofNat 24 dst
  type := BitVec.ofNat 4 type
  seq := 0
  payload := payload

/-- The device coordinate of an endpoint coordinate (R196). -/
def devOf (e : BitVec 24) : Nat := e.toNat / 512
/-- The Pod of an endpoint coordinate. -/
def podOf (e : BitVec 24) : PodId := toPod (e.toNat / 8)
/-- The queue of an endpoint coordinate. -/
def queueOf (e : BitVec 24) : Fin 8 := queueIx e.toNat

/-- The channel that a packet's type fixes (R255): 0 REQ, 1 RSP, 2 BYP. -/
def channelOf (k : Packet) : Nat :=
  let t := k.type.toNat
  if t = 0xF then 2 else if t = 0xC ∨ t = 0xD ∨ t = 0xE then 1 else 0

/-! ## Ports and routes -/

/-- The port's peer as announced (PRT_PEER), where VALID. -/
def peerDev (s : State) (p : PortId) : Option Nat :=
  if flag s (rPort p 0x08) 31 then some (field s (rPort p 0x08) 16 15) else none

/-- Where a twine packet goes. -/
inductive Route where
  | here
  | out (p : PortId)
  | none
  deriving DecidableEq, Repr

/-- The route of a packet to device `d` (R258, R296): a fixed route whose port has left PACKET is none, and a BYP goes to the
device at the other end of a port in PACKET or PARLEY. -/
def routeTo (s : State) (ch d : Nat) : Route :=
  if d = deviceCoord s then .here
  else if ch = 2 then
    match allPorts.find? (fun p => (lstate s p = 5 || lstate s p = 4) && peerDev s p = some d) with
    | some p => .out p
    | none => .none
  else
    match tabGet 0 s.misc.routes d with
    | 0 => .none
    | l + 1 => if portUp s (physOf s (toPort l)) then .out (physOf s (toPort l)) else .none

/-- The reach port onto which a packet for device `d` accepted on rack port `p` is forwarded: what comes from a reach port is never
forwarded, and nothing is forwarded onto a rack port (R258). -/
def forwardTo (s : State) (p : PortId) (ch d : Nat) : Option PortId :=
  if 12 ≤ p.val ∨ ch = 2 then none
  else
    match routeTo s ch d with
    | .out q => if 12 ≤ q.val then some q else none
    | _ => none

/-- Put a packet at the end of a port's transmit list of its channel. -/
def queueTx (s : State) (p : PortId) (held : Option PortId) (k : Packet) : State :=
  modPort s p (fun x =>
    if channelOf k = 2 then { x with txByp := x.txByp ++ [(held, k)] }
    else if channelOf k = 1 then { x with txRsp := x.txRsp ++ [(held, k)] }
    else { x with txReq := x.txReq ++ [(held, k)] })

/-! ## Receive buffers (R251, R252) -/

/-- Units a packet occupies. -/
def unitsOf (k : Packet) : Nat := ceilDiv (k.payload.length + 20) 256

/-- Drop the first occurrence of a packet. -/
def dropFirst (k : Packet) : List Packet → List Packet
  | [] => []
  | j :: l => if j = k then l else j :: dropFirst k l

/-- A packet leaves the receive buffer of a port: its units are freed (R252). -/
def freeRx (s : State) (p : PortId) (k : Packet) : State :=
  let c := channelOf k
  let x := port s p
  let held := if c = 2 then x.rxByp.contains k else if c = 1 then x.rxRsp.contains k else x.rxReq.contains k
  if held then
    modPort s p (fun x =>
      let x := { x with limits := vmod x.limits (fin 3 (by decide) c) (· + BitVec.ofNat 16 (unitsOf k)) }
      if c = 2 then { x with rxByp := dropFirst k x.rxByp }
      else if c = 1 then { x with rxRsp := dropFirst k x.rxRsp }
      else { x with rxReq := dropFirst k x.rxReq })
  else s

/-- A packet is taken from where it stands: the receive buffer of the port it came over, or the packets of this device to itself. -/
def freeFrom (s : State) (p : Option PortId) (k : Packet) : State :=
  match p with
  | some i => freeRx s i k
  | none => modMisc s (fun m => { m with localReq := m.localReq.erase k })

/-! ## Confirmation and fences (R200, R259) -/

/-- Every unconfirmed twine packet of this device to device `d`, by Pod, queue and number. -/
def unconfirmedTo (s : State) (d : Nat) : List (Nat × Nat × Word) :=
  allPods.flatMap (fun p => (List.finRange 8).flatMap (fun q =>
    ((outQ (pod s p) q).tokens.filter (fun t => isTwineToken t && t.dstDev = d && !t.transferDone)).map
      (fun t => (p.val, q.val, t.seq))))

/-- A packet without a route (R258). -/
def noRoute (s : State) (k : Packet) : State :=
  raiseErr (add64 s (rPort 0 0xB8) 1) 10 rErrTwine 0 0xFF k.dst.toNat

/-- A released FENCE packet goes to its port, or stays on this device (R296); one whose route is gone is discarded, and its token, the oldest
open one to that device, completes (R258). -/
def releaseFence (s : State) (f : Fenced) : State :=
  match routeTo s (channelOf f.pkt) (devOf f.pkt.dst) with
  | .out p => queueTx s p none f.pkt
  | .here => modMisc s (fun m => { m with localReq := m.localReq ++ [f.pkt] })
  | .none => finishTransfer (noRoute s f.pkt) (podOf f.pkt.src) (queueOf f.pkt.src) (fun t =>
      isTwineToken t && t.dstDev = devOf f.pkt.dst)

/-- The FENCE packets whose earlier packets are all confirmed are released. -/
def releaseReady (s : State) : State :=
  let open_ := s.misc.fenced.map (fun f =>
    { f with waits := f.waits.filter (fun w => (unconfirmedTo s (devOf f.pkt.dst)).contains w) })
  forEach (open_.filter (fun f => f.waits.isEmpty))
    (modMisc s (fun m => { m with fenced := open_.filter (fun f => !f.waits.isEmpty) })) releaseFence

/-- FENCE packets are released as long as a release confirms what another waits for. -/
def releaseFences (s : State) : State := (upTo s.misc.fenced.length).foldl (fun t _ => releaseReady t) s

/-- The token of a twine operation has its delivery confirmation. -/
def confirmToken (s : State) (p : PodId) (q : Fin 8) (sel : Token → Bool) : State :=
  releaseFences (finishTransfer s p q sel)

/-! ## Delivery (R256, R262, R307, R308) -/

/-- The inbound entry of a packet: its header and the first 48 bytes of its payload. -/
def twineEntry (k : Packet) : List Byte := headerBytes k ++ sliceB k.payload 0 48

/-- The Pod-store offset a packet names. -/
def targetOf (k : Packet) : Nat := k.offset.toNat * 64

/-- STATUS of a DONE for a write of `n` bytes (R256). -/
def doneStatus (s : State) (k : Packet) (n : Nat) : Nat :=
  if podSize < targetOf k + n then 2 else if touchesNodes s (podOf k.dst) (targetOf k) n then 1 else 0

/-- The requester's side of a DONE: the oldest outstanding request to that device in the Pod and queue that DST names. -/
def takeDoneResponse (s : State) (k : Packet) : State :=
  confirmToken s (podOf k.dst) (queueOf k.dst) (fun t =>
    (t.kind = .twSend || t.kind = .twFadd || t.kind = .twOcommit) && t.dstDev = devOf k.src)

/-- The response slot of an IO die (R257). -/
def slotsFree (s : State) (p : PortId) : Nat := vget s.misc.rspSlots (fin 2 (by decide) (p.val / 8))

/-- Take or return a response slot of the IO die of port `p`. -/
def addSlots (s : State) (p : PortId) (take : Bool) : State :=
  let change := fun (n : Nat) => if take then n - 1 else min 256 (n + 1)
  modMisc s (fun m => { m with rspSlots := vmod m.rspSlots (fin 2 (by decide) (p.val / 8)) change })

/-- The DONE of a request, on its way to the request's SRC. -/
def sendDone (s : State) (k : Packet) (status : Nat) : State :=
  let d := twinePacket 0xC k.dst.toNat k.src.toNat 0 false (leBytes 2 status ++ List.replicate 62 0)
  match routeTo s 1 (devOf k.src) with
  | .here => takeDoneResponse s d
  | .out p => queueTx (addSlots s p true) p none d
  | .none => noRoute s d

/-- The DONE of a request can be sent: it has a free response slot, or needs none. -/
def canRespond (s : State) (k : Packet) : Bool :=
  match routeTo s 1 (devOf k.src) with
  | .out p => decide (0 < slotsFree s p)
  | _ => true

/-- The payload of a WRITE or MSG goes to the Pod store at rank 5 (R169, R175, R256); the flag says that it stands there, or that none is
written. Until then its lines are at the banks, and the packet stays where it is. -/
def payloadPut (s : State) (src : Option PortId) (k : Packet) : State × Bool :=
  if doneStatus s k k.payload.length = 2 then (s, true)
  else netPut s (podOf k.dst) (.packet src k 0) (targetOf k) k.payload

/-- What follows the write: the entry is placed, and a WRITE returns a DONE; a MSG inside the device confirms its token. -/
def afterWrite (s0 : State) (src : Option PortId) (k : Packet) : State :=
  let s := acceptEntry s0 (podOf k.dst) (queueOf k.dst) (twineEntry k) none
  let s1 := freeFrom s src k
  if k.type = 8 then sendDone s1 k (doneStatus s k k.payload.length)
  else if src = none ∧ devOf k.src = deviceCoord s then
    confirmToken s1 (podOf k.src) (queueOf k.src) (fun t => t.kind = .twMsg && t.dstDev = deviceCoord s)
  else s1

/-- A packet already waits for its queue (R191). -/
def isWaiting (s : State) (k : Packet) (src : Option PortId) : Bool :=
  (pod s (podOf k.dst)).waiting.any (fun w => w.held = some (src, k))

/-- A WRITE or MSG is delivered; a full inbound queue makes it wait where it is (R191, R256). The spec gives no event of its own to the request at
the banks: it is the first delivery, and the one that finds the payload written goes on (DESIGN CHOICE, log 57). -/
def deliverWrite (s : State) (src : Option PortId) (k : Packet) : State :=
  let p := podOf k.dst
  let q := queueOf k.dst
  if isWaiting s k src then s
  else if inqRoom s p q then
    let r := payloadPut s src k
    if r.2 then afterWrite r.1 src k else r.1
  else modPod (refuseEntry s p) p (fun x =>
    { x with waiting := x.waiting ++ [⟨q, twineEntry k, none, some (src, k)⟩] })

/-- The lanes of a payload as 32-bit words. -/
def payloadLanes (b : List Byte) : List Nat := (chunksB 4 (b.length / 4) b).map leNat

/-- Another FADD of the Pod is between its read and its last write: FADDs are carried out one after another (R307). -/
def faddOpen (s : State) (src : Option PortId) (k : Packet) : Bool :=
  s.misc.netJobs.any (fun j => decide (j.pod = podOf k.dst) && (match j.key with
    | .packet r h _ => decide (h.type = 9) && decide ((r, h) ≠ (src, k))
    | _ => false))

/-- The lane sums of a FADD, by RNE (R307). -/
def faddLanes (old : List Byte) (k : Packet) : List Byte :=
  (List.zip (payloadLanes old) (payloadLanes k.payload)).flatMap (fun e => leBytes 4 (addRne32 e.1 e.2))

/-- A FADD reads its lanes over the on-die network, adds and writes them, at rank 5, in order (R169, R307); its DONE follows the write. As a WRITE,
it asks the banks first and goes on when they have granted (DESIGN CHOICE, log 57). -/
def deliverFadd (s : State) (src : Option PortId) (k : Packet) : State :=
  let p := podOf k.dst
  let n := k.payload.length
  let st := doneStatus s k n
  let finish := fun (t : State) => sendDone (freeFrom t src k) k st
  if st = 2 then finish s
  else if faddOpen s src k then s
  else if (netJob s (.packet src k 1)).isSome then
    let w := netPut s p (.packet src k 1) (targetOf k) []
    if w.2 then finish w.1 else w.1
  else
    let r := netRead s p (.packet src k 0) [(targetOf k, n)]
    match r.2 with
    | none => r.1
    | some old =>
      let w := netPut r.1 p (.packet src k 1) (targetOf k) (faddLanes old k)
      if w.2 then finish w.1 else w.1

/-- Bytes of commit data held in the half of frame `j` (R309). -/
def commitBytes (s : State) (j : Nat) : Nat :=
  ((s.misc.commits.filter (fun c => c.1 % 2 = j % 2)).map (fun c => 4 * c.2.2.2.length)).sum

/-- An OCOMMIT is placed in its half of the commit buffer; a full half makes it wait (R309, R310). -/
def deliverOcommit (s : State) (src : Option PortId) (k : Packet) : State :=
  let j := numAt k.payload 0 8
  let l := payloadLanes (k.payload.drop 64)
  let st := doneStatus s k (4 * l.length)
  if st = 2 then sendDone (freeFrom s src k) k st
  else if 0x200000 < commitBytes s j + 4 * l.length then s
  else
    let s1 := modMisc s (fun m =>
      { m with commits := m.commits ++ [(j, podOf k.dst, targetOf k, l.map (BitVec.ofNat 32))] })
    sendDone (freeFrom s1 src k) k st

/-- A BYP that no control message is: sunk into its inbound queue, or discarded and counted on the port (R262). -/
def deliverByp (s : State) (src : Option PortId) (k : Packet) : State :=
  let p := podOf k.dst
  let q := queueOf k.dst
  let s1 := if inqRoom s p q then acceptEntry s p q (twineEntry k) none
    else add64 (refuseEntry s p) (rPort (src.getD 0) 0xA0) 1
  let s2 := freeFrom s1 src k
  if src = none ∧ devOf k.src = deviceCoord s then
    confirmToken s2 (podOf k.src) (queueOf k.src) (fun t => t.kind = .twByp && t.dstDev = deviceCoord s)
  else s2

/-- Hand a packet to the Keeper. -/
def toKeeper (s : State) (src : Option PortId) (k : Packet) : State := emit (freeFrom s src k) (.keeperPacket k)

/-- A request is taken by the responder (R257). -/
def serveRequest (s : State) (src : Option PortId) (k : Packet) : State :=
  let t := k.type.toNat
  if !canRespond s k then s
  else if t = 8 then deliverWrite s src k
  else if t = 9 then deliverFadd s src k
  else if t = 0xA then deliverOcommit s src k
  else toKeeper s src k

/-- Deliver a twine packet inside the device (R296). -/
def deliverHere (s : State) (k : Packet) : State :=
  let c := channelOf k
  if c = 0 then serveRequest s none k
  else if k.type = 0xC then takeDoneResponse (freeFrom s none k) k
  else if k.type = 0xD then deliverWrite s none k
  else if c = 2 ∧ k.offset ≠ 0xFFFFFF then deliverByp s none k
  else toKeeper s none k

/-- A packet of this device to itself waits for the banks, or for another FADD. -/
def localHeld (s : State) (k : Packet) : Bool :=
  (k.type = 9 && faddOpen s none k) || s.misc.netJobs.any (fun j => match j.key with
    | .packet none h _ => decide (h = k)
    | _ => false)

/-- The packets of this device to itself are delivered in order, as far as the banks have granted; OCOMMITs keep waiting for their half. -/
def serveLocal : Nat → State → State
  | 0, s => s
  | n + 1, s =>
    match s.misc.localReq.find? (fun k => k.type ≠ 0xA && !isWaiting s k none) with
    | none => s
    | some k =>
      let t := deliverHere s k
      if localHeld t k then t else serveLocal n t

/-- What a delivery has released on this device is delivered too, in the order of its release. -/
def settleLocal (s : State) : State := serveLocal (s.misc.localReq.length + s.misc.fenced.length) s

/-! ## Sending (R200, R256, R258) -/

/-- A twine operation's packet leaves the Pod whose token `sel` finds. A FENCE packet waits for the confirmation of every earlier packet to its
device, this device too (R200, R259, R296). A packet with no route is discarded, and its token completes. -/
def sendTwine (s : State) (p : PodId) (q : Fin 8) (sel : Token → Bool) (earlier : List (Nat × Nat × Word)) (k : Packet) :
    State :=
  let r := routeTo s (channelOf k) (devOf k.dst)
  if r = .none then settleLocal (confirmToken (noRoute s k) p q sel)
  else if k.fence && !earlier.isEmpty then modMisc s (fun m => { m with fenced := m.fenced ++ [⟨k, earlier⟩] })
  else
    match r with
    | .out i => queueTx s i none k
    | _ =>
      let s1 := modMisc s (fun m => { m with localReq := m.localReq ++ [k] })
      settleLocal (if k.type = 0xA then deliverOcommit s1 none k else s1)

/-! ## Waiting entries (R191) -/

/-- An entry waiting for room is accepted once room appears. -/
def acceptWaiting (s : State) (p : PodId) (q : Fin 8) : State :=
  match (pod s p).waiting.find? (fun w => w.queue = q) with
  | none => s
  | some w =>
    let taken := fun (t : State) => modPod t p (fun x => { x with waiting := x.waiting.erase w })
    if inqRoom s p q then
      match w.held with
      | some (src, k) =>
        if k.type = 8 && !canRespond s k then s
        else
          let r := payloadPut s src k
          if r.2 then settleLocal (afterWrite (taken r.1) src k) else r.1
      | none => acceptEntry (taken s) p q w.bytes w.stream
    else s

end Sys2Proof.Machine
end

