-- ==== Sys2Proof/Machine/Port.lean ====
section
/-! DEFINITION. The ports: their states (R263), training and discovery (R265, R282 to R285), recovery (R267), the declaration of a
port as down with its NOTICE (R222, R268), and the holds and notices that reach every device over them (R26, R27, R31, R223, R224). -/

namespace Sys2Proof.Machine

/-! ## States -/

/-- Write PRT_STATE.LSTATE. -/
def setLstate (s : State) (p : PortId) (v : Nat) : State := setField s (rPort p 0x04) 28 4 v

/-- PRT_STATE.OUTCOME: 0 none, 1 UP, 2 DARK_EXPECTED, 3 SURPLUS, 4 MISWIRED, 5 PARLEY. -/
def outcome (s : State) (p : PortId) : Nat := field s (rPort p 0x04) 20 4

/-- The readiness of a port's LINK function, which HELD keeps (R386). -/
def setLink (s : State) (p : PortId) (st detail : Nat) : State :=
  if func s (fLink p) = 4 then s else setFunc s (fLink p) st detail

/-- PRT_CTRL.ENABLE. -/
def enabled (s : State) (p : PortId) : Bool := flag s (rPort p 0) 0

/-- Change a port's training state. -/
def modTrain (s : State) (p : PortId) (f : TrainState → TrainState) : State := modPort s p (fun x => { x with train := f x.train })

/-- The port runs flit mode: it has found flit boundaries and is not in PACKET (R238, R265). -/
def inFlitMode (s : State) (p : PortId) : Bool :=
  let l := lstate s p
  decide (0 < (port s p).train.step) && (l = 2 || l = 3 || l = 4 || l = 6)

/-- A port enters DETECT and watches for signal; with a cable its LINK function starts (R386). A port without ENABLE stays in
OFF, and so does one whose LINK function is HELD (R270, R386). A LINK function that was READY has left PACKET (R386). -/
def enterDetect (s : State) (p : PortId) : State :=
  if !enabled s p || func s (fLink p) = 4 then setLstate s p 0
  else
    let s1 := setLstate s p 1
    if cabled s1 p || decide (func s1 (fLink p) = 2) then setLink s1 p 1 0 else s1

/-- A port enters TRAIN: counters, high-water marks and the peer's record start afresh, with new sequence and credit state (R241,
R268, R270). Packets already in its receive buffers stay, and so do packets not yet sent. -/
def enterTrain (s : State) (p : PortId) : State :=
  let s1 := resetRange s (rPort p 0x40) (rPort p 0xC0)
  let s2 := setReg (setReg (setReg (setReg s1 (rPort p 0x08) 0) (rPort p 0x0C) 0) (rPort p 0x10) 0) (rPort p 0x34) 0
  let s3 := setField (setField (setField s2 (rPort p 0x04) 20 8 0) (rPort p 0x38) 24 8 0) (rPort p 0x38) 19 1 0
  let s4 := modPort s3 p (fun x => { Port.reset with
    train := { Port.reset.train with attempts := x.train.attempts }
    recoverStakes := x.recoverStakes
    txByp := x.txByp, txRsp := x.txRsp, txReq := x.txReq
    rxReq := x.rxReq, rxRsp := x.rxRsp, rxByp := x.rxByp })
  setLink (setLstate s4 p 2) p 1 0

/-! ## Notices (R222 to R224) -/

/-- A record uses port `i` (0 to 7) of its die: it sends on TX i or describes RX i. -/
def usesPort (r : Record) (i : Nat) : Bool := r.mask.getLsbD i || decide (r.input = i)

/-- The index of the active splice, if any. -/
def activeSplice (s : State) : Option Nat := if flag s rWeaveState 27 then some (field s rSplice 16 16) else none

/-- The records in force at any position: the overlays of the active splice replace all base records of their inputs at their positions
(R220). -/
def recordsInForce (s : State) (q : Fsq) : List Record :=
  match activeSplice s with
  | none => q.records
  | some n =>
    let ov := q.overlays.filter (fun o => o.splice = n)
    q.records.filter (fun r => !ov.any (fun o => o.position = r.position && o.input = r.input)) ++ ov.flatMap (·.records)

/-- The active weave has a warp record for a port in some position. -/
def carriesWarp (s : State) (p : PortId) : Bool :=
  let l := (logicalOf s p).val
  weaveActive s && (recordsInForce s (fsq s (fin 2 (by decide) (l / 8)))).any (fun r => usesPort r (l % 8))

/-- The splice that the active weave's directory names for logical port `l` of this device, or 0xFFFF (R220). -/
def spliceFor (s : State) (l : Nat) : Nat :=
  match s.active with
  | some w =>
    match w.directory.find? (fun e => e.1 = deviceCoord s && e.2.1 = l) with
    | some e => e.2.2
    | none => 0xFFFF
  | none => 0xFFFF

/-- The payload of a NOTICE (R222). -/
def noticePayload (n : Notice) : List Byte :=
  leBytes 8 n.failStake ++ leBytes 2 n.reporter ++ leBytes 1 n.port ++ [0] ++ leBytes 2 n.splice ++ List.replicate 50 0

/-- The NOTICE that a payload holds. -/
def noticeOf (b : List Byte) : Notice := ⟨numAt b 0 8, numAt b 8 2, numAt b 0x0A 1, numAt b 0x0C 2⟩

/-- A NOTICE for the current stake is held (R223). -/
def noticeHeld (s : State) : Bool := s.stake.notices.any (fun n => n.failStake = stakeNo s)

/-- FSQ_WEAVE_STATE.NOTICE_HELD follows, and retries, late traffic and re-sends of the stake stop (R223, R247). A copy that has been
reported stays for its RACK or the end of the stake. -/
def holdNotice (s : State) : State :=
  if noticeHeld s then
    let s1 := setFlag s rWeaveState 25 true
    let stop := fun (c : WarpCopy) => { c with scheduled := false }
    let s2 := forEach allPorts s1 (fun t p => modPort t p (fun x =>
      { x with copies := x.copies.map stop, txWarpExtra := [] }))
    { s2 with txItems := s2.txItems.filter (fun i => i.atPick.isSome) }
  else setFlag s rWeaveState 25 false

/-- A device takes a NOTICE it has not seen, and holds it where its failure stake is not over. A missing splice, a conflict, or a commit point
already passed without an extension faults the machine (R223, R224). The NOTICE of a link's other end, with the same failure stake and
splice, counts as one with the first (R224). The captures of ERR_FSQ name IO die `die` and the REPORTER. -/
def takeNotice (s : State) (die : Nat) (n : Notice) : State :=
  let same := s.stake.seen.filter (fun m => m.failStake = n.failStake)
  let known := same.any (fun m => m.splice = n.splice)
  let multi := same.any (fun m => m.splice ≠ n.splice) || (!known && (flag s rWeaveState 27 || flag s rWeaveState 28))
  let late := decide (n.failStake = stakeNo s) && s.stake.committed
  let k := { s.stake with
    seen := s.stake.seen ++ [n]
    notices := if stakeNo s ≤ n.failStake then s.stake.notices ++ [n] else s.stake.notices
    noticeRound := if noticeHeld s then s.stake.noticeRound else s.stake.round }
  let s1 := holdNotice { s with stake := k }
  let s2 := if n.splice = 0xFFFF then raiseFault s1 8 rErrFsq 2 die n.reporter else s1
  let s3 := if multi then raiseFault s2 8 rErrFsq 3 die n.reporter else s2
  if late then raiseFault s3 8 rErrFsq 4 die n.reporter else s3

/-- The stake of the first check point at or after now. With the stake's last check point behind and no indication seen, it is the
next stake's (DEDUCED, log 14). -/
def failureStake (s : State) : Nat :=
  if s.stake.committed || (s.stake.checked && !s.stake.held) then stakeNo s + 1 else stakeNo s

/-- A port that carries warp records has failed: its NOTICE goes out at once, and again at the check point it names (R222). -/
def startNotice (s : State) (p : PortId) : State :=
  let l := (logicalOf s p).val
  let n : Notice := ⟨failureStake s, deviceCoord s, l, spliceFor s l⟩
  let s1 := floodNotice s (noticePacket s (noticePayload n)) none
  takeNotice { s1 with stake := { s1.stake with noticesAgain := s1.stake.noticesAgain ++ [n] } } (l / 8) n

/-! ## Down (R268) -/

/-- The states in which a port is active. -/
def portActive (s : State) (p : PortId) : Bool := decide (2 ≤ lstate s p) && decide (lstate s p ≤ 6)

/-- The twine packets of a port that the far end has not acknowledged: those of the replay buffer, and in flit mode the BYP messages among the
counted flits (R242, R266). -/
def unacknowledged (x : Port) : List Packet :=
  x.replay ++ (x.flitReplay.filter (fun e => e.1 = 4)).map (fun e => packetOf (numAt e.2 0 16) [])

/-- The replay buffer is discarded: every twine packet in it is lost, and the tokens that waited on it stay outstanding. -/
def loseReplay (s : State) (p : PortId) : State :=
  let lost := unacknowledged (port s p)
  let s1 := forEach lost s (fun t k => raiseErr (add64 t (rPort p 0xA8) 1) 10 rErrTwine 1 p k.dst.toNat)
  modPort s1 p (fun x => { x with
    replay := [], replayLeft := 0, copies := [], txFlits := [], txWarpExtra := [], txNotices := [], flitReplay := [],
    flitResend := [], rxPartial := none })

/-- Link bring-up is over for a port: it has no cable, or its outcome is decided and it trains no more, be it that it only watches for
signal (R284). -/
def broughtUp (s : State) (p : PortId) : Bool :=
  let l := lstate s p
  !cabled s p || (outcome s p ≠ 0 && l ≠ 2 && (l ≠ 1 || outcome s p = 2))

/-- The twine routes are built at the end of link bring-up, from the ports then in PACKET (R296). -/
def routesAtEnd (s : State) : State :=
  if !s.misc.routesBuilt && s.manifest.isSome && allPorts.all (broughtUp s) then buildRoutes s else s

/-- A port is declared down with a cause bit of ERR_LINK, or with none where the Keeper disables it. -/
def declareDown (s : State) (p : PortId) (cause : Option Nat) : State :=
  let warp := carriesWarp s p
  let s1 := match cause with
    | some b => raiseErr s 9 (rErrLink p) b p 0
    | none => s
  let s2 := raiseErr s1 9 (rErrLink p) 11 p 0
  let s3 := routesAtEnd (setLink (setLstate (loseReplay s2 p) p 7) p 3 6)
  if warp then startNotice s3 p else s3

/-! ## Recovery (R267) -/

/-- A port in PACKET enters RECOVER; `locked` says that its lanes kept their lock. The ninth entry within 1,024 stakes declares it
down. -/
def enterRecover (s : State) (p : PortId) (locked : Bool) : State :=
  if lstate s p ≠ 5 then s
  else
    let now := stakeNo s
    let old := (port s p).recoverStakes.filter (fun n => decide (now < n + 1024))
    let s1 := add64 (modPort s p (fun x => { x with recoverStakes := old ++ [now] })) (rPort p 0x98) 1
    if 8 < old.length + 1 then declareDown s1 p (some 9)
    else
      let s2 := modPort s1 p (fun x => { x with
        train := { x.train with step := b2n locked, peerReady := none, peerRecover := false, replies := [], asked := false }
        recoverTick := tick s, rxHistory := [], rxPartial := none, txFlits := [], txCount := 0, rxCount := 0, flitReplay := [], flitResend := []
        sendIdleF := false, nakF := false, hunt := false, flitsSinceIdle := 0 })
      setLink (setLstate s2 p 6) p 1 0

/-! ## Discovery (R282, R285) -/

/-- A port takes an outcome with its cause; DARK_EXPECTED, SURPLUS and MISWIRED are recorded and posted. -/
def takeOutcome (s : State) (p : PortId) (o cause : Nat) : State :=
  let s1 := setField (setField s (rPort p 0x04) 20 4 o) (rPort p 0x38) 24 4 cause
  let s2 := if o = 2 ∨ o = 3 ∨ o = 4 then
      let s2 := raiseErr (raiseErr s1 12 rErrDisc p p o) 12 rErrDisc (14 + o) p o
      postEvent s2 2 p o []
    else s1
  routesAtEnd s2

/-- The position entry of a node. -/
def positionOf (s : State) (n : Nat) : Option Position := (positions (installed s)).find? (fun e => e.node = n)

/-- The peer's PART, node, announced port and STEPPING are those of the expected far end. -/
def peerMatches (s : State) (peer : List Byte) (e : Nat × Nat) : Bool :=
  let part := if isS128 e.1 then 0x1280 else 0x8240
  let stepping := match positionOf s e.1 with
    | some q => q.stepping
    | none => 0
  numAt peer 0x0A 2 = part && numAt peer 8 2 = e.1 && numAt peer 1 1 = e.2
    && (stepping = 0 || numAt peer 0x0C 1 = stepping)

/-- The outcome of a port and its cause, from the first matching row of R282. -/
def discovery (s : State) (p : PortId) (peer : List Byte) : Nat × Nat :=
  let delay := field s (rPort p 0x14) 0 20
  if numAt peer 2 1 ≠ field s rPrtVersion 24 8 then (5, 0)
  else if !flag s rPlace 31 then (0, 0)
  else
    match cableAt s (logicalOf s p) with
    | none => (3, 0)
    | some e =>
      if !peerMatches s peer e then (4, 1)
      else if sliceB peer 0x30 32 ≠ manifestDigest s then (4, 2)
      else if numAt peer 4 2 ≠ Config.weaveAbi / 2 ^ 16 then (4, 3)
      else if (if p.val < 12 then 15000 else 500000) < delay then (4, 4)
      else (1, 0)

/-- A port decides its outcome once its cable delay is measured and its peer has announced itself. -/
def decidePort (s : State) (p : PortId) : State :=
  let x := (port s p).train
  match x.peer with
  | none => s
  | some peer =>
    if lstate s p = 2 ∧ 1 ≤ x.step ∧ x.step < 4 ∧ 64 ≤ x.delays.length then
      let o := discovery s p peer
      takeOutcome (modTrain s p (fun t => { t with step := 4 })) p o.1 o.2
    else s

/-! ## The end of training and of recovery (R241, R252, R265, R266, R283) -/

/-- Units of each channel's receive buffer (R251). -/
def bufferUnits : List Nat := [384, 384, 32]

/-- The own LIMITs and the held ones start from the announced buffer sizes (R252). -/
def startCredits (s : State) (p : PortId) : State :=
  let bufs := (port s p).train.peerBufs
  let s1 := modPort s p (fun x => { x with limits := Vector.ofFn (fun v => BitVec.ofNat 16 (bufferUnits.getD v.val 0)) })
  forEach (upTo 3) s1 (fun t v => setReg t (rPort p (0x20 + 4 * v)) (BitVec.ofNat 32 (bufs.getD v 0 * 2 ^ 16)))

/-- A port enters PACKET from TRAIN: numbers start at 0, credits at the announced buffer sizes. -/
def packetFromTrain (s : State) (p : PortId) : State :=
  let s1 := modPort s p (fun x => { x with
    txWarpSeq := 0, rxWarpSeq := 0, txTwineSeq := 0, rxTwineSeq := 0, lost := [], racks := [], copies := [], uncertain := [], alignSent := true
    replaySince := tick s, nakTTick := tick s, nakTSent := none, sendNakT := false })
  setLink (setLstate (startCredits s1 p) p 5) p 2 0

/-- A port returns to PACKET from RECOVER and replays its twine plane from the oldest unacknowledged packet. -/
def packetFromRecover (s : State) (p : PortId) : State :=
  let s1 := modPort s p (fun x => { x with replayLeft := x.replay.length, rxHistory := [], replaySince := tick s })
  let s2 := if (port s1 p).replay.isEmpty then s1 else add64 s1 (rPort p 0x80) 1
  setLink (setLstate s2 p 5) p 2 0

/-- A port leaves TRAIN with success: its failed attempts no longer stand in a row (R265). -/
def leaveTrain (s : State) (p : PortId) (peer : Byte) : State :=
  let o := outcome s p
  let s0 := modTrain s p (fun t => { t with attempts := 0 })
  if o = 5 then setLink (raiseErr (setLstate (startCredits s0 p) p 4) 9 (rErrLink p) 0 p 0) p 3 5
  else if o = 1 ∧ peer.toNat = 1 then packetFromTrain s0 p
  else
    let s1 := setLstate s0 p 3
    if o = 1 then s1 else setLink s1 p 3 o

/-- Once READY has gone both ways and no counted flit is unacknowledged, the port moves on (R241, R283): to PACKET where both
outcomes are UP, to PARLEY on another major version, else to FLIT_HELD. -/
def finishExchange (s : State) (p : PortId) : State :=
  let x := port s p
  match x.train.peerReady with
  | none => s
  | some r =>
    if x.train.step < 5 ∨ !x.flitReplay.isEmpty then s
    else if lstate s p = 6 then packetFromRecover s p
    else if lstate s p ≠ 2 then s
    else routesAtEnd (leaveTrain s p r)

/-- A training attempt fails: back to DETECT, or DOWN after the eighth in a row, where a port with a cable takes the outcome
DARK_EXPECTED (R265, R284). -/
def failAttempt (s : State) (p : PortId) : State :=
  let n := (port s p).train.attempts + 1
  let s1 := modTrain s p (fun t => { t with attempts := n })
  if n < 8 then enterDetect s1 p
  else
    let s2 := declareDown (modTrain s1 p (fun t => { t with attempts := 0 })) p (some 10)
    if cabled s2 p then takeOutcome s2 p 2 0 else s2

/-! ## Hold indications (R26, R27, R31) -/

/-- The hold tag of the current stake and round. -/
def holdTag (s : State) : Nat := stakeNo s % 128 * 2 + s.stake.round % 2

/-- The device is aligned (R288). -/
def aligned (s : State) : Bool := flag s rAlign 31

/-- This device sends hold indications: from the assertion or acceptance to the commit point. -/
def holdsNow (s : State) : Bool := aligned s && s.stake.held && !s.stake.committed

/-- An indication with tag `t` is accepted on port `p`. -/
def takeHold (s : State) (p : PortId) (t : Nat) : State :=
  if !aligned s then s
  else if s.stake.refusedRound = some t then raiseFault s 0 rErrStake 1 0xFF (field s rHoldStatus 0 24)
  else if t = holdTag s ∧ !s.stake.committed then
    if s.stake.held then s
    else add64 { s with stake := { s.stake with held := true } } (rPort p 0x90) 1
  else s

end Sys2Proof.Machine
end

