-- ==== Sys2Proof/Machine/Align.lean ====
section
/-! DEFINITION. Control messages between IO dies: tick alignment (R288 to R292) and pair digests (R324, R325). -/

namespace Sys2Proof.Machine

/-! ## ALIGN (R289, R290, R292) -/

/-- A 64-bit number moved by a signed offset. -/
def add64Int (n : Nat) (d : Int) : Nat := wrap 64 ((n : Int) + d)

/-- The offset of an ALIGN accepted on port `p`: its T_SEND, the cable delay to the nearest tick and the fixed delays, less the own
TICK_COUNT. -/
def alignOffset (s : State) (p : PortId) (b : List Byte) : Int :=
  let delay := (field s (rPort p 0x14) 0 20 + 250) / 500
  ((numAt b 0x18 8 + delay + Config.fixedDelay : Nat) : Int) - (tick s : Int)

/-- The payload of the ALIGN that this device sends on port `p` now. -/
def alignPayload (s : State) (p : PortId) : List Byte :=
  let on := aligned s
  [1] ++ leBytes 1 (b2n on) ++ leBytes 1 (if on then field s rAlign 24 3 else 0) ++ leBytes 1 (logicalOf s p).val
    ++ leBytes 4 0 ++ leBytes 8 (stakeNo s) ++ leBytes 8 (reg64 s rStakeStart) ++ leBytes 8 (tick s) ++ List.replicate 32 0

/-- An aligned device checks an ALIGN (R292). -/
def checkAlign (s : State) (p : PortId) (b : List Byte) : State :=
  let d := alignOffset s p b
  let s1 := if 32 < d.natAbs then raiseFault s 11 rErrPlace 4 p (wrap 48 d) else s
  if numAt b 8 8 ≠ stakeNo s ∨ numAt b 0x10 8 ≠ reg64 s rStakeStart then raiseFault s1 11 rErrPlace 5 p 0 else s1

/-- An unaligned device collects candidates for 36,864 ticks from the first (R290). -/
def collectAlign (s : State) (p : PortId) (b : List Byte) : State :=
  let depth := numAt b 2 1
  let a := s.align
  if depth = 5 then raiseErr s 11 rErrPlace 6 p 0
  else if 5 < depth then s
  else if a.candidates.isEmpty ∨ tick s < a.firstTick + 36864 then
    let c := (depth, (logicalOf s p).val, alignOffset s p b, numAt b 8 8, numAt b 0x10 8)
    { s with align := ⟨a.candidates ++ [c], if a.candidates.isEmpty then tick s else a.firstTick⟩ }
  else s

/-- An ALIGN accepted on a port in PACKET. -/
def receiveAlign (s : State) (p : PortId) (b : List Byte) : State :=
  if !portUp s p || numAt b 1 1 ≠ 1 then s
  else if aligned s then checkAlign s p b
  else collectAlign s p b

/-- The candidate with the lowest depth, and among these the lowest logical port. -/
def bestCandidate : List (Nat × Nat × Int × Nat × Nat) → Option (Nat × Nat × Int × Nat × Nat)
  | [] => none
  | c :: l =>
    match bestCandidate l with
    | none => some c
    | some d => if d.1 < c.1 ∨ (d.1 = c.1 ∧ d.2.1 < c.2.1) then some d else some c

/-- The device is aligned: DEV_ALIGN and the ALIGN function (R385, R386). -/
def setAligned (s : State) (origin : Bool) (depth port : Nat) : State :=
  let s1 := setReg s rAlign (BitVec.ofNat 32 (2 ^ 31 + b2n origin * 2 ^ 30 + depth * 2 ^ 24 + port))
  let s2 := { s1 with align := ⟨[], 0⟩ }
  if func s2 fAlign = 1 then setFunc s2 fAlign 2 0 else s2

/-- The stake state of a stake in its round 0: its check point and its commit point have passed where their ticks lie behind. -/
def freshStake (s : State) : StakeState :=
  let past := fun (k : Nat) => decide (k < stakeOffset s)
  { s.stake with
    round := 0, held := false, checked := past 33408, committed := past 36288, refusedRound := none
    judged := none, arisen := 0, frameStarted := past 33408 }

/-- ALIGN messages begin with the stake that begins at or after the alignment (R289): none is due in a stake that began before. -/
def noAlignYet (s : State) : State :=
  forEach allPorts s (fun t p => modPort t p (fun x => { x with alignSent := decide (stakeOffset s ≠ 0) }))

/-- The stake that runs at tick `t` and its first tick, by a STAKE and a STAKE_START sent before: each stake since lasts 36,864 ticks (R18). A hold
quantum of a stake in between is not known to a device that is unaligned (DEDUCED, log 66). -/
def stakeAt (t stake start : Nat) : Nat × Nat :=
  let k := (t + 2 ^ 64 - start) % 2 ^ 64 / 36864
  (stake + k, start + k * 36864)

/-- The best candidate is adopted, with the stake that has come of its STAKE and STAKE_START by now (R290). -/
def adoptAlign (s : State) : State :=
  match bestCandidate s.align.candidates with
  | none => s
  | some c =>
    if aligned s ∨ tick s < s.align.firstTick + 36864 then s
    else
      let s1 := setReg64 s rTick (add64Int (tick s) c.2.2.1)
      let k := stakeAt (tick s1) c.2.2.2.1 c.2.2.2.2
      let s2 := noAlignYet (setReg64 (setReg64 s1 rStake k.1) rStakeStart k.2)
      setAligned { s2 with stake := freshStake s2 } false (c.1 + 1) c.2.1

/-- A tick root aligns itself: TICK_COUNT is 0 and stake 0 begins, at whose first tick the waiting time writes are taken and TICK_EPOCH is
latched (R291, R406, R407). -/
def rootAlign (s : State) : State :=
  let s1 := setReg64 (setReg64 (setReg64 s rTick 0) rStake 0) rStakeStart 0
  let s2 := forEach allPorts s1 (fun t p => modPort t p (fun x => { x with alignSent := false }))
  latchEpoch (applyTimeWrites (setAligned { s2 with stake := freshStake s2 } true 0 0))

/-- Ticks in a number of seconds. -/
def secondTicks : Nat := 2000000000

/-- Every port with a cable has an outcome other than "none". -/
def cabledDecided (s : State) : Bool := allPorts.all (fun p => !cabled s p || outcome s p ≠ 0)

/-! ## Pair digests (R324, R325) -/

/-- The digests of one packet. -/
def digestsOf (b : List Byte) : List Word64 := (upTo 16).map (fun i => BitVec.ofNat 64 (numAt b (0x10 + 8 * i) 8))

/-- The partner's 64 digests of frame `k`, once all four packets have come. -/
def peerDigests (s : State) (k : Nat) : Option (List Word64) :=
  let group := fun (g : Nat) => (s.misc.pairPeer.find? (fun e => e.1 = k && e.2.1 = g)).map (·.2.2)
  match group 0, group 1, group 2, group 3 with
  | some a, some b, some c, some d => some (a ++ b ++ c ++ d)
  | _, _, _, _ => none

/-- The first frame that differs is recorded and posted, and faults the machine with ACTION = 1. -/
def pairMismatch (s : State) (k pod_ : Nat) : State :=
  if flag s rPairStatus 30 then s
  else
    let s1 := setFlag s rPairStatus 30 true
    let s2 := setField (setReg64 s1 rPairLocStake k) rPairLoc 16 6 pod_
    let s3 := raiseErr s2 13 rErrPair 0 pod_ k
    let s4 := postEvent s3 4 k (reg s3 rPairStatus).toNat []
    if flag s4 rPair 30 then machineFault s4 rErrPair 0 pod_ else s4

/-- The two sides of frame `k` are compared once both are there. In LOCATE mode, equal digests of the recorded stake show that it
was not reproduced (R326). -/
def comparePair (s : State) (k : Nat) : State :=
  match s.misc.pairOwn.find? (fun e => e.1 = k), peerDigests s k with
  | some own, some peer =>
    let s1 := modMisc s (fun m => { m with
      pairOwn := m.pairOwn.filter (fun e => e.1 ≠ k), pairPeer := m.pairPeer.filter (fun e => e.1 ≠ k) })
    let s2 := setField s1 rPairStatus 0 28 (min 0xFFFFFFF (field s1 rPairStatus 0 28 + 1))
    match (upTo 64).find? (fun i => own.2.getD i 0 ≠ peer.getD i 0) with
    | some i => pairMismatch s2 k i
    | none => if flag s2 rPair 29 ∧ reg64 s2 rPairLocStake = k then setFlag s2 rPairStatus 28 true else s2
  | _, _ => s

/-- A pair digest packet is received. -/
def receivePairDigest (s : State) (b : List Byte) : State :=
  let k := numAt b 8 8
  let g := numAt b 1 1
  if !flag s rPairStatus 31 || decide (3 < g) then s
  else comparePair (modMisc s (fun m => { m with
    pairPeer := m.pairPeer.filter (fun e => !(e.1 = k && e.2.1 = g)) ++ [(k, g, digestsOf b)] })) k

/-- A control message (R289, R324): its CODE says what it is; any other code is the Keeper's. -/
def receiveControl (s : State) (p : PortId) (k : Packet) : State :=
  let code := numAt k.payload 0 1
  if code = 1 then receiveAlign (freeRx s p k) p k.payload
  else if code = 2 then receivePairDigest (freeRx s p k) k.payload
  else toKeeper s (some p) k

/-! ## Rows -/

/-- ALIGN_RX: an accepted ALIGN. -/
def execAlignRx (p : PortId) (payload : List Byte) (s : State) : Host.Outcome State Fault Refusal :=
  .next (receiveAlign s p payload)

/-- ALIGN_ADOPT: the collection window has ended. -/
def execAlignAdopt (s : State) : Host.Outcome State Fault Refusal := .next (adoptAlign s)

/-- TICK_ROOT_ALIGN (R291): the tick root, with no candidate, once its ports are decided or 5 s have passed. -/
def execTickRootAlign (s : State) : Host.Outcome State Fault Refusal :=
  .next (if !aligned s && flag s rManifest 31 && flag s rPlace 29 && s.align.candidates.isEmpty
      && (cabledDecided s || decide (5 * secondTicks ≤ tick s)) then rootAlign s else s)

/-- ALT_ROOT_ALIGN (R291): the alternate tick root, still unaligned after 10 s. -/
def execAltRootAlign (s : State) : Host.Outcome State Fault Refusal :=
  .next (if !aligned s && flag s rPlace 28 && decide (10 * secondTicks ≤ tick s) then rootAlign s else s)

/-- ALIGN_TIMEOUT (R290): still unaligned after 15 s. -/
def execAlignTimeout (s : State) : Host.Outcome State Fault Refusal :=
  .next (if !aligned s && decide (15 * secondTicks ≤ tick s) then raiseErr s 11 rErrPlace 7 0xFF 0 else s)

/-- UNALIGNED_ALIGN_SEND (R289): every port in PACKET is to send ALIGN with STATE 0. -/
def execUnalignedAlignSend (s : State) : Host.Outcome State Fault Refusal :=
  .next (if aligned s then s
    else forEach allPorts s (fun t p => if portUp t p then modPort t p (fun x => { x with alignSent := false }) else t))

/-- PAIR_DIGEST_RX: a pair digest packet is compared with the own digests. -/
def execPairDigestRx (payload : List Byte) (s : State) : Host.Outcome State Fault Refusal := .next (receivePairDigest s payload)

/-- PAIR_DIGEST_TIMEOUT (R324): the digests of a frame have not all come by the check point that ends the third frame after it. -/
def execPairDigestTimeout (s : State) : Host.Outcome State Fault Refusal :=
  let last := (s.misc.pairOwn.map (·.1)).foldl max 0
  let late := s.misc.pairOwn.find? (fun e => decide (e.1 + 3 ≤ last))
  match late with
  | some e =>
    if flag s rPairStatus 31 then .next (raiseErr (setFlag s rPairStatus 31 false) 13 rErrPair 1 0xFF e.1) else .next s
  | none => .next s

end Sys2Proof.Machine
end

