-- ==== Sys2Proof/Machine/Fec.lean ====
section
/-! DEFINITION. The checks of a flit: the Reed-Solomon code RS(231, 212) over GF(2^10) (R235), the CRC-16 of flit mode (R240) and
the CRC-32 of a packet (R239). -/

namespace Sys2Proof.Machine

/-! ## GF(2^10) with x^10 + x^3 + 1 (R235) -/

/-- Times α. -/
def gfDouble (a : Nat) : Nat := if a < 512 then 2 * a else Nat.xor (2 * a) 0x409

/-- The product, by the low `fuel` bits of the second factor. -/
def gfMulBits : Nat → Nat → Nat → Nat
  | 0, _, _ => 0
  | fuel + 1, a, b => Nat.xor (if b % 2 = 1 then a else 0) (gfMulBits fuel (gfDouble a) (b / 2))

/-- The product of two symbols. -/
def gfMul (a b : Nat) : Nat := gfMulBits 10 a b

/-- a^(2^n) multiplied up: a^(2^1 + … + 2^n). -/
def gfSquares : Nat → Nat → Nat
  | 0, _ => 1
  | n + 1, a => gfMul (gfMul a a) (gfSquares n (gfMul a a))

/-- The inverse, a^1022. -/
def gfInv (a : Nat) : Nat := gfSquares 9 a

/-- The first `n` powers of `a` times `x`. -/
def gfPowers : Nat → Nat → Nat → List Nat
  | 0, _, _ => []
  | n + 1, a, x => x :: gfPowers n a (gfMul x a)

/-- α^0 to α^18. -/
def fecRoots : List Nat := gfPowers 19 2 1

/-- The value at `x` of a polynomial given from its highest coefficient down. -/
def gfEvalHigh (l : List Nat) (x : Nat) : Nat := l.foldl (fun acc c => Nat.xor (gfMul acc x) c) 0

/-- The value at `x` of a polynomial given from its constant term up. -/
def gfEvalLow (l : List Nat) (x : Nat) : Nat := gfEvalHigh l.reverse x

/-- The sum of two polynomials, constant terms first. -/
def polyAdd : List Nat → List Nat → List Nat
  | [], b => b
  | a, [] => a
  | x :: a, y :: b => Nat.xor x y :: polyAdd a b

/-- A polynomial times a symbol. -/
def polyScale (k : Nat) (l : List Nat) : List Nat := l.map (gfMul k)

/-- A polynomial times (x + r), constant term first. -/
def polyTimesRoot (l : List Nat) (r : Nat) : List Nat := polyAdd (0 :: l) (polyScale r l)

/-- The generator, from its highest coefficient down. -/
def fecGenerator : List Nat := (fecRoots.foldl polyTimesRoot [1]).reverse

/-! ## Encoding -/

/-- One data symbol enters the division by the generator. -/
def fecShift (rest : List Nat) (d : Nat) : List Nat :=
  let k := Nat.xor (rest.headD 0) d
  (List.zip (rest.tail ++ [0]) (polyScale k fecGenerator.tail)).map (fun p => Nat.xor p.1 p.2)

/-- The 19 parity symbols of 212 data symbols. -/
def fecParity (data : List Nat) : List Nat := data.foldl fecShift (List.replicate 19 0)

/-- The 10-bit symbols of a number, lowest bits first (DESIGN CHOICE, log 13). -/
def symbolsOf (n x : Nat) : List Nat := (upTo n).map (fun i => x / 2 ^ (10 * i) % 1024)

/-- The number that symbols form. -/
def symbolsNat : List Nat → Nat
  | [] => 0
  | a :: l => a % 1024 + 1024 * symbolsNat l

/-- The 24 PARITY bytes of a flit's 264 bytes. -/
def flitParity (b : List Byte) : List Byte := leBytes 24 (symbolsNat (fecParity (symbolsOf 212 (256 * leNat b))))

/-! ## Decoding (R235) -/

/-- The syndromes of a received word. -/
def fecSyndromes (word : List Nat) : List Nat := fecRoots.map (gfEvalHigh word)

/-- The state of the search for the error locator: locator, its predecessor, length, shift, the predecessor's discrepancy. -/
abbrev Locator := List Nat × List Nat × Nat × Nat × Nat

/-- The discrepancy at step `n`. -/
def discrepancy (s : List Nat) (c : List Nat) (n : Nat) : Nat :=
  (upTo (n + 1)).foldl (fun acc i => Nat.xor acc (gfMul (c.getD i 0) (s.getD (n - i) 0))) 0

/-- One step of the search. -/
def locatorStep (s : List Nat) (t : Locator) (n : Nat) : Locator :=
  let (c, b, l, m, k) := t
  let d := discrepancy s c n
  if d = 0 then (c, b, l, m + 1, k)
  else
    let c' := polyAdd c (polyScale (gfMul d (gfInv k)) (List.replicate m 0 ++ b))
    if 2 * l ≤ n then (c', c, n + 1 - l, 1, d) else (c', b, l, m + 1, k)

/-- The error locator and its length. -/
def fecLocator (s : List Nat) : List Nat × Nat :=
  let t := (upTo 19).foldl (locatorStep s) ([1], [1], 0, 1, 1)
  (t.1, t.2.2.1)

/-- The error at the position of power α^i, of a locator and the syndromes. -/
def errorValue (s loc : List Nat) (x : Nat) : Nat :=
  let xi := gfInv x
  let omega := (upTo 19).map (fun n => discrepancy s loc n)
  let deriv := (List.zip loc.tail (upTo loc.tail.length)).map (fun p => if p.2 % 2 = 0 then p.1 else 0)
  gfMul x (gfMul (gfEvalLow omega xi) (gfInv (gfEvalLow deriv xi)))

/-- The corrected word and the number of corrected symbols, or none where more than nine are wrong. -/
def fecCorrect (word : List Nat) : Option (List Nat × Nat) :=
  let s := fecSyndromes word
  if s.all (· = 0) then some (word, 0)
  else
    let loc := fecLocator s
    if 9 < loc.2 then none
    else
      let powers := (gfPowers 231 2 1).reverse
      let fixed := (List.zip word powers).map (fun p =>
        if gfEvalLow loc.1 (gfInv p.2) = 0 then Nat.xor p.1 (errorValue s loc.1 p.2) else p.1)
      let wrong := ((List.zip word fixed).filter (fun p => decide (p.1 ≠ p.2))).length
      if (fecSyndromes fixed).all (· = 0) && decide (wrong ≤ 9) then some (fixed, wrong) else none

/-- The 264 bytes of a received flit after correction and the number of corrected symbols; none where it is uncorrectable. -/
def flitCorrect (raw : List Byte) : Option (List Byte × Nat) :=
  let data := symbolsOf 212 (256 * leNat (sliceB raw 0 264))
  let parity := symbolsOf 19 (leNat (sliceB raw 264 24))
  match fecCorrect (data ++ parity) with
  | none => none
  | some r =>
    let x := symbolsNat (r.1.take 212)
    if x % 256 = 0 then some (leBytes 264 (x / 256), r.2) else none

/-! ## CRC-16 and CRC-32 -/

/-- One bit of the CRC-16, most significant bit first. -/
def flitCrc16Bit (c : Nat) : Nat := if c < 0x8000 then 2 * c else Nat.xor (2 * c) 0x11021 % 0x10000

/-- One byte of the CRC-16: polynomial 0x1021, not reflected. -/
def flitCrc16Byte (c : Nat) (b : Byte) : Nat :=
  (upTo 8).foldl (fun x _ => flitCrc16Bit x) (Nat.xor c (b.toNat * 256))

/-- The CRC-16 of R240, initial value 0xFFFF. -/
def flitCrc16 (l : List Byte) : Nat := l.foldl flitCrc16Byte 0xFFFF

/-- One bit of the CRC-32, least significant bit first. -/
def packetCrc32Bit (c : Nat) : Nat := if c % 2 = 1 then Nat.xor (c / 2) 0xEDB88320 else c / 2

/-- One byte of the CRC-32: polynomial 0x04C11DB7, reflected. -/
def packetCrc32Byte (c : Nat) (b : Byte) : Nat := (upTo 8).foldl (fun x _ => packetCrc32Bit x) (Nat.xor c b.toNat)

/-- The CRC-32 of R239: initial value all ones, complemented. -/
def packetCrc32 (l : List Byte) : Nat := Nat.xor (l.foldl packetCrc32Byte 0xFFFFFFFF) 0xFFFFFFFF

end Sys2Proof.Machine
end

