-- ==== Sys2Proof/Machine/Readout.lean ====
section
/-! DEFINITION. Reading registers: the values that a read derives from the rest of the state, the gated blocks (R441), the
snapshot's shadow copies (R436) and the latches of each agent (R439). -/

namespace Sys2Proof.Machine

/-! ## Bit masks of the device -/

/-- A mask of the indices below `n` that `f` selects. -/
def maskOf (n : Nat) (f : Nat → Bool) : Nat := ((upTo n).map (fun i => if f i then 2 ^ i else 0)).sum

/-- Every cabled port is READY or FAILED (R409). -/
def linkDecided (s : State) : Bool :=
  s.manifest.isSome && (upTo 16).all (fun p =>
    !cabled s (toPort p) || func s (fLink p) = 2 || func s (fLink p) = 3)

/-- DEV_READY (R409). -/
def readyWord (s : State) : Nat :=
  let r := fun (f : Nat) => decide (func s f = 2)
  b2n (r fPcie) * 2 ^ 31 + b2n (r fKeeper) * 2 ^ 30 + b2n (flag s rCfgStatus 30) * 2 ^ 29 + b2n (r fTime) * 2 ^ 28
    + b2n (r fAlign) * 2 ^ 27 + b2n (r fMgmt) * 2 ^ 26 + b2n ((upTo 12).all (fun k => r (fRoot k))) * 2 ^ 25
    + b2n ((upTo 64).all (fun p => r (fPod p))) * 2 ^ 24 + b2n (linkDecided s) * 2 ^ 23
    + maskOf 12 (fun k => r (fRoot k))

/-! ## Derived values -/

/-- PENDING of a stream: consumed and not completed (R338). -/
def strmPending (x : Stream) : Nat :=
  (x.subs.filter (fun u => match u.status with | .complete _ _ _ _ _ => false | _ => true)).length

/-- IN_FLIGHT: samples of the submissions that a queue has accepted and no post has named. -/
def strmInFlight (x : Stream) : Nat := ((x.subs.filter isQueued).map (·.samples)).sum

/-- Stakes in which RECOVER was entered within the last 1,024 (R267). -/
def recentRecovers (s : State) (p : PortId) : Nat :=
  ((port s p).recoverStakes.filter (fun n => decide (stakeNo s < n + 1024))).length

/-- Replay-buffer use of a port: entries and bytes (R250, R270). -/
def replayUse (x : Port) : Nat × Nat :=
  let bytes := fun (k : Packet) => k.payload.length + 20
  (x.copies.length + x.replay.length,
    (x.copies.map (fun c => bytes c.pkt)).sum + (x.replay.map bytes).sum)

/-- The bits of POD_TE_STATUS above WALK_LENGTH (R102). R102 gives WALKING and SUMMING no cycles: a window walks from its issue to its last walk
cycle, L + 2 of R95, and is in its sum or output write from there to its release (DESIGN CHOICE, log 59). -/
def teStatusBits (x : Pod) : Nat :=
  let now := x.core.cycle
  let walking := fun (w : Window) => decide (now < w.issued + w.length + 2)
  b2n (x.te.windows.any walking) * 2 ^ 31 + b2n (x.te.windows.any (fun w => !walking w)) * 2 ^ 30
    + b2n (x.te.nloads.any (fun d => decide (now < d.cyc))) * 2 ^ 29
    + b2n ((vget x.te.halves 1).loads.any (fun d => decide (now < d.cyc))) * 2 ^ 28
    + b2n ((vget x.te.halves 0).loads.any (fun d => decide (now < d.cyc))) * 2 ^ 27

/-- The registers of a Pod block whose value is derived. -/
def podRead (s : State) (p : PodId) (o : Nat) : Word :=
  let x := pod s p
  let raw := pReg s p o
  if o = 0x504 then raw ||| BitVec.ofNat 32 (teStatusBits x)
  else if 0x800 ≤ o ∧ o < 0x820 then raw ||| BitVec.ofNat 32 (vget x.outq (fin 8 (by decide) ((o - 0x800) / 4))).tokens.length
  else if 0x820 ≤ o ∧ o < 0x840 then raw ||| BitVec.ofNat 32 (vget x.inq (fin 8 (by decide) ((o - 0x820) / 4))).length
  else if 0x840 ≤ o ∧ o < 0x860 then (vget x.outq (fin 8 (by decide) ((o - 0x840) / 4))).nextSeq
  else raw

/-- The registers of a port whose value is derived. -/
def portRead (s : State) (p : PortId) (o : Nat) : Word :=
  let x := port s p
  let raw := reg s (rPort p o)
  let use := replayUse x
  if o = 0x04 then setF raw 16 4 (min 9 (recentRecovers s p))
  else if o = 0x18 then BitVec.ofNat 32 (x.txTwineSeq.toNat * 2 ^ 16 + x.txWarpSeq.toNat)
  else if o = 0x1C then BitVec.ofNat 32 (x.rxTwineSeq.toNat * 2 ^ 16 + x.rxWarpSeq.toNat)
  else if o = 0x2C then BitVec.ofNat 32 (min 512 use.1 * 2 ^ 16 + min 256 (ceilDiv use.2 1024))
  else if o = 0x30 then BitVec.ofNat 32 x.lost.length
  else raw

/-- The admin command that the device has taken and not completed: a LOAD or a READ whose bytes are on their way (R338, R345). -/
def adminPending (s : State) : Nat :=
  b2n (s.misc.loading.isSome || s.misc.netJobs.any (fun j => match j.key with
    | .read _ _ => true
    | _ => false))

/-- The registers of a stream whose value is derived. -/
def streamRead (s : State) (i : StreamId) (o : Nat) : Word :=
  let raw := reg s (rStream i o)
  if o = 0x34 then raw ||| BitVec.ofNat 32 ((strmPending (strm s i) + (if i.val = 0 then adminPending s else 0)) * 2 ^ 7 + min 127 (strmInFlight (strm s i)))
  else raw

/-- Requests a Gather Engine has taken in and not completed (R130). -/
def geOutstanding (s : State) (d : Nat) : Nat :=
  ((upTo 16).map (fun i => (pod s (toPod (16 * d + i))).gathers.length)).sum

/-- The live value of the register at BAR0 offset `o`. -/
def liveReg (s : State) (o : Nat) : Word :=
  let w := BitVec.ofNat 32
  if 0x1000000 ≤ o ∧ o < 0x1400000 then podRead s (toPod ((o - 0x1000000) / 0x10000)) (o % 0x10000)
  else if 0x201000 ≤ o ∧ o < 0x202000 then portRead s (toPort ((o - 0x201000) / 0x100)) (o % 0x100)
  else if 0x102000 ≤ o ∧ o < 0x103000 then streamRead s (toStream ((o - 0x102000) / 0x40)) (o % 0x40)
  else if o = rReady then w (readyWord s)
  else if o = rReadyPodLo then w (maskOf 32 (fun p => decide (func s (fPod p) = 2)))
  else if o = rReadyPodHi then w (maskOf 32 (fun p => decide (func s (fPod (32 + p)) = 2)))
  else if o = rReadyLink then w (maskOf 16 (fun p => decide (func s (fLink p) = 2)))
  else if o = rNowNs then w (timeNs s.time)
  else if o = rNowNs + 4 then s.time.secs.setWidth 32
  else if o = rNowNs + 8 then (s.time.secs >>> 32).setWidth 32
  else if o = rNowNs + 12 then w (timeFrac s.time)
  else if rCfgIdDigest ≤ o ∧ o < rCfgIdDigest + 32 then w (numAt (identityDigest s) (o - rCfgIdDigest) 4)
  else if o = rErrSummary then w (errSummary s)
  else if 0x20F0000 ≤ o ∧ o < 0x20F0400 ∧ o % 0x100 = 0 then w (geOutstanding s ((o - 0x20F0000) / 0x100))
  else if o = rDbgStatus then
    setF (setF (setF (reg s o) 31 1 (b2n s.dport.locked)) 30 1 (b2n s.fuses.debugOpen)) 26 2 (min 3 s.dport.fails)
  else if o = rDbgHalted then w (maskOf 32 (fun p => podHalted s (toPod p)))
  else if o = rDbgHalted + 4 then w (maskOf 32 (fun p => podHalted s (toPod (32 + p))))
  else reg s o

/-! ## Gated blocks (R358, R441) -/

/-- The register belongs to a block whose CLK_GATE bit is 0. -/
def gatedOff (s : State) (o : Nat) : Bool :=
  ((o = rFcountCtrl || o = rFcount) && !flag s rClkGate 6) || ((o = rPtpCtrl || o = rPtpLat) && !flag s rClkGate 0)

/-! ## Snapshots (R435, R436) -/

/-- The register belongs to a counter of R435. -/
def isCounter (o : Nat) : Bool :=
  if 0x1000000 ≤ o ∧ o < 0x1400000 then
    let r := o % 0x10000
    (decide (0x110 ≤ r) && decide (r < 0x120)) || (decide (0x200 ≤ r) && decide (r < 0x300))
      || (decide (0x408 ≤ r) && decide (r < 0x418)) || (decide (0x510 ≤ r) && decide (r < 0x524))
      || (decide (0x610 ≤ r) && decide (r < 0x618)) || r = 0x700 || r = 0x704
      || (decide (0x800 ≤ r) && decide (r < 0x840)) || r = 0x880 || r = 0x884
  else if 0x201000 ≤ o ∧ o < 0x202000 then decide (0x40 ≤ o % 0x100) && decide (o % 0x100 < 0xC0) || o % 0x100 = 0x30 || o % 0x100 = 0x34
  else if 0x200400 ≤ o ∧ o < 0x200800 then decide (0x10 ≤ o % 0x200) && decide (o % 0x200 < 0x70)
  else o = rHoldStatus || o = rHoldTotal || o = rHoldTotal + 4
    || (decide (0x20F0000 ≤ o) && decide (o < 0x20F0400) && decide (8 ≤ o % 0x100) && decide (o % 0x100 < 0x20))
    || (decide (0x2000140 ≤ o) && decide (o < 0x2000170)) || (decide (0x10300 ≤ o) && decide (o < 0x10380))
    || o = rPwrStatus || o = rPwrEst || o = rPwrMeas || o = rPwrEnvelope || o = rPostsDropped

/-- The offsets of every counter register. -/
def counterOffsets : List Nat :=
  let podPart := (upTo 4).map (0x110 + 4 * ·) ++ (upTo 64).map (0x200 + 4 * ·) ++ (upTo 4).map (0x408 + 4 * ·)
    ++ (upTo 5).map (0x510 + 4 * ·) ++ (upTo 2).map (0x610 + 4 * ·) ++ [0x700, 0x704] ++ (upTo 16).map (0x800 + 4 * ·)
    ++ [0x880, 0x884]
  [rHoldStatus, rHoldTotal, rHoldTotal + 4, rPwrStatus, rPwrEst, rPwrMeas, rPwrEnvelope, rPostsDropped]
    ++ (upTo 32).map (0x10300 + 4 * ·) ++ (upTo 12).map rRootEcc
    ++ (upTo 4).flatMap (fun d => (upTo 6).map (fun i => rGe d (8 + 4 * i)))
    ++ (upTo 2).flatMap (fun f => (upTo 24).map (fun i => rFsq f (0x10 + 4 * i)))
    ++ (upTo 16).flatMap (fun p => ((upTo 32).map (0x40 + 4 * ·) ++ [0x30, 0x34]).map (rPort p))
    ++ (upTo 64).flatMap (fun p => podPart.map (rPod p))

/-- Copy every counter to its shadow copy (R436). -/
def takeSnapshot (s : State) : State :=
  { s with shadow := counterOffsets.foldl (fun t o => tabSet 0 t o (liveReg s o)) [] }

/-- DEV_SNAP_CTRL.HELD. -/
def snapHeld (s : State) : Bool := flag s rSnapCtrl 28

/-- The value of a register without the latches. -/
def plainRead (s : State) (o : Nat) : Word :=
  if gatedOff s o then 0
  else if snapHeld s && isCounter o then tabGet 0 s.shadow o
  else liveReg s o

/-! ## Latches (R439) -/

/-- The registers that a read of the register at `o` latches, by their distance; a checkpoint or restart register's LO latches its HI (R424). -/
def latchedBy (o : Nat) : List Nat :=
  if o = rTick then [4]
  else if o = rNowNs then [4, 8, 12]
  else if o = rEpochTick then [4, 8, 12, 16, 20]
  else if [rStake, rStakeStart, rHoldTotal, rWeaveStake, rStartStake, rSeedId, rPairLocStake, rPairLocAddr, rFaultStake,
      rCkptLast, rCkptLastStep, rCkptPrev, rCkptPrevStep, rRestart].contains o then [4]
  else if 0x80800 ≤ o ∧ o < 0x80A60 ∧ o % 0x20 = 8 then [4]
  else if 0x1000000 ≤ o ∧ o < 0x1400000 then
    let r := o % 0x10000
    if [0x110, 0x118, 0x408, 0x410, 0x510, 0x518, 0x608, 0x610].contains r ∨ (0x200 ≤ r ∧ r < 0x300 ∧ r % 8 = 0) then [4] else []
  else if 0x201000 ≤ o ∧ o < 0x202000 ∧ 0x40 ≤ o % 0x100 ∧ o % 0x100 < 0xC0 ∧ o % 8 = 0 then [4]
  else if 0x200400 ≤ o ∧ o < 0x200800 ∧ 0x10 ≤ o % 0x200 ∧ o % 0x200 < 0x70 ∧ o % 8 = 0 then [4]
  else if 0x20F0000 ≤ o ∧ o < 0x20F0400 ∧ (o % 0x100 = 8 ∨ o % 0x100 = 0x10 ∨ o % 0x100 = 0x18) then [4]
  else []

/-- The register at `o` is read through a latch. -/
def isLatched (o : Nat) : Bool :=
  [4, 8, 12, 16, 20].any (fun d => decide (d ≤ o) && (latchedBy (o - d)).contains d)

/-- The number of an agent. -/
def agentNo : Agent → Nat
  | .host => 0
  | .keeper => 1
  | .debug => 2
  | .pod p => 3 + p.val

/-- The key of an agent's latch of the register at `o`. -/
def latchKey (a : Agent) (o : Nat) : Nat := agentNo a * 2 ^ 26 + o

/-- A 32-bit read by an agent: the value, and the state with its latches. -/
def readReg (s : State) (a : Agent) (o : Nat) : Word × State :=
  let v := if isLatched o then tabGet 0 s.latches (latchKey a o) else plainRead s o
  (v, { s with latches := (latchedBy o).foldl (fun t d => tabSet 0 t (latchKey a (o + d)) (plainRead s (o + d))) s.latches })

end Sys2Proof.Machine
end

