-- ==== Sys2Proof/Machine/Power.lean ====
section
/-! DEFINITION. Power and heat: the estimate (R379), the rates under the cap (R372, R374), estimate against measurement (R375, R376),
the thermal ceiling (R377) and THERMTRIP_N (R466), with their rows. -/

namespace Sys2Proof.Machine

/-! ## The estimate (R379) -/

/-- VALUE of PWR_COEF[i]. -/
def coef (s : State) (i : Nat) : Nat := field s (rPwrCoef i) 0 24

/-- Ports in PACKET. -/
def portsUp (s : State) : Nat := (allPorts.filter (portUp s)).length

/-- The parts of the estimate of the present 1 µs interval in µW: what no rate scales, then the scaled parts of links, memory and
compute. A pJ per 1 µs is a µW. -/
def estimateParts (s : State) : List Nat :=
  let w := s.power
  let static := portsUp s * coef s 5 + b2n (func s fPcie = 2) * coef s 7 + coef s 8 + coef s 9
  [1000 * static + coef s 1 * w.teCycles + coef s 2 * w.vuOps + coef s 3 * w.lines,
    coef s 6 * w.flits, coef s 4 * w.rootUnits, coef s 0 * w.meCycles]

/-! ## The rates (R374) -/

/-- The rate of a class in force: 0 links, 1 memory, 2 compute. -/
def rateOf (s : State) (c : Nat) : Nat := field s rPwrStatus (8 - 4 * c) 4

/-- The estimate at trial rates, times the product of the current rates. -/
def scaledModel (parts cur trial : List Nat) : Nat :=
  let c := fun (i : Nat) => cur.getD i 1
  let t := fun (i : Nat) => trial.getD i 8
  parts.getD 0 0 * (c 0 * c 1 * c 2) + parts.getD 1 0 * t 0 * c 1 * c 2 + parts.getD 2 0 * t 1 * c 0 * c 2
    + parts.getD 3 0 * t 2 * c 0 * c 1

/-- Cut the rate of class `c` while the model exceeds the target. -/
def cutRate (exceeds : List Nat → Bool) (c : Nat) : Nat → List Nat → List Nat
  | 0, trial => trial
  | n + 1, trial =>
    if 1 < trial.getD c 8 && exceeds trial then cutRate exceeds c n (trial.set c (trial.getD c 8 - 1)) else trial

/-- The new rates under a comparison of the model with the target. -/
def setRates (s : State) (exceeds : List Nat → Bool) : State :=
  let prio := (upTo 3).map (fun k => field s rPwrPrio (2 * k) 2)
  let trial := prio.reverse.foldl (fun t c => cutRate exceeds c 7 t) [8, 8, 8]
  let rate := (upTo 3).map (fun c =>
    let now := rateOf s c
    let want := trial.getD c 8
    let r := if want < now then want else min (now + 1) want
    if c = 2 then min r s.power.ceiling else r)
  let s1 := setFlag s rPwrStatus 29 (exceeds trial)
  (upTo 3).foldl (fun t c => setField t rPwrStatus (8 - 4 * c) 4 (rate.getD c 8)) s1

/-- Tenths of CAP_W that the estimate may reach: all ten, or nine in ESTIMATE_ONLY mode (R374, R376). -/
def targetTenths (s : State) : Nat := if field s rPwrStatus 30 2 = 2 then 9 else 10

/-- The 1 µs update: the estimate is recorded and, except in MEASURED mode, the rates are set. -/
def rateUpdate (s : State) : State :=
  let parts := estimateParts s
  let total := parts.sum
  let cur := (upTo 3).map (rateOf s)
  let s1 := { s with power := { s.power with
    meCycles := 0, teCycles := 0, vuOps := 0, lines := 0, rootUnits := 0, flits := 0
    estimates := s.power.estimates ++ [total], parts := parts } }
  let s2 := setField s1 rPwrEst 0 16 (min 65535 (total / 100000))
  let target := field s rPwrCap 0 11 * 100000 * targetTenths s
  if field s rPwrStatus 30 2 = 1 then s2
  else setRates s2 (fun trial => decide (target * (cur.getD 0 1 * cur.getD 1 1 * cur.getD 2 1) < scaledModel parts cur trial))

/-! ## Measurement (R375, R376, R462) -/

/-- A LINEAR11 value in units of 2^-16 W. -/
def linear11 (v : BitVec 16) : Int := signed 11 v.toNat * (2 : Int) ^ (signed 5 (v.toNat / 2048) + 16).toNat

/-- PWR_STATUS.MODE follows from ERR_PWR: PMBUS_LOST gives ESTIMATE_ONLY, else POWER_MODEL_MISMATCH gives MEASURED. -/
def settleMode (s : State) : State :=
  setField s rPwrStatus 30 2 (if flag s rErrPwr 1 then 2 else if flag s rErrPwr 0 then 1 else 0)

/-- M of an interval in units of 2^-16 W, where every named regulator was read over a PMBus that works. -/
def measured (s : State) (readings : List (Option (BitVec 16))) : Option Int :=
  let l := readings.take s.power.regulators.length
  if busRuns s 2 && decide (l.length = s.power.regulators.length) && l.all (·.isSome) then
    some ((l.filterMap id).map linear11).sum
  else none

/-- The mean of the interval's estimates differs from M by more than a quarter of M. -/
def mismatch (est : List Nat) (m : Int) : Bool :=
  let n : Int := est.length
  let e : Int := (est.sum : Int) * 65536
  let m1 : Int := m * 1000000 * n
  decide (m1 < 4 * (if e < m1 then m1 - e else e - m1))

/-- An interval with a valid M. -/
def validInterval (s : State) (m : Int) : State :=
  let s1 := setReg s rPwrMeas (BitVec.ofNat 32 (2 ^ 31 + min 65535 (m * 10 / 65536).toNat))
  let bad := mismatch s.power.estimates m
  let n := if bad then min 8 (s.power.mismatches + 1) else 0
  let s2 := { s1 with power := { s1.power with mismatches := n, invalids := 0, estimates := [] } }
  let s3 := if bad && s.power.mismatches = 7 then settleMode (raiseErr s2 16 rErrPwr 0 0xFF 0) else s2
  if field s3 rPwrStatus 30 2 = 1 then
    let parts := s.power.parts
    let cur := (upTo 3).map (rateOf s3)
    let one := cur.getD 0 1 * cur.getD 1 1 * cur.getD 2 1
    let target : Int := field s3 rPwrCap 0 11 * 65536 * 9
    setRates s3 (fun trial => decide (target * (parts.sum * one : Nat) < m * 10 * (scaledModel parts cur trial : Nat)))
  else s3

/-- An interval without one. -/
def invalidInterval (s : State) : State :=
  let n := min 8 (s.power.invalids + 1)
  let s1 := setFlag { s with power := { s.power with invalids := n, estimates := [] } } rPwrMeas 31 false
  if s.power.invalids = 7 then settleMode (raiseErr s1 16 rErrPwr 1 0xFF 0) else s1

/-- ERR_PWR written with ones: the bits clear, their counts restart, and the mode follows. -/
def clearErrPwr (s : State) (v : Word) : State :=
  let s1 := modReg s rErrPwr (fun w => w &&& ~~~ v)
  settleMode { s1 with power := { s1.power with
    mismatches := if getB v 0 then 0 else s1.power.mismatches
    invalids := if getB v 1 then 0 else s1.power.invalids } }

/-! ## P-step entries (R7, R361) -/

/-- VDD_MV of a P-step entry. -/
def pstepMv (s : State) (i : Nat) : Nat := field s (rPstep i) 12 10
/-- MHZ of a P-step entry. -/
def pstepMhz (s : State) (i : Nat) : Nat := field s (rPstep i) 0 12
/-- The P-step in force. -/
def pstepNow (s : State) : Nat := field s rPstepReq 8 3
/-- The Pod clock that an entry gives: a Q-grade part runs one above 1,600 MHz at 1,600 MHz (R7). -/
def pstepClockMhz (s : State) (i : Nat) : Nat := min (pstepMhz s i) (gradeCeiling s)

/-! ## Heat (R377, R466) -/

/-- THERMTRIP_N goes low and stays low; the ceiling is 1/8. A pin under boundary scan shows nothing of it (R426). -/
def thermtrip (s : State) : State :=
  let s1 := { s with power := { s.power with ceiling := 1 } }
  if s1.misc.thermtripLow then s1
  else
    let s2 := modMisc s1 (fun m => { m with thermtripLow := true })
    if boundaryScan s2 then s2 else emit s2 .thermtrip

/-- The index of the largest of a list, the first of equal ones. -/
def hottest (l : List Nat) : Nat := l.findIdx (fun t => l.all (fun u => decide (u ≤ t)))

/-- The thermal ceiling of a stake from the junctions of the compute dies. -/
def thermalCeiling (s : State) (l : List Nat) : State :=
  let t := l.foldl max 0
  let set := fun (s : State) (c : Nat) =>
    { s with power := { s.power with ceiling := if s.misc.thermtripLow then 1 else c } }
  if t < 95 then set (setFlag s rPwrStatus 28 false) 8
  else if t < 100 then s
  else if t < 105 then
    let s1 := set (setFlag s rPwrStatus 28 true) 4
    if flag s rPwrStatus 28 then s1 else raiseAlert s1
  else
    let s1 := raiseErr (set s 1) 16 rErrPwr 2 (hottest l) 0
    if 115 ≤ t then thermtrip s1 else s1

/-- The junction temperatures are read into PWR_TEMP and PWR_TEMP_IO. -/
def readJunctions (s : State) (cds ios : List Byte) : State :=
  let s1 := setReg s 0x20018 (BitVec.ofNat 32 (numAt cds 0 4))
  thermalCeiling (setReg s1 0x2001C (BitVec.ofNat 32 (numAt ios 0 2))) ((sliceB cds 0 4).map (·.toNat))

/-- The case temperature of a stack is read, and raised refresh follows it (R182). -/
def readStack (s : State) (k : Nat) (temp : Byte) : State :=
  let raised := if 85 < temp.toNat then true else if temp.toNat ≤ 82 then false else flag s (rStackTemp k) 8
  setFlag (setReg s (rStackTemp k) (BitVec.ofNat 32 (b2n raised * 256 + temp.toNat))) rRefresh k raised

/-- Every stack's case temperature. -/
def readStacks (s : State) (temps : List Byte) : State := (upTo 12).foldl (fun t k => readStack t k (temps.getD k 0)) s

/-! ## Rows -/

/-- POWER_RATE_UPDATE: 1 µs has passed (R374). -/
def execPowerRateUpdate (s : State) : Host.Outcome State Fault Refusal := .next (rateUpdate s)

/-- POWER_MEASURE_INTERVAL: 100 µs have passed (R375, R376). -/
def execPowerMeasureInterval (readings : List (Option (BitVec 16))) (s : State) : Host.Outcome State Fault Refusal :=
  .next (match measured s readings with
    | some m => validInterval s m
    | none => invalidInterval s)

/-- ERR_PWR_CLEAR: ERR_PWR is written (R375, R376, R443). -/
def execErrPwrClear (value : Word) (s : State) : Host.Outcome State Fault Refusal := .next (clearErrPwr s value)

/-- The unit of a compute die in the PWR capture, or none for an IO die, which the thermal ceiling does not follow (R377). -/
def computeDie : DieName → Option Nat
  | .compute d => some d.val
  | _ => none

/-- THERMTRIP: a junction has reached 115 °C (R466); on a compute die that is above 105 °C too (R377). -/
def execThermtrip (d : DieName) (s : State) : Host.Outcome State Fault Refusal :=
  .next (thermtrip (match computeDie d with
    | some k => raiseErr s 16 rErrPwr 2 k 0
    | none => s))

end Sys2Proof.Machine
end

