-- ==== Sys2Proof/Machine/Boot.lean ====
section
/-! DEFINITION. Resets (R380 to R383, R351), the configuration slots (R389 to R402), the manifest and the identity as the Keeper reads
them (R277, R280, R281, R404), and readiness as functions come up (R385 to R388), with their rows. -/

namespace Sys2Proof.Machine

/-! ## What a reset keeps (R381, R413, R442) -/

/-- The register keeps its value through every reset but power-on: the fault record (R419), an error register or a capture. -/
def isSticky (o : Nat) : Bool :=
  (decide (0x80100 ≤ o) && decide (o < 0x80A60)) || (decide (rFaultState ≤ o) && decide (o ≤ rFaultMore))

/-- A register with RWL fields (R442). -/
def isLockable (o : Nat) : Bool :=
  o = rHoldCtrl || o = rRootCtrl || o = rLinkCfg || o = rClkNoc || (decide (0x10100 ≤ o) && decide (o < 0x10120)) || o = rDroop
    || (decide (0x20100 ≤ o) && decide (o < 0x20128)) || o = rRepro

/-- A register that a warm reset keeps beside the sticky ones: identity, placement, manifest, boot state, locked registers, and the
PCIe function, which no warm reset touches. -/
def keptWarm (o : Nat) : Bool :=
  o = rDevId || o = rPlace || o = rManifest || (decide (rManifestDigest ≤ o) && decide (o < rManifestDigest + 32))
    || isLockable o || (decide (rCfgStatus ≤ o) && decide (o < rCfgReset)) || (decide (0x40020 ≤ o) && decide (o < 0x40034))
    || o = rFunc 0

/-- The device as right after reset, with what is no part of any reset kept: the fuses, the flash, the queue of commands, what has been
sent, the draws, and the pins other agents drive. While THERMTRIP_N is low the 1/8 ceiling holds (R466). -/
def bareReset (s : State) (keep : Nat → Bool) : State :=
  { State.reset with
    pending := s.pending, out := s.out, fresh := s.fresh, fuses := s.fuses, flash := s.flash
    regs := tabSet 0 (tabSet 0 (s.regs.filter (fun e => keep e.1)) 0x0
      (BitVec.ofNat 32 (0x82400000 + s.fuses.stepping.toNat * 256 + s.fuses.grade.toNat * 16))) 0x3000000 (tabGet 0 State.reset.regs 0x3000000)
    power := { State.reset.power with ceiling := if s.misc.thermtripLow then 1 else 8 }
    misc := { State.reset.misc with
      perstLow := s.misc.perstLow, thermtripLow := s.misc.thermtripLow, porAsserted := s.misc.porAsserted, sysRstLow := s.misc.sysRstLow } }

/-- The debug port after a cold reset: locked unless its fuse is open; the TAP keeps its instruction (R425, R433). -/
def coldDebug (s : State) : Debug :=
  let t := s.dport.tap
  let barred := !s.fuses.debugOpen && decide (t = 0x00 ∨ t = 0x05 ∨ t = 0x06)
  { State.reset.dport with locked := !s.fuses.debugOpen, tap := if barred then 0xFF else t }

/-! ## Bundles (R391 to R395) -/

/-- Bytes of a slot; what nothing has programmed reads as erased flash. -/
def slotBytes (m : SlotImage) (o : Nat) : Nat → List Byte
  | 0 => []
  | n + 1 => tabGet 0xFF m.bytes o :: slotBytes m (o + 1) n

/-- A section entry: KIND, VERSION, OFFSET, LENGTH, and whether its reserved bytes are zero. -/
structure Section where
  kind : Nat
  version : Nat
  offset : Nat
  length : Nat
  rsvZero : Bool
  deriving DecidableEq, Repr

/-- The used section entries of a header. -/
def sectionsOf (h : List Byte) : List Section :=
  ((chunksB 16 8 (h.drop 0x10)).filter (fun e => !zeroAt e 0 16)).map (fun e =>
    ⟨numAt e 0 1, numAt e 4 4, numAt e 8 4, numAt e 12 4, zeroAt e 1 3⟩)

/-- The section of a kind. -/
def sectionOf (h : List Byte) (kind : Nat) : Section :=
  ((sectionsOf h).find? (fun e => e.kind = kind)).getD ⟨kind, 0, 0, 0, true⟩

/-- The compatibility manifest of a slot, and its length without signature. -/
def compatOf (m : SlotImage) (h : List Byte) : List Byte := slotBytes m (numAt h 0x90 4) (min (numAt h 0x94 4) 0x2000000)

/-- Its tuple count and the bytes that the signature covers. -/
def compatTuples (c : List Byte) : Nat := numAt c 0x0A 2
/-- Where PUBKEY begins. -/
def compatKeyAt (c : List Byte) : Nat := 0xB0 + 16 * compatTuples c

/-- Check 1: header, section table and compatibility manifest. -/
def headerOk (h c : List Byte) : Bool :=
  let total := numAt h 8 4
  let secs := sectionsOf h
  numAt h 0 4 = 0x4D584342 && numAt h 4 2 = 1 && numAt h 6 2 = 5 && decide (total ≤ 0x2000000)
    && secs.length = 5 && (upTo 5).all (fun k => (secs.filter (fun e => e.kind = k + 1)).length = 1)
    && secs.all (fun e => e.rsvZero && e.offset % 64 = 0 && decide (e.offset + e.length ≤ total))
    && zeroAt h 0x98 104 && decide (numAt h 0x90 4 + numAt h 0x94 4 ≤ total)
    && numAt c 0 4 = 0x4D584350 && numAt c 4 2 = 1 && numAt c 6 2 = 0x8240 && decide (numAt c 8 1 < 4) && zeroAt c 9 1
    && decide (1 ≤ compatTuples c) && decide (compatTuples c ≤ 256) && zeroAt c 0x0C 4
    && decide (compatKeyAt c + 192 = numAt h 0x94 4)

/-- Check 2: the key is the vendor's and the signature verifies. -/
def signatureOk (c : List Byte) : Bool :=
  let key := sliceB c (compatKeyAt c) 96
  decide (sha384 key = Config.vendorKeyDigest)
    && ecdsaVerify key (c.take (compatKeyAt c + 96)) (sliceB c (compatKeyAt c + 96) 96)

/-- Check 3: every section's digest. -/
def digestsOk (m : SlotImage) (h c : List Byte) : Bool :=
  (upTo 5).all (fun k =>
    let e := sectionOf h (k + 1)
    decide (sha256 (slotBytes m e.offset e.length) = sliceB c (0x10 + 32 * k) 32))

/-- Check 4: the stepping is admitted. -/
def steppingOk (s : State) (c : List Byte) : Bool := decide (numAt c 8 1 / (if isA1 s then 1 else 2) % 2 = 1)

/-- Check 5: the four versions form a listed tuple. -/
def tupleOk (h c : List Byte) : Bool :=
  let want := (upTo 4).map (fun k => (sectionOf h (k + 1)).version)
  (upTo (compatTuples c)).any (fun i => decide ((upTo 4).map (fun k => numAt c (0xB0 + 16 * i + 4 * k) 4) = want))

/-- The first failing check of a slot, or 0 (R395). -/
def failingCheck (s : State) (m : SlotImage) : Nat :=
  let h := slotBytes m 0 256
  let c := compatOf m h
  if !headerOk h c then 1
  else if !signatureOk c then 2
  else if !digestsOk m h c then 3
  else if !steppingOk s c then 4
  else if !tupleOk h c then 5
  else 0

/-- Checks 1 to 3 pass. -/
def usable (s : State) (m : SlotImage) : Bool := failingCheck s m = 0 || decide (4 ≤ failingCheck s m)

/-! ## The flash (R358, R389) -/

/-- The SPI block works: through it the Keeper reaches the flash. -/
def spiOn (s : State) : Bool := busRuns s 1

/-- The Keeper writes the flash; a gated SPI block writes nothing. -/
def putFlash (s : State) (f : Flash) : State := if spiOn s then { s with flash := f } else s

/-- The Keeper reads `n` bytes of a slot; a gated SPI block gives zeros. -/
def readSlot (s : State) (i : Fin 2) (o n : Nat) : List Byte :=
  if spiOn s then slotBytes (vget s.flash.slots i) o n else List.replicate n 0

/-! ## Slots (R390, R398, R399, R401) -/

/-- Slot states (R398). -/
def slotState (f : Flash) (i : Fin 2) : Nat := (vget f.slots i).state.toNat

/-- The fields of a control block, in the order of R390 and without gaps (DEDUCED, log 5). -/
def controlFields (gen : Nat) (f : Flash) : List Byte :=
  leBytes 4 gen ++ leBytes 1 f.selected.val ++ leBytes 1 f.previous.val
    ++ f.slots.toList.flatMap (fun m => leBytes 1 m.state.toNat ++ leBytes 1 m.tries.toNat) ++ sliceB f.ackDigest 0 32

/-- A copy of the control block: its fields and their CRC-32. -/
def controlCopy (gen : Nat) (f : Flash) : List Byte := controlFields gen f ++ leBytes 4 (packetCrc32 (controlFields gen f))

/-- A copy has a good CRC. -/
def copyGood (b : List Byte) : Bool := decide (46 ≤ b.length) && decide (numAt b 42 4 = packetCrc32 (b.take 42))

/-- GENERATION of a copy. -/
def copyGeneration (b : List Byte) : Nat := numAt b 0 4

/-- The copy that the boot ROM uses: good, with the higher GENERATION; of two that are alike the first. -/
def copyInForce (f : Flash) : Option (Fin 2) :=
  let a := vget f.copies 0
  let b := vget f.copies 1
  if copyGood b && (!copyGood a || decide (copyGeneration a < copyGeneration b)) then some 1
  else if copyGood a then some 0
  else none

/-- A change is written to the older copy with GENERATION + 1. -/
def writeOlder (f : Flash) : Flash :=
  match copyInForce f with
  | some i =>
    let b := controlCopy ((copyGeneration (vget f.copies i) + 1) % 2 ^ 32) f
    { f with copies := vput f.copies (fin 2 (by decide) (1 - i.val)) b }
  | none => { f with copies := vput f.copies 0 (controlCopy 1 f) }

/-- A change is written to the older copy, and only then to the other (R390). -/
def writeControl (f : Flash) : Flash :=
  let g := writeOlder f
  let b := match copyInForce g with
    | some i => vget g.copies i
    | none => []
  { g with copies := Vector.replicate 2 b }

/-- The control block that the boot ROM reads: with no good copy both slots are COMMITTED, A selected and B previous (R390). -/
def readControl (f : Flash) : Flash :=
  match copyInForce f with
  | some i =>
    let b := vget f.copies i
    let slot := fun (m : SlotImage) (k : Nat) =>
      { m with state := BitVec.ofNat 4 (numAt b (6 + 2 * k) 1), tries := BitVec.ofNat 4 (numAt b (7 + 2 * k) 1) }
    { f with
      selected := fin 2 (by decide) (numAt b 4 1), previous := fin 2 (by decide) (numAt b 5 1), ackDigest := sliceB b 10 32
      slots := vmod (vmod f.slots 0 (slot · 0)) 1 (slot · 1) }
  | none => { f with slots := f.slots.map (fun m => { m with state := 4, tries := 0 }), selected := 0, previous := 1, ackDigest := zeroDigest }

/-- Write a slot's STATE and TRIES. -/
def setSlot (f : Flash) (i : Fin 2) (st tries : Nat) : Flash :=
  { f with slots := vmod f.slots i (fun m => { m with state := BitVec.ofNat 4 st, tries := BitVec.ofNat 4 tries }) }

/-- Write a slot's STATE and leave its TRIES. -/
def setSlotState (f : Flash) (i : Fin 2) (st : Nat) : Flash := setSlot f i st (vget f.slots i).tries.toNat

/-- The other slot. -/
def otherSlot (i : Fin 2) : Fin 2 := fin 2 (by decide) (1 - i.val)

/-- BUNDLE_VERSION of a slot's header, or zero where it holds no header. -/
def slotVersion (m : SlotImage) : Nat :=
  let h := slotBytes m 0 16
  if numAt h 0 4 = 0x4D584342 then numAt h 0x0C 4 else 0

/-- CFG_SLOT, CFG_SLOT_VER and the SLOT and PENDING bits of CFG_SELECT show the flash. -/
def showSlots (s : State) : State :=
  let f := s.flash
  let one := fun (t : State) (i : Fin 2) =>
    let m := vget f.slots i
    let v := m.state.toNat * 2 ^ 28 + m.tries.toNat * 2 ^ 24 + b2n (f.selected = i) * 2 ^ 23 + b2n (f.previous = i) * 2 ^ 22
    setReg (setReg t (rCfgSlot i.val) (BitVec.ofNat 32 v)) (rCfgSlotVer i.val) (BitVec.ofNat 32 (slotVersion m))
  let s1 := one (one s 0) 1
  setField (setFlag s1 rCfgSelect 30 f.selecting.isSome) rCfgSelect 0 1 f.selected.val

/-- The running slot, CFG_STATUS.RUN_SLOT: 2 is the boot ROM's Keeper. -/
def runSlot (s : State) : Nat := field s rCfgStatus 28 2

/-- The control block with a selection, whose PREVIOUS is the slot that ran when its write began (R398): only a slot that R401 lets select, which is TRIAL or COMMITTED then (R402). -/
def selectSlot (s : State) (i : Fin 2) : Flash :=
  let f := { s.flash with selecting := none }
  if slotState f i = 2 ∨ slotState f i = 5 then
    { setSlot f i 3 0 with selected := i, previous := if f.selectRan = 2 then f.previous else fin 2 (by decide) f.selectRan }
  else if slotState f i = 3 ∨ slotState f i = 4 then { f with selected := i }
  else f

/-- A selection enters both copies of the control block. -/
def applySelection (s : State) (i : Fin 2) : Flash := writeControl (selectSlot s i)

/-- What a boot starts: the slot, or none for the boot ROM's Keeper, with the flash it leaves and the flags it raises, as bit and
slot. -/
structure Choice where
  flash : Flash
  run : Option (Fin 2)
  flags : List (Nat × Nat)
  deriving DecidableEq, Repr

/-- A boot may start the slot: it passes checks 1 to 3, and it is not one that is being written (R402). -/
def startable (s : State) (f : Flash) (i : Fin 2) : Bool := slotState f i ≠ 1 && usable s (vget f.slots i)

/-- The slot choice of R399. Where no slot can start, no control block is written: the states have moved (R398) in the block that the boot ROM
holds, and the copies in flash stay. -/
def chooseSlot (s : State) (f : Flash) : Choice :=
  let sel := f.selected
  let trial : Flash × Fin 2 × List (Nat × Nat) :=
    if slotState f sel = 3 then
      if 3 ≤ (vget f.slots sel).tries.toNat then (setSlotState f sel 5, f.previous, [(2, sel.val)])
      else (setSlot f sel 3 ((vget f.slots sel).tries.toNat + 1), sel, [])
    else (f, sel, [])
  let f1 := trial.1
  let i := trial.2.1
  if startable s f1 i then ⟨writeControl { f1 with selected := i }, some i, trial.2.2⟩
  else
    let f2 := setSlotState f1 i 6
    let o := otherSlot i
    if slotState f2 o = 4 && startable s f2 o then
      ⟨writeControl { f2 with selected := o }, some o, trial.2.2 ++ [(0, i.val), (2, i.val)]⟩
    else ⟨f2, none, trial.2.2 ++ [(0, i.val)]⟩

/-- CFG_IMG_VER of the image a slot runs. -/
def nameImage (s : State) (f : Flash) (run : Option (Fin 2)) : State :=
  match run with
  | none => s
  | some i => setReg s (rCfgImgVer 0) (BitVec.ofNat 32 (sectionOf (slotBytes (vget f.slots i) 0 256) 1).version)

/-- The slot is chosen and what it starts is recorded: limits by checks 4 and 5 of R395, or by having no slot (R396). Under boundary scan the
flash is out of reach (R426): no control copy is good and no slot passes. -/
def bootSlot (s : State) : State :=
  let lost := match s.flash.selecting with
    | some _ => Config.selectionLost s.fresh
    | none => true
  let f := match s.flash.selecting with
    | some i => if lost then { s.flash with selecting := none } else writeOlder (selectSlot s i)
    | none => s.flash
  let s0 := { s with fresh := s.fresh + b2n s.flash.selecting.isSome }
  let c : Choice := if boundaryScan s then ⟨s.flash, none, [(0, 0)]⟩ else chooseSlot s0 (readControl f)
  let cause := match c.run with
    | none => 3
    | some i =>
      let k := failingCheck s0 (vget c.flash.slots i)
      if k = 4 then 2 else if k = 5 then 1 else 0
  let run := match c.run with
    | none => 2
    | some i => i.val
  let s1 := { s0 with flash := c.flash }
  let s2 := setField (setField (setFlag s1 rCfgStatus 30 (cause ≠ 0)) rCfgStatus 28 2 run) rCfgStatus 24 4 cause
  let s3 := nameImage s2 c.flash c.run
  let s4 := c.flags.foldl (fun t e => raiseErr t 17 rErrBoot e.1 e.2 0) s3
  showSlots (if cause = 0 then s4 else raiseErr s4 17 rErrBoot 1 (if cause = 3 then 0xFF else run) 0)

/-! ## Placement (R273, R274) -/

/-- The ones among 16 bits. -/
def onesIn (w : BitVec 16) : Nat := (upTo 16).foldl (fun n i => n + b2n (w.getLsbD i)) 0

/-- The straps are sampled; an even number of ones fails parity. The operand has STRAP_PAR, RACK_ID, TRAY_ID and SLOT_ID where DEV_PLACE
has them. -/
def sampleStraps (s : State) (straps : BitVec 16) : State :=
  let good := onesIn straps % 2 = 1
  let s1 := setReg s rPlace (BitVec.ofNat 32 (b2n good * 2 ^ 31 + straps.toNat))
  if good then s1 else raiseErr s1 11 rErrPlace 0 0xFF 0

/-- The strap pins as they were last sampled. -/
def lastStraps (s : State) : BitVec 16 := (reg s rPlace).setWidth 16

/-! ## Settings (R381, R394) -/

/-- An OFFSET that names an RW or RWL register of the blocks of R394. -/
def isSetting (o : Nat) : Bool :=
  o % 4 = 0 && (isLockable o || [rClkKeeper, rClkGate, rClkRefout, rFcountCtrl, rPstepReq, rPstepAt, rPstepAt + 4, rPwrCap, rPwrPrio, rTimIncr,
      rSetNs, rSetSLo, rSetSHi, rTimOffset, rTimCtrl, rPtpCtrl, rPtpLat, rCfgSelect, rPair, rPairCap, rPortMapLo, rPortMapHi].contains o
    || (decide (0x201000 ≤ o) && decide (o < 0x202000) && o % 0x100 = 0)
    || (decide (0x1000000 ≤ o) && decide (o < 0x1400000) && [0x400, 0x500, 0x600].contains (o % 0x10000)))

/-- The header of the running slot, or nothing for the recovery Keeper. -/
def runHeader (s : State) : List Byte := if runSlot s < 2 then slotBytes (vget s.flash.slots (fin 2 (by decide) (runSlot s))) 0 256 else []

/-- The bytes of the running slot's SETTINGS section. -/
def settingsBytes (s : State) : List Byte :=
  let e := sectionOf (runHeader s) 5
  slotBytes (vget s.flash.slots (fin 2 (by decide) (runSlot s))) e.offset (min e.length 0x2000000)

/-- The registers that the settings of the running bundle have written: their values are kept through a warm reset. An offset with Pod 0's base
stands for all Pods. -/
def settingOffsets (s : State) : List Nat :=
  if flag s rCfgStatus 30 then []
  else
    let b := settingsBytes s
    ((chunksB 8 (b.length / 8) b).map (fun e => numAt e 0 4)).filter isSetting

/-- A register is one of those offsets. -/
def namedBy (l : List Nat) (o : Nat) : Bool :=
  l.contains o || (decide (0x1000000 ≤ o) && decide (o < 0x1400000) && l.contains (0x1000000 + o % 0x10000))

/-! ## Resets (R380 to R383) -/

/-- The functions that start with the boot: the Keeper, and PCIe once PERST_N is high (R386). -/
def startFunctions (s : State) : State :=
  let s1 := setFunc s fKeeper 1 0
  if s1.misc.perstLow || func s1 fPcie ≠ 0 then s1 else setFunc s1 fPcie 1 0

/-- A boot after power-on or cold reset. -/
def coldBoot (s : State) (straps : BitVec 16) (cause : Nat) : State :=
  startFunctions (bootSlot (setField (sampleStraps s straps) rCfgStatus 20 4 cause))

/-- Power-on reset is asserted: the TAP is in Test-Logic-Reset (R383, R447). -/
def assertPowerOn (s : State) : State :=
  modMisc { bareReset s (fun _ => false) with dport := { coldDebug s with tap := 1 } } (fun m => { m with porAsserted := true })

/-- Power-on reset is released. -/
def releasePowerOn (s : State) : State := modMisc s (fun m => { m with porAsserted := false })

/-- A cold reset with its boot cause. The pins of the control-block write in progress count as R390 says. -/
def coldReset (s : State) (straps : BitVec 16) (cause : Nat) : State :=
  coldBoot { bareReset s isSticky with dport := coldDebug s } straps cause

/-- Limited mode. -/
def limited (s : State) : Bool := flag s rCfgStatus 30

/-- A ROOT or POD function after a warm reset of a device that was as `s`: one that has failed stays FAILED, since only a cold reset retries; in
limited mode every one is HELD (R386). -/
def restartUnit (s t : State) (f : Nat) : State :=
  if limited t then setFunc t f 4 0
  else if func s f = 3 then setFunc t f 3 (field s (rFunc f) 8 8)
  else setFunc t f 1 0

/-- What a warm reset keeps of a register that SETTINGS may have written: of TIM_CTRL nothing, since SYNCED clears, of PSTEP_REQ the target and of
FCOUNT_CTRL the source, beside reset values. -/
def keptSetting (o : Nat) (v : Word) : Word :=
  if o = rTimCtrl then 0
  else if o = rPstepReq then (v &&& 7) ||| 0x700
  else if o = rFcountCtrl then v &&& 0xFF
  else v

/-- KPLL_LOCK in both registers. -/
def setKpllLock (s : State) (b : Bool) : State := setFlag (setFlag s rClkStatus 29 b) rClkKeeper 29 b

/-- A warm reset with its boot cause: the running images restart, and every function but PCIe starts again (R381, R386). What SETTINGS has written is
kept; device time goes on, and TICK_EPOCH is latched at the first tick of stake 0 (R407). A hung multiplexer stays hung (R359), DBG_STATUS.USED stays
(R434), and so does the power state of the PCIe function. -/
def warmReset (s : State) (cause : Nat) : State :=
  let named := settingOffsets s
  let hung := s.clock.keeperHung
  let b0 := bareReset s (fun o => isSticky o || keptWarm o || namedBy named o || (hung && o = rClkKeeper))
  let b := [rTimCtrl, rPstepReq, rFcountCtrl].foldl (fun t o => setReg t o (keptSetting o (reg t o))) b0
  let s1 : State := { b with
    dport := s.dport, manifest := s.manifest
    time := { State.reset.time with secs := s.time.secs, ns32 := s.time.ns32, incr := reg b rTimIncr }
    power := { b.power with regulators := s.power.regulators }
    misc := { b.misc with d3hot := s.misc.d3hot }
    clock := { State.reset.clock with keeperHung := hung, refLost := s.clock.refLost } }
  let s2 := startFunctions (setKpllLock (setFlag (setFlag (setField s1 rCfgStatus 20 4 cause) rCfgSelect 31 false) rDbgStatus 29 (flag s rDbgStatus 29))
    (flag s1 rClkKeeper 29))
  let s3 := (((upTo 12).map fRoot) ++ ((upTo 64).map fPod)).foldl (restartUnit s) s2
  let s4 := if limited s3 then (upTo 16).foldl (fun t p => setFunc t (fLink p) 4 0) s3 else s3
  let s5 := if flag s4 rClkGate 0 then s4 else setFunc s4 fMgmt 4 0
  latchEpoch { s5 with clock := { s5.clock with podMhz := pstepClockMhz s5 (pstepNow s5) } }

/-- A transfer of the on-die network that serves the host: it ends with what asked for it. -/
def ofHost : NetKey → Bool
  | .read _ _ => true
  | .load => true
  | .input _ _ => true
  | .output _ _ => true
  | _ => false

/-- Every stream is disabled, the HST block, MSI-X and the PCIe configuration space with its DOE mailbox return to their reset values, and the
function is in D0 (R351, R381). -/
def resetHost (s : State) : State :=
  let s1 := modPods (resetRange s 0x100000 0x110000) (fun _ x => { x with posts := x.posts.map (fun po => { po with void := true }) })
  { s1 with
    streams := s.streams.map (fun x => { Stream.reset with orphans := x.orphans + (x.subs.filter isQueued).length })
    doe := State.reset.doe
    misc := { s1.misc with loading := none, adminSeq := 0, eventCount := 0, d3hot := false, netJobs := s1.misc.netJobs.filter (fun j => !ofHost j.key) } }

/-- A conventional or hot reset: PCIe leaves READY for INIT. -/
def pcieReset (s : State) : State := if func s fPcie = 2 then setFunc (resetHost s) fPcie 1 0 else resetHost s

/-! ## Manifest (R277, R280, R281) -/

/-- The Keeper reads the manifest area, as zeros through a gated SPI block (R358), and installs what it holds or the implied manifest. A manifest it installs for the first time
clears ACK_DIGEST (R404). -/
def readManifest (s : State) : State :=
  let area := if spiOn s then s.flash.manifest else List.replicate s.flash.manifest.length 0
  let good := manifestOk area
  let b := if good then area.take (mfTotal area) else impliedManifest (deviceCoord s)
  let s0 := if good && s.flash.manifestNew then
      putFlash s (writeControl { s.flash with ackDigest := zeroDigest, manifestNew := false }) else s
  let s1 := if good then s0 else raiseErr s0 11 rErrPlace 1 0xFF 0
  let s2 := { s1 with manifest := some b }
  let v := 2 ^ 31 + b2n (!good) * 2 ^ 30 + mfPattern b * 2 ^ 27 + mfRacks b * 2 ^ 18
  let s3 := setDigest (setReg s2 rManifest (BitVec.ofNat 32 v)) rManifestDigest (sha256 b)
  let listed := isListed s3
  let s4 := setFlag (setFlag (setFlag s3 rPlace 30 listed) rPlace 29 (mfRoot b = deviceCoord s)) rPlace 28 (mfAltRoot b = deviceCoord s)
  if listed then s4 else raiseErr s4 11 rErrPlace 2 0xFF 0

/-! ## Identity (R404) -/

/-- The position state. -/
def identityState (s : State) : Nat :=
  match (positions (installed s)).find? (fun p => p.node = deviceCoord s) with
  | none => 4
  | some p =>
    if flag s rManifest 30 then 4
    else if p.identity.all (· = 0) then 0
    else if p.identity = identityDigest s then 1
    else if spiOn s && decide (s.flash.ackDigest = identityDigest s) then 3
    else 2

/-- The identity is compared at a boot. -/
def compareIdentity (s : State) : State :=
  let st := identityState s
  let s1 := setField s rCfgIdentity 29 3 st
  if st = 2 then raiseErr s1 17 rErrBoot 6 0xFF 0 else s1

/-- An acknowledgement with its key, in state REPLACED, which the running Keeper takes. -/
def ackIdentity (s : State) (v : Word) : State :=
  if getB v 0 && decide (getF v 8 8 = 0xA5) && decide (field s rCfgIdentity 29 3 = 2) && keeperRuns s then
    let s1 := putFlash s (writeControl { s.flash with ackDigest := identityDigest s })
    postState (setField s1 rCfgIdentity 29 3 3) 6 (deviceCoord s) 3
  else s

/-! ## Functions come up (R385 to R388) -/

/-- The Keeper is READY, its clock running; TIME, ALIGN and MGMT start. After a warm reset the ports leave OFF now. -/
def keeperReady (s : State) : State :=
  if func s fKeeper ≠ 1 ∨ !flag s rCfgStatus 31 ∨ !keeperRuns s then s
  else
    let s1 := if field s rCfgStatus 20 4 < 3 then compareIdentity s else s
    let s2 := setFunc s1 fKeeper 2 0
    let s3 := postState s2 6 (deviceCoord s2) (field s2 rCfgIdentity 29 3)
    let s4 := setFunc s3 fTime (if flag s3 rTimCtrl 2 then 2 else 1) 0
    let s5 := setFunc s4 fAlign (if aligned s4 then 2 else 1) 0
    let s6 := setFunc s5 fMgmt (if flag s5 rClkGate 0 then 1 else 4) 0
    forEach allPorts s6 (fun t p => if lstate t p = 0 then enterDetect t p else t)

/-- A function leaves INIT for READY or FAILED. -/
def finishFunction (s : State) (f errBit unit : Nat) (failed : Option Byte) : State :=
  if func s f ≠ 1 then s
  else
    match failed with
    | none => setFunc s f 2 0
    | some d => raiseErr (setFunc s f 3 d.toNat) 17 rErrBoot errBit unit 0

/-- The functions of a list still INIT at their deadline. -/
def reportLate (s : State) (l : List (Nat × Nat)) (errBit : Nat) : State :=
  l.foldl (fun t e => if func s e.1 = 1 then raiseErr t 17 rErrBoot errBit e.2 0 else t) s

/-! ## CFG_SELECT (R401) -/

/-- A write of CFG_SELECT. Bit 31 clears REFUSED; a write with no KEY and no SLOT beside it asks for nothing. -/
def writeCfgSelect (s : State) (v : Word) : State :=
  let s1 := if getB v 31 then setFlag s rCfgSelect 31 false else s
  if getB v 31 ∧ getF v 0 16 = 0 then s1
  else
    let i := fin 2 (by decide) (getF v 0 1)
    let st := slotState s.flash i
    if getF v 8 8 ≠ 0xA5 ∨ func s fKeeper ≠ 2 ∨ st = 0 ∨ st = 1 ∨ st = 6 ∨ s.flash.selected = i then setFlag s1 rCfgSelect 31 true
    else showSlots { s1 with flash := { s1.flash with selecting := some i, selectRan := runSlot s } }

/-! ## Rows -/

/-- POWER_ON_RESET: the internal power-on reset is released (R383). While SYS_RST_N is low the device stays in reset, and boots with the rise
of SYS_RST_N (R447, R452). -/
def execPowerOnReset (straps : BitVec 16) (s : State) : Host.Outcome State Fault Refusal :=
  let s1 := releasePowerOn (assertPowerOn s)
  .next (if s1.misc.sysRstLow then s1 else coldBoot s1 straps 0)

/-- RAIL_TRIP: a rail has left its trip levels for 2 µs (R383, R450). VDD_1V8 outside its range releases THERMTRIP_N (R466). -/
def execRailTrip (rail : Rail) (s : State) : Host.Outcome State Fault Refusal :=
  .next (assertPowerOn (if rail = .vdd1v8 then modMisc s (fun m => { m with thermtripLow := false }) else s))

/-- SYS_RST_N rises after a low pulse that resets; under power-on reset nothing more follows (R383). -/
def sysReset (s : State) (straps : BitVec 16) : State := if s.misc.porAsserted then s else coldReset s straps 1

/-- SYS_RST_N: a low pulse, at whose end the pin is high (R465). Between 0.5 and 1 µs the spec lets it reset or not. -/
def execSysRstN (lowNs : Nat) (straps : BitVec 16) (s : State) : Host.Outcome State Fault Refusal :=
  let s1 := modMisc s (fun m => { m with sysRstLow := false })
  if 1000 ≤ lowNs ∨ s.misc.sysRstLow then .next (sysReset s1 straps)
  else if lowNs < 500 then .next s1
  else
    let n := draw s1
    .next (if Config.shortResetSeen n.1 then sysReset n.2 straps else n.2)

/-- A write of CFG_RESET: with the key, COLD goes before WARM (R380, R410). A device in reset takes no write. -/
def writeCfgReset (s : State) (v : Word) (straps : BitVec 16) : State :=
  if getF v 16 16 ≠ 0xC01D || inReset s then s
  else if getB v 0 then
    let t := coldReset s straps 2
    if func s fPcie = 2 then pcieReset t else t
  else if getB v 1 then warmReset s 3
  else s

/-- CFG_RESET_COLD: CFG_RESET is written with COLD = 1. -/
def execCfgResetCold (value : Word) (straps : BitVec 16) (s : State) : Host.Outcome State Fault Refusal :=
  .next (writeCfgReset s (value ||| 1) straps)

/-- CFG_RESET_WARM: CFG_RESET is written with WARM = 1. -/
def execCfgResetWarm (value : Word) (s : State) : Host.Outcome State Fault Refusal :=
  .next (writeCfgReset s (value ||| 2) (lastStraps s))

/-- CONVENTIONAL_RESET: PERST_N is driven low (R380, R382). Under boundary scan the pin does not reach the device (R426). -/
def execConventionalReset (s : State) : Host.Outcome State Fault Refusal :=
  .next (modMisc (if boundaryScan s then s else pcieReset s) (fun m => { m with perstLow := true }))

/-- HOT_RESET: a PCIe hot reset (R380, R382). -/
def execHotReset (s : State) : Host.Outcome State Fault Refusal := .next (pcieReset s)

/-- FLR (R351). -/
def execFlr (s : State) : Host.Outcome State Fault Refusal := .next (resetHost s)

/-- PERST_N_RELEASE: PCIe starts where it was OFF (R386). Under boundary scan the pin does not reach the device (R426). -/
def execPerstNRelease (s : State) : Host.Outcome State Fault Refusal :=
  let s1 := modMisc s (fun m => { m with perstLow := false })
  .next (if func s1 fPcie = 0 ∧ func s1 fKeeper ≠ 0 ∧ boundaryScan s1 = false then setFunc s1 fPcie 1 0 else s1)

/-- PCIE_READY (R385): after the commit of the configuration, so that the host never sees an RWL register unlocked (R384). -/
def execPcieReady (s : State) : Host.Outcome State Fault Refusal :=
  .next (if decide (func s fPcie = 1) && !s.misc.perstLow && flag s rCfgStatus 31 && pcieRuns s then setFunc s fPcie 2 0 else s)

/-- PCIE_PLL_TIMEOUT: the PCIe PLL has not locked 10 ms after INIT (R386). -/
def execPciePllTimeout (s : State) : Host.Outcome State Fault Refusal := .next (if func s fPcie = 1 then setFunc s fPcie 3 1 else s)

/-- KEEPER_READY (R385). -/
def execKeeperReady (s : State) : Host.Outcome State Fault Refusal := .next (keeperReady s)

/-- The BIST of a Pod ends by writing zero to every byte of its store (R472). -/
def zeroPodStore (s : State) (p : PodId) : State := memZero s (podAddr p 0) (podAddr p podSize)

/-- The BIST of a Root stack ends by writing zero, with valid check bits, to every byte of the stack (R472). -/
def zeroStack (s : State) (k : Nat) : State :=
  let keep := fun (a : Nat) => decide (rootEnd ≤ a) || decide (rootStack a ≠ k)
  { s with mem := s.mem.filter (fun e => keep e.1), ecc := s.ecc.filter (fun e => keep e.1) }

/-- POD_BIST_DONE: a Pod's self-test has ended (R386, R387), and its store holds zeros. Without the Pod's clock it does not end (R366, R368). -/
def execPodBistDone (p : PodId) (failed : Option Byte) (s : State) : Host.Outcome State Fault Refusal :=
  .next (if podClockRuns s p then finishFunction (if func s (fPod p.val) = 1 then zeroPodStore s p else s) (fPod p.val) 3 p.val failed else s)

/-- ROOT_READY: a stack's training and self-test have ended (R386, R387), and the stack holds zeros. Without the clock of its die's Root
controllers they do not end (R366, R368). -/
def execRootReady (k : StackId) (failed : Option Byte) (s : State) : Host.Outcome State Fault Refusal :=
  .next (if rootRuns s (k.val / 3) then finishFunction (if func s (fRoot k.val) = 1 then zeroStack s k.val else s) (fRoot k.val) 4 k.val failed
    else s)

/-- BOOT_DEADLINE: functions still INIT at a deadline of R384 are reported (R387). -/
def execBootDeadline (d : Deadline) (s : State) : Host.Outcome State Fault Refusal :=
  .next (match d with
    | .pods => reportLate s ((upTo 64).map (fun p => (fPod p, p))) 3
    | .roots => reportLate s ((upTo 12).map (fun k => (fRoot k, k))) 4)

/-- MGMT_LINK_UP (R386): not without the reference, which disables the transmitter (R366). -/
def execMgmtLinkUp (s : State) : Host.Outcome State Fault Refusal := .next (if func s fMgmt = 1 ∧ refRuns s = true then setFunc s fMgmt 2 0 else s)

/-- MGMT_LINK_DOWN (R386). -/
def execMgmtLinkDown (s : State) : Host.Outcome State Fault Refusal := .next (if func s fMgmt = 2 then setFunc s fMgmt 1 0 else s)

/-- CFG_SELECT: CFG_SELECT is written (R401). -/
def execCfgSelect (value : Word) (s : State) : Host.Outcome State Fault Refusal := .next (writeCfgSelect s value)

/-- CONTROL_BLOCK_WRITTEN: both copies of the control block hold the selection (R390, R401). Without the Keeper's clock or with its SPI block
gated nothing is written, and the selection stays pending. -/
def execControlBlockWritten (s : State) : Host.Outcome State Fault Refusal :=
  .next (match s.flash.selecting with
    | some i => if keeperRuns s && spiOn s then showSlots { s with flash := applySelection s i } else s
    | none => s)

/-- CFG_IDENTITY_ACK: CFG_IDENTITY is written with ACK = 1 (R404). -/
def execCfgIdentityAck (value : Word) (s : State) : Host.Outcome State Fault Refusal := .next (ackIdentity s (value ||| 1))

end Sys2Proof.Machine
end

