-- ==== Sys2Proof/Machine/Warp.lean ====
section
/-! DEFINITION. The warp plane as packets arrive: the sequence rules of a port (R244, R245, R248), the records of the present
position (R207 to R209, R220), NOTICE and fault notices (R222 to R224, R417), and the rows of these packets. -/

namespace Sys2Proof.Machine

/-! ## Records -/

/-- The present weave stake (R226). -/
def weaveStake (s : State) : Nat := reg64 s rWeaveStake
/-- The table position (R207). -/
def position (s : State) : Nat := field s rWeaveState 12 12
/-- The position after the present one. -/
def nextPosition (s : State) : Nat :=
  match s.active with
  | some w => if w.period = 0 then 0 else (position s + 1) % w.period
  | none => 0

/-- The current STAKE_TAG (R197). -/
def stakeTagNow (s : State) : Nat := weaveStake s % 256

/-- The records that an FSQ runs at position `c`: the overlays of the active splice replace all base records of their inputs
(R220). -/
def effectiveAt (s : State) (f : FsqId) (c : Nat) : List Record :=
  let q := fsq s f
  let ov : List Overlay := match activeSplice s with
    | some n => q.overlays.filter (fun o => o.splice = n && o.position = c)
    | none => []
  q.records.filter (fun r => r.position = c && !ov.any (fun o => o.input = r.input)) ++ ov.flatMap (·.records)

/-- The records of the present position. -/
def effective (s : State) (f : FsqId) : List Record := effectiveAt s f (position s)

/-- The index in a record's run of pick `n`. -/
def runIndex (r : Record) (n : Nat) : Option Nat := if r.pick ≤ n ∧ n ≤ r.pick + r.runM1 then some (n - r.pick) else none

/-- The circuit identifier of pick `i` of a run. -/
def circuitOf (r : Record) (i : Nat) : Nat := (r.circuit + i) % 65536

/-- LOCAL is in a record's mask. -/
def isLocal (r : Record) : Bool := r.mask.getLsbD 12

/-- The record of an input in pick `n`, with its run index. -/
def recordAt (s : State) (f : FsqId) (input n : Nat) : Option (Record × Nat) :=
  (effective s f).findSome? (fun r => if r.input = input then (runIndex r n).map (fun i => (r, i)) else none)

/-- The index in a record's run of a circuit identifier, which counts on from CIRCUIT modulo 2^16 (R208). -/
def runOf (r : Record) (circuit : Nat) : Option Nat :=
  let i := (circuit + 65536 - r.circuit % 65536) % 65536
  if i ≤ r.runM1 then some i else none

/-- The record of an input with a circuit identifier, with its run index (R216). -/
def recordFor (s : State) (f : FsqId) (input circuit : Nat) : Option (Record × Nat) :=
  (effective s f).findSome? (fun r => if r.input = input then (runOf r circuit).map (fun i => (r, i)) else none)

/-- A WARP or WARP_XPS packet. -/
def isWarpData (k : Packet) : Bool := k.type = 1 || k.type = 2

/-- A packet is what pick `i` of a record expects (R209). -/
def matchesRecord (s : State) (r : Record) (i : Nat) (k : Packet) : Bool :=
  isWarpData k && k.circuit.toNat = circuitOf r i && k.stakeTag.toNat = stakeTagNow s
    && (!isLocal r || k.lenM1.toNat = r.lenM1)

/-- A warp packet is discarded as unexpected (R198, R209, R217, R229). -/
def unexpected (s : State) (f : FsqId) (circuit : Nat) : State :=
  raiseErr (add64 s (rFsq f 0x058) 1) 8 rErrFsq 1 f circuit

/-- The FSQ of a port, and the port's input index there. -/
def dieOf (s : State) (p : PortId) : FsqId := fin 2 (by decide) ((logicalOf s p).val / 8)
/-- The input index of a port at its FSQ. -/
def inputOf (s : State) (p : PortId) : Nat := (logicalOf s p).val % 8

/-- Pick `n` lies in the spare picks or a quantum's re-send span (R17, R29). -/
def resendPick (n : Nat) : Bool := (decide (896 ≤ n) && decide (n < 928)) || (decide (1024 ≤ n) && decide ((n - 1024) % 256 < 160))

/-! ## RSQ (R217, R219) -/

/-- A packet becomes late traffic of a port, to leave two picks on at the earliest (R202). A held NOTICE stops late traffic and re-sends
(R223). -/
def queueLate (s : State) (p : PortId) (k : Packet) : State :=
  if noticeHeld s then s else { s with txItems := s.txItems ++ [⟨p, none, pickNo s + 2, k⟩] }

/-- A packet of this device goes out on the route to the device its DST names (R219). -/
def sendByDst (s : State) (k : Packet) : State :=
  match routeTo s 0 (devOf k.dst) with
  | .out p => queueLate s p k
  | _ => s

/-- A packet received on port `p` for another device goes on by the forwarding order of the twine plane; what that order does not
forward is discarded (R219, R258). -/
def passOn (s : State) (p : PortId) (k : Packet) : State :=
  match forwardTo s p 0 (devOf k.dst) with
  | some q => queueLate s q k
  | none => s

/-- The retained copy of a circuit with a tag, in an FSQ. -/
def retainedCopy (s : State) (f : FsqId) (circuit tag : Nat) : Option Retained :=
  (fsq s f).retained.find? (fun c => c.pkt.circuit.toNat = circuit && c.weaveStake % 256 = tag)

/-- An RSQ for this device: a re-send leaves from the retained copy, or the RSQ is unexpected. A held NOTICE stops re-sends
(R223). -/
def takeRsq (s : State) (p : PortId) (k : Packet) : State :=
  match allFsqs.findSome? (fun f => (retainedCopy s f k.circuit.toNat k.stakeTag.toNat).map (fun c => (f, c))) with
  | none => unexpected s (dieOf s p) k.circuit.toNat
  | some fc =>
    if noticeHeld s then s
    else
      let copy := { fc.2.pkt with resend := true, fence := false, dst := BitVec.ofNat 24 (devOf k.src * 512) }
      sendByDst (add64 s (rFsq fc.1 0x040) 1) copy

/-- An RSQ received on a port is answered here or passed on towards its DST. -/
def receiveRsq (s : State) (p : PortId) (k : Packet) : State :=
  if devOf k.dst = deviceCoord s then takeRsq s p k else passOn s p k

/-! ## NOTICE packets (R222, R417) -/

/-- The record of a fault notice already seen: REPORTER, FAIL_STAKE, ERR_OFFSET, BIT. -/
def faultKey (b : List Byte) : SeenFault := (numAt b 8 2, numAt b 0 8, numAt b 0x0E 4, numAt b 0x12 1)

/-- The stake in which the device accepted its current weave load. -/
def acceptedStake (s : State) : Nat :=
  match s.loaded with
  | some w => w.acceptedStake
  | none =>
    match s.active with
    | some w => w.acceptedStake
    | none => 0

/-- A fault notice is accepted: relayed once, and the device enters FAULTED (R416, R417). -/
def takeFaultNotice (s : State) (p : PortId) (k : Packet) : State :=
  let b := k.payload
  let key := faultKey b
  let s0 := add64 s (rFsq (dieOf s p) 0x068) 1
  if numAt b 0 8 < acceptedStake s ∨ s.misc.seenFaults.contains key then s0
  else
    let s1 := modMisc s0 (fun m => { m with seenFaults := key :: m.seenFaults })
    enterFaulted (floodNotice s1 k none) false (numAt b 0 8) (numAt b 8 2 % 0x8000) (numAt b 0x0E 4) (numAt b 0x12 1)
      (numAt b 0x13 1)

/-- A NOTICE is accepted: what has not been seen is relayed on every UP port and taken (R222, R223). -/
def receiveNotice (s : State) (p : PortId) (k : Packet) : State :=
  if numAt k.payload 0x0C 2 = 0xFFFE then takeFaultNotice s p k
  else
    let n := noticeOf k.payload
    let s0 := add64 s (rFsq (dieOf s p) 0x068) 1
    if s.stake.seen.contains n then s0
    else takeNotice (floodNotice s0 k none) (dieOf s p) n

/-! ## Sequence (R243 to R248) -/

/-- The warp-plane packet of a port with the next number, and the state that keeps its copy (R243). -/
def numberWarp (s : State) (p : PortId) (k : Packet) : State × Packet :=
  let numbered := { k with seq := (port s p).txWarpSeq }
  (modPort s p (fun x => { x with
    txWarpSeq := x.txWarpSeq + 1
    copies := x.copies ++ [⟨numbered.seq, numbered, absPick s, false, none, false, false⟩] }), numbered)

/-- `a` is newer than `b` (R242). -/
def newer (a b : BitVec 12) : Bool := decide (1 ≤ (a - b).toNat) && decide ((a - b).toNat ≤ 2047)

/-- The numbers from `a` up to but not including `b`. -/
def numbersTo (a b : BitVec 12) : List (BitVec 12) := (upTo (b - a).toNat).map (fun i => a + BitVec.ofNat 12 i)

/-- Numbers a to b − 1 were sent and not received: each matched to an uncertain PATH pick is decided as dropped, every other
one is to be reported. -/
def loseNumbers (s : State) (p : PortId) (a b : BitVec 12) : State :=
  let u := (port s p).uncertain
  let nums := numbersTo a b
  let keep := if nums.length = u.length then
      ((List.zip nums u).filter (fun e => !e.2)).map (·.1)
    else nums
  let s1 := modPort s p (fun x => { x with lost := x.lost ++ keep.map (fun n => ⟨n, 0⟩), uncertain := [] })
  let s2 := if keep.isEmpty then s1 else add64 s1 (rPort p 0x70) keep.length
  if 31 < (port s2 p).lost.length then declareDown s2 p (some 6) else s2

/-- A packet accepted on the warp plane goes to what its type names. Warp data is presented at the end of its pick; without an
active weave it is unexpected (R229). -/
def acceptWarp (s : State) (p : PortId) (k : Packet) : State :=
  let f := dieOf s p
  if k.type = 4 then receiveNotice s p k
  else if !weaveActive s then unexpected s f k.circuit.toNat
  else if k.type = 3 ∨ isWarpData k then
    if k.type = 3 ∧ 896 ≤ pickNo s then receiveRsq s p k
    else modFsq s f (fun q => { q with arriving := q.arriving ++ [⟨pickNo s, inputOf s p, k⟩] })
  else unexpected s f k.circuit.toNat

/-- An intact warp-plane packet (R244). -/
def receiveWarp (s0 : State) (p : PortId) (k : Packet) : State :=
  let s := modPort s0 p (fun x => { x with pickGot := true })
  let x := port s p
  let e := x.rxWarpSeq
  if k.seq = e then
    acceptWarp (modPort s p (fun y => { y with rxWarpSeq := e + 1, uncertain := [] })) p k
  else if x.lost.any (fun l => l.seq = k.seq) then
    acceptWarp (modPort s p (fun y => { y with
      lost := y.lost.filter (fun l => l.seq ≠ k.seq)
      racks := if field s (rPort p 0x04) 24 4 = 0 then y.racks else y.racks ++ [⟨k.seq, 0⟩] })) p k
  else if newer k.seq e then
    let s1 := modPort (loseNumbers s p e k.seq) p (fun y => { y with rxWarpSeq := k.seq + 1 })
    if portUp s1 p then acceptWarp s1 p k else s1
  else add64 s (rPort p 0x88) 1

/-! ## Rows -/

/-- WARP_PACKET_RX: an intact warp-plane packet on a port in PACKET. -/
def execWarpPacketRx (p : PortId) (pkt : Packet) (s : State) : Host.Outcome State Fault Refusal :=
  .next (if portUp s p then receiveWarp s p pkt else s)

/-- NOTICE: an accepted NOTICE packet takes effect. -/
def execNotice (p : PortId) (pkt : Packet) (s : State) : Host.Outcome State Fault Refusal := .next (receiveNotice s p pkt)

/-- FAULT_NOTICE: an accepted fault notice takes effect. -/
def execFaultNotice (p : PortId) (pkt : Packet) (s : State) : Host.Outcome State Fault Refusal :=
  .next (takeFaultNotice s p pkt)

/-- RSQ_RX: a received RSQ is answered or passed on. -/
def execRsqRx (p : PortId) (pkt : Packet) (s : State) : Host.Outcome State Fault Refusal :=
  .next (if weaveActive s then receiveRsq s p pkt else unexpected s (dieOf s p) pkt.circuit.toNat)

end Sys2Proof.Machine
end

