-- ==== Sys2Proof/Machine/Xps.lean ====
section
/-! DEFINITION. The XPS block (R60), its reading rules (R61), the adder of R65 and the conversions from and to single values
(R62, R63, R64, R114). -/

namespace Sys2Proof.Machine

/-- An XPS block: the value of element i is v[i] × 2^scale (R60). -/
structure Xps where
  scale : Int
  flags : Nat
  count : Nat
  v : List Int
  deriving DecidableEq, Repr

/-- FLAGS bits (R60). -/
def xOverflow : Nat := 1
def xInvalid : Nat := 2
def xPosInf : Nat := 4
def xNegInf : Nat := 8
def xKOver : Nat := 16
def xScaleRange : Nat := 32
def xMismatch : Nat := 64
def xInexact : Nat := 128

/-- The largest magnitude of an element, 2^55 − 1 (R61). -/
def xpsMax : Int := 36028797018963967

/-- OR of flag bytes. -/
def orF (a b : Nat) : Nat := Nat.lor a b

/-- A flag bit is set. -/
def hasF (a m : Nat) : Bool := decide (Nat.land a m ≠ 0)

/-- Read a block from 256 bytes; the elements as they stand. -/
def xpsOfBytes (b : List Byte) : Xps where
  scale := signed 16 (numAt b 0 2)
  flags := numAt b 2 1
  count := numAt b 3 1
  v := (upTo 36).map (fun i => signed 56 (numAt b (4 + 7 * i) 7))

/-- The 256 bytes of a block. -/
def xpsBytes (x : Xps) : List Byte :=
  leBytes 2 (wrap 16 x.scale) ++ leBytes 1 x.flags ++ leBytes 1 x.count
    ++ (upTo 36).flatMap (fun i => leBytes 7 (wrap 56 (x.v.getD i 0)))

/-- COUNT lies in 1 to 36. -/
def xpsCountOk (x : Xps) : Bool := decide (1 ≤ x.count) && decide (x.count ≤ 36)

/-- Element i as a consumer reads it: zero beyond COUNT, −2^55 as −(2^55 − 1) (R61). -/
def xpsElem (x : Xps) (i : Nat) : Int := if i < x.count then max (-xpsMax) (x.v.getD i 0) else 0

/-- A valid element encodes −2^55 (R61). -/
def xpsLow (x : Xps) : Bool := (upTo (min 36 x.count)).any (fun i => decide (x.v.getD i 0 < -xpsMax))

/-- Saturate an element. -/
def xpsSat (v : Int) : Int := max (-xpsMax) (min xpsMax v)

/-- The sum of two blocks (R65). -/
def xpsAdd (a b : Xps) : Xps :=
  let f := orF a.flags b.flags
  if a.scale ≠ b.scale ∨ a.count ≠ b.count ∨ xpsCountOk a = false then
    ⟨min a.scale b.scale, orF f xMismatch, 36, List.replicate 36 0⟩
  else
    let sums := (upTo 36).map (fun i => xpsElem a i + xpsElem b i)
    let ov := xpsLow a || xpsLow b || sums.any (fun s => decide (s ≠ xpsSat s))
    ⟨a.scale, if ov then orF f xOverflow else f, a.count, sums.map xpsSat⟩

/-! ## Conversions into XPS -/

/-- An element with the flags its conversion sets. -/
abbrev ElemF := Int × Nat

/-- m × 2^e with its sign on the grid 2^scale, rounded once, saturated (R62, R114). -/
def toXps (mode : RMode) (scale : Int) (neg : Bool) (m : Nat) (e : Int) : ElemF :=
  let r := roundGrid mode neg m e scale
  let v : Int := if neg then -(r.1 : Int) else r.1
  (xpsSat v, orF (if r.2 then xInexact else 0) (if v ≠ xpsSat v then xOverflow else 0))

/-- An FP32 value into an element (R114). -/
def xcvtIn (mode : RMode) (scale : Int) : Fp → ElemF
  | .nan => (0, xInvalid)
  | .inf neg => (0, if neg then xNegInf else xPosInf)
  | .fin neg m e => toXps mode scale neg m e

/-- A block of elements, COUNT of them valid. -/
def xpsBlock (scale : Int) (count : Nat) (l : List ElemF) : Xps :=
  let used := l.take count
  ⟨scale, used.foldl (fun f x => orF f x.2) 0, count, (upTo 36).map (fun i => (used.getD i (0, 0)).1)⟩

/-! ## Conversion out of XPS (R64) -/

/-- The value of element i as R64 converts it: flags first, then the saturated element, an exact zero signed by the mode. A
COUNT outside 1 to 36 reads as MISMATCH (R61). -/
def xcvtOut (mode : RMode) (x : Xps) (i : Nat) : Fp :=
  let f := if xpsCountOk x then x.flags else orF x.flags xMismatch
  if hasF f (xInvalid + xMismatch + xScaleRange) || (hasF f xPosInf && hasF f xNegInf) then .nan
  else if hasF f xPosInf then .inf false
  else if hasF f xNegInf then .inf true
  else
    let v := xpsElem x i
    if v = 0 then .fin (decide (mode = .rdn)) 0 0 else .fin (decide (v < 0)) v.natAbs x.scale

/-- The FP32 code of element i with its VU flags (R64: a NaN from block flags sets no INVALID). -/
def xcvtOut32 (mode : RMode) (x : Xps) (i : Nat) : Flagged :=
  let r := fpFinish 0xA mode (xcvtOut mode x i)
  (r.code, if r.ovf then 1 else 0)

/-- The VU flags that reading a block copies (R64, R114, R129). -/
def xcvtFlags (x : Xps) : VFlags :=
  let low := xpsLow x
  orF (if hasF x.flags xOverflow || low then 2 else 0)
    (orF (if hasF x.flags xKOver then 4 else 0) (if hasF x.flags xInexact then 8 else 0))

/-- The VU flags that writing a block sets (R129). -/
def xcvtiFlags (x : Xps) : VFlags :=
  orF (if hasF x.flags xOverflow then 2 else 0) (if hasF x.flags xInexact then 8 else 0)

end Sys2Proof.Machine
end

