-- ==== Sys2Proof/Machine/Fsq.lean ====
section
/-! DEFINITION. The Fabric Sequencers (R201 to R217): departure reads, forwarding, multicast, reduction and LOCAL delivery, pick by
pick; late traffic; and the rows PICK, DEPARTURE_READ_DONE and LOCAL_WRITE. -/

namespace Sys2Proof.Machine

/-! ## LOCAL delivery (R203, R206) -/

/-- A Pod's window in the active weave. -/
def windowOf (s : State) (p : PodId) : PodWindow :=
  match s.active with
  | some w => w.windows.getD p.val ⟨0, 0, 0, 0⟩
  | none => ⟨0, 0, 0, 0⟩

/-- The packets that scheduled records of an FSQ bring to LOCAL in pick `n` of the present stake. -/
def localDue (s : State) (f : FsqId) (n : Nat) : Nat :=
  ((effective s f).filter (fun r => isLocal r && (runIndex r n).isSome)).length

/-- The first pick from `m` on, over the next `fuel` picks, in which LOCAL has room for a late packet: it takes at most eight packets in
one pick (R201). `m` counts picks from the machine's start, `n` in the stake. -/
def localPick (s : State) (f : FsqId) : Nat → Nat → Nat → Nat
  | 0, m, _ => m
  | fuel + 1, m, n =>
    if ((fsq s f).staged.filter (fun d => d.late && decide (d.pick = m))).length + localDue s f n < 8 then m
    else localPick s f fuel (m + 1) (n + 1)

/-- The first intact copy of a circuit is staged for its arrival half; later copies are discarded. A late one waits for room at
LOCAL. -/
def stageLocal (s : State) (f : FsqId) (r : Record) (i : Nat) (late : Bool) (k : Packet) : State :=
  let key := (devOf k.src, k.circuit.toNat)
  if allFsqs.any (fun g => (fsq s g).written.contains key) then add64 s (rFsq f 0x050) 1
  else
    let w := windowOf s r.pod
    let a := w.arrBase + weaveStake s % 2 * w.arrHalf + (r.offset + i * (r.lenM1 + 1)) * 64
    modFsq s f (fun q => { q with
      staged := q.staged ++ [⟨r.pod, a, k.payload, devOf k.src, k.circuit.toNat,
        if late then localPick s f 1024 (absPick s) (pickNo s) else absPick s, late, none⟩], written := q.written ++ [key] })

/-- LOCAL data presented two picks ago is handed to the on-die network, which asks the banks of its Pod (R169, R202). -/
def handLocal (s : State) (f : FsqId) : State :=
  (fsq s f).staged.foldl (fun t d =>
    if d.op.isNone && decide (d.pick + 2 ≤ absPick s) then
      let k := 2 ^ 64 + t.misc.netSerial
      netRequest (modFsq t f (fun q => { q with
        staged := q.staged.map (fun e => if e = d then { e with op := some k } else e) })) d.pod true d.addr d.payload.length
    else t) s

/-- The banks have granted the whole of staged LOCAL data, and the network of its Pod's die runs (R203, R354). -/
def localGranted (s : State) (d : Staged) : Bool :=
  match d.op with
  | some k => netGranted s d.pod k && networkRuns s (d.pod.val / 16)
  | none => false

/-- The oldest staged LOCAL data of a die that its banks have granted is written into the arrival half (R203). A Pod reads what the half held
for the earlier stake until its next frame begins (R21): the bytes wait for that. -/
def writeLocal (s : State) (f : FsqId) : State :=
  match (fsq s f).staged.find? (localGranted s) with
  | none => s
  | some d => add64 (modFsq s f (fun q => { q with
      staged := q.staged.erase d, landed := q.landed ++ [(d.pod, d.addr, d.payload)] })) (rFsq f 0x020) 1

/-! ## Outputs (R202, R212) -/

/-- The outputs that a mask names. -/
def outputs (m : BitVec 13) : List Nat := (upTo 13).filter (fun i => m.getLsbD i)

/-- The first pick from `m` on of the spare picks or a re-send span that is not taken, over the next `fuel` picks (R216). -/
def freePick (taken : List Nat) : Nat → Nat → Nat
  | 0, m => m
  | fuel + 1, m => if resendPick m && !taken.contains m then m else freePick taken fuel (m + 1)

/-- The picks of the present stake in which scheduled packets leave on XO output `o`: two after each is presented (R202). -/
def xoDue (s : State) (f : FsqId) (o : Nat) : List Nat :=
  (effective s f).flatMap (fun r => if r.mask.getLsbD o then (upTo (r.runM1 + 1)).map (fun i => r.pick + i + 2) else [])

/-- The pick in which a packet presented in pick `n` leaves on XO output `o`: pick n + 2, or the first free one of the late
traffic (R202, R216). -/
def xoPick (s : State) (f : FsqId) (o n : Nat) (late : Bool) : Nat :=
  if late then
    freePick (((fsq s (fin 2 (by decide) (1 - f.val))).arriving.filter (fun a => a.input = o)).map (fun a => a.atPick - 1)
      ++ xoDue s f o) 2048 (n + 2)
  else n + 2

/-- A packet presented in pick `n` goes to one output: TX in pick n + 2, or late from then on; XO, to be presented on the other die one pick
after it leaves; LOCAL. A held NOTICE stops late traffic on TX and XO (R223). -/
def toOutput (s : State) (f : FsqId) (r : Record) (i n : Nat) (late : Bool) (k : Packet) (o : Nat) : State :=
  if 12 ≤ o then stageLocal s f r i late k
  else if late && noticeHeld s then s
  else if o < 8 then
    { s with txItems := s.txItems ++ [⟨physOf s (toPort (8 * f.val + o)), if late then none else some (n + 2), n + 2, k⟩] }
  else
    let s1 := if late then add64 s (rFsq f 0x030) 1 else s
    modFsq s1 (fin 2 (by decide) (1 - f.val)) (fun q => { q with arriving := q.arriving ++ [⟨xoPick s f o n late + 1, o, k⟩] })

/-- A packet goes to every output of its record's mask; with several it is a multicast. -/
def toMask (s : State) (f : FsqId) (r : Record) (i n : Nat) (late : Bool) (k : Packet) : State :=
  let l := outputs r.mask
  let k := { k with mcast := k.mcast || decide (1 < l.length) }
  l.foldl (fun t o => toOutput t f r i n late k o) s

/-! ## Reduction (R213, R214) -/

/-- The XPS adder over every whole block of two payloads. -/
def addBlocks (a b : List Byte) : List Byte :=
  let n := a.length / 256
  (List.zip (chunksB 256 n a) (chunksB 256 n b)).flatMap (fun e => xpsBytes (xpsAdd (xpsOfBytes e.1) (xpsOfBytes e.2)))

/-- The payload of a failed reduction, by the primary's length. -/
def mismatchBlocks (len : Nat) : List Byte :=
  (upTo (len / 256)).flatMap (fun _ => xpsBytes { xpsOfBytes (List.replicate 256 0) with flags := xMismatch, count := 36 })
    ++ List.replicate (len % 256) 0

/-- Two partner packets become one WARP_XPS packet with the primary's header, sent to the primary's mask. -/
def reducePair (s : State) (f : FsqId) (r : Record) (i n : Nat) (late : Bool) (a b : Packet) : State :=
  let good := a.type = 2 && b.type = 2 && a.lenM1 = b.lenM1
  let s1 := if good then s else raiseErr (add64 s (rFsq f 0x060) 1) 8 rErrFsq 0 f a.circuit.toNat
  let sum := { a with type := 2, payload := if good then addBlocks a.payload b.payload else mismatchBlocks a.payload.length }
  toMask (add64 s1 (rFsq f 0x028) 1) f r i n late sum

/-- One input of a reduction is there: it meets the waiting half, or waits for its partner (R214). -/
def reduceLate (s : State) (f : FsqId) (r : Record) (i n : Nat) (k : Packet) : State :=
  let pick := r.pick + i
  let isPrimary := decide (r.mask ≠ 0)
  match (fsq s f).halves.find? (fun h => h.record.input = r.partner && h.record.pick + h.run = pick) with
  | none => modFsq s f (fun q => { q with halves := q.halves ++ [⟨r, k, isPrimary, i⟩] })
  | some h =>
    let s1 := modFsq s f (fun q => { q with halves := q.halves.erase h })
    if isPrimary then reducePair s1 f r i n true k h.pkt else reducePair s1 f h.record h.run n true h.pkt k

/-! ## Departure (R205, R209, R218, R225) -/

/-- Copies of departures are kept (FSQ_WEAVE_STATE.RETAIN, R218). -/
def retaining (s : State) : Bool := flag s rWeaveState 24

/-- Where the departure of weave stake `w` that pick `i` of a DP record sends stands in its Pod's store (R21, R208). -/
def departureAddr (s : State) (r : Record) (i w : Nat) : Nat :=
  let v := windowOf s r.pod
  v.depBase + (w + 1) % 2 * v.depHalf + (r.offset + i * (r.lenM1 + 1)) * 64

/-- The retained copy that a recovery stake sends in place of the departure half (R225). -/
def recoveryCopy (s : State) (f : FsqId) (r : Record) (i : Nat) : Option Retained :=
  if flag s rWeaveState 28 then
    (fsq s f).retained.find? (fun c => c.weaveStake = weaveStake s && c.pkt.circuit.toNat = circuitOf r i)
  else none

/-- The bytes that a DP record sends in pick `i`: the retained copy in a recovery stake, else the departure half of R21, from
which the node region reads as zeros (R204). What a Pod writes there between the read's first request and its pick is sent too, as R205
allows (DEDUCED, log 57). -/
def departureBytes (s : State) (f : FsqId) (r : Record) (i : Nat) : State × List Byte :=
  match recoveryCopy s f r i with
  | some c => (s, c.pkt.payload)
  | none =>
    let a := departureAddr s r i (weaveStake s)
    let b := storeRead s r.pod a ((r.lenM1 + 1) * 64)
    (b.1, maskNodes s r.pod a b.2)

/-- The on-die network's name for the departure read of a circuit: past every issue serial and every other transfer. -/
def departureOp (f : FsqId) (circuit : Nat) : Nat := 2 ^ 65 + f.val * 2 ^ 16 + circuit

/-- The FSQ asks the banks for the departures that position `c` presents in pick `n` of weave stake `w` (R205). -/
def askDepartures (s : State) (f : FsqId) (c n w : Nat) : State :=
  (effectiveAt s f c).foldl (fun t r =>
    match (if 12 ≤ r.input then runIndex r n else none) with
    | some i => netStream t r.pod (departureOp f (circuitOf r i)) false (departureAddr t r i w) ((r.lenM1 + 1) * 64)
    | none => t) s

/-- The reads that begin in pick `m`: those of 64 picks on, in this stake or in the next. A recovery stake reads no departure half, and while the
device knows of a hold the stake's end is not at hand (R205; DEDUCED, log 57). -/
def beginReads (s : State) (f : FsqId) (m : Nat) : State :=
  let last := 960 + 256 * s.stake.round
  if m < 960 then if flag s rWeaveState 28 then s else askDepartures s f (position s) (m + 64) (weaveStake s)
  else if decide (last ≤ m) && decide (m < last + 64) && !s.stake.held && !noticeHeld s then
    askDepartures s f (nextPosition s) (m - last) (weaveStake s + 1)
  else s

/-- The departure read of pick `i` of a record is incomplete: its memory is late, or its banks have not granted it. -/
def readIncomplete (s : State) (f : FsqId) (incomplete : BitVec 16) (r : Record) (i : Nat) : Bool :=
  incomplete.getLsbD (8 * f.val + (r.input - 12)) || !netGranted s r.pod (departureOp f (circuitOf r i))

/-- The packet that a DP input presents (R209). -/
def departurePacket (s : State) (r : Record) (i : Nat) (payload : List Byte) : Packet where
  offset := 0
  circuit := BitVec.ofNat 16 (circuitOf r i)
  stakeTag := BitVec.ofNat 8 (stakeTagNow s)
  rsv := 0
  mcast := decide (1 < (outputs r.mask).length)
  resend := false
  fence := false
  lenM1 := BitVec.ofNat 6 r.lenM1
  src := BitVec.ofNat 24 (deviceCoord s * 512 + r.pod.val * 8)
  dst := 0
  type := if r.reduce then 2 else 1
  seq := 0
  payload := payload

/-- A departure is read and its packet formed; its copy is retained where the weave asks for it. -/
def formDeparture (s : State) (f : FsqId) (r : Record) (i : Nat) : State × Packet :=
  let b := departureBytes s f r i
  let k := departurePacket b.1 r i b.2
  let copy : Retained := ⟨weaveStake s, k⟩
  let s1 := if retaining s && !(fsq s f).retained.any (fun c => c.weaveStake = weaveStake s && c.pkt.circuit = k.circuit) then
      modFsq b.1 f (fun q => { q with retained := q.retained ++ [copy] })
    else b.1
  (s1, k)

/-! ## One pick (R209) -/

/-- What the inputs of one FSQ present in a pick: record, run index and packet. -/
abbrev Presented := List (Record × Nat × Packet)

/-- A record's packet has not come in its pick: it counts as missing (R209, R215). Under PATH a LOCAL record asks its source for it (R217). -/
def missPick (s : State) (f : FsqId) (r : Record) (i : Nat) : State :=
  let m : Missing := ⟨r.input, circuitOf r i, r, i⟩
  let s1 := modFsq s f (fun q => { q with missing := q.missing ++ [m] })
  if r.path && isLocal r && !noticeHeld s then
    let rsq : Packet := { departurePacket s r i (List.replicate 64 0) with
      type := 3, mcast := false, lenM1 := 0, src := BitVec.ofNat 24 (deviceCoord s * 512)
      dst := BitVec.ofNat 24 (r.srcDev * 512) }
    sendByDst (add64 s1 (rFsq f 0x038) 1) rsq
  else s1

/-- One record's input in pick `n`. -/
def inputPick (f : FsqId) (incomplete : BitVec 16) (arrived : List InFlight) (acc : State × Presented) (e : Record × Nat) :
    State × Presented :=
  let (s, l) := acc
  let (r, i) := e
  if 12 ≤ r.input then
    if (recoveryCopy s f r i).isNone && readIncomplete s f incomplete r i then
      (add64 (modFsq s f (fun q => { q with lateReads := q.lateReads ++ [(r, i)] })) (rFsq f 0x048) 1, l)
    else
      let d := formDeparture s f r i
      (add64 d.1 (rFsq f 0x010) 1, l ++ [(r, i, d.2)])
  else
    match arrived.find? (fun a => a.input = r.input && matchesRecord s r i a.pkt) with
    | some a => (s, l ++ [(r, i, a.pkt)])
    | none => (missPick s f r i, l)

/-- A received packet that its record sends on by TX or XO counts as forwarded. -/
def countForward (s : State) (f : FsqId) (r : Record) : State :=
  if r.input < 12 && (outputs r.mask).any (fun o => decide (o < 12)) then add64 s (rFsq f 0x018) 1 else s

/-- What one input presented goes on: alone, or with its partner, whose own turn then sends nothing. -/
def presentOne (f : FsqId) (n : Nat) (l : Presented) (s : State) (e : Record × Nat × Packet) : State :=
  let (r, i, k) := e
  if !r.reduce then toMask (countForward s f r) f r i n false k
  else
    match l.find? (fun q => q.1.reduce && q.1.input = r.partner) with
    | some q => if r.mask = 0 then s else reducePair s f r i n false k q.2.2
    | none => reduceLate s f r i n k

/-! ## Late traffic (R216, R217) -/

/-- A re-send for this device: the LOCAL record with EMODE = PATH that waits for it takes it. -/
def takeResend (s : State) (f : FsqId) (k : Packet) : State :=
  let hit := allFsqs.findSome? (fun g => (effective s g).findSome? (fun r =>
    if isLocal r && r.path && r.srcDev = devOf k.src && k.lenM1.toNat = r.lenM1 then
      (runOf r k.circuit.toNat).map (fun i => (g, r, i)) else none))
  match hit with
  | some (g, r, i) =>
    if k.stakeTag.toNat = stakeTagNow s then
      stageLocal (modFsq s g (fun q => { q with
        missing := q.missing.filter (fun m => !(m.circuit = k.circuit.toNat && m.record = r)) })) g r i true k
    else unexpected s f k.circuit.toNat
  | none => unexpected s f k.circuit.toNat

/-- A re-send passes on to its requester: what a PATH record of this device missed of that circuit is no longer awaited (R217; DEDUCED, log
15). -/
def passResend (s : State) (p : PortId) (k : Packet) : State :=
  forEach allFsqs (passOn s p k) (fun t g => modFsq t g (fun q => { q with
    missing := q.missing.filter (fun m => !(m.record.path && !isLocal m.record && m.circuit = k.circuit.toNat)) }))

/-- A packet presented after its pick, or one that no pick schedules. -/
def lateArrival (s : State) (f : FsqId) (n : Nat) (a : InFlight) : State :=
  let k := a.pkt
  if k.resend then if devOf k.dst = deviceCoord s then takeResend s f k
    else passResend s (physOf s (toPort (8 * f.val + a.input))) k
  else
    match recordFor s f a.input k.circuit.toNat with
    | some (r, i) =>
      if matchesRecord s r i k && decide (r.pick + i < n) then
        let s1 := modFsq s f (fun q => { q with
          missing := q.missing.filter (fun m => !(m.input = a.input && m.circuit = k.circuit.toNat)) })
        if r.reduce then reduceLate s1 f r i n k else toMask (countForward s1 f r) f r i n true k
      else unexpected s f k.circuit.toNat
    | none => unexpected s f k.circuit.toNat

/-- One pick of an FSQ: each record scheduled in it, of a warp pick or of the spare picks, finds its packet or misses it. Of the
other packets, those in a warp pick are unexpected (R209), and those outside are late traffic (R216). -/
def warpPick (s : State) (f : FsqId) (n : Nat) (incomplete : BitVec 16) : State :=
  let arrived := (fsq s f).arriving.filter (fun a => decide (a.atPick ≤ n))
  let s0 := modFsq s f (fun q => { q with arriving := q.arriving.filter (fun a => decide (n < a.atPick)) })
  let recs := (effective s0 f).filterMap (fun r => (runIndex r n).map (fun i => (r, i)))
  let due := fun (a : InFlight) => !a.pkt.resend && recs.any (fun e => e.1.input = a.input && matchesRecord s0 e.1 e.2 a.pkt)
  let odd := arrived.filter (fun a => !due a)
  let s1 := if n < 896 then forEach odd s0 (fun t a => unexpected t f a.pkt.circuit.toNat) else s0
  let r := recs.foldl (inputPick f incomplete (arrived.filter due)) (s1, [])
  let s2 := r.2.foldl (presentOne f n r.2) r.1
  if n < 896 then s2 else forEach odd s2 (fun t a => lateArrival t f n a)

/-! ## The ports' part of a pick (R244) -/

/-- Warp data of a port whose pick is past, or has come while the port recovers, takes its number without being sent: the far end finds the
number lost, and the copy is retried (R243, R244, R267; DEDUCED, log 15). -/
def skipPicks (s : State) (n : Nat) (p : PortId) : State :=
  let gone := s.txItems.filter (fun i => i.port = p && (match i.atPick with
    | some a => (lstate s p = 6 && decide (a ≤ n)) || (lstate s p = 5 && decide (a < n))
    | none => false))
  gone.foldl (fun t i => (numberWarp t p i.pkt).1) { s with txItems := s.txItems.filter (fun i => !gone.contains i) }

/-- A pick of a port ends: an expected pick that brought neither an intact packet nor seven intact IDLE flits is uncertain. -/
def portPick (s : State) (n : Nat) (p : PortId) : State :=
  let x := port s p
  let due := if weaveActive s && (lstate s p = 5 || lstate s p = 6) then recordAt s (dieOf s p) (inputOf s p) n else none
  match due with
  | some e =>
    if x.pickGot || decide (7 ≤ x.pickIdles) then modPort s p (fun y => { y with pickIdles := 0, pickGot := false })
    else modPort s p (fun y => { y with uncertain := y.uncertain ++ [e.1.path], pickIdles := 0, pickGot := false })
  | none => modPort s p (fun y => { y with pickIdles := 0, pickGot := false })

/-! ## Rows -/

/-- The part of a pick that is an FSQ's: reads that begin, packets that are presented, and LOCAL data handed over. -/
def fsqPick (s : State) (f : FsqId) (n : Nat) (incomplete : BitVec 16) : State :=
  let s1 := beginReads s f n
  handLocal (warpPick s1 f n incomplete) f

/-- PICK: the present pick of both FSQs, and of every port. -/
def execPick (incomplete : BitVec 16) (s : State) : Host.Outcome State Fault Refusal :=
  let n := pickNo s
  let s1 := forEach allPorts s (fun t p => skipPicks (portPick t n p) n p)
  .next (if !fabricRuns s then s
    else if weaveActive s then forEach allFsqs s1 (fun t f => fsqPick t f n incomplete)
    else forEach allFsqs s1 (fun t f =>
      forEach (fsq t f).arriving (modFsq t f (fun q => { q with arriving := [] })) (fun u a => unexpected u f a.pkt.circuit.toNat)))

/-- DEPARTURE_READ_DONE: a read incomplete at its pick has completed, and the packet leaves as late traffic. Without the fabric clock or that of
the Pod's network the read does not complete (R366, R368). -/
def execDepartureReadDone (f : FsqId) (channel : Fin 8) (circuit : BitVec 16) (s : State) : Host.Outcome State Fault Refusal :=
  match (fsq s f).lateReads.find? (fun e => e.1.input = 12 + channel.val && circuitOf e.1 e.2 = circuit.toNat) with
  | none => .next s
  | some e =>
    if !netGranted s e.1.pod (departureOp f (circuitOf e.1 e.2)) || !fabricRuns s || !networkRuns s (e.1.pod.val / 16) then .next s else
    let d := formDeparture (modFsq s f (fun q => { q with lateReads := q.lateReads.erase e })) f e.1 e.2
    if noticeHeld s then .next d.1
    else if e.1.reduce then .next (reduceLate d.1 f e.1 e.2 (pickNo s) d.2)
    else .next (toMask d.1 f e.1 e.2 (pickNo s) true d.2)

/-- LOCAL_WRITE: the on-die network writes the oldest staged LOCAL data of a die. -/
def execLocalWrite (f : FsqId) (s : State) : Host.Outcome State Fault Refusal := .next (writeLocal s f)

end Sys2Proof.Machine
end

