-- ==== Sys2Proof/Machine/Streams.lean ====
section
/-! DEFINITION. Host streams: doorbells (R333), states (R334 to R336), scoring submissions (R337 to R340), posts (R341 to R343),
completion records (R344, R345, R347, R348) and the resets of a stream (R351), with their rows. -/

namespace Sys2Proof.Machine

/-! ## Ring registers (R332, R352) -/

/-- Entries of the submission ring. -/
def sqSize (s : State) (i : StreamId) : Nat := 2 ^ field s (rStream i 0x10) 0 5
/-- Entries of the completion ring. -/
def cqSize (s : State) (i : StreamId) : Nat := 2 ^ field s (rStream i 0x10) 16 5
/-- SQ_HEAD. -/
def sqHead (s : State) (i : StreamId) : Nat := field s (rStream i 0x38) 0 16
/-- CQ_TAIL. -/
def cqTail (s : State) (i : StreamId) : Nat := field s (rStream i 0x38) 16 16
/-- Host address of an entry of the completion ring. -/
def cqAddr (s : State) (i : StreamId) (n : Nat) : Nat := reg64 s (rStream i 0x08) + 64 * n
/-- The completion ring is full: it holds N − 1 unconsumed entries. -/
def cqFull (s : State) (i : StreamId) : Bool := decide ((cqTail s i + 1) % cqSize s i = (strm s i).cqHead % cqSize s i)
/-- SLOT_BYTES. -/
def slotSize (s : State) (i : StreamId) : Nat := (reg s (rStream i 0x20)).toNat
/-- RESULT_BYTES. -/
def resultSize (s : State) (i : StreamId) : Nat := (reg s (rStream i 0x2C)).toNat
/-- SLOTS. -/
def slotCount (s : State) (i : StreamId) : Nat := field s (rStream i 0x14) 16 8
/-- STAGE_BASE. -/
def stageBase (s : State) (i : StreamId) : Nat := reg64 s (rStream i 0x18)
/-- RESULT_BASE. -/
def resultBase (s : State) (i : StreamId) : Nat := reg64 s (rStream i 0x24)

/-! ## Configuration (R336) -/

/-- [a, a + n) is 64-byte aligned and lies within one Pod store or one Root die region. -/
def inOneStore (a n : Nat) : Bool :=
  let e := a + n - 1
  decide (a % 64 = 0) && decide (0 < n)
    && ((decide (e < rootEnd) && decide (a / dieSize = e / dieSize))
      || (decide (podBase ≤ a) && decide (e < podEnd) && decide ((a - podBase) / podSize = (e - podBase) / podSize)))

/-- The configuration of a stream is valid. For stream 0 only the ring fields are checked. -/
def configValid (s : State) (i : StreamId) : Bool :=
  let lg := fun (n : Nat) => decide (4 ≤ n) && decide (n ≤ 16)
  let rings := lg (field s (rStream i 0x10) 0 5) && lg (field s (rStream i 0x10) 16 5)
    && decide (reg64 s (rStream i 0x00) % 4096 = 0) && decide (reg64 s (rStream i 0x08) % 4096 = 0)
  let n := slotCount s i
  let sb := slotSize s i
  let rb := resultSize s i
  let slots := decide (1 ≤ n) && decide (n ≤ 64) && decide (sb % 64 = 0) && decide (64 ≤ sb) && decide (sb ≤ 0x400000)
    && decide (rb % 64 = 0) && decide (rb ≤ 0x400000)
  rings && (i.val = 0 || (slots && inOneStore (stageBase s i) (n * sb) && (rb = 0 || inOneStore (resultBase s i) (n * rb))))

/-! ## Doorbells (R333) -/

/-- A doorbell value was dropped. -/
def doorbellBad (s : State) (i : StreamId) : State := raiseErr s 14 rErrHost 2 i.val 0

/-- HST_SQ_TAIL is written. -/
def writeSqTail (s : State) (i : StreamId) (v : Word) : State :=
  let t := getF v 0 16
  if strmState s i ≠ 1 then s
  else if sqSize s i ≤ t then doorbellBad s i
  else modStrm s i (fun x => { x with sqTail := t })

/-- HST_CQ_HEAD is written: it may not pass the device's tail. -/
def writeCqHead (s : State) (i : StreamId) (v : Word) : State :=
  let h := getF v 0 16
  let n := cqSize s i
  let old := (strm s i).cqHead
  if strmState s i ≠ 1 then s
  else if n ≤ h then doorbellBad s i
  else if (cqTail s i + n - old) % n < (h + n - old) % n then doorbellBad s i
  else modStrm s i (fun x => { x with cqHead := h })

/-! ## States (R334, R335) -/

/-- Numbering of a stream starts again: transfers of the on-die network for what was numbered before are nobody's any more. -/
def dropJobs (s : State) (i : StreamId) : State :=
  modMisc s (fun m => { m with netJobs := m.netJobs.filter (fun j => match j.key with
    | .input k _ => decide (k ≠ i)
    | .output k _ => decide (k ≠ i)
    | _ => true) })

/-- The READY events that the device posts first when stream 0 is enabled (R347, R388). -/
def readyEvents (s : State) : State :=
  allFuncs.foldl (fun t f => if func t f = 2 then postState t 1 f 2 else t) s

/-- ENABLE is written 1 to a DISABLED stream. A scoring stream needs PCIE and KEEPER (R387). -/
def enableStream (s : State) (i : StreamId) : State :=
  if strmState s i ≠ 0 ∨ (i.val ≠ 0 ∧ (func s fPcie ≠ 2 ∨ func s fKeeper ≠ 2)) then s
  else if !configValid s i then setFlag s (rStream i 0x34) 28 true
  else
    let s1 := setFlag (setStrmState (dropJobs s i) i 1) (rStream i 0x30) 0 true
    let s2 := setReg (setReg s1 (rStream i 0x38) 0) (rStream i 0x3C) 0
    let s3 := modStrm s2 i (fun x => { Stream.reset with orphans := x.orphans })
    if i.val = 0 then readyEvents s3 else s3

/-- A reset of the stream was accepted: a post of it that waits will be discarded (R342). -/
def voidPosts (l : List Post) (i : StreamId) : List Post := l.map (fun po => if po.stream = i then { po with void := true } else po)

/-- A stream reset starts: what has not entered a queue is dropped, its waiting posts will be discarded, and I(s) returns to zero (R319, R342,
R351). -/
def resetStream (s : State) (i : StreamId) : State :=
  if strmState s i = 1 ∨ strmState s i = 2 ∨ strmState s i = 4 then
    let s1 := setFlag (setStrmState s i 3) (rStream i 0x30) 0 false
    let s2 := modPods (modStrm s1 i (fun x => { x with digest := zeroDigest, subs := x.subs.filter (fun u => !isEntering u) }))
      (fun _ x => { x with posts := voidPosts x.posts i })
    if i.val = 0 then modMisc s2 (fun m => { m with loading := none }) else s2
  else s

/-- HST_S_CTRL is written. ENABLE reads 1 only in ENABLED, PAUSED and ERROR. -/
def writeStreamCtrl (s : State) (i : StreamId) (v : Word) : State :=
  let s1 := setField s (rStream i 0x30) 2 1 (getF v 2 1)
  if getB v 1 then resetStream s1 i
  else if getB v 0 then enableStream s1 i
  else resetStream s1 i

/-- An entry of the stream stands in an inbound queue. -/
def inInbound (s : State) (i : StreamId) : Bool :=
  allPods.any (fun p => (List.finRange 8).any (fun q => (vget (pod s p).inq q).any (fun e =>
    match e.stream with
    | some (j, _) => decide (j = i)
    | none => false)))

/-- A RESETTING stream with nothing left becomes DISABLED. -/
def settleReset (s : State) (i : StreamId) : State :=
  if strmState s i = 3 ∧ !(strm s i).subs.any isQueued ∧ !inInbound s i then
    modStrm (setStrmState s i 0) i (fun x => { Stream.reset with orphans := x.orphans })
  else s

/-- A descriptor fetch fails: RING_FETCH, with the host address of the failed transfer. -/
def fetchFailed (s : State) (i : StreamId) (addr : Word64) : State :=
  if strmState s i = 1 then raiseErr (setStrmState s i 4) 14 rErrHost 1 i.val addr.toNat else s

/-! ## Submissions (R337 to R340) -/

/-- The status of a submission completed without an entry. -/
def endedSub (mask : Byte) (st : BitVec 7) : SubmitStatus := .complete st zeroDigest 0 0 mask

/-- Take the next sequence number of a stream. -/
def takeSeq (s : State) (i : StreamId) : Word × State := (reg s (rStream i 0x3C), modReg s (rStream i 0x3C) (· + 1))

/-- The fields of a scoring descriptor are right (R337). -/
def descOk (s : State) (i : StreamId) (d : List Byte) : Bool :=
  let flags := numAt d 1 1
  let seg := decide (flags / 2 % 2 = 1)
  let n := numAt d 0x10 4
  numAt d 0 1 = 1 && decide (flags < 4) && numAt d 3 1 = 0 && decide (1 ≤ numAt d 2 1) && decide (numAt d 2 1 ≤ 64)
    && (if seg then decide (1 ≤ n) && decide (n ≤ 64) && decide (numAt d 8 8 % 16 = 0) else decide (n ≤ slotSize s i))

/-- The segments of a segment list. -/
def segmentsOf (d segs : List Byte) : List (List Byte) := chunksB 16 (numAt d 0x10 4) segs

/-- The segment list is right. -/
def segmentsOk (s : State) (i : StreamId) (d segs : List Byte) : Bool :=
  let l := segmentsOf d segs
  l.all (fun g => decide (1 ≤ numAt g 8 4) && numAt g 12 4 = 0) && decide ((l.map (fun g => numAt g 8 4)).sum ≤ slotSize s i)

/-- Input bytes of a descriptor. -/
def inputLen (d segs : List Byte) : Nat :=
  if numAt d 1 1 / 2 % 2 = 1 then ((segmentsOf d segs).map (fun g => numAt g 8 4)).sum else numAt d 0x10 4

/-- A staging slot holds the input of a submission that has not been posted (R341). -/
def slotBusy (x : Stream) (j : Nat) : Bool := x.subs.any (fun u => decide (u.slot = j) && (isQueued u || isEntering u))

/-- The device may take the descriptor at the SQ head (R338, R340, R344): descriptors pending and records held are 64 at most together, so that
the records held never exceed 64 (DEDUCED, log 37). A SAMPLES out of its range adds none. -/
def mayTake (s : State) (i : StreamId) (d : List Byte) : Bool :=
  let x := strm s i
  let open_ := x.subs.filter (fun u => isQueued u || isEntering u)
  let n := numAt d 2 1
  pcieRuns s && decide (strmState s i = 1) && decide (sqHead s i ≠ x.sqTail) && !cqFull s i && !x.subs.any isEntering
    && decide (x.subs.length < 64) && decide ((open_.map (·.samples)).sum + (if n ≤ 64 then n else 0) ≤ 64)
    && !slotBusy x (x.accepted % slotCount s i)

/-- The host address that a failed read of a descriptor's input names. -/
def inputAddr (d : List Byte) : Nat := numAt d 8 8

/-- SUBMIT: the descriptor is numbered and checked; it completes at once or its input is staged (R339). -/
def submit (s : State) (i : StreamId) (d0 segs : List Byte) (readFails : Bool) : State :=
  let d := sliceB d0 0 64
  if i.val = 0 ∨ !mayTake s i d then s
  else
    let n := takeSeq s i
    let mask := weaveMask s
    let seg := decide (numAt d 1 1 / 2 % 2 = 1)
    let j := (strm s i).accepted % slotCount s i
    let add := fun (t : State) (u : SubmitStatus) =>
      modStrm t i (fun x => { x with subs := x.subs ++ [⟨n.1, d, numAt d 2 1, j, inputLen d segs, u, x.digest⟩] })
    if !descOk s i d then passHead (add n.2 (endedSub mask 0x40)) i
    else if !weaveActive s then passHead (add n.2 (endedSub mask 0x45)) i
    else if readFails then passHead (raiseErr (add n.2 (endedSub mask 0x41)) 14 rErrHost 0 i.val (inputAddr d)) i
    else if seg && !segmentsOk s i d segs then passHead (add n.2 (endedSub mask 0x40)) i
    else add n.2 .staging

/-- The 64-byte entry of a submission (R339). -/
def entryOf (s : State) (i : StreamId) (u : Submission) : List Byte :=
  [0, 0] ++ leBytes 1 i.val ++ leBytes 1 u.samples ++ leBytes 4 u.seq.toNat ++ leBytes 8 (stageBase s i + u.slot * slotSize s i)
    ++ leBytes 4 u.inLen ++ sliceB u.desc 4 4 ++ leBytes 1 u.slot ++ List.replicate 7 0 ++ sliceB u.desc 0x20 32

/-- Change the submission that is entering. -/
def setEntering (x : Stream) (f : Submission → Submission) : Stream :=
  { x with subs := x.subs.map (fun u => if isEntering u then f u else u) }

/-- The entry of the entering submission is offered to its inbound queue (R340). -/
def offerEntry (s : State) (i : StreamId) : State :=
  match (strm s i).subs.find? isEntering with
  | none => s
  | some u =>
    let p := toPod (field s (rStream i 0x14) 0 6)
    let q := queueIx (field s (rStream i 0x14) 8 3)
    if strmState s i ≠ 1 then s
    else if inqRoom s p q then
      let s1 := acceptEntry s p q (entryOf s i u) (some (i, u.seq.toNat))
      passHead (modStrm s1 i (fun x =>
        { setEntering x (fun v => { v with status := .queued }) with accepted := x.accepted + 1 })) i
    else refuseEntry s p

/-- INPUT_STAGED: the input is written to its slot at rank 5, zero-filled to 64 bytes (R169); once it stands there it is hashed into I(s, n) and the
entry is offered (R339). The spec gives no event of its own to the request at the banks: it is the row's first coming (DESIGN CHOICE, log 57). -/
def inputStaged (s : State) (i : StreamId) (input : List Byte) : State :=
  match (strm s i).subs.find? (fun u => u.status = .staging) with
  | none => s
  | some u =>
    let b := sliceB input 0 u.inLen
    let w := if u.inLen = 0 then (s, true)
      else hostPut s (.input i u.seq) (stageBase s i + u.slot * slotSize s i) (sliceB b 0 (ceilTo 64 u.inLen))
    if !w.2 then w.1
    else
      let h := sha256 (sliceB u.desc 4 4 ++ sliceB u.desc 0x20 32 ++ b)
      let s2 := modStrm w.1 i (fun x =>
        let d := sha256 (x.digest ++ h)
        { setEntering x (fun v => { v with status := .refused, input := d }) with digest := d })
      offerEntry s2 i

/-! ## Posts (R341 to R343) -/

/-- The Skein digest (R320). -/
def skein (program weight input : List Byte) (step seedId : Word64) : List Byte :=
  sha256 (program ++ weight ++ input ++ leBytes 8 step.toNat ++ leBytes 8 seedId.toNat)

/-- P and the seed set ID of the active weave. -/
def weaveIds (s : State) : List Byte × Word64 :=
  match s.active with
  | some w => (w.program, w.seedId)
  | none => (zeroDigest, 0)

/-- One posted submission: its output is copied to the host, and its completion is formed (R343). What stands in a Pod store is read at rank 5
(R169), and is copied before the record is written. -/
def completePost (s : State) (i : StreamId) (po : Post) (u : Submission) : State :=
  let outLen := numAt u.desc 0x14 4
  let rb := resultSize s i
  let ids := weaveIds s
  let st : SubmitStatus := .complete (if outLen < rb then 0x49 else 0) (skein ids.1 po.weight u.input po.step ids.2) po.step ids.2 (weaveMask s)
  let n := min outLen rb
  let r := hostGet s (.output i u.seq) (resultBase s i + u.slot * rb) n
  let s1 := if n = 0 then s
    else match r.2 with
      | some b => emit r.1 (.hostWrite (BitVec.ofNat 64 (numAt u.desc 0x18 8)) b)
      | none => r.1
  modStrm s1 i (fun x => { x with subs := x.subs.map (fun v => if isQueued v && v.seq = u.seq then { v with status := st } else v) })

/-- Submissions that a stream reset ends complete ABORTED (R347). -/
def abortSubs (s : State) (i : StreamId) (l : List Submission) : State :=
  let st := endedSub (weaveMask s) 0x46
  modStrm s i (fun x => { x with subs := x.subs.map (fun u => if l.contains u then { u with status := st } else u) })

/-- One post is processed (R342). It names first what an FLR left in the queues, and for that part it is discarded (R351). A discarded post of a
RESETTING stream ends the submissions it counts; a stream in ERROR holds its state (R334). -/
def processPost (s : State) (po : Post) : State :=
  let i := po.stream
  let st := strmState s i
  let gone := min po.count (strm s i).orphans
  let n := po.count - gone
  let l := ((strm s i).subs.filter isQueued).take n
  let s0 := modStrm s i (fun x => { x with orphans := x.orphans - gone })
  if i.val = 0 then raiseErr s 14 rErrHost 3 0 0
  else if (st = 1 ∨ st = 2) ∧ !po.void then
    let s1 := l.foldl (fun t u => completePost t i po u) (if 0 < gone then addSat s0 rPostsDropped 1 else s0)
    if l.length < n then raiseErr s1 14 rErrHost 3 i.val 0 else s1
  else
    let s1 := addSat s0 rPostsDropped 1
    if st = 3 then abortSubs s1 i l else s1

/-- The posts of the frame that has ended, in ascending Pod order and issue order. -/
def processPosts (s : State) : State :=
  allPods.foldl (fun t p =>
    (pod t p).posts.foldl processPost (modPod t p (fun x => { x with posts := [] }))) s

/-- Refused entries are offered again at a frame start (R340). -/
def reofferEntries (s : State) : State :=
  allStreams.foldl (fun t i => if (strm t i).subs.any (fun u => u.status = .refused) then offerEntry t i else t) s

/-- The stream's part of the first tick of weave frame 0 (R335, R351): every unposted submission completes ABORTED, numbering and I(s) start
again, and PAUSED streams run. A RESETTING stream is left with nothing to wait for. -/
def startStream (s : State) (i : StreamId) : State :=
  let st := strmState s i
  if i.val = 0 then s
  else
    let s1 := endStream (modStrm (dropJobs s i) i (fun x => { x with orphans := 0 })) i 0x46
    let s2 := modStrm (setReg s1 (rStream i 0x3C) 0) i (fun x => { x with digest := zeroDigest })
    if st = 2 then setStrmState s2 i 1 else s2

/-- Inbound entries of the old weave are discarded (R351). -/
def dropInbound (s : State) : State := modPods s (fun _ x => { x with inq := Vector.replicate 8 [] })

/-- Weave frame 0 of a new or restarted weave begins: the streams' part. -/
def startStreams (s : State) : State := allStreams.foldl startStream (dropInbound s)

/-- A weave load is accepted: ENABLED scoring streams pause (R335). -/
def pauseStreams (s : State) : State :=
  allStreams.foldl (fun t i => if i.val ≠ 0 ∧ strmState t i = 1 then setStrmState t i 2 else t) s

/-! ## Completion records (R344, R345, R347, R348) -/

/-- The record of a completed submission, with time and phase still zero, and its IRQ wish. -/
def recordOf (u : Submission) : Option (List Byte × Bool) :=
  match u.status with
  | .complete st sk step seed mask =>
    some (sk ++ leBytes 8 step.toNat ++ leBytes 8 seed.toNat ++ List.replicate 10 0 ++ [mask] ++ [st.setWidth 8] ++ leBytes 4 u.seq.toNat,
      decide (numAt u.desc 1 1 % 2 = 1))
  | _ => none

/-- The next record of a stream: completions of scoring streams are written in SEQ order (R343). -/
def nextRecord (s : State) (i : StreamId) : Option (List Byte × Bool) :=
  if i.val = 0 then (strm s i).records.head? else (strm s i).subs.head?.bind recordOf

/-- A record with its time, whole nanoseconds, and phase. -/
def stampRecord (s : State) (i : StreamId) (r : List Byte) : List Byte :=
  let status := numAt r 0x3B 1 % 128 + 128 * b2n (strm s i).phase
  patchB (patchB r 0x30 (leBytes 4 (s.time.ns32 / 2 ^ 32) ++ leBytes 6 s.time.secs.toNat)) 0x3B (leBytes 1 status)

/-- The next record is written to the completion ring; the phase flips at each wrap. -/
def writeRecord (s : State) (i : StreamId) (r : List Byte) (irq : Bool) : State :=
  let t := cqTail s i
  let next := (t + 1) % cqSize s i
  let s1 := emit s (.hostWrite (BitVec.ofNat 64 (cqAddr s i t)) (stampRecord s i r))
  let s2 := setField s1 (rStream i 0x38) 16 16 next
  modStrm s2 i (fun x => { x with
    phase := if next = 0 then !x.phase else x.phase
    subs := if i.val = 0 then x.subs else x.subs.drop 1
    records := if i.val = 0 then x.records.drop 1 else x.records
    irqPending := x.irqPending || irq || flag s (rStream i 0x30) 2 })

/-- Once all records of a batch are written the stream's vector is signalled where a record of it asked (R348). -/
def endBatch (s : State) (i : StreamId) : State :=
  if (strm s i).irqPending && (nextRecord s i).isNone then
    msix (modStrm s i (fun x => { x with irqPending := false })) i.val
  else s

/-- The output of a stream's oldest submission is copied to the host where it still has to be: once the banks have granted its lines (R343). -/
def copyOutput (s : State) (i : StreamId) : State × Bool :=
  match (strm s i).subs with
  | [] => (s, true)
  | u :: _ =>
    match netJob s (.output i u.seq) with
    | none => (s, true)
    | some j =>
      if netDone s j then
        (emit (closeJob s (.output i u.seq)) (.hostWrite (BitVec.ofNat 64 (numAt u.desc 0x18 8)) j.data), true)
      else (s, false)

/-- COMPLETION_RECORD: the next record of a stream is written while its ring has room, once its output has been copied. A stream in ERROR holds its
state (R334). -/
def completionRecord (s : State) (i : StreamId) : State :=
  if strmState s i = 0 ∨ strmState s i = 4 ∨ cqFull s i ∨ !pcieRuns s then s
  else
    match nextRecord s i with
    | none => s
    | some r =>
      let c := copyOutput s i
      if c.2 then endBatch (writeRecord c.1 i r.1 r.2) i else c.1

/-! ## Rows -/

/-- HST_SQ_TAIL (R333). -/
def execHstSqTail (i : StreamId) (value : Word) (s : State) : Host.Outcome State Fault Refusal :=
  .next (if pcieRuns s then writeSqTail s i value else s)

/-- HST_CQ_HEAD (R333). -/
def execHstCqHead (i : StreamId) (value : Word) (s : State) : Host.Outcome State Fault Refusal :=
  .next (if pcieRuns s then writeCqHead s i value else s)

/-- DESCRIPTOR_FETCH_FAIL (R335). -/
def execDescriptorFetchFail (i : StreamId) (hostAddr : Word64) (s : State) : Host.Outcome State Fault Refusal :=
  .next (fetchFailed s i hostAddr)

/-- SUBMIT (R339). -/
def execSubmit (i : StreamId) (desc segments : List Byte) (readFails : Bool) (s : State) : Host.Outcome State Fault Refusal :=
  .next (submit s i desc segments readFails)

/-- INPUT_STAGED (R339). -/
def execInputStaged (i : StreamId) (input : List Byte) (s : State) : Host.Outcome State Fault Refusal :=
  .next (if pcieRuns s then inputStaged s i input else s)

/-- COMPLETION_RECORD (R343). -/
def execCompletionRecord (i : StreamId) (s : State) : Host.Outcome State Fault Refusal := .next (completionRecord s i)

/-- HST_S_CTRL_ENABLE: HST_S_CTRL is written for its ENABLE bit, RESET being 0 (R335). -/
def execHstSCtrlEnable (i : StreamId) (value : Word) (s : State) : Host.Outcome State Fault Refusal :=
  .next (writeStreamCtrl s i (value &&& 0xFFFFFFFD))

/-- HST_S_CTRL_RESET: HST_S_CTRL is written with RESET 1 (R335). -/
def execHstSCtrlReset (i : StreamId) (value : Word) (s : State) : Host.Outcome State Fault Refusal :=
  .next (writeStreamCtrl s i (value ||| 2))

/-- STREAM_RESET_DONE (R335). -/
def execStreamResetDone (i : StreamId) (s : State) : Host.Outcome State Fault Refusal := .next (settleReset s i)

end Sys2Proof.Machine
end

