-- ==== Sys2Proof/Machine/WeaveLoad.lean ====
section
/-! DEFINITION. Weave images: the header (R38), the device's part (R204, R207 to R210, R220), every check at load (R39, R211, R288,
R303, R305, R314, R322) and the acceptance of a load (R228). -/

namespace Sys2Proof.Machine

/-! ## Header (R38) -/

def whSheet (b : List Byte) : Nat := numAt b 0x08 2
def whProfile (b : List Byte) : Nat := numAt b 0x0A 1
def whPStep (b : List Byte) : Nat := numAt b 0x0B 1
def whEnvelope (b : List Byte) : Nat := numAt b 0x0C 2
def whFlags (b : List Byte) : Nat := numAt b 0x0E 1
def whMask (b : List Byte) : Nat := numAt b 0x10 8
def whDevices (b : List Byte) : Nat := numAt b 0x18 4
def whSplices (b : List Byte) : Nat := numAt b 0x1C 4
def whPeriod (b : List Byte) : Nat := numAt b 0x20 4
def whInterval (b : List Byte) : Nat := numAt b 0x24 4
def whCircuit (b : List Byte) : Nat := numAt b 0x58 8
def whSplice (b : List Byte) : Nat := numAt b 0x60 8
def whCkpt (b : List Byte) : Nat := numAt b 0x68 8

/-- The magic, the reserved fields and the ranges of the header are right. -/
def headerFieldsOk (b : List Byte) : Bool :=
  numAt b 0 4 = 0x4D585756 && decide (whFlags b < 4) && zeroAt b 0x0F 1 && zeroAt b 0x28 8 && zeroAt b 0x70 16
    && decide (whPStep b ≤ 7) && decide (1 ≤ whEnvelope b) && decide (whEnvelope b ≤ 256)
    && decide (1 ≤ whDevices b) && decide (whDevices b ≤ 32768)

/-- A splice's header equals its parent's, the section offsets apart (R40). -/
def spliceHeaderOk (b h : List Byte) : Bool :=
  decide (sliceB h 0 0x50 = sliceB b 0 0x50) && decide (sliceB h 0x70 16 = sliceB b 0x70 16)

/-- The clock of a P-step in MHz (R361). -/
def pstepClock (s : State) (i : Nat) : Nat := field s (rPstep (i % 8)) 0 12

/-- RACK_COUNT of the installed manifest. -/
def rackCount (s : State) : Nat := field s rManifest 18 9

/-- The codes that the header fails with (R39, R40, R288, R303, R305, R314). -/
def headerCodes (s : State) (b : List Byte) : List Nat :=
  let sheet := whSheet b
  let prof := whProfile b
  let repro := flag s rRepro 0
  let offsets := [numAt b 0x50 8, whCircuit b, whSplice b, whCkpt b]
  let code := fun (bad : Bool) (n : Nat) => if bad then [n] else []
  code (offsets.any (fun o => decide (b.length ≤ o))) 0x0A
    ++ code (!headerFieldsOk b || !(upTo (whSplices b)).all (fun k => spliceHeaderOk b (Config.spliceHeader b k))) 0x01
    ++ code (numAt b 4 2 ≠ Config.weaveAbi / 2 ^ 16) 0x02
    ++ code (!(sheet = 0x00A1 || (sheet = 0x00B0 && !isA1 s))) 0x03
    ++ code (!(prof = 1 || (prof = 2 && !isA1 s)) || (sheet = 0x00A1 && prof ≠ 1)) 0x04
    ++ code (decide (whPStep b ≤ 7) && decide (gradeCeiling s < pstepClock s (whPStep b))) 0x05
    ++ code (decide (sliceB b 0x30 32 ≠ manifestDigest s) || !isListed s) 0x06
    ++ code ((whFlags b % 2 = 1 && (!repro || decide (1 < rackCount s))) || (repro && decide (1 < rackCount s))) 0x09
    ++ code (decide (2 ^ 7 ≤ whMask b) || (repro && decide (whMask b ≠ 0))) 0x17
    ++ code (!aligned s) 0x18

/-! ## The device's part (R208, R210, R220) -/

/-- [o, o + n) lies in the image. -/
def inImage (b : List Byte) (o n : Nat) : Bool := decide (o + n ≤ b.length)

/-- A circuit record of a position (R208). -/
def recordOfNum (pos v : Nat) : Record :=
  let f := fun (lo len : Nat) => v / 2 ^ lo % 2 ^ len
  { position := pos, circuit := f 112 16, offset := f 88 24, pod := toPod (f 82 6), lenM1 := f 76 6, twin := toPort (f 72 4)
    twinEn := f 71 1 = 1, path := f 70 1 = 1, reduce := f 69 1 = 1, partner := f 64 5, mask := BitVec.ofNat 13 (f 51 13)
    srcDev := f 36 15, runM1 := f 25 11, pick := f 15 10, input := f 10 5, rsv := f 0 10 }

/-- Where the part of a device begins: its directory entry of the circuit section. -/
def partOf (b : List Byte) (dev : Nat) : Option Nat :=
  ((upTo (whDevices b)).find? (fun i =>
    inImage b (whCircuit b + 16 * i) 16 && numAt b (whCircuit b + 16 * i) 2 % 2 ^ 15 = dev)).map
    (fun i => numAt b (whCircuit b + 16 * i + 8) 8)

/-- The Pod window table of a part. -/
def windowsAt (b : List Byte) (o : Nat) : List PodWindow :=
  (upTo 64).map (fun p =>
    let a := o + 16 * p
    ⟨numAt b a 4, numAt b (a + 4) 4, numAt b (a + 8) 4, numAt b (a + 12) 4⟩)

/-- One region of a Pod window keeps R204. -/
def regionOk (base half : Nat) : Bool :=
  let e := base + 2 * half
  decide (base % 64 = 0) && decide (half % 64 = 0) && decide (half ≤ 0x800000)
    && (half = 0 || (decide (e ≤ podSize) && (decide (e ≤ 0x1000000) || decide (0x1000000 ≤ base))))

/-- Where the image of FSQ B begins. -/
def imageB (b : List Byte) (o : Nat) : Nat := o + 1024 + numAt b (o + 1024 + 4) 4

/-- The position index of an FSQ image is right, and its stated size holds it (R210, R211). -/
def fsqImageOk (b : List Byte) (o : Nat) : Bool :=
  let n := numAt b o 4
  let p := whPeriod b
  let idx := (upTo (p + 1)).map (fun c => numAt b (o + 64 + 4 * c) 4)
  decide (n ≤ 196608) && idx.head? = some 0 && idx.getLast? = some n
    && (List.zip idx (idx.drop 1)).all (fun e => decide (e.1 ≤ e.2))
    && decide (64 + 4 * (p + 1) + 16 * n ≤ numAt b (o + 4) 4)

/-- The records of an FSQ image. -/
def fsqRecords (b : List Byte) (o : Nat) : List Record :=
  let p := whPeriod b
  (upTo p).flatMap (fun c =>
    let lo := numAt b (o + 64 + 4 * c) 4
    let hi := numAt b (o + 64 + 4 * (c + 1)) 4
    (upTo (hi - lo)).map (fun i => recordOfNum c (numAt b (o + 64 + 4 * (p + 1) + 16 * (lo + i)) 16)))

/-- Overlay entries: a header and its records, `fuel` of them at most (R220). -/
def overlaysOf : Nat → List Byte → List Overlay
  | 0, _ => []
  | fuel + 1, b =>
    if b.length < 16 then []
    else
      let n := numAt b 8 4
      let pos := numAt b 2 2
      let recs := (upTo n).map (fun i => recordOfNum pos (numAt b (16 + 16 * i) 16))
      ⟨numAt b 0 2, pos, numAt b 4 1, recs⟩ :: overlaysOf fuel (b.drop (16 + 16 * n))

/-- The overlay bytes of FSQ `f` of a device. -/
def overlayBytes (b : List Byte) (dev f : Nat) : List Byte :=
  if whSplices b = 0 then [] else Config.spliceOverlays b dev f

/-- The splice directory. -/
def directoryOf (b : List Byte) : List (Nat × Nat × Nat) :=
  (upTo (whSplices b)).map (fun i =>
    let e := whSplice b + 16 * i
    (numAt b e 2 % 2 ^ 15, numAt b (e + 2) 1, numAt b (e + 4) 2))

/-- The listed checkpoint stakes (R420). -/
def checkpointList (b : List Byte) : List Nat :=
  if whInterval b ≠ 0 then []
  else (upTo (min (numAt b (whCkpt b) 8) (b.length / 8))).map (fun i => numAt b (whCkpt b + 8 + 8 * i) 8)

/-- Every structure of the device's part and of the sections it reads lies in the image. -/
def partInImage (b : List Byte) (o : Nat) : Bool :=
  let fsqIn := fun (a : Nat) => inImage b a 64 && inImage b a (64 + 4 * (whPeriod b + 1) + 16 * numAt b a 4)
  inImage b (whCircuit b) (16 * whDevices b) && inImage b (whSplice b) (16 * whSplices b)
    && (whInterval b ≠ 0 || (inImage b (whCkpt b) 8 && inImage b (whCkpt b + 8) (8 * numAt b (whCkpt b) 8)))
    && inImage b o 1024 && fsqIn (o + 1024) && fsqIn (imageB b o)

/-! ## Records (R211) -/

/-- The first and last pick of a run, as presented. -/
def lastPick (r : Record) : Nat := r.pick + r.runM1
/-- A DP input. -/
def isDp (r : Record) : Bool := decide (12 ≤ r.input) && decide (r.input ≤ 19)
/-- The TX and XO outputs of a record. -/
def linkOuts (r : Record) : List Nat := (outputs r.mask).filter (fun o => decide (o < 12))
/-- A TX output is named. -/
def hasTx (r : Record) : Bool := (outputs r.mask).any (fun o => decide (o < 8))
/-- 64-byte units of one packet, and of the run. -/
def runUnits (r : Record) : Nat := (r.runM1 + 1) * (r.lenM1 + 1)

/-- Two records share a pick. -/
def picksMeet (r q : Record) : Bool := r.position = q.position && decide (r.pick ≤ lastPick q) && decide (q.pick ≤ lastPick r)

/-- Code 0x14: a field set that the record does not use, an index above 19, a TX output without TWIN_EN, MASK 0 on a record that reduces
nothing, LOCAL on a DP record. -/
def badFields (r : Record) : Bool :=
  let addressed := isDp r || isLocal r
  decide (19 < r.input) || decide (19 < r.partner) || (isDp r && isLocal r) || (hasTx r && !r.twinEn)
    || (!hasTx r && (r.twinEn || decide (r.twin ≠ 0))) || (!r.reduce && decide (r.partner ≠ 0)) || (decide (r.mask = 0) && !r.reduce)
    || (!(r.path && isLocal r) && decide (r.srcDev ≠ 0))
    || (!addressed && (decide (r.offset ≠ 0) || decide (r.pod ≠ 0) || decide (r.lenM1 ≠ 0)))
    || decide (26 < r.lenM1) || decide (r.rsv ≠ 0)

/-- An OFFSET run stays in its half. -/
def offsetOk (ws : List PodWindow) (r : Record) : Bool :=
  let w := ws.getD r.pod.val ⟨0, 0, 0, 0⟩
  let e := (r.offset + runUnits r) * 64
  (!isDp r || decide (e ≤ w.depHalf)) && (!isLocal r || decide (e ≤ w.arrHalf))

/-- Code 0x08: warp traffic outside the warp picks. -/
def outsideWarp (r : Record) : Bool :=
  (hasTx r && decide (895 < lastPick r + 2)) || (isDp r && decide (893 < lastPick r))

/-- The partner record of a REDUCE record on its die (R213). -/
def pairedOk (l : List Record) (r : Record) : Bool :=
  l.any (fun q => q.position = r.position && q.input = r.partner && q.partner = r.input && q.reduce && q.pick = r.pick
    && q.runM1 = r.runM1 && decide (q.input ≠ r.input) && !q.path && decide ((q.mask = 0) ≠ (r.mask = 0)))

/-- Code 0x11. -/
def reduceBad (pathMode : Bool) (l : List Record) (r : Record) : Bool :=
  r.reduce && (pathMode || r.path || !pairedOk l r || (isDp r && r.lenM1 % 4 ≠ 3))

/-- Code 0x12: late LOCAL, or an XO output that the other die does not take up. -/
def crossBad (other : List Record) (r : Record) : Bool :=
  (isLocal r && decide (924 < lastPick r))
    || ((outputs r.mask).filter (fun o => decide (8 ≤ o) && decide (o < 12))).any (fun o =>
      !other.any (fun q => q.position = r.position && q.input = o && q.pick = r.pick + 3 && q.circuit = r.circuit && q.runM1 = r.runM1))

/-- Two records of one die collide: on their input, or on a TX or XO output. -/
def collide (r q : Record) : Bool :=
  picksMeet r q && (r.input = q.input || (linkOuts r).any (fun o => (linkOuts q).contains o))

/-- Two LOCAL records write overlapping bytes of one arrival half. -/
def localOverlap (r q : Record) : Bool :=
  isLocal r && isLocal q && r.position = q.position && r.pod = q.pod
    && decide (r.offset < q.offset + runUnits q) && decide (q.offset < r.offset + runUnits r)

/-- More than eight packets reach LOCAL of one die in the first pick of a record. -/
def localCrowd (l : List Record) (r : Record) : Bool :=
  isLocal r && decide (8 < (l.filter (fun q => isLocal q && q.position = r.position && (runIndex q r.pick).isSome)).length)

/-- Some two records of a list, at different places, stand in a relation. -/
def anyPair (rel : Record → Record → Bool) : List Record → Bool
  | [] => false
  | r :: l => l.any (rel r) || anyPair rel l

/-- The logical ports that records of die `f` use. -/
def portsUsed (f : Nat) (l : List Record) : List Nat :=
  l.flatMap (fun r => ((outputs r.mask).filter (fun o => decide (o < 8))).map (8 * f + ·)
    ++ (if r.input < 8 then [8 * f + r.input] else []))

/-- The records of one die under a splice at a position (R220). -/
def splicedAt (base : List Record) (ov : List Overlay) (k c : Nat) : List Record :=
  let o := ov.filter (fun e => e.splice = k && e.position = c)
  base.filter (fun r => r.position = c && !o.any (fun e => e.input = r.input)) ++ o.flatMap (·.records)

/-- A record of a die's list sends a circuit on a logical TX port that a test takes. -/
def sendsOn (l : List (Nat × Record)) (circuit : Nat) (port_ : Nat → Bool) : Bool :=
  l.any (fun q => ((outputs q.2.mask).filter (fun o => decide (o < 8))).any (fun o => port_ (8 * q.1 + o))
    && decide (q.2.circuit ≤ circuit) && decide (circuit ≤ q.2.circuit + q.2.runM1))

/-- The two forms of R221 for a circuit of record `r` under splice `k` for logical port `p`: it appears at the same position on TX TWIN, or an
overlay record of the splice sends it on another port. -/
def spliceMoves (base : List (List Record)) (ov : List (List Overlay)) (k p : Nat) (r : Record) (circuit : Nat) : Bool :=
  let tagged := fun (l : Nat → List Record) => (upTo 2).flatMap (fun g => (l g).map (fun q => (g, q)))
  let now := tagged (fun g => splicedAt (base.getD g []) (ov.getD g []) k r.position)
  let named := tagged (fun g => ((ov.getD g []).filter (fun e => e.splice = k && e.position = r.position)).flatMap (·.records))
  sendsOn now circuit (fun t => decide (t = r.twin.val)) || sendsOn named circuit (fun t => decide (t ≠ p))

/-- Code 0x14 for overlays: a circuit that the splice of a port removes from it keeps neither form of R221. -/
def overlayBad (dev : Nat) (dir : List (Nat × Nat × Nat)) (base : List (List Record)) (ov : List (List Overlay)) : Bool :=
  (dir.filter (fun e => e.1 = dev)).any (fun e =>
    let p := e.2.1
    (base.getD (p / 8) []).any (fun r => (outputs r.mask).contains (p % 8) && p < 16
      && (upTo (r.runM1 + 1)).any (fun i => !spliceMoves base ov e.2.2 p r (r.circuit + i))))

/-- The codes that the records fail with. -/
def recordCodes (s : State) (b : List Byte) (o : Nat) : List Nat :=
  let ws := windowsAt b o
  let a := fsqRecords b (o + 1024)
  let c := fsqRecords b (imageB b o)
  let all := a ++ c
  let dev := deviceCoord s
  let dir := directoryOf b
  let ov := (upTo 2).map (fun f => overlaysOf 65536 (overlayBytes b dev f))
  let pathMode := decide (whFlags b / 2 % 2 = 1)
  let spliced := fun (p : Nat) => dir.any (fun e => e.1 = dev && e.2.1 = p)
  let code := fun (bad : Bool) (n : Nat) => if bad then [n] else []
  code ((portsUsed 0 a ++ portsUsed 1 c).any (fun p => !portUp s (physOf s (toPort p)) && !spliced p)) 0x07
    ++ code ((all ++ ov.flatten.flatMap (·.records)).any outsideWarp) 0x08
    ++ code (anyPair collide a || anyPair collide c || anyPair localOverlap all || a.any (localCrowd a) || c.any (localCrowd c)) 0x10
    ++ code (a.any (reduceBad pathMode a) || c.any (reduceBad pathMode c)) 0x11
    ++ code (a.any (crossBad c) || c.any (crossBad a)) 0x12
    ++ code (all.any (fun r => decide (1023 < lastPick r) || !offsetOk ws r)
        || ws.any (fun w => !regionOk w.depBase w.depHalf || !regionOk w.arrBase w.arrHalf)
        || (upTo 2).any (fun f => decide (1048576 < (overlayBytes b dev f).length))) 0x13
    ++ code (all.any badFields || overlayBad dev dir [a, c] ov) 0x14

/-- Code 0x16: pairing is enabled and the pair's parts differ, the port is not a reach port in PACKET, or V-class operations are used
(R322). -/
def pairBad (s : State) (b : List Byte) (o : Nat) : Bool :=
  let l := toPort (field s rPair 0 4)
  flag s rPair 31 && (decide (l.val < 12) || !portUp s (physOf s l) || decide (whMask b ≠ 0)
    || (match cableAt s l with
      | none => true
      | some e =>
        match partOf b e.1 with
        | none => true
        | some po => decide (windowsAt b po ≠ windowsAt b o)
            || (upTo 64).any (fun p => decide (Config.bundleCode b e.1 p ≠ Config.bundleCode b (deviceCoord s) p))))

/-- Every refusal code that applies. An image shorter than its header has one; a part that is missing or leaves the image hides what
would follow it. -/
def refusalCodes (s : State) (b : List Byte) (s0 : Nat) : List Nat :=
  if b.length < 128 then [0x0A]
  else
    let early := headerCodes s b ++ (if s0 < stakeNo s + 4 then [0x15] else [])
    if whPeriod b = 0 ∨ 4096 < whPeriod b then early ++ [0x13]
    else
      match partOf b (deviceCoord s) with
      | none => early ++ [0x06]
      | some o =>
        if !partInImage b o then early ++ [0x0A]
        else if !fsqImageOk b (o + 1024) || !fsqImageOk b (imageB b o) then early ++ [0x13]
        else early ++ recordCodes s b o ++ (if pairBad s b o then [0x16] else [])

/-- The refusal code: the one that applies, or where several do, a free choice among them. -/
def refusalCode (s : State) (b : List Byte) (s0 : Nat) : Option Nat × State :=
  match refusalCodes s b s0 with
  | [] => (none, s)
  | [c] => (some c, s)
  | c :: l =>
    let n := draw s
    (some ((c :: l).getD (Config.refusalChoice n.1 % (l.length + 1)) c), n.2)

/-! ## Acceptance (R228, R311, R312, R319, R335, R418, R421, R423) -/

/-- The seed set's entries and its ID. -/
def seedEntries (seeds : List Byte) : List Word64 := (upTo 256).map (fun i => BitVec.ofNat 64 (numAt seeds (8 * i) 8))

/-- What an accepted image brings. -/
def weaveOf (s : State) (b seeds : List Byte) (s0 step rootCopy : Nat) : Weave :=
  let dev := deviceCoord s
  let o := (partOf b dev).getD 0
  let code := (upTo 64).foldl (fun (t : Tab (List (BitVec 256))) p => tabSet [] t p (Config.bundleCode b dev p)) []
  { sheet := BitVec.ofNat 16 (whSheet b), profile := BitVec.ofNat 8 (whProfile b)
    envelope := whEnvelope b, pathMode := whFlags b / 2 % 2 = 1, vMask := BitVec.ofNat 64 (whMask b)
    spliceCount := whSplices b, period := whPeriod b, ckptInterval := whInterval b, ckptList := checkpointList b
    windows := windowsAt b o, records := [fsqRecords b (o + 1024), fsqRecords b (imageB b o)]
    overlays := (upTo 2).map (fun f => overlaysOf 65536 (overlayBytes b dev f))
    overlayUnits := (upTo 2).map (fun f => ceilDiv (overlayBytes b dev f).length 16)
    directory := directoryOf b, code := code, startStake := s0, startStep := BitVec.ofNat 64 step
    firstWeaveStake := reg64 s rRestart, seeds := seedEntries seeds, seedId := BitVec.ofNat 64 (numAt (sha256 (sliceB seeds 0 2048)) 0 8)
    program := sha256 b, rootCopy := rootCopy, length := b.length, acceptedStake := stakeNo s }

/-- W becomes 32 zero bytes, and a change of W is posted (R319, R320). -/
def resetWeight (s : State) : State :=
  let s1 := modMisc s (fun m => { m with weightNext := zeroDigest })
  if s.misc.weightNext = zeroDigest then s1 else postEvent s1 3 0 0 zeroDigest

/-- A load is accepted. -/
def acceptWeave (s : State) (w : Weave) : State :=
  let s1 := setReg64 (setFlag { s with loaded := some w } rWeaveState 30 true) rStartStake w.startStake
  let s2 := setFlag (setReg64 s1 rRestart 0) rFaultState 31 false
  let s3 := resetRange s2 rCkptLast (rCkptStatus + 4)
  buildRoutes (resetWeight (pauseStreams s3))

end Sys2Proof.Machine
end

