-- ==== Sys2Proof/Machine/Admin.lean ====
section
/-! DEFINITION. The admin stream's commands (R346, R347): NOP, LOAD_WEAVE, LOAD, READ, MANIFEST (R277) and the bundle commands (R398,
R400), with their rows. -/

namespace Sys2Proof.Machine

/-! ## Taking and completing a command -/

def adOp (d : List Byte) : Nat := numAt d 0 1
def adKind (d : List Byte) : Nat := numAt d 2 1
def adHost (d : List Byte) : Nat := numAt d 8 8
def adLength (d : List Byte) : Nat := numAt d 0x10 8
def adDev (d : List Byte) : Nat := numAt d 0x18 8
def adArg0 (d : List Byte) : Nat := numAt d 0x20 8
def adArg1 (d : List Byte) : Nat := numAt d 0x28 8
def adArg2 (d : List Byte) : Nat := numAt d 0x30 8
/-- FLAGS bit 0, IRQ. -/
def adIrq (d : List Byte) : Bool := decide (numAt d 1 1 % 2 = 1)

/-- The device may take the next admin descriptor: one command runs at a time, and records have room (R344, R346). -/
def mayTakeAdmin (s : State) : Bool :=
  pcieRuns s && decide (strmState s 0 = 1) && decide (sqHead s 0 ≠ (strm s 0).sqTail) && !cqFull s 0 && s.misc.loading.isNone

/-- The command is consumed and numbered. -/
def takeAdmin (s : State) : State :=
  let n := takeSeq s 0
  passHead (modMisc n.2 (fun m => { m with adminSeq := n.1 })) 0

/-- The command's record: DATA, ARG0, ARG1 and status (R347). -/
def finishAdmin (s : State) (irq : Bool) (status : Nat) (data : List Byte) (arg0 arg1 : Nat) : State :=
  queueAdmin s (adminRecord data arg0 arg1 0 status s.misc.adminSeq.toNat) irq

/-- The command completes with a status and nothing else. -/
def failAdmin (s : State) (d : List Byte) (status : Nat) : State := finishAdmin s (adIrq d) status [] 0 0

/-- A host read of the command failed (R347, R353). -/
def dmaFailed (s : State) (d : List Byte) (addr : Nat) : State := failAdmin (raiseErr s 14 rErrHost 0 0 addr) d 0x41

/-- Run an admin command: a descriptor of another OP is out of range; in limited mode only NOP and bundle commands run. What the Keeper carries out,
MANIFEST and the bundle commands, waits while its clock stands still (R359). -/
def runAdmin (s : State) (desc : List Byte) (op : Nat) (body : State → List Byte → State) : State :=
  if !mayTakeAdmin s || (decide (0x13 ≤ op) && !keeperRuns s) then s
  else
    let d := sliceB desc 0 64
    let t := takeAdmin s
    if adOp d ≠ op then failAdmin t d 0x40
    else if limited t && decide (op ≠ 0) && decide (op < 0x18) then failAdmin t d 0x44
    else body t d

/-! ## Weave loads -/

/-- Every function a LOAD_WEAVE needs is READY (R387). -/
def loaderReady (s : State) : Bool :=
  func s fKeeper = 2 && (upTo 12).all (fun k => func s (fRoot k) = 2) && (upTo 64).all (fun p => func s (fPod p) = 2)

/-- LOAD_WEAVE: the image is copied, digested, checked, and accepted or refused. -/
def loadWeave (s : State) (d image seedSet : List Byte) (readFails : Bool) : State :=
  let n := adLength d
  let a := adDev d
  if weavePending s then failAdmin s d 0x47
  else if rootEnd < a + n then failAdmin s d 0x42
  else if !loaderReady s then failAdmin s d 0x43
  else if readFails then dmaFailed s d (adHost d)
  else
    let b := sliceB image 0 n
    let s1 := memWrite (countRoot s b.length) a b
    let c := refusalCode s1 b (adArg0 d)
    match c.1 with
    | some k => finishAdmin c.2 (adIrq d) k (sha256 b) 0 0
    | none =>
      let seeds := if adArg2 d = 0 then List.replicate 2048 0 else sliceB seedSet 0 2048
      let w := weaveOf c.2 b seeds (adArg0 d) (adArg1 d) a
      acceptWeave (finishAdmin c.2 (adIrq d) 0 w.program 0 0) w

/-! ## LOAD and READ -/

/-- LENGTH is a non-zero multiple of 64 and the range lies within one Pod store or one Root die region (R346). -/
def transferOk (a n : Nat) : Bool := decide (n % 64 = 0) && inOneStore a n

/-- The functions whose memory a transfer touches are READY (R387). -/
def memoryReady (s : State) (a n : Nat) : Bool :=
  if podBase ≤ a then func s (fPod ((a - podBase) / podSize)) = 2
  else (upTo (min 3 ((a + n - 1) / 4096 - a / 4096 + 1))).all (fun i => func s (fRoot (rootStack (a + 4096 * i))) = 2)

/-- LOAD: the bytes are on their way, into a Pod store at rank 5 (R169); the command completes with LOAD_COMPLETE. -/
def loadBytes (s : State) (d bytes : List Byte) (readFails : Bool) : State :=
  let n := adLength d
  let a := adDev d
  let k := adKind d
  if k ≠ 1 ∧ k ≠ 2 then failAdmin s d 0x40
  else if !transferOk a n then failAdmin s d 0x42
  else if !memoryReady s a n then failAdmin s d 0x43
  else if readFails then dmaFailed s d (adHost d)
  else
    let b := sliceB bytes 0 n
    modMisc (hostPut s .load a b).1 (fun m => { m with loading := some (BitVec.ofNat 8 k, adIrq d, sha256 b) })

/-- The bytes of a LOAD stand in memory. -/
def loadLanded (s : State) : Bool :=
  match netJob s .load with
  | none => true
  | some j => netDone s j

/-- A LOAD completes once its bytes stand in memory; a WEIGHT load sets W and posts it (R319, R320). -/
def loadComplete (s0 : State) : State :=
  let s := if loadLanded s0 then closeJob s0 .load else s0
  match (if loadLanded s0 then s0.misc.loading else none) with
  | none => s0
  | some l =>
    let s1 := finishAdmin (modMisc s (fun m => { m with loading := none })) l.2.1 0 l.2.2 0 0
    if l.1 = 1 then
      let w := sha256 (s.misc.weightNext ++ l.2.2)
      postEvent (modMisc s1 (fun m => { m with weightNext := w })) 3 0 0 w
    else s1

/-- READ: device memory is copied to the host, the bytes of a Pod store as the banks have granted them. -/
def readBytes (s : State) (d : List Byte) : State :=
  let n := adLength d
  let a := adDev d
  if !transferOk a n then failAdmin s d 0x42
  else if !memoryReady s a n then failAdmin s d 0x43
  else
    let r := hostGet s (.read a n) a n
    match r.2 with
    | some b => failAdmin (emit r.1 (.hostWrite (BitVec.ofNat 64 (adHost d)) b)) d 0
    | none => r.1

/-- A READ whose bytes stand in a Pod store that have not been asked for, or not granted (R169). -/
def readPending (s : State) (desc : List Byte) : Bool :=
  let d := sliceB desc 0 64
  let a := adDev d
  decide (adOp d = 0x12) && transferOk a (adLength d) && memoryReady s a (adLength d) && inPodStore a && !limited s
    && (match netJob s (.read a (adLength d)) with
      | none => true
      | some j => !netDone s j)

/-- MANIFEST: the Keeper stores a manifest it accepts, for the next cold reset (R277, R280). -/
def storeManifest (s : State) (d bytes : List Byte) (readFails : Bool) : State :=
  let b := sliceB bytes 0 (min (adLength d) 0x400000)
  if func s fKeeper ≠ 2 then failAdmin s d 0x43
  else if readFails then dmaFailed s d (adHost d)
  else if 0x400000 < adLength d ∨ !manifestOk b then failAdmin (raiseErr s 11 rErrPlace 1 0xFF 0) d 0x48
  else
    let m := b.take (mfTotal b)
    finishAdmin (putFlash s { s.flash with manifest := m, manifestNew := true }) (adIrq d) 0 (sha256 m) 0 0

/-! ## Bundle commands (R398, R400) -/

/-- A bundle command with its slot: KIND names it, and the Keeper runs it. -/
def withSlot (s : State) (d : List Byte) (body : Fin 2 → State) : State :=
  if 2 ≤ adKind d then failAdmin s d 0x40
  else if func s fKeeper ≠ 2 then failAdmin s d 0x43
  else body (fin 2 (by decide) (adKind d))

/-- A range within a slot: multiples of 64 KiB, within 32 MiB. -/
def slotRangeOk (o n : Nat) : Bool := decide (o % 0x10000 = 0) && decide (n % 0x10000 = 0) && decide (o + n ≤ 0x2000000)

/-- A slot that may not be written: the running one, and PREVIOUS while the running one is TRIAL. -/
def slotProtected (s : State) (i : Fin 2) : Bool :=
  let r := runSlot s
  decide (i.val = r) || (decide (r < 2) && slotState s.flash (fin 2 (by decide) r) = 3 && s.flash.previous = i)

/-- Erase a range of a slot and program bytes there. -/
def programSlot (m : SlotImage) (o : Nat) (b : List Byte) : SlotImage :=
  let erased := m.bytes.filter (fun e => decide (e.1 < o) || decide (o + b.length ≤ e.1))
  { m with bytes := (List.zip (upTo b.length) b).foldl (fun t e => tabSet 0xFF t (o + e.1) e.2) erased }

/-- The control block once a slot is being written: WRITING, and no longer selected or about to be, since only a TRIAL or COMMITTED slot is ever
selected (R398, R402; DEDUCED, log 63). -/
def beginSlotWrite (f : Flash) (i : Fin 2) : Flash :=
  let g := setSlotState f i 1
  { g with
    selected := if g.selected = i then otherSlot i else g.selected
    selecting := if g.selecting = some i then none else g.selecting }

/-- BUNDLE_WRITE. -/
def bundleWrite (s : State) (d bytes : List Byte) (readFails : Bool) : State :=
  withSlot s d (fun i =>
    let o := adArg0 d
    let n := adLength d
    if !slotRangeOk o n then failAdmin s d 0x42
    else if slotProtected s i then failAdmin s d 0x50
    else if readFails then dmaFailed s d (adHost d)
    else
      let f0 := if slotState s.flash i = 1 then s.flash else writeControl (beginSlotWrite s.flash i)
      let f := { f0 with slots := vmod f0.slots i (fun m => programSlot m o (sliceB bytes 0 n)) }
      failAdmin (showSlots (putFlash s f)) d 0)

/-- The state of a slot after its verification. -/
def verifiedState (st : Nat) (good : Bool) : Nat :=
  if good then (if st = 1 ∨ st = 2 ∨ st = 5 ∨ st = 6 then 2 else st) else (if st = 1 ∨ st = 2 then 6 else st)

/-- BUNDLE_VERIFY. -/
def bundleVerify (s : State) (d : List Byte) : State :=
  withSlot s d (fun i =>
    let m := vget s.flash.slots i
    let k := if spiOn s then failingCheck s m else 1
    let good := decide (k = 0) || decide (4 ≤ k)
    let st := slotState s.flash i
    let now := verifiedState st good
    let f := if now = st then s.flash else writeControl (setSlotState s.flash i now)
    let s1 := showSlots (putFlash s f)
    let compat := if spiOn s then compatOf m (slotBytes m 0 256) else []
    finishAdmin s1 (adIrq d) (if good then 0 else 0x51) (sha256 compat) k (if spiOn s then slotVersion m else 0))

/-- BUNDLE_COMMIT: the running TRIAL slot becomes COMMITTED. -/
def bundleCommit (s : State) (d : List Byte) : State :=
  let r := fin 2 (by decide) (runSlot s)
  if func s fKeeper ≠ 2 then failAdmin s d 0x43
  else if runSlot s = 2 || limited s || slotState s.flash r ≠ 3 then failAdmin s d 0x52
  else failAdmin (showSlots (putFlash s (writeControl (setSlotState s.flash r 4)))) d 0

/-- BUNDLE_READ: flash is copied to the host. -/
def bundleRead (s : State) (d : List Byte) : State :=
  withSlot s d (fun i =>
    let o := adArg0 d
    let n := adLength d
    if !slotRangeOk o n then failAdmin s d 0x42
    else failAdmin (emit s (.hostWrite (BitVec.ofNat 64 (adHost d)) (readSlot s i o n))) d 0)

/-! ## Rows -/

/-- NOP. A descriptor whose OP no row has, completes BAD_DESCRIPTOR. -/
def execNop (desc : List Byte) (s : State) : Host.Outcome State Fault Refusal :=
  .next (runAdmin s desc 0x00 (fun t d => failAdmin t d 0))

/-- LOAD_WEAVE. -/
def execLoadWeave (desc image seedSet : List Byte) (readFails : Bool) (s : State) : Host.Outcome State Fault Refusal :=
  .next (runAdmin s desc 0x10 (fun t d => loadWeave t d image seedSet readFails))

/-- LOAD. -/
def execLoad (desc bytes : List Byte) (readFails : Bool) (s : State) : Host.Outcome State Fault Refusal :=
  .next (runAdmin s desc 0x11 (fun t d => loadBytes t d bytes readFails))

/-- LOAD_COMPLETE (R319). -/
def execLoadComplete (s : State) : Host.Outcome State Fault Refusal := .next (loadComplete s)

/-- READ. Of a Pod store it asks the banks first, and the command is taken once they have granted every line; the spec gives no event of its own to
the request (DESIGN CHOICE, log 57). -/
def execRead (desc : List Byte) (s : State) : Host.Outcome State Fault Refusal :=
  let d := sliceB desc 0 64
  .next (if mayTakeAdmin s && readPending s desc then (hostGet s (.read (adDev d) (adLength d)) (adDev d) (adLength d)).1
    else runAdmin s desc 0x12 readBytes)

/-- MANIFEST. -/
def execManifest (desc bytes : List Byte) (readFails : Bool) (s : State) : Host.Outcome State Fault Refusal :=
  .next (runAdmin s desc 0x13 (fun t d => storeManifest t d bytes readFails))

/-- BUNDLE_WRITE. -/
def execBundleWrite (desc bytes : List Byte) (readFails : Bool) (s : State) : Host.Outcome State Fault Refusal :=
  .next (runAdmin s desc 0x18 (fun t d => bundleWrite t d bytes readFails))

/-- BUNDLE_VERIFY. -/
def execBundleVerify (desc : List Byte) (s : State) : Host.Outcome State Fault Refusal := .next (runAdmin s desc 0x19 bundleVerify)

/-- BUNDLE_COMMIT. -/
def execBundleCommit (desc : List Byte) (s : State) : Host.Outcome State Fault Refusal := .next (runAdmin s desc 0x1A bundleCommit)

/-- BUNDLE_READ. -/
def execBundleRead (desc : List Byte) (s : State) : Host.Outcome State Fault Refusal := .next (runAdmin s desc 0x1B bundleRead)

end Sys2Proof.Machine
end

