-- ==== Sys2Proof/Machine/MemSlot.lean ====
section
/-! DEFINITION. The MEM slot (R152 to R154): loads, stores and copies, the queue operations (R183 to R191), the twine
operations (R200, R255, R259, R307, R308) and GE.REQ (R120). -/

namespace Sys2Proof.Machine

/-! ## Addresses -/

/-- S[RA] + sext(IMM) × u (R152). -/
def memAddr (x : Pod) (c : Nat) (f : MemFields) : Nat :=
  wrap 64 ((sNum x f.ra : Int) + signed 16 f.imm.toNat * (if c = 3 ∨ c = 4 then 8 else 64))

/-- Bytes a load or store of register `c` moves. -/
def memSize (c : Nat) : Nat := if c = 1 ∨ c = 2 then 1024 else if c = 5 then 64 else 8

/-- Bytes of a transfer: (IMM + 1) × 64. -/
def moveBytes (f : MemFields) : Nat := (f.imm.toNat + 1) * 64

/-- The alignment a load or store needs. -/
def memAlign (c a : Nat) : Nat := if c = 1 ∨ c = 2 then (if isHusk a then 64 else 128) else if c = 5 then 64 else 8

/-- An own-store range that breaks the rules of R152. -/
def badStore (s : State) (p : PodId) (a n align : Nat) : Bool :=
  decide (a % align ≠ 0) || badSpan a n || touchesNodes s p a n

/-- A range of a queued operation that breaks the rules of R183: it may cross from near into Husk store. -/
def badQueued (s : State) (p : PodId) (a n : Nat) : Bool :=
  decide (a % 64 ≠ 0) || decide (podSize < a + n) || touchesNodes s p a n

/-- A Root range that breaks the rules of R183. -/
def badRoot (a n : Nat) : Bool := decide (a % 64 ≠ 0) || decide (rootEnd < a + n)

/-! ## Tokens (R187) -/

/-- a of R187: how many operations ago the token of `v` was issued. -/
def tokenAge (x : Pod) (v : Word64) : Nat :=
  wrap 32 (((outQ x (queueIx (getF v 32 4))).nextSeq.toNat : Int) - getF v 0 32)

/-- The value is no token. -/
def badToken (x : Pod) (v : Word64) : Bool :=
  decide (getF v 36 28 ≠ 0) || decide (7 < getF v 32 4) || tokenAge x v = 0 || decide (2 ^ 31 < tokenAge x v)

/-- The token is outstanding. -/
def tokenOut (x : Pod) (v : Word64) : Bool :=
  decide (tokenAge x v ≤ (outQ x (queueIx (getF v 32 4))).tokens.length)

/-! ## Traps -/

/-- The twine channel of TW.SEND. -/
def twChannel (f : MemFields) : Nat := f.q.toNat % 4

/-- Illegal operands (R185, R187, R152, R255, R259, R307, R308). -/
def memBadOperand (x : Pod) (c : Nat) (f : MemFields) : Bool :=
  let q := f.q.toNat
  let imm := f.imm.toNat
  let high := decide (getF (sReg x f.rd) 50 14 ≠ 0)
  if c = 8 ∨ c = 9 ∨ c = 0x14 then decide (7 < q)
  else if c = 0xA then badToken x (sReg x f.ra)
  else if c = 0xB then decide (q < 8)
  else if c = 0xC ∨ c = 0xD then decide (0xFF < imm)
  else if c = 0x10 then
    high || twChannel f = 3 || (decide (twChannel f ≤ 1) && decide (63 < imm)) || (twChannel f = 2 && decide (2 < imm))
      || (f.q.getLsbD 2 && decide (twChannel f ≠ 0))
  else if c = 0x11 then high || decide (7 < q) || decide (63 < imm)
  else if c = 0x12 then high || decide (7 < q) || decide (62 < imm)
  else false

/-- Field of a gather request in the Pod store. -/
def reqField (s : State) (p : PodId) (a o n : Nat) : Nat := memNum s (podAddr p (a + o)) n

/-- The read ranges a MEM operation meets in the table, and registers unless it is a load (R160). -/
def memRangeReads (s : State) (p : PodId) (c : Nat) (f : MemFields) : List (Nat × Nat) :=
  let x := pod s p
  let a := memAddr x c f
  if c = 1 ∨ c = 3 ∨ c = 5 then [(a, memSize c)]
  else if c = 6 ∨ c = 9 ∨ c = 0x10 ∨ c = 0x11 ∨ c = 0x12 then [(sNum x f.ra, moveBytes f)]
  else if c = 0x14 then
    [(sNum x f.ra, 64), (reqField s p (sNum x f.ra) 0x10 4, 4 * reqField s p (sNum x f.ra) 0x1C 1)]
  else []

/-- Illegal addresses (R79, R152, R158, R183). -/
def memBadAddress (s : State) (p : PodId) (c : Nat) (f : MemFields) : Bool :=
  let x := pod s p
  let a := memAddr x c f
  if 1 ≤ c ∧ c ≤ 5 then badStore s p a (memSize c) (memAlign c a)
  else if c = 6 then badStore s p (sNum x f.ra) (moveBytes f) 64 || badStore s p (sNum x f.rd) (moveBytes f) 64
  else if c = 8 then badRoot (sNum x f.ra) (moveBytes f) || badQueued s p (sNum x f.rd) (moveBytes f)
  else if c = 9 then badRoot (sNum x f.rd) (moveBytes f) || badQueued s p (sNum x f.ra) (moveBytes f)
  else if c = 0xB then badStore s p (sNum x f.rd) 64 64
  else if c = 0x10 ∨ c = 0x11 ∨ c = 0x12 then
    badQueued s p (sNum x f.ra) (moveBytes f) || decide (getF (sReg x f.rd) 24 26 % 64 ≠ 0)
  else if c = 0x14 then
    decide (sNum x f.ra % 64 ≠ 0) || decide (podSize < sNum x f.ra + 64) || (memRangeReads s p c f).any (fun e => touchesNodes s p e.1 e.2)
  else false

/-- The traps of a MEM operation beside those every slot shares. -/
def memTraps (s : State) (p : PodId) (c : Nat) (f : MemFields) : List Nat :=
  trapIf (memBadOperand (pod s p) c f) tOperand ++ trapIf (memBadAddress s p c f) tAddress

/-! ## Registers and ranges -/

/-- The registers a MEM operation reads. -/
def memReads (c : Nat) (f : MemFields) : List Dest :=
  if c = 1 ∨ c = 3 ∨ c = 5 ∨ c = 0xA ∨ c = 0x14 then [destS f.ra]
  else if c = 2 then [destS f.ra, destV f.rd]
  else if c = 4 ∨ c = 6 ∨ c = 8 ∨ c = 9 ∨ c = 0x10 ∨ c = 0x11 ∨ c = 0x12 then [destS f.ra, destS f.rd]
  else if c = 0xB then [destS f.rd]
  else []

/-- The register a MEM operation writes. -/
def memWrites (c : Nat) (f : MemFields) : List Dest :=
  if c = 1 then [destV f.rd]
  else if c = 3 ∨ c = 0xA ∨ c = 0xC ∨ c = 0xD then [destS f.rd]
  else if c = 5 then [.md (fin 16 (by decide) f.rd.toNat)]
  else if c = 2 ∨ c = 4 ∨ c = 6 then []
  else [destS f.rt]

/-- The write ranges. -/
def memRangeWrites (s : State) (p : PodId) (c : Nat) (f : MemFields) : List (Nat × Nat) :=
  let x := pod s p
  if c = 2 ∨ c = 4 then [(memAddr x c f, memSize c)]
  else if c = 6 ∨ c = 8 then [(sNum x f.rd, moveBytes f)]
  else if c = 0xB then [(sNum x f.rd, 64)]
  else if c = 0x14 then [(reqField s p (sNum x f.ra) 0x14 4, reqField s p (sNum x f.ra) 0x18 4)]
  else []

/-- Entries of the range table an operation needs. -/
def memEntries (c : Nat) : Nat :=
  if c = 1 ∨ c = 3 ∨ c = 5 ∨ c = 0xA ∨ c = 0xC ∨ c = 0xD then 0 else if c = 6 then 2 else if c = 0x14 then 3 else 1

/-! ## Waiting (R153, R154) -/

/-- The queues of a mask that hold an outstanding token. -/
def maskOut (x : Pod) (m : Nat) : List Nat :=
  (upTo 8).filter (fun q => decide (m / 2 ^ q % 2 = 1) && !(outQ x (queueIx q)).tokens.isEmpty)

/-- The queues of a mask whose head token has completed since the bundle came up, in order. -/
def maskSeen (x : Pod) (m : Nat) : List Nat := x.core.selSeen.filter (fun q => decide (m / 2 ^ q % 2 = 1))

/-- What Q.SEL gives: none while it waits. -/
def selValue (x : Pod) (m : Nat) : Option Nat :=
  match maskSeen x m with
  | q :: _ => some q
  | [] => if (maskOut x m).isEmpty then some 16 else none

/-- What Q.SELORD gives: the lowest-numbered queue that held an outstanding token when it came up, once its head completes. -/
def selordValue (x : Pod) (m : Nat) : Option Nat :=
  match (upTo 8).find? (fun q => (maskOut x m).contains q || (maskSeen x m).contains q) with
  | none => some 16
  | some q => if (maskSeen x m).contains q then some q else none

/-- The stall causes that are the MEM slot's own, in cycle `c`. -/
def memStalls (x : Pod) (c : Nat) (f : MemFields) : List Nat :=
  let up := x.core.upSince.getD x.core.cycle
  if c = 0xA then
    trapIf (tokenOut x (sReg x f.ra) && (f.imm = 0 || decide (x.core.cycle < up + f.imm.toNat))) 0x03
  else if c = 0xC then trapIf (selValue x f.imm.toNat).isNone 0x03
  else if c = 0xD then trapIf (selordValue x f.imm.toNat).isNone 0x03
  else if c = 8 ∨ c = 9 ∨ c = 0x10 ∨ c = 0x11 ∨ c = 0x12 ∨ c = 0x14 then
    trapIf (c = 0x14 && decide (4 ≤ gathersOut x)) 0x14
      ++ trapIf (decide (64 ≤ (outQ x (queueIx f.q.toNat)).tokens.length)) 0x15
  else []

/-! ## Issue -/

/-- Latency of a load, a store or a pop's write. -/
def loadLatency (a : Nat) : Nat := if isHusk a then 9 else 4
/-- Cycle in which a store is written. -/
def storeLatency (a : Nat) : Nat := if isHusk a then 8 else 3

/-- A load issues (M.LDV, M.LDS, M.MDLD). -/
def issueLoad (s : State) (p : PodId) (c : Nat) (f : MemFields) : State :=
  let x := pod s p
  let a := memAddr x c f
  let n := memSize c
  let serial := nextSerial s p
  let op := serial.1
  let s := serial.2
  let r := storeRead s p a n
  modPod r.1 p (fun y =>
    let y := { y with lines := y.lines ++ [oneStep op 2 op false a n x.core.cycle], reads := y.reads ++ [⟨op, .result, [(a, n)]⟩] }
    (memWrites c f).foldl (fun z d => addPend z op 3 d (leNat r.2) (x.core.cycle + loadLatency a)) y)

/-- A store issues (M.STV, M.STS). -/
def issueStoreOp (s : State) (p : PodId) (c : Nat) (f : MemFields) : State :=
  let x := pod s p
  let a := memAddr x c f
  let n := memSize c
  let b := leBytes n (if c = 2 then (vReg x f.rd).toNat else sNum x f.rd)
  let serial := nextSerial s p
  let op := serial.1
  let s := serial.2
  let s := digestWrite s p 3 (podAddr p a) b
  modPod s p (fun y =>
    addRange { y with lines := y.lines ++ [oneStep op 2 op true a n x.core.cycle] } op 3 true (spanOf [(a, n)])
      (some (x.core.cycle + storeLatency a)) [(podAddr p a, b)])

/-- The bytes of the range registered last enter the pair digest as they are written (R323). -/
def digestLater (x : Pod) : Pod :=
  { x with ranges := x.ranges.dropLast ++ x.ranges.getLast?.toList.map (fun r => { r with digest := true }) }

/-- M.COPY issues: the source is read in full before its destination is written (R152, R168, R172). -/
def issueCopy (s : State) (p : PodId) (f : MemFields) : State :=
  let x := pod s p
  let c := x.core.cycle
  let src := sNum x f.ra
  let dst := sNum x f.rd
  let n := moveBytes f
  let k := ceilDiv n 128
  let serial := nextSerial s p
  let op := serial.1
  let s := serial.2
  let r := storeRead s p src n
  let first := if isHusk src then 9 else 4
  modPod r.1 p (fun y =>
    let y := { y with
      lines := y.lines ++ unitLines op 0 false src n (c + 1) ++ unitLines op 0 true dst n (c + first)
      reads := y.reads ++ [⟨op, .copy dst, [(src, n)]⟩] }
    let y := addRange y op 3 false (spanOf [(src, n)]) (some (c + k)) []
    digestLater (addRange y op 3 true (spanOf [(dst, n)]) (some (c + first - 1 + k + storeLatency dst)) [(podAddr p dst, r.2)]))

/-- Q.FETCH issues. -/
def issueFetch (s : State) (p : PodId) (f : MemFields) : State :=
  let x := pod s p
  let q := queueIx f.q.toNat
  let serial := nextSerial s p
  let op := serial.1
  let s := serial.2
  let r := addToken s p q .fetch op (sNum x f.ra) (sNum x f.rd) (moveBytes f) [] 0
  modPod r.2 p (fun y =>
    addRange (addPend y op 3 (destS f.rt) (tokenValue q r.1) (x.core.cycle + 1)) op 4 true
      (spanOf [(sNum x f.rd, moveBytes f)]) none [])

/-- The source of a Q.STORE or TW operation is to be read from the next cycle on (R172), and its token is written. -/
def issueSource (s : State) (p : PodId) (q : Fin 8) (f : MemFields) (kind : TokenKind) (root dst : Nat) (op : Nat) : State :=
  let x := pod s p
  let a := sNum x f.ra
  let n := moveBytes f
  let r := storeRead s p a n
  let t := addToken r.1 p q kind op root a n r.2 dst
  modPod t.2 p (fun y =>
    let y := { y with
      lines := y.lines ++ unitLines op 2 false a n (x.core.cycle + 1)
      reads := y.reads ++ [⟨op, .token q, [(a, n)]⟩] }
    addRange (addPend y op 3 (destS f.rt) (tokenValue q t.1) (x.core.cycle + 1)) op 4 false (spanOf [(a, n)]) none [])

/-- Q.STORE issues. -/
def issueQStore (s : State) (p : PodId) (f : MemFields) : State :=
  let r := nextSerial s p
  issueSource r.2 p (queueIx f.q.toNat) f .store (sNum (pod s p) f.rd) 0 r.1

/-- A TW operation issues: its packet leaves for the route of its endpoint once its source has been read. The queue is Q[2:0] (DESIGN CHOICE for
TW.SEND, log 20, whose Q field also names channel and FENCE). -/
def issueTwine (s : State) (p : PodId) (c : Nat) (f : MemFields) : State :=
  let x := pod s p
  let q := queueIx f.q.toNat
  let v := sReg x f.rd
  let dst := getF v 0 24
  let offset := getF v 24 26 / 64
  let ch := twChannel f
  let kind : TokenKind := if c = 0x11 then .twFadd else if c = 0x12 then .twOcommit
    else if ch = 0 then .twSend else if ch = 1 then .twMsg else .twByp
  let type := if c = 0x11 then 9 else if c = 0x12 then 0xA else if ch = 0 then 8 else if ch = 1 then 0xD else 0xF
  let earlier := unconfirmedTo s (dst / 512)
  let src := deviceCoord s * 512 + p.val * 8 + q.val
  let serial := nextSerial s p
  let op := serial.1
  let s := serial.2
  let pre := if c = 0x12 then leBytes 8 (weaveFrame s) ++ List.replicate 56 0 else []
  modPod (issueSource s p q f kind 0 (dst / 512) op) p (fun y => { y with
    sends := y.sends ++ [⟨op, q, type, src, dst, offset, c = 0x10 && f.q.getLsbD 2, pre, earlier⟩] })

/-- The source of a Pod's oldest TW operation has been read: its packet leaves (R188, R200, R256, R258). -/
def sendHead (s : State) (p : PodId) : State :=
  let x := pod s p
  match x.sends with
  | [] => s
  | w :: l =>
    if sourceOpen x w.op then s
    else
      let data := (((outQ x w.queue).tokens.find? (fun t => decide (t.op = w.op))).map (·.data)).getD []
      sendTwine (modPod s p (fun y => { y with sends := l })) p w.queue (fun t => t.op = w.op) w.earlier
        (twinePacket w.type w.src w.dst w.offset w.fence (w.pre ++ data))

/-- The packets of a Pod's TW operations leave in the order of their issue, as far as their sources have been read. -/
def sendTwines (s : State) (p : PodId) : State := (pod s p).sends.foldl (fun t _ => sendHead t p) s

/-- GE.REQ issues: the request waits for the die's Gather Engine with the step counter of its issue (R120). -/
def issueGather (s : State) (p : PodId) (f : MemFields) : State :=
  let x := pod s p
  let q := queueIx f.q.toNat
  let a := sNum x f.ra
  let serial := nextSerial s p
  let op := serial.1
  let s := serial.2
  let r := addToken s p q .gather op 0 0 0 [] 0
  let s := r.2
  modPod s p (fun y =>
    let y := addPend y op 3 (destS f.rt) (tokenValue q r.1) (x.core.cycle + 1)
    let y := (memRangeReads s p 0x14 f).foldl (fun z e => addRange z op 5 false (spanOf [e]) none []) y
    let y := (memRangeWrites s p 0x14 f).foldl (fun z e => addRange z op 5 true (spanOf [e]) none []) y
    { y with gathers := y.gathers ++ [⟨op, a, q, r.1, BitVec.ofNat 64 (stepCount s p)⟩] })

/-- Write a status or selection to S[RD], readable one cycle after issue. -/
def issueStatus (s : State) (p : PodId) (f : MemFields) (v : Nat) : State :=
  let r := nextSerial s p
  modPod r.2 p (fun y => addPend y r.1 3 (destS f.rd) v (y.core.cycle + 1))

/-- Q.SEL and Q.SELORD issue with their value; the completions they observed are taken. -/
def issueSel (s : State) (p : PodId) (f : MemFields) (v : Option Nat) : State :=
  match v with
  | none => s
  | some n => modCore (issueStatus s p f n) p (fun k => { k with selSeen := [] })

/-- Q.WAIT issues: status 0 for a completed token, 1 for one still outstanding at its timeout. -/
def issueWait (s : State) (p : PodId) (f : MemFields) : State :=
  issueStatus s p f (b2n (tokenOut (pod s p) (sReg (pod s p) f.ra)))

/-- Q.POP issues: the oldest visible entry is taken (R153, R191). -/
def issuePop (s : State) (p : PodId) (f : MemFields) : State :=
  let x := pod s p
  let q := queueIx f.q.toNat
  let a := sNum x f.rd
  let due := x.core.cycle + loadLatency a
  let serial := nextSerial s p
  let op := serial.1
  let s := serial.2
  match visibleHead s p q with
  | none => modPod s p (fun y => addPend y op 3 (destS f.rt) 0 due)
  | some e =>
    modPod s p (fun y =>
      let y := { y with inq := vmod y.inq q List.tail, lines := y.lines ++ [oneStep op 4 (2 ^ 40 + op) true a 64 x.core.cycle] }
      addRange (addPend y op 3 (destS f.rt) 1 due) op 6 true (spanOf [(a, 64)]) (some due) [(podAddr p a, sliceB e.bytes 0 64)])

/-- A MEM operation issues. -/
def issueMem (s : State) (p : PodId) (c : Nat) (f : MemFields) : State :=
  if c = 1 ∨ c = 3 ∨ c = 5 then issueLoad s p c f
  else if c = 2 ∨ c = 4 then issueStoreOp s p c f
  else if c = 6 then issueCopy s p f
  else if c = 8 then issueFetch s p f
  else if c = 9 then issueQStore s p f
  else if c = 0xA then issueWait s p f
  else if c = 0xB then issuePop s p f
  else if c = 0xC then issueSel s p f (selValue (pod s p) f.imm.toNat)
  else if c = 0xD then issueSel s p f (selordValue (pod s p) f.imm.toNat)
  else if c = 0x14 then issueGather s p f
  else issueTwine s p c f

end Sys2Proof.Machine
end

