-- ==== Sys2Proof/Machine/Tree.lean ====
section
/-! DEFINITION. The Tree Engine (R75 to R102, R151): node slots, the walk of a window, its record, the loads and their
interlocks. -/

namespace Sys2Proof.Machine

/-! ## The node region (R78 to R87) -/

/-- First offset of the node region. -/
def nodeBase : Nat := 0xC00000

/-- Device address of node slot `i` of partition `n`. -/
def slotAddr (p : PodId) (n i : Nat) : Nat := podAddr p (nodeBase + n * 0x10000 + 16 * i)

/-- The 128 bits of a node slot. -/
def nodeSlot (s : State) (p : PodId) (n i : Nat) : Nat := memNum s (slotAddr p n i) 16

/-- Bits [lo + len − 1 : lo] of a slot. -/
def slotF (x lo len : Nat) : Nat := x / 2 ^ lo % 2 ^ len

/-- TREE_COUNT and ROOT_TABLE of a partition (R81). -/
def treeCount (s : State) (p : PodId) (n : Nat) : Nat := slotF (nodeSlot s p n 0) 0 12
/-- As treeCount. -/
def rootTable (s : State) (p : PodId) (n : Nat) : Nat := slotF (nodeSlot s p n 0) 16 12

/-- ROOT and declared depth of tree `t` (R82, R87): an entry above slot 4,095 reads as zero, and slot 0 names no root. -/
def rootEntry (s : State) (p : PodId) (n t : Nat) : Nat × Nat :=
  let slot := rootTable s p n + t / 8
  if 4095 < slot then (0, 1)
  else
    let e := slotF (nodeSlot s p n slot) (16 * (t % 8)) 16
    (if slot = 0 then 0 else e % 4096, e / 4096 + 1)

/-- T_s: the walk length of a partition (R89). -/
def partLength (s : State) (p : PodId) (n : Nat) : Nat :=
  ((upTo (treeCount s p n)).map (fun t => (rootEntry s p n t).2)).sum

/-- L: the walk length of a window. -/
def walkLength (s : State) (p : PodId) : Nat := ((upTo 64).map (partLength s p)).foldl max 0

/-! ## One walk (R84 to R88, R93, R98) -/

/-- POD_TE_FLAGS bits. -/
def fNodeKind : Nat := 1
def fNodeRange : Nat := 2
def fTreeDepth : Nat := 4
def fFeatRange : Nat := 8

/-- What a walk of one tree gives: the leaf value added, the flags, the compares performed, and the slots read, each with the walk cycle of
its read. -/
structure Walk where
  value : Int
  flags : Nat
  compares : Nat
  slots : List (Nat × Nat)
  deriving DecidableEq, Repr

/-- Feature `i` of lane `j`; none where it lies beyond the features loaded. -/
def featureOf (h : FeatureHalf) (j i : Nat) : Option Nat :=
  if i < h.features then some (h.words.getD (j * h.features + i) 0).toNat else none

/-- The compare of a node: left or right, the flags, the slots read, or none where the walk of the tree ends in error. -/
def nodeCompare (s : State) (p : PodId) (n x : Nat) (feat : Option Nat) : Option Bool × Nat × List Nat :=
  let kind := slotF x 48 3
  let thr := slotF x 16 32
  let miss := slotF x 51 1 = 0
  let range := if feat = none then fFeatRange else 0
  if 6 ≤ kind then (none, fNodeKind, [])
  else if kind = 1 ∨ kind = 2 then
    let v := match feat with | some w => fpDecode 0xA w | none => .nan
    let t := fpDecode 0xA thr
    if fpIsNan v then (some miss, range, [])
    else if fpIsNan t then (some false, range, [])
    else (some (fpLt v t || (kind = 2 && fpEq v t)), range, [])
  else
    let w := feat.getD 0x80000000
    if w = 0x80000000 then (some miss, range, [])
    else
      let v := signed 32 w
      if kind = 3 then (some (decide (v < signed 32 thr)), range, [])
      else if kind = 4 then (some (decide (v ≤ signed 32 thr)), range, [])
      else if v < 0 ∨ (slotF x 28 12 : Int) < v then (some false, range, [])
      else
        let slot := slotF x 16 12 + v.toNat / 128
        if 4095 < slot then (none, orF range fNodeRange, [])
        else (some (decide (slotF (nodeSlot s p n slot) (v.toNat % 128) 1 = 1)), range, [slot])

/-- Walk one tree from node `i` in walk cycle `t`, with `fuel` compares left (R88). R102 does not say whether a node of a reserved KIND
counts a compare, nor whether a CAT compare whose bitset slot lies past 4,095 does: the first counts none and the second one (DESIGN
CHOICE, log 59). -/
def walkTree (s : State) (p : PodId) (n : Nat) (h : FeatureHalf) (j : Nat) : Nat → Nat → Nat → Walk → Walk
  | fuel, t, i, w =>
    let x := nodeSlot s p n i
    let w := { w with slots := w.slots ++ [(t, i)] }
    if slotF x 48 3 = 0 then { w with value := signed 32 (slotF x 16 32) }
    else match fuel with
      | 0 => { w with flags := orF w.flags fTreeDepth }
      | fuel + 1 =>
        let r := nodeCompare s p n x (featureOf h j (slotF x 0 16))
        let w := { w with flags := orF w.flags r.2.1, slots := w.slots ++ r.2.2.map (fun k => (t, k)) }
        match r.1 with
        | none => if 6 ≤ slotF x 48 3 then w else { w with compares := w.compares + 1 }
        | some left =>
          let w := { w with compares := w.compares + 1 }
          let i' := i + (if left then slotF x 56 12 else slotF x 68 12)
          if 4095 < i' then { w with flags := orF w.flags fNodeRange } else walkTree s p n h j fuel (t + 1) i' w

/-- What unit (n, j) gives over all its trees: the slot partial, the flags, the compares of each walk cycle and the slots
read, each with its walk cycle. -/
def walkUnit (s : State) (p : PodId) (n : Nat) (h : FeatureHalf) (j : Nat) : Int × Nat × List Nat × List (Nat × Nat) :=
  (upTo (treeCount s p n)).foldl (fun acc t =>
    let r := rootEntry s p n t
    if r.1 = 0 then (acc.1, orF acc.2.1 fNodeRange, acc.2.2.1 ++ List.replicate r.2 0, acc.2.2.2)
    else
      let w := walkTree s p n h j r.2 acc.2.2.1.length r.1 ⟨0, 0, 0, []⟩
      (acc.1 + w.value, orF acc.2.1 w.flags, acc.2.2.1 ++ List.replicate w.compares 1 ++ List.replicate (r.2 - w.compares) 0,
        acc.2.2.2 ++ w.slots)) (0, 0, [], [])

/-- Add two lists of counts. -/
def addCounts : List Nat → List Nat → List Nat
  | [], b => b
  | a, [] => a
  | x :: a, y :: b => (x + y) :: addCounts a b

/-- The result of one lane: score, flags, counts, and the addresses of the node slots read, each with its walk cycle. -/
def walkLane (s : State) (p : PodId) (h : FeatureHalf) (j : Nat) : Int × Nat × List Nat × List (Nat × Nat) :=
  (upTo 64).foldl (fun acc n =>
    let r := walkUnit s p n h j
    (acc.1 + r.1, orF acc.2.1 r.2.1, addCounts acc.2.2.1 r.2.2.1, acc.2.2.2 ++ r.2.2.2.map (fun e => (e.1 + 1, slotAddr p n e.2)))) (0, 0, [], [])

/-! ## Node-read errors (R100) -/

/-- The earliest of some reads, the first in the list where several are equally early. -/
def earliest : List (Nat × Nat) → Option (Nat × Nat)
  | [] => none
  | a :: l =>
    match earliest l with
    | none => some a
    | some b => some (if b.1 < a.1 then b else a)

/-- The first read of a node slot that holds a unit marked `k`: the slot's address (R100, R413). -/
def slotMark (s : State) (k : Nat) (reads : List (Nat × Nat)) : Option Nat :=
  (earliest (reads.filter (fun e => !(eccIn s k e.2 16).isEmpty))).map (·.2)

/-- Corrected units among node reads. R100 does not say whether a node that several lanes read counts once: each read counts (DESIGN
CHOICE, log 59). -/
def slotCorrected (s : State) (reads : List (Nat × Nat)) : Nat := (reads.map (fun e => (eccIn s 1 e.2 16).length)).sum

/-- The header and root-table slots of the partitions, which are read before the first walk cycle (R95). -/
def tableSlots (s : State) (p : PodId) : List (Nat × Nat) :=
  (upTo 64).flatMap (fun n =>
    (0, slotAddr p n 0) :: ((upTo (ceilDiv (treeCount s p n) 8)).filter (fun i => decide (rootTable s p n + i ≤ 4095))).map
      (fun i => (0, slotAddr p n (rootTable s p n + i))))

/-! ## The record (R99) -/

/-- The 640-byte record. -/
def windowRecord (xps : Bool) (leafExp : Int) (valid err : Word64) (windowNo : Nat) (scores : List Int) : List Byte :=
  let block := fun (lo n : Nat) =>
    xpsBytes ⟨leafExp, if (upTo n).any (fun i => valid.getLsbD (lo + i) && err.getLsbD (lo + i)) then xInvalid else 0, n,
      (upTo 36).map (fun i => if i < n then scores.getD (lo + i) 0 else 0)⟩
  (if xps then block 0 36 ++ block 36 28 else scores.flatMap (fun v => leBytes 8 (wrap 64 v)))
    ++ leBytes 8 valid.toNat ++ leBytes 8 err.toNat ++ leBytes 8 windowNo ++ List.replicate 104 0

/-! ## Operands and traps (R92, R94, R99, R151) -/

/-- XB of TE.NLOAD. -/
def nloadPart (x : Word64) : Nat := getF x 0 6
def nloadSlot (x : Word64) : Nat := getF x 6 12
def nloadCount (x : Word64) : Nat := getF x 18 13

/-- Features per sample, F. -/
def featureCount (s : State) (p : PodId) : Nat := getF (pReg s p 0x500) 16 11 + 1

/-- NODE_EN. -/
def nodeEn (s : State) (p : PodId) : Bool := getB (pReg s p 0x500) 0

/-- A TE source that breaks alignment, the store's bounds or the node region. -/
def teBadSource (s : State) (p : PodId) (a n : Nat) : Bool :=
  decide (a % (if isHusk a then 64 else 128) ≠ 0) || badSpan a n || touchesNodes s p a n

/-- The traps of a TE operation beside those every slot shares. -/
def teTraps (s : State) (p : PodId) (c : Nat) (f : TeFields) : List Nat :=
  let x := pod s p
  let a := sNum x f.xa
  let b := sReg x f.xb
  if c = 1 then
    trapIf (nloadCount b = 0 || decide (4096 < nloadCount b) || decide (getF b 31 33 ≠ 0)) tOperand
      ++ trapIf (!nodeEn s p) tState
      ++ trapIf (teBadSource s p a (16 * nloadCount b)) tAddress
  else if c = 2 then trapIf (teBadSource s p a (256 * featureCount s p)) tAddress
  else trapIf (!nodeEn s p) tState
    ++ trapIf (decide (b.toNat % 128 ≠ 0) || decide (0x1000000 < b.toNat + 640) || touchesNodes s p b.toNat 640) tAddress

/-! ## Interlocks (R94 to R96) -/

/-- A window walks in cycle `c`: until its node region and half are released. -/
def winWalking (c : Nat) (w : Window) : Bool := decide (c < w.issued + w.length + 2)

/-- The half index of an operation. -/
def halfOf (f : TeFields) : Fin 2 := fin 2 (by decide) f.half.toNat

/-- Some of the loads are in progress (R96). -/
def loadsIn (x : Pod) (l : List Due) : Bool := l.any (fun d => decide (x.core.cycle < d.cyc))

/-- Loads in progress with one more; those complete are forgotten. -/
def addLoad (x : Pod) (l : List Due) (d : Due) : List Due := l.filter (fun d => decide (x.core.cycle < d.cyc)) ++ [d]

/-- The stall causes of a TE operation that are its unit's own. -/
def teStalls (x : Pod) (c : Nat) (f : TeFields) : List Nat :=
  let now := x.core.cycle
  if c = 1 then trapIf (x.te.windows.any (winWalking now)) 0x0E
  else if c = 2 then trapIf (x.te.windows.any (fun w => winWalking now w && w.half = halfOf f)) 0x0F
  else trapIf (loadsIn x x.te.nloads) 0x0E
    ++ trapIf (loadsIn x (vget x.te.halves (halfOf f)).loads) 0x0F
    ++ trapIf (x.te.windows.any (fun w => decide (now < w.issued + w.length))) 0x10

/-- The engine is walking, summing or loading (R80). -/
def teBusy (x : Pod) : Bool :=
  !x.te.windows.isEmpty || loadsIn x x.te.nloads || x.te.halves.toList.any (fun h => loadsIn x h.loads)

/-- The read and write ranges of a TE operation. -/
def teReads (s : State) (p : PodId) (c : Nat) (f : TeFields) : List (List (Nat × Nat)) :=
  let x := pod s p
  if c = 1 then [[(sNum x f.xa, 16 * nloadCount (sReg x f.xb))]]
  else if c = 2 then [[(sNum x f.xa, 256 * featureCount s p)]] else []
/-- As teReads. -/
def teWrites (x : Pod) (c : Nat) (f : TeFields) : List (List (Nat × Nat)) := if c = 3 then [[(sNum x f.xb, 640)]] else []

/-! ## Issue -/

/-- Cycles until a TE load of `n` bytes completes: three lines in flight from near store, eight from Husk store (R96). -/
def teLoadCycles (husk : Bool) (n near : Nat) : Nat :=
  if husk then 8 + ceilDiv n (near / 2) - 1 else 3 + ceilDiv n near - 1

/-- The lines a TE load presents (R172): full steps, and the rest of the source in a last one. -/
def teLines (x : Pod) (op order a n near : Nat) : List LineStream :=
  let w := if isHusk a then near / 2 else near
  let c := x.core.cycle
  (if n < w then [] else [⟨op, 3, order * 2 ^ 40 + op, false, a, w, w, c, 1, n / w, []⟩])
    ++ (if n % w = 0 then [] else [⟨op, 3, order * 2 ^ 40 + op, false, a + n / w * w, n % w, n % w, c + n / w, 1, 1, []⟩])

/-- TE.NLOAD issues (R94): slots past 4,095 are not written. -/
def issueNload (s : State) (p : PodId) (f : TeFields) : State :=
  let x := pod s p
  let b := sReg x f.xb
  let src := sNum x f.xa
  let n := nloadCount b
  let due := x.core.cycle + teLoadCycles (isHusk src) (16 * n) 256
  let serial := nextSerial s p
  let op := serial.1
  let s := serial.2
  let got := storeRead s p src (16 * n)
  let s := got.1
  let data := got.2
  let keep := min n (4096 - nloadSlot b)
  let s := memWrite s (slotAddr p (nloadPart b) (nloadSlot b)) (data.take (16 * keep))
  modPod s p (fun y => addRange { y with
      te := { y.te with nloads := addLoad y y.te.nloads ⟨op, due⟩ }, lines := y.lines ++ teLines y op 2 src (16 * n) 256,
      reads := y.reads ++ [⟨op, .nodes (nodeBase + nloadPart b * 0x10000 + 16 * nloadSlot b), [(src, 16 * keep)]⟩] }
    op 2 false (spanOf [(src, 16 * n)]) (some due) [])

/-- TE.FLOAD issues (R92, R96). -/
def issueFload (s : State) (p : PodId) (f : TeFields) : State :=
  let x := pod s p
  let src := sNum x f.xa
  let fc := featureCount s p
  let n := 256 * fc
  let due := x.core.cycle + teLoadCycles (isHusk src) n 512
  let serial := nextSerial s p
  let op := serial.1
  let s := serial.2
  let got := storeRead s p src n
  let s := got.1
  let data := got.2
  let half : FeatureHalf := ⟨fc, (chunksB 4 (64 * fc) data).map (fun b => BitVec.ofNat 32 (leNat b)),
    addLoad x (vget x.te.halves (halfOf f)).loads ⟨op, due⟩⟩
  modPod s p (fun y => addRange { y with
      te := { y.te with halves := vput y.te.halves (halfOf f) half }, lines := y.lines ++ teLines y op 1 src n 512,
      reads := y.reads ++ [⟨op, .half (halfOf f), [(src, n)]⟩] }
    op 2 false (spanOf [(src, n)]) (some due) [])

/-- The walks of the lanes that a window's mask names. -/
def windowLanes (s : State) (p : PodId) (f : TeFields) : List (Int × Nat × List Nat × List (Nat × Nat)) :=
  let valid := sReg (pod s p) f.xa
  (upTo 64).map (fun j =>
    if valid.getLsbD j then walkLane s p (vget (pod s p).te.halves (halfOf f)) j else (0, 0, [], []))

/-- The error mask of a window: a lane that met an error or an uncorrectable node, or every lane where the root table holds an
uncorrectable unit (R98, R100). -/
def windowErr (s : State) (p : PodId) (f : TeFields) : Word64 :=
  let valid := sReg (pod s p) f.xa
  let tableBad := (slotMark s 2 (tableSlots s p)).isSome
  let bad := (windowLanes s p f).map (fun l => decide (l.2.1 ≠ 0) || (slotMark s 2 l.2.2.2).isSome)
  BitVec.ofNat 64 (joinLanes 1 ((List.zip bad (upTo 64)).map (fun b => b2n (valid.getLsbD b.2 && (b.1 || tableBad)))))

/-- The node slots a window reads, each with the walk cycle of its read. -/
def windowSlots (s : State) (p : PodId) (f : TeFields) : List (Nat × Nat) := tableSlots s p ++ (windowLanes s p f).flatMap (·.2.2.2)

/-- The record of a window (R99). -/
def teRecord (s : State) (p : PodId) (f : TeFields) : List Byte :=
  windowRecord (decide (f.fmt = 1)) (signed 8 (getF (pReg s p 0x500) 8 8)) (sReg (pod s p) f.xa) (windowErr s p f)
    (reg64 s (rPod p 0x518)) ((windowLanes s p f).map (·.1))

/-- The window in the engine: it ends with its walk and is released as R95 says. -/
def teWindow (s : State) (p : PodId) (f : TeFields) (op : Nat) : Window where
  op := op
  half := halfOf f
  issued := (pod s p).core.cycle
  length := walkLength s p
  flags := BitVec.ofNat 4 ((windowLanes s p f).foldl (fun a l => orF a l.2.1) 0)
  steps := (windowLanes s p f).foldl (fun a l => addCounts a l.2.2.1) []
  due := (pod s p).core.cycle + walkLength s p + latTeRelease s p

/-- A Pod with the window open: its lines to write and its store range. -/
def openWindow (s : State) (p : PodId) (f : TeFields) (op : Nat) (y : Pod) : Pod :=
  let dst := sNum (pod s p) f.xb
  let w := teWindow s p f op
  addRange { y with
      te := { y.te with windows := y.te.windows ++ [w] },
      lines := y.lines ++ [⟨op, 3, op, true, dst, 128, 128, w.issued + w.length + latTeOut s p, 1, 5, []⟩] }
    op 2 true (spanOf [(dst, 640)]) (some w.due) [(podAddr p dst, teRecord s p f)]

/-- TE.WIN issues (R88 to R95, R98 to R100, R102). -/
def issueWin (s : State) (p : PodId) (f : TeFields) : State :=
  let op := (pod s p).core.nextOp
  let s1 := addSat (nextSerial s p).2 (rPod p 0x520) (slotCorrected s (windowSlots s p f))
  let s2 := digestWrite s1 p 2 (podAddr p (sNum (pod s p) f.xb)) (teRecord s p f)
  let s3 := add64 s2 (rPod p 0x518) 1
  let s4 := setField s3 (rPod p 0x504) 0 17 (walkLength s p)
  let s5 := modPod s4 p (openWindow s p f op)
  match slotMark s 2 (windowSlots s p f) with
  | some a => raisePodErr s5 2 rErrTeEcc p a true
  | none => s5

/-- A TE operation issues. -/
def issueTe (s : State) (p : PodId) (c : Nat) (f : TeFields) : State :=
  if c = 1 then issueNload s p f else if c = 2 then issueFload s p f else issueWin s p f

/-! ## Completion of windows (R95, R102) -/

/-- Windows due by the present cycle end: flags are set and the compares not yet counted are counted. -/
def settleWindows (s : State) (p : PodId) : State :=
  let x := pod s p
  let gone := x.te.windows.filter (fun w => decide (w.due ≤ x.core.cycle))
  let s1 := setPod s p { x with te := { x.te with windows := x.te.windows.filter (fun w => !decide (w.due ≤ x.core.cycle)) } }
  forEach gone s1 (fun t w => orReg (add64 t (rPod p 0x510) w.steps.sum) (rPod p 0x508) w.flags.toNat)

/-- The compares of the present walk cycle are counted. -/
def countCompares (s : State) (p : PodId) : State :=
  let x := pod s p
  let now := x.core.cycle
  let live := fun (w : Window) => decide (w.issued + 3 ≤ now)
  let n := ((x.te.windows.filter live).map (fun w => w.steps.headD 0)).sum
  if n = 0 ∧ (x.te.windows.all (fun w => w.steps.isEmpty)) then s
  else add64 (setPod s p { x with te := { x.te with windows := x.te.windows.map (fun w =>
    if live w then { w with steps := w.steps.drop 1 } else w) } }) (rPod p 0x510) n

/-- A held write of POD_TE_CFG takes effect once the engine is idle (R80). -/
def settleTeCfg (s : State) (p : PodId) : State :=
  let x := pod s p
  match x.te.heldCfg with
  | some v =>
    if teBusy x then s
    else setReg (setPod s p { x with te := { x.te with heldCfg := none } }) (rPod p 0x500) (v &&& 0x07FFFF01)
  | none => s

/-- A write of POD_TE_CFG by any agent (R80, R102). -/
def writeTeCfg (s : State) (p : PodId) (v : Word) : State :=
  settleTeCfg (modPod s p (fun x => { x with te := { x.te with heldCfg := some v } })) p

end Sys2Proof.Machine
end

