-- ==== Sys2Proof/Machine/Control.lean ====
section
/-! DEFINITION. The CTL slot (R155 to R157): arithmetic on scalars, branches and loops, the frame end, C.SYNC, C.STEP and
C.RDS, and the registers of the Pod's own block as C.CSRW writes and C.CSRR reads them (R72, R102, R129, R341, R443). -/

namespace Sys2Proof.Machine

/-! ## Registers of a Pod block, as written -/

/-- A post (R341): stream and count of a value written to POD_EGRESS. A COUNT of 0 has no effect (R353). -/
def postOf (s : State) (p : PodId) (v : Word) : List Post :=
  if getF v 8 8 = 0 then [] else
    [⟨toStream (getF v 0 6), getF v 8 8, BitVec.ofNat 64 (stepCount s p), s.misc.weightNow, false⟩]

/-- POD_EGRESS written by C.CSRW: the post waits for the next frame (R342). -/
def writeEgress (s : State) (p : PodId) (v : Word) : State :=
  modPod s p (fun x => { x with posts := x.posts ++ postOf s p v })

/-- A write of the POD-block register at `o`; what no rule makes writable is dropped (R11). -/
def writePodReg (s : State) (p : PodId) (own : Bool) (o : Nat) (v : Word) : State :=
  if o = 0x400 ∨ o = 0x600 then setField s (rPod p o) 0 3 (getF v 0 3)
  else if o = 0x404 then modReg s (rPod p o) (fun w => w &&& ~~~ (v &&& 0x00FFFFFF))
  else if o = 0x500 then writeTeCfg s p v
  else if o = 0x508 then modReg s (rPod p o) (fun w => w &&& ~~~ (v &&& 0x0000000F))
  else if o = 0x604 then modReg s (rPod p o) (fun w => w &&& ~~~ (v &&& 0x0000003F))
  else if o = 0xA00 ∧ own then writeEgress s p v
  else s

/-! ## Values -/

/-- The arithmetic of C.ADD to C.SLT, modulo 2^64. -/
def ctlAlu (c : Nat) (a b : Word64) : Word64 :=
  if c = 1 then a + b
  else if c = 2 then a - b
  else if c = 3 then a &&& b
  else if c = 4 then a ||| b
  else if c = 5 then a ^^^ b
  else if c = 6 then a <<< (b.toNat % 64)
  else if c = 7 then a >>> (b.toNat % 64)
  else if c = 8 then a * b
  else if a.toInt < b.toInt then 1 else 0

/-- sext(IMM). -/
def ctlImm (f : CtlFields) : Word64 := f.imm.signExtend 64

/-- The bundle target IMM[13:0]. -/
def ctlTarget (f : CtlFields) : Nat := getF f.imm 0 14

/-- The item C.RDS reads. -/
def rdsItem (s : State) (p : PodId) (n : Nat) : Nat :=
  let x := pod s p
  if n = 0 then weaveFrame s
  else if n = 1 then stepCount s p
  else if n = 2 then p.val
  else if n = 3 then x.core.cycle - x.core.resumeCycle
  else tick s

/-- The loop counter a C.LOOP names. -/
def loopLc (f : CtlFields) : Fin 4 := fin 4 (by decide) f.rd.toNat

/-! ## Traps (R155, R156) -/

/-- The traps of a CTL operation beside those every slot shares. -/
def ctlTraps (s : State) (p : PodId) (c : Nat) (f : CtlFields) : List Nat :=
  let x := pod s p
  if c = 0x13 then trapIf (decide (16 ≤ x.stack.length)) tCall
  else if c = 0x14 then trapIf x.stack.isEmpty tCall
  else if c = 0x15 then
    trapIf (decide (ctlTarget f ≤ pcOf s p) || decide (0xFFFFFFFF < sNum x f.ra)) tOperand
      ++ trapIf (x.loops.any (fun l => l.lc = loopLc f)) tState
  else if c = 0x16 then trapIf (f.imm = 0) tOperand
  else if c = 0x1B then trapIf (decide (4 < getF f.imm 0 3)) tOperand
  else []

/-! ## Registers, and the conditions of the barriers (R155, R157) -/

/-- The registers a CTL operation reads. -/
def ctlReads (c : Nat) (f : CtlFields) : List Dest :=
  if (1 ≤ c ∧ c ≤ 8) ∨ c = 0xA then [destS f.ra, destS f.rb]
  else if c = 9 ∨ c = 0xC ∨ c = 0x10 ∨ c = 0x11 ∨ c = 0x15 ∨ c = 0x1E then [destS f.ra]
  else []

/-- The register a CTL operation writes. -/
def ctlWrites (c : Nat) (f : CtlFields) : List Dest :=
  if (1 ≤ c ∧ c ≤ 0xC) ∨ c = 0x1B ∨ c = 0x1F then [destS f.rd] else []

/-- A figure lies beyond the present cycle. -/
def pastNow (x : Pod) (d : Due) : Bool := decide (x.core.cycle < d.cyc)

/-- A range is held in the present cycle. -/
def rangeHeld (x : Pod) (r : StoreRange) : Bool :=
  match r.due with
  | none => true
  | some d => decide (x.core.cycle < d)

/-- ME operations still at work: products, loads or drains. -/
def meUnfinished (x : Pod) : Bool :=
  x.me.toList.any (fun e => e.contReady.toList.any (pastNow x) || e.drainReady.toList.any (pastNow x)
    || e.bufs.toList.any (fun b => pastNow x b.ready) || e.accFree.toList.any (pastNow x))
    || x.ranges.any (fun r => r.cls = 0 && rangeHeld x r)

/-- VU operations whose result is not yet readable. -/
def vuUnfinished (x : Pod) : Bool := x.pend.any (fun w => w.slot = 1 && decide (x.core.cycle < w.due))

/-- TE operations still at work. -/
def teUnfinished (x : Pod) : Bool :=
  x.te.windows.any (fun w => decide (x.core.cycle < w.due)) || loadsIn x x.te.nloads
    || x.te.halves.toList.any (fun h => loadsIn x h.loads)

/-- Stores and copies still at work. -/
def storeUnfinished (x : Pod) : Bool := x.ranges.any (fun r => r.cls = 3 && rangeHeld x r)

/-- Some class of C.SYNC's mask is unfinished. -/
def syncWaits (x : Pod) (m : Nat) : Bool :=
  let b := fun (i : Nat) => decide (m / 2 ^ i % 2 = 1)
  (b 0 && meUnfinished x) || (b 1 && vuUnfinished x) || (b 2 && teUnfinished x) || (b 3 && storeUnfinished x)
    || (b 4 && x.outq.toList.any (fun q => !q.tokens.isEmpty)) || (b 5 && decide (0 < gathersOut x))

/-- The stall causes that are the CTL slot's own. -/
def ctlStalls (x : Pod) (c : Nat) (f : CtlFields) : List Nat :=
  if c = 0x18 then trapIf (syncWaits x 0xF) 0x02
  else if c = 0x19 then trapIf (syncWaits x (getF f.imm 0 6)) 0x02
  else if c = 0x1E ∧ getF f.imm 0 16 = 0x500 then trapIf (teBusy x) 0x0D
  else []

/-! ## Where the core goes next (R155, R156) -/

/-- The next bundle to issue; 16,384 lies beyond every code (R133). -/
def setNext (s : State) (p : PodId) (n : Nat) : State :=
  modCore (setPc s p n) p (fun k => { k with beyond := decide (16384 ≤ n) })

/-- A taken branch: the target issues at the branch cost. -/
def takeBranch (s : State) (p : PodId) (n : Nat) : State :=
  modCore (setNext s p n) p (fun k => { k with holdUntil := k.cycle + latBranch s p, holdIdle := false })

/-- Close the innermost loops that do not hold the target. -/
def closeLoops (n : Nat) : List Loop → List Loop
  | [] => []
  | l :: t => if l.start ≤ n ∧ n ≤ l.stop then l :: t else closeLoops n t

/-- A taken C.BR, C.BZ or C.JMP. -/
def jumpTo (s : State) (p : PodId) (n : Nat) : State :=
  takeBranch (modPod s p (fun x => { x with loops := closeLoops n x.loops })) p n

/-- The test after the bundle `b` has issued: the next index of a loop that goes on, or none, with loops that ended closed
and the counters moved. -/
def loopTest (b : Nat) : List Loop → Vector Word 4 → Option Nat × List Loop × Vector Word 4
  | [], lc => (none, [], lc)
  | l :: t, lc =>
    if b = l.stop then
      if 1 < (vget lc l.lc).toNat then (some l.start, l :: t, vmod lc l.lc (· - 1)) else loopTest b t lc
    else (none, l :: t, lc)

/-- Where the core goes after bundle `b` issued without a taken branch. -/
def advancePc (s : State) (p : PodId) (b : Nat) : State :=
  let x := pod s p
  let r := loopTest b x.loops x.lc
  setNext (setPod s p { x with loops := r.2.1, lc := r.2.2 }) p (r.1.getD (b + 1))

/-! ## Issue -/

/-- A scalar result of latency `n`. -/
def ctlResult (s : State) (p : PodId) (f : CtlFields) (v : Nat) (n : Nat) : State :=
  let r := nextSerial s p
  modPod r.2 p (fun y => addPend y r.1 4 (destS f.rd) v (y.core.cycle + n))

/-- C.LOOP opens its loop, or passes it by with a count of 0. -/
def issueLoop (s : State) (p : PodId) (f : CtlFields) : State :=
  let x := pod s p
  if sReg x f.ra = 0 then takeBranch s p (ctlTarget f + 1)
  else setPod s p { x with
    lc := vput x.lc (loopLc f) ((sReg x f.ra).setWidth 32)
    loops := ⟨pcOf s p + 1, ctlTarget f, loopLc f⟩ :: x.loops }

/-- C.FEND: the Pod is at its frame end, stamped with the tick (R157, R357). -/
def issueFend (s : State) (p : PodId) (f : CtlFields) : State :=
  let s1 := setFlag (setNext s p (ctlTarget f)) (rPod p 0x100) 28 true
  modPod s1 p (fun x => { x with
    stack := [], loops := []
    core := { x.core with fendTick := some (tick s), fendStep := BitVec.ofNat 64 (stepCount s p) } })

/-- C.STEP: the step counter advances and the draw count clears (R312, R117). -/
def issueStep (s : State) (p : PodId) : State :=
  setReg64 (setReg64 s (rPod p 0x900) ((stepCount s p + 1) % 2 ^ 64)) (rPod p 0x608) 0

/-- What a CTL operation leaves (R155 to R157). The next index after bundle 16,383 does not fit the 14 bits of a call-stack entry, and R156 says
nothing of it: C.CALL pushes 0 there (DESIGN CHOICE, log 65). -/
def ctlEffect (s : State) (p : PodId) (c : Nat) (f : CtlFields) : State :=
  let x := pod s p
  let b := pcOf s p
  if (1 ≤ c ∧ c ≤ 8) ∨ c = 0xA then ctlResult s p f (ctlAlu c (sReg x f.ra) (sReg x f.rb)).toNat 1
  else if c = 9 then ctlResult s p f (sReg x f.ra + ctlImm f).toNat 1
  else if c = 0xB then ctlResult s p f (ctlImm f).toNat 1
  else if c = 0xC then ctlResult s p f (sReg x f.ra ||| ((f.imm.setWidth 64) <<< 27)).toNat 1
  else if c = 0x10 then if sReg x f.ra ≠ 0 then jumpTo s p (ctlTarget f) else s
  else if c = 0x11 then if sReg x f.ra = 0 then jumpTo s p (ctlTarget f) else s
  else if c = 0x12 then jumpTo s p (ctlTarget f)
  else if c = 0x13 then
    takeBranch (modPod s p (fun y => { y with stack := BitVec.ofNat 14 (b + 1) :: y.stack })) p (ctlTarget f)
  else if c = 0x14 then takeBranch (modPod s p (fun y => { y with stack := y.stack.tail })) p (x.stack.headD 0).toNat
  else if c = 0x15 then issueLoop s p f
  else if c = 0x16 then modCore s p (fun k => { k with holdUntil := k.cycle + f.imm.toNat, holdIdle := true })
  else if c = 0x18 then issueFend s p f
  else if c = 0x1A then issueStep s p
  else if c = 0x1B then ctlResult s p f (rdsItem s p (getF f.imm 0 3)) 1
  else if c = 0x1E then writePodReg s p true (getF f.imm 0 16) ((sReg x f.ra).setWidth 32)
  else if c = 0x1F then
    let o := getF f.imm 0 16
    let r := if o % 4 = 0 then readReg s (.pod p) (rPod p o) else (0, s)
    ctlResult r.2 p f r.1.toNat 4
  else s

/-- A CTL operation has set the next bundle index itself. -/
def ctlBranches (s : State) (p : PodId) (c : Nat) (f : CtlFields) : Bool :=
  let a := sReg (pod s p) f.ra
  if c = 0x10 then decide (a ≠ 0)
  else if c = 0x11 ∨ c = 0x15 then decide (a = 0)
  else decide (c = 0x12) || decide (c = 0x13) || decide (c = 0x14) || decide (c = 0x18)

/-- A CTL operation issues; the flag says that it has set the next bundle index. -/
def issueCtl (s : State) (p : PodId) (c : Nat) (f : CtlFields) : State × Bool := (ctlEffect s p c f, ctlBranches s p c f)

end Sys2Proof.Machine
end

