-- ==== Sys2Proof/Machine/Matrix.lean ====
section
/-! DEFINITION. The Matrix Engines: descriptors and their checks (R140, R141), the exact accumulation of both accumulators
(R51 to R57), SEED (R63), the FP32 split (R67), final rounding (R58, R59, R62) and the figures of the step tables (R144 to
R147, R168, R172). -/

namespace Sys2Proof.Machine

/-! ## Descriptors -/

/-- A Matrix Engine descriptor (R140). -/
structure MeDesc where
  a : Nat
  aStride : Nat
  b : Nat
  bStride : Nat
  sa : Nat
  sb : Nat
  dst : Nat
  dstStride : Nat
  seed : Nat
  k : Nat
  fmtA : Nat
  fmtB : Nat
  target : Nat
  mode : Nat
  eBase : Int
  scale : Int
  parts : Nat
  rsv : Nat
  deriving DecidableEq, Repr

/-- Read a descriptor register. -/
def meDesc (x : BitVec 512) : MeDesc where
  a := getF x 0 32
  aStride := getF x 32 32
  b := getF x 64 32
  bStride := getF x 96 32
  sa := getF x 128 32
  sb := getF x 160 32
  dst := getF x 192 32
  dstStride := getF x 224 32
  seed := getF x 256 32
  k := getF x 288 32
  fmtA := getF x 320 8
  fmtB := getF x 328 8
  target := getF x 336 8
  mode := getF x 344 8
  eBase := signed 16 (getF x 352 16)
  scale := signed 16 (getF x 368 16)
  parts := getF x 384 8
  rsv := getF x 392 120

/-- BF16, FP16 and FP32 work column-wise (R45, R47). -/
def isColFmt (c : Nat) : Bool := c = 8 || c = 9 || c = 0xA

/-- The formats that may carry an MX scale (R141). -/
def isMxFmt (c : Nat) : Bool := decide (c ≤ 4) || c = 7

/-- Four-bit formats, two K per cycle (R47). -/
def isFourBit (c : Nat) : Bool := c = 4 || c = 6

/-- Bytes of a packed 32-element block (R140). -/
def blockBytes (c : Nat) : Nat := 4 * fmtBits c

/-- A is scaled, B is scaled (MODE bits 3 and 4). -/
def aScaled (d : MeDesc) : Bool := decide (d.mode / 8 % 2 = 1)
def bScaled (d : MeDesc) : Bool := decide (d.mode / 16 % 2 = 1)

/-- Part of A and of B: 0 H, 1 M, 2 L. -/
def partA (d : MeDesc) : Nat := d.parts % 4
def partB (d : MeDesc) : Nat := d.parts / 4 % 4

/-- The quadrant an operation names, or 4 for the whole array. -/
def quadOf (f : MeFields) : Nat := if f.quad.toNat < 4 then 4 else f.quad.toNat - 4

/-- The quadrants an operation works on: all four for the whole array and for column mode. -/
def quadsOf (q : Nat) : List Nat := if q < 4 then [q] else [0, 1, 2, 3]

/-- Rows and columns of a quadrant or of the whole array: first row, first column, count (R44). -/
def quadRows (q : Nat) : Nat := if q = 2 ∨ q = 3 then 32 else 0
def quadCols (q : Nat) : Nat := if q = 1 ∨ q = 3 then 32 else 0
def quadSize (q : Nat) : Nat := if q < 4 then 32 else 64

/-- The engine of an operation. -/
def engineOf (f : MeFields) : EngineId := fin 4 (by decide) f.engine.toNat

/-- Where the E_BASE of a cell accumulator and quadrant is stored. -/
def baseIx (acc q : Nat) : Fin 8 := fin 8 (by decide) (acc * 4 + q)

/-- Where the figures of the accumulators that an operation works on stand: a quadrant of the cells each, or the columns (R71). -/
def accIxs (col : Bool) (acc q : Nat) : List (Fin 10) :=
  if col then [fin 10 (by decide) (8 + acc)] else (quadsOf q).map (fun i => fin 10 (by decide) (acc * 4 + i))

/-! ## Store ranges of an operation -/

/-- K blocks of 32. -/
def kBlocks (k : Nat) : Nat := ceilDiv k 32

/-- Bytes of a column element. -/
def colBytes (c : Nat) : Nat := if c = 0xA then 4 else 2

/-- The blocks of rows an ME operation touches, as (offset, length) of each contiguous piece. -/
def strided (base stride n len : Nat) : List (Nat × Nat) := (upTo n).map (fun i => (base + i * stride, len))

/-- The first and the last piece of `n` strided pieces: they span the range. -/
def stridedEnds (base stride n len : Nat) : List (Nat × Nat) :=
  if n = 0 then [] else [(base, len), (base + (n - 1) * stride, len)]

/-- Bytes of a drained row (R62, R143). -/
def rowBytes (target q : Nat) : Nat :=
  if target = 4 then (if q < 4 then 256 else 512)
  else quadSize q * (if target = 0 then 4 else if target = 1 then 2 else 1)

/-- A and B operand streams and scales of an ME.MMA. R140 does not say whether base plus register is taken modulo 2^64, as the addresses of M.*
operations are: it is not, so that a register that holds a negative number gives an address beyond the store (DESIGN CHOICE, log 65). -/
def mmaA (x : Pod) (f : MeFields) (d : MeDesc) : Nat := d.a + sNum x f.areg
def mmaB (x : Pod) (f : MeFields) (d : MeDesc) : Nat := d.b + sNum x f.breg
def mmaSeed (x : Pod) (f : MeFields) (d : MeDesc) : Nat := d.seed + sNum x f.breg

/-- The read range of A. -/
def rangeA (x : Pod) (f : MeFields) (d : MeDesc) : List (Nat × Nat) :=
  if isColFmt d.fmtA then [(mmaA x f d, d.k * colBytes d.fmtA)]
  else stridedEnds (mmaA x f d) d.aStride (kBlocks d.k) (quadSize (quadOf f) * blockBytes d.fmtA)

/-- The read range of B; none in column mode. -/
def rangeB (x : Pod) (f : MeFields) (d : MeDesc) : List (Nat × Nat) :=
  if isColFmt d.fmtA then []
  else stridedEnds (mmaB x f d) d.bStride (kBlocks d.k) (quadSize (quadOf f) * blockBytes d.fmtB)

/-- The read ranges of the scale streams. -/
def rangeScales (f : MeFields) (d : MeDesc) : List (List (Nat × Nat)) :=
  if isColFmt d.fmtA then []
  else (if aScaled d then [stridedEnds d.sa 64 (kBlocks d.k) (quadSize (quadOf f))] else [])
    ++ (if bScaled d then [stridedEnds d.sb 64 (kBlocks d.k) (quadSize (quadOf f))] else [])

/-- Rows of an operation: one in column mode. -/
def opRows (f : MeFields) (d : MeDesc) : Nat := if isColFmt d.fmtA then 1 else quadSize (quadOf f)

/-- The read range of the seed blocks. -/
def rangeSeed (x : Pod) (f : MeFields) (d : MeDesc) : List (Nat × Nat) :=
  if f.start = 2 then stridedEnds (mmaSeed x f d) d.dstStride (opRows f d) (rowBytes 4 (quadOf f)) else []

/-- The write range of ME.DRAIN. -/
def rangeDrain (x : Pod) (f : MeFields) (d : MeDesc) : List (Nat × Nat) :=
  stridedEnds (d.dst + sNum x f.dreg) d.dstStride (opRows f d) (rowBytes d.target (quadOf f))

/-- The read range of ME.BLOAD. -/
def rangeBload (x : Pod) (f : MeFields) (d : MeDesc) : List (Nat × Nat) :=
  stridedEnds (mmaB x f d) d.bStride 64 (d.k * colBytes d.fmtB)

/-- Every read range of an ME operation, one list for each. -/
def meReads (x : Pod) (c : Nat) (f : MeFields) (d : MeDesc) : List (List (Nat × Nat)) :=
  if c = 1 then [rangeA x f d] ++ (if isColFmt d.fmtA then [] else [rangeB x f d]) ++ rangeScales f d
    ++ (if f.start = 2 then [rangeSeed x f d] else [])
  else if c = 3 then [rangeBload x f d] else []

/-- Every write range of an ME operation. -/
def meWrites (x : Pod) (c : Nat) (f : MeFields) (d : MeDesc) : List (List (Nat × Nat)) :=
  if c = 2 then [rangeDrain x f d] else []

/-- Addresses and strides that must be multiples of 64 (R141). -/
def meAligned (x : Pod) (c : Nat) (f : MeFields) (d : MeDesc) : List Nat :=
  if c = 1 then
    [mmaA x f d] ++ (if isColFmt d.fmtA then [] else [d.aStride, mmaB x f d, d.bStride])
      ++ (if !isColFmt d.fmtA && aScaled d then [d.sa] else []) ++ (if !isColFmt d.fmtA && bScaled d then [d.sb] else [])
      ++ (if f.start = 2 then [mmaSeed x f d, d.dstStride] else [])
  else if c = 2 then [d.dst + sNum x f.dreg, d.dstStride]
  else [mmaB x f d, d.bStride]

/-! ## Traps (R141) -/

/-- A list of pieces, as a span, breaks the address rules of R141. -/
def badPieces (s : State) (p : PodId) (l : List (Nat × Nat)) : Bool :=
  match l with
  | [] => false
  | _ =>
    let lo := (l.map (·.1)).foldl min (l.headD (0, 0)).1
    let hi := (l.map (fun e => e.1 + e.2)).foldl max 0
    badSpan lo (hi - lo) || touchesNodes s p lo (hi - lo)

/-- Illegal operands of any ME operation. R141 does not say whether an ME.DRAIN or ME.BLOAD, which does not use them, is checked for the pairing of
formats, the scale bits and the part H: only ME.MMA is (DESIGN CHOICE, log 65). -/
def meBadOperand (c : Nat) (f : MeFields) (d : MeDesc) : Bool :=
  let col := isColFmt d.fmtA
  decide (d.rsv ≠ 0) || decide (32 ≤ d.mode) || decide (16 ≤ d.parts) || partA d = 3 || partB d = 3
  || decide (0xA < d.fmtA) || decide (0xA < d.fmtB)
  || (decide (4 < d.target) && !(c = 1 && f.start = 2))
  || f.quad = 1 || f.quad = 2 || f.quad = 3
  || decide (d.eBase < -254) || decide (254 < d.eBase) || decide (d.scale < -1024) || decide (1023 < d.scale)
  || (c = 3 && (!isColFmt d.fmtB || decide (d.k < 1) || decide (256 < d.k)))
  || (decide (c ≠ 3) && col && decide (f.quad ≠ 0))
  || (c = 1 && (f.start = 3 || decide (col ≠ isColFmt d.fmtB)
      || ((d.fmtA = 8 || d.fmtA = 9) && decide (partA d ≠ 0)) || ((d.fmtB = 8 || d.fmtB = 9) && decide (partB d ≠ 0))
      || decide (d.k < 1) || decide ((if col then 256 else 1048576) < d.k)
      || (aScaled d && !isMxFmt d.fmtA) || (bScaled d && !isMxFmt d.fmtB)
      || (d.fmtA = 7 && !aScaled d) || (d.fmtB = 7 && !bScaled d)))

/-- The traps of an ME operation. -/
def meTraps (s : State) (p : PodId) (c : Nat) (f : MeFields) : List Nat :=
  let x := pod s p
  let d := meDesc (mdReg x f.md)
  let badOp := meBadOperand c f d
  if badOp then [tOperand]
  else
    let buf := vget (vget x.me (engineOf f)).bufs (fin 2 (by decide) f.buf.toNat)
    trapIf ((meAligned x c f d).any (fun a => decide (a % 64 ≠ 0))
        || (meReads x c f d ++ meWrites x c f d).any (badPieces s p)) tAddress
      ++ trapIf (c = 1 && isColFmt d.fmtA && (decide (buf.k < d.k) || decide (buf.fmt.toNat ≠ d.fmtB))) tState

/-! ## Operand values -/

/-- The three BF16 parts of an FP32 value (R67). -/
def splitH (x : Fp) : Fp :=
  match x with
  | .fin neg m e =>
    let r := fpFinish 8 .rne (.fin neg m e)
    fpDecode 8 (if r.ovf then (fpFinish 8 .rtz (.fin neg m e)).code else r.code)
  | y => y
/-- Round a finite difference to BF16 by RNE. -/
def toBf16 (x : Fp) : Fp := fpDecode 8 (fpFinish 8 .rne x).code
/-- The named part of an FP32 value. -/
def splitPart (n : Nat) (x : Fp) : Fp :=
  let h := splitH x
  if n = 0 then h
  else
    match x with
    | .fin _ _ _ =>
      let r1 := fpAdd .rne x (fpNeg h)
      let m := toBf16 r1
      if n = 1 then m else toBf16 (fpAdd .rne r1 (fpNeg m))
    | _ => .fin false 0 0

/-- An operand element as the engine multiplies it. -/
def meElem (c part x : Nat) : Fp := if c = 0xA then splitPart part (fpDecode c x) else fpDecode c x

/-- The first `n` elements of a packed block of bytes. -/
def blockElems (c part : Nat) (b : List Byte) (n : Nat) : List Fp :=
  let v := leNat b
  let w := fmtBits c
  (upTo n).map (fun i => meElem c part (v / 2 ^ (w * i) % 2 ^ w))

/-! ## Cell accumulators -/

/-- The residue of an accumulator whose content goes from `old` to `new` (R73): it takes the residue of what is added, less that of what a carry
out of the accumulator drops, so a disagreement with the content stays (DEDUCED, log 60). -/
def resStep (r old new : Nat) : Nat := (((r : Int) + new - old) % 3).toNat

/-- Add an integer to ACC modulo 2^96 (R53, R73). -/
def accAdd (a : Acc) (v : Int) : Acc :=
  let n := BitVec.ofNat 96 (wrap 96 ((a.val.toNat : Int) + v))
  { a with val := n, res := resStep a.res a.val.toNat n.toNat }

/-- Count products (R53). -/
def accCount (a : Acc) (n : Nat) : Acc :=
  { a with count := a.count + n, kOver := a.kOver || decide (1048576 < a.count + n) }

/-- One product of a block with shift d (R51, R57). -/
def accProduct (d : Int) (a : Acc) (x y : Fp) : Acc :=
  match fpMul x y with
  | .nan => { a with nan := true }
  | .inf neg => if neg then { a with ninf := true } else { a with pinf := true }
  | .fin neg m e =>
    let v : Int := (m * 2 ^ (e + 32 + d).toNat : Nat)
    accAdd a (if neg then -v else v)

/-- The products of one K block in one cell (R50, R52, R53, R57). Whether the missing elements of a partial last block enter the count of R53 is
open: the present ones alone do (DESIGN CHOICE, log 60). -/
def accBlock (eBase : Int) (sa sb : Nat) (xs ys : List Fp) (a : Acc) : Acc :=
  let n := xs.length
  if sa = 0xFF ∨ sb = 0xFF then accCount { a with nan := a.nan || decide (0 < n) } n
  else
    let d : Int := (sa : Int) - 127 + ((sb : Int) - 127) - eBase
    if d < 0 ∨ 11 < d then accCount { a with range := true } n
    else accCount ((List.zip xs ys).foldl (fun b p => accProduct d b p.1 p.2) a) n

/-- Update the cells of an operation: `g` takes row and column within the tile. -/
def updCells (e : Engine) (acc q : Nat) (g : Nat → Nat → Acc → Acc) : Engine :=
  let n := quadSize q
  let r0 := if q < 4 then quadRows q else 0
  let c0 := if q < 4 then quadCols q else 0
  { e with cells := (upTo n).foldl (fun t i =>
      tabUpdateRange Acc.zero (fun k a => g i (k - (acc * 4096 + (r0 + i) * 64 + c0)) a)
        (acc * 4096 + (r0 + i) * 64 + c0) n t) e.cells }

/-- The cell of an accumulator. -/
def cellOf (e : Engine) (acc r c : Nat) : Acc := tabGet Acc.zero e.cells (acc * 4096 + r * 64 + c)

/-- SEED of one cell from element i of a block (R63). -/
def seedCell (eBase : Int) (x : Xps) (i : Nat) : Acc :=
  let f := if xpsCountOk x then x.flags else orF x.flags xMismatch
  let ov := hasF f xOverflow || xpsLow x
  let sh := x.scale - (eBase - 32)
  let bad := decide (sh < 0) || decide (39 < sh)
  let v : BitVec 96 := if bad then 0 else BitVec.ofNat 96 (wrap 96 (xpsElem x i * 2 ^ sh.toNat))
  { val := v
    res := v.toNat % 3
    nan := hasF f (xInvalid + xMismatch)
    pinf := hasF f xPosInf
    ninf := hasF f xNegInf
    range := hasF f xScaleRange || ov || bad
    kOver := hasF f xKOver
    count := 0 }

/-- SEED of one column (R63). -/
def seedCol (x : Xps) (i : Nat) : Col :=
  let f := if xpsCountOk x then x.flags else orF x.flags xMismatch
  let ov := hasF f xOverflow || xpsLow x
  let sh := x.scale + 266
  let bad := decide (sh < 0) || decide (584 < sh)
  let v : BitVec 640 := if bad then 0 else BitVec.ofNat 640 (wrap 640 (xpsElem x i * 2 ^ sh.toNat))
  { val := v
    res := v.toNat % 3
    nan := hasF f (xInvalid + xMismatch)
    pinf := hasF f xPosInf
    ninf := hasF f xNegInf
    range := hasF f xScaleRange || ov || bad
    kOver := hasF f xKOver
    count := 0 }

/-- The seed block and element index of column `j` of a row: two blocks in a 64-value row (R62). -/
def seedBlock (s : State) (p : PodId) (row q j : Nat) : Xps × Nat :=
  if 4 ≤ q ∧ 36 ≤ j then (xpsOfBytes (memRead s (podAddr p (row + 256)) 256), j - 36)
  else (xpsOfBytes (memRead s (podAddr p row) 256), j)

/-! ## Column accumulators -/

/-- One product into a column (R55, R57). -/
def colProduct (a : Col) (x y : Fp) : Col :=
  let a := { a with count := a.count + 1 }
  match fpMul x y with
  | .nan => { a with nan := true }
  | .inf neg => if neg then { a with ninf := true } else { a with pinf := true }
  | .fin neg m e =>
    let v : Int := (m * 2 ^ (e + 266).toNat : Nat)
    let n := BitVec.ofNat 640 (wrap 640 ((a.val.toNat : Int) + if neg then -v else v))
    { a with val := n, res := resStep a.res a.val.toNat n.toNat }

/-- Update the 64 columns of an accumulator. -/
def updCols (e : Engine) (acc : Nat) (g : Nat → Col → Col) : Engine :=
  { e with cols := tabUpdateRange Col.zero (fun k a => g (k - acc * 64) a) (acc * 64) 64 e.cols }

/-- The column accumulator. -/
def colOf (e : Engine) (acc c : Nat) : Col := tabGet Col.zero e.cols (acc * 64 + c)

/-! ## ME.MMA -/

/-- Start of a cell (R54, R63). -/
def startCells (s : State) (p : PodId) (f : MeFields) (d : MeDesc) (e : Engine) : Engine :=
  let x := pod s p
  if f.start = 0 then updCells e f.acc.toNat (quadOf f) (fun _ _ _ => Acc.zero)
  else if f.start = 2 then
    updCells e f.acc.toNat (quadOf f) (fun i j _ =>
      let b := seedBlock s p (mmaSeed x f d + i * d.dstStride) (quadOf f) j
      seedCell d.eBase b.1 b.2)
  else e

/-- A CONTINUE whose E_BASE differs from a stored one (R54). -/
def baseMismatch (f : MeFields) (d : MeDesc) (e : Engine) : Bool :=
  f.start = 1 && (quadsOf (quadOf f)).any (fun q =>
    match vget e.bases (baseIx f.acc.toNat q) with
    | some b => decide (b ≠ d.eBase)
    | none => false)

/-- Store the operation's E_BASE (R54). -/
def storeBases (f : MeFields) (d : MeDesc) (e : Engine) : Engine :=
  { e with bases := (quadsOf (quadOf f)).foldl (fun v q => vput v (baseIx f.acc.toNat q) (some d.eBase)) e.bases }

/-- The elements and the scale code of row `i` of a K block. -/
def rowElems (s : State) (p : PodId) (c base stride k kb i : Nat) : List Fp :=
  let w := blockBytes c
  blockElems c 0 (memRead s (podAddr p (base + kb * stride + i * w)) w) (min 32 (k - 32 * kb))

/-- The scale code of row `i` of a K block, 0x7F without a scale stream (R50). -/
def rowScale (s : State) (p : PodId) (scaled : Bool) (base kb i : Nat) : Nat :=
  if scaled then (memByte s (podAddr p (base + 64 * kb + i))).toNat else 0x7F

/-- Accumulate every K block of a narrow tile (R43, R51). -/
def narrowTile (s : State) (p : PodId) (f : MeFields) (d : MeDesc) (e : Engine) : Engine :=
  let x := pod s p
  let n := quadSize (quadOf f)
  (upTo (kBlocks d.k)).foldl (fun e kb =>
    let as := (upTo n).map (fun i => rowElems s p d.fmtA (mmaA x f d) d.aStride d.k kb i)
    let bs := (upTo n).map (fun i => rowElems s p d.fmtB (mmaB x f d) d.bStride d.k kb i)
    let sas := (upTo n).map (fun i => rowScale s p (aScaled d) d.sa kb i)
    let sbs := (upTo n).map (fun i => rowScale s p (bScaled d) d.sb kb i)
    updCells e f.acc.toNat (quadOf f) (fun i j a =>
      accBlock d.eBase (sas.getD i 0) (sbs.getD j 0) (as.getD i []) (bs.getD j []) a)) e

/-- The elements of column `j` of a B buffer, in part PART_B. -/
def bufElems (b : BBuf) (d : MeDesc) (j : Nat) : List Fp :=
  let w := colBytes b.fmt.toNat
  (upTo d.k).map (fun i => meElem d.fmtB (partB d) (numAt b.data ((j * b.k + i) * w) w))

/-- Accumulate one output row in column mode (R45, R55, R56). -/
def columnRow (s : State) (p : PodId) (f : MeFields) (d : MeDesc) (e : Engine) : Engine :=
  let x := pod s p
  let w := colBytes d.fmtA
  let row := memRead s (podAddr p (mmaA x f d)) (d.k * w)
  let as := (upTo d.k).map (fun i => meElem d.fmtA (partA d) (numAt row (i * w) w))
  let b := vget e.bufs (fin 2 (by decide) f.buf.toNat)
  updCols e f.acc.toNat (fun j a => (List.zip as (bufElems b d j)).foldl (fun c q => colProduct c q.1 q.2) a)

/-- Start of the columns (R54, R63). -/
def startCols (s : State) (p : PodId) (f : MeFields) (d : MeDesc) (e : Engine) : Engine :=
  let x := pod s p
  if f.start = 0 then updCols e f.acc.toNat (fun _ _ => Col.zero)
  else if f.start = 2 then
    updCols e f.acc.toNat (fun j _ =>
      let b := seedBlock s p (mmaSeed x f d) 4 j
      seedCol b.1 b.2)
  else e

/-- The accumulators after an ME.MMA: exact sums in any order (R51, R55). A CONTINUE with another E_BASE adds nothing to the cells, their counts
included; whether its products count in POD_ME_PRODUCTS is open, and they do (DESIGN CHOICE, log 60). -/
def mmaResult (s : State) (p : PodId) (f : MeFields) (d : MeDesc) (e : Engine) : Engine :=
  if isColFmt d.fmtA then columnRow s p f d (startCols s p f d e)
  else if baseMismatch f d e then
    storeBases f d (updCells e f.acc.toNat (quadOf f) (fun _ _ a => { a with range := true }))
  else narrowTile s p f d (storeBases f d (startCells s p f d e))

/-- Operand cycles of an ME.MMA (R144). -/
def operandCycles (d : MeDesc) : Nat :=
  if isColFmt d.fmtA then 4 * ceilDiv d.k 64
  else if isFourBit d.fmtA && isFourBit d.fmtB then ceilDiv d.k 2 else d.k

/-- Cycles the seed read takes before the operands (R144, R168). -/
def seedShift (x : Pod) (f : MeFields) (d : MeDesc) : Nat :=
  if f.start = 2 then
    let n := if isColFmt d.fmtA then 2 else if quadOf f < 4 then 32 else 128
    if isHusk (mmaSeed x f d) then 2 * n + 5 else n
  else 0

/-- Cycles added for operand streams in Husk store (R168). -/
def huskShift (x : Pod) (f : MeFields) (d : MeDesc) : Nat :=
  let starts := [mmaA x f d] ++ (if isColFmt d.fmtA then [] else [mmaB x f d])
    ++ (if !isColFmt d.fmtA && aScaled d then [d.sa] else []) ++ (if !isColFmt d.fmtA && bScaled d then [d.sb] else [])
  if starts.any isHusk then 5 else 0

/-- Set a figure for each of the operation's quadrants. -/
def setQuads (v : Vector Due 4) (q : Nat) (x : Due) : Vector Due 4 :=
  (quadsOf q).foldl (fun v i => vput v (fin 4 (by decide) i) x) v

/-- Set a figure of each of the operation's accumulators. -/
def setAccs (v : Vector Due 10) (l : List (Fin 10)) (x : Due) : Vector Due 10 := l.foldl (fun v i => vput v i x) v

/-- A line stream of a Matrix Engine, ranked by R169: class 0 drain writes, 1 seed, 2 A, 3 A scale, 4 B, 5 B scale, 6 loads. -/
def meLines (op : Nat) (f : MeFields) (cls : Nat) (write : Bool) (base stride width start every steps : Nat) : LineStream :=
  ⟨op, 1, (f.engine.toNat * 8 + (if quadOf f < 4 then quadOf f + 1 else 0)) * 8 + cls, write, base, stride, width, start,
    every, steps, []⟩

/-- The lines an ME.MMA presents (R172). -/
def mmaLines (x : Pod) (op : Nat) (f : MeFields) (d : MeDesc) (c : Nat) : List LineStream :=
  let sd := seedShift x f d
  let n := quadSize (quadOf f)
  let per := if isFourBit d.fmtA && isFourBit d.fmtB then 16 else 32
  let seeds := if f.start = 2 then
      let w := if isHusk (mmaSeed x f d) then 128 else 256
      let total := rowBytes 4 (quadOf f)
      (upTo (opRows f d)).map (fun r => meLines op f 1 false (mmaSeed x f d + r * d.dstStride) w w
        (c + r * (total / w)) 1 (total / w))
    else []
  if isColFmt d.fmtA then
    seeds ++ [meLines op f 2 false (mmaA x f d) (64 * colBytes d.fmtA) (64 * colBytes d.fmtA) (c + sd) 4 (ceilDiv d.k 64)]
  else
    seeds ++ [meLines op f 2 false (mmaA x f d) d.aStride (n * blockBytes d.fmtA) (c + sd) per (kBlocks d.k),
        meLines op f 4 false (mmaB x f d) d.bStride (n * blockBytes d.fmtB) (c + sd) per (kBlocks d.k)]
      ++ (if aScaled d then [meLines op f 3 false d.sa 64 64 (c + sd) per (kBlocks d.k)] else [])
      ++ (if bScaled d then [meLines op f 5 false d.sb 64 64 (c + sd) per (kBlocks d.k)] else [])

/-- The pieces of store an ME operation reads, in full, for the error checks of R176 and R177. -/
def mmaPieces (x : Pod) (f : MeFields) (d : MeDesc) : List (Nat × Nat) :=
  let n := quadSize (quadOf f)
  (if isColFmt d.fmtA then [(mmaA x f d, d.k * colBytes d.fmtA)]
   else strided (mmaA x f d) d.aStride (kBlocks d.k) (n * blockBytes d.fmtA)
     ++ strided (mmaB x f d) d.bStride (kBlocks d.k) (n * blockBytes d.fmtB)
     ++ (if aScaled d then strided d.sa 64 (kBlocks d.k) n else [])
     ++ (if bScaled d then strided d.sb 64 (kBlocks d.k) n else []))
  ++ (if f.start = 2 then strided (mmaSeed x f d) d.dstStride (opRows f d) (rowBytes 4 (quadOf f)) else [])

/-- Check pieces of store as a unit reads them. -/
def checkPieces (s : State) (p : PodId) (l : List (Nat × Nat)) : State :=
  forEach l s (fun t e => (storeRead t p e.1 e.2).1)

/-- The figures of an ME.MMA issued in cycle `c` as operation `op` (R144, R146, R147, R168). -/
def mmaFigures (s : State) (p : PodId) (op c : Nat) (f : MeFields) (d : MeDesc) (e : Engine) : Engine :=
  let x := pod s p
  let q := quadOf f
  let col := isColFmt d.fmtA
  let fin_ := c + seedShift x f d + huskShift x f d + operandCycles d
  let cont := fin_ + (if col then latColStep s p 8 6 else latMeProd s p 4 3)
  let drn := fin_ + (if col then latColStep s p 9 7 else latMeProd s p 4 3)
  let ixs := accIxs col f.acc.toNat q
  { e with
    nextMma := setQuads e.nextMma q ⟨op, fin_⟩
    activeUntil := setQuads e.activeUntil q ⟨op, fin_⟩
    admitFrom := setQuads e.admitFrom q ⟨op, c + seedShift x f d + huskShift x f d⟩
    contReady := setAccs e.contReady ixs ⟨op, cont⟩
    drainReady := setAccs e.drainReady ixs ⟨op, drn⟩
    mmaOps := e.mmaOps.filter (fun o => e.contReady.toList.any (fun d => d.op = o.1)) ++ [(op, decide (q < 4))]
    bufs := if col then vmod e.bufs (fin 2 (by decide) f.buf.toNat) (fun b => { b with used := ⟨op, fin_⟩ }) else e.bufs }

/-- The products an ME.MMA forms (R72). -/
def mmaProducts (f : MeFields) (d : MeDesc) : Nat :=
  if isColFmt d.fmtA then 64 * d.k else quadSize (quadOf f) * quadSize (quadOf f) * d.k

/-- The products of an ME.MMA still to form, and those of one cycle of its operands (R47, R72). -/
def formingOf (op : Nat) (f : MeFields) (d : MeDesc) : Forming :=
  let n := quadSize (quadOf f)
  ⟨op, if isColFmt d.fmtA then 1024 else if isFourBit d.fmtA && isFourBit d.fmtB then 2 * n * n else n * n, mmaProducts f d⟩

/-- The accumulators of an ME.MMA whose operand lines held the bytes `j.data` when the banks granted them (R167). -/
def mmaAgain (s : State) (p : PodId) (j : MmaJob) : Engine :=
  let view := (j.pieces.foldl (fun (r : State × List Byte) e =>
    (memWrite r.1 (podAddr p e.1) (r.2.take e.2), r.2.drop e.2)) (s, j.data)).1
  mmaResult view p { j.f with areg := 0, breg := 0 } { meDesc j.md with a := j.base.1, b := j.base.2.1, seed := j.base.2.2 } j.prior

/-- The accumulators of one ME.MMA taken from one engine into another. -/
def takeAccs (j : MmaJob) (e g : Engine) : Engine :=
  let a := j.f.acc.toNat
  let q := quadOf j.f
  if isColFmt (meDesc j.md).fmtA then updCols g a (fun c _ => colOf e a c)
  else updCells g a q (fun i k _ => cellOf e a ((if q < 4 then quadRows q else 0) + i) ((if q < 4 then quadCols q else 0) + k))

/-- An ME.MMA whose operands have all been read: where a line held other bytes when it was granted than at issue, the products are those of the
granted bytes. -/
def finishMma (p : PodId) (s : State) (j : MmaJob) : State :=
  if j.changed then
    let e := mmaAgain s p j
    modPod s p (fun x => { x with me := vmod x.me j.engine (takeAccs j e) })
  else s

/-- ME.MMA issues (R142). The accumulators take the products of the bytes that stand in the store now; finishMma mends what a bank grants
otherwise (R167). R160 does not give the cycle in which the seed read ends: the seed range is released with the shift of R144, 128 cycles after
issue for a whole array, and not with the last seed line, a cycle earlier (DESIGN CHOICE, log 65). -/
def issueMma (s : State) (p : PodId) (f : MeFields) : State :=
  let x := pod s p
  let d := meDesc (mdReg x f.md)
  let c := x.core.cycle
  let serial := nextSerial s p
  let op := serial.1
  let s := serial.2
  let prior := vget x.me (engineOf f)
  let e0 := mmaFigures s p op c f d (mmaResult s p f d prior)
  let e := { e0 with forming := e0.forming ++ [formingOf op f d] }
  let l := mmaPieces x f d
  let job : MmaJob := ⟨op, engineOf f, f, mdReg x f.md, (mmaA x f d, mmaB x f d, mmaSeed x f d), prior, l,
    l.flatMap (fun e => memRead s (podAddr p e.1) e.2), false⟩
  let last := c + seedShift x f d + huskShift x f d + operandCycles d - 1
  let s := checkPieces s p l
  modPod s p (fun y =>
    let y := { y with me := vput y.me (engineOf f) e, lines := y.lines ++ mmaLines x op f d c, mmas := y.mmas ++ [job] }
    let y := (rangeA x f d :: (if isColFmt d.fmtA then [] else [rangeB x f d]) ++ rangeScales f d).foldl
      (fun z l => addRange z op 0 false (spanOf l) (some last) []) y
    if f.start = 2 then addRange y op 0 false (spanOf (rangeSeed x f d)) (some (c + seedShift x f d)) [] else y)

/-! ## ME.DRAIN -/

/-- The code of a drain target (R140). -/
def targetFmt (t : Nat) : Nat := if t = 0 then 0xA else if t = 1 then 8 else if t = 2 then 0 else 1

/-- An accumulator's content as a drain sees it. -/
structure DrainVal where
  nan : Bool
  pinf : Bool
  ninf : Bool
  range : Bool
  kOver : Bool
  neg : Bool
  mag : Nat
  exp : Int
  deriving DecidableEq, Repr

/-- A cell accumulator with its base exponent (R51). -/
def drainCell (a : Acc) (base : Int) : DrainVal :=
  let v := signed 96 a.val.toNat
  ⟨a.nan, a.pinf, a.ninf, a.range, a.kOver, decide (v < 0), v.natAbs, base - 32⟩

/-- A column accumulator (R55). -/
def drainCol (a : Col) : DrainVal :=
  let v := signed 640 a.val.toNat
  ⟨a.nan, a.pinf, a.ninf, a.range, a.kOver, decide (v < 0), v.natAbs, -266⟩

/-- The final rounding to a floating-point target (R59). -/
def drainFloat (t : Nat) (sat : Bool) (mode : RMode) (v : DrainVal) : Nat :=
  let c := targetFmt t
  let fp8 := decide (2 ≤ t)
  if v.nan || (v.pinf && v.ninf) || v.range then fmtNan c
  else if v.pinf || v.ninf then
    if fp8 && sat then fmtLargest c v.ninf else if t = 2 then fmtNan c else fmtInf c v.ninf
  else if v.kOver then fmtLargest c v.neg
  else if v.mag = 0 then fmtSign c (decide (mode = .rdn))
  else
    let r := (roundMag c mode v.neg v.mag v.exp).1
    if fmtMax c < r then
      if fp8 && sat then fmtLargest c v.neg
      else if t = 2 then fmtNan c
      else if overflowsToInf mode v.neg then fmtInf c v.neg else fmtLargest c v.neg
    else fmtSign c v.neg + r

/-- The conversion of one accumulator to an XPS element with the block flags it sets (R62). With a shift outside [-96, 700] R62 does not say whether
an element whose accumulator has a special flag set also sets the block's SCALE_RANGE for the shift: the flag is judged first, and the element
does not (DESIGN CHOICE, log 65). -/
def drainXps (scale : Int) (mode : RMode) (v : DrainVal) : ElemF :=
  let f := orF (if v.nan then xInvalid else 0) (orF (if v.pinf then xPosInf else 0) (orF (if v.ninf then xNegInf else 0)
    (orF (if v.kOver then xKOver else 0) (if v.range then xScaleRange else 0))))
  let sh := scale - v.exp
  if v.nan || v.pinf || v.ninf || v.range then (0, f)
  else if v.kOver then (if v.neg then -xpsMax else xpsMax, f)
  else if sh < -96 ∨ 700 < sh then (0, orF f xScaleRange)
  else
    let r := toXps mode scale v.neg v.mag v.exp
    (r.1, orF f r.2)

/-- The value drained at row `r`, column `j` of an operation's tile. R54 does not say which exponent an accumulator has that holds no stored E_BASE:
the drain's own (DESIGN CHOICE, log 60). -/
def drainAt (f : MeFields) (d : MeDesc) (e : Engine) (r j : Nat) : DrainVal :=
  let q := quadOf f
  if isColFmt d.fmtA then drainCol (colOf e f.acc.toNat j)
  else
    let r0 := if q < 4 then quadRows q else 0
    let c0 := if q < 4 then quadCols q else 0
    let qq := if q < 4 then q else (r / 32) * 2 + j / 32
    drainCell (cellOf e f.acc.toNat (r0 + r) (c0 + j)) ((vget e.bases (baseIx f.acc.toNat qq)).getD d.eBase)

/-- The rounding mode of a drain (R58). -/
def drainMode (s : State) (p : PodId) (d : MeDesc) : RMode :=
  if d.mode / 4 % 2 = 1 then rmodeOf (getF (pReg s p 0x400) 0 2) else rmodeOf (d.mode % 4)

/-- The XPS blocks of a row: two for 64 values, one for 32 (R62). -/
def drainBlocks (f : MeFields) (d : MeDesc) (mode : RMode) (e : Engine) (r : Nat) : List Xps :=
  let el := fun j => drainXps d.scale mode (drainAt f d e r j)
  if quadOf f < 4 then [xpsBlock d.scale 32 ((upTo 32).map el)]
  else [xpsBlock d.scale 36 ((upTo 36).map el), xpsBlock d.scale 28 ((upTo 28).map (fun j => el (36 + j)))]

/-- The bits that drained accumulators set in POD_ME_FLAGS for engine `m` (R72). -/
def valFlags (m : Nat) (l : List DrainVal) : Nat :=
  (if l.any (·.nan) then 2 ^ m else 0) + (if l.any (fun v => v.pinf || v.ninf) then 2 ^ (4 + m) else 0)
    + (if l.any (·.kOver) then 2 ^ (8 + m) else 0) + (if l.any (·.range) then 2 ^ (12 + m) else 0)

/-- The bits that a drained block sets (R72). -/
def blockFlags (m : Nat) (b : Xps) : Nat :=
  (if hasF b.flags xOverflow then 2 ^ (16 + m) else 0) + (if hasF b.flags xInexact then 2 ^ (20 + m) else 0)

/-- What a drain writes, in slot order: store offset, bytes, and the POD_ME_FLAGS bits that the write sets. -/
def drainRows (s : State) (p : PodId) (f : MeFields) (d : MeDesc) (e : Engine) : List (Nat × List Byte × Nat) :=
  let x := pod s p
  let mode := drainMode s p d
  let sat := getB (pReg s p 0x400) 2
  let dst := d.dst + sNum x f.dreg
  let bytes := if d.target = 0 then 4 else if d.target = 1 then 2 else 1
  let m := f.engine.toNat
  (upTo (opRows f d)).flatMap (fun r =>
    let v := (upTo (quadSize (quadOf f))).map (drainAt f d e r)
    if d.target = 4 then
      (List.zip (upTo 2) (drainBlocks f d mode e r)).map (fun b =>
        (dst + r * d.dstStride + 256 * b.1, xpsBytes b.2, valFlags m ((v.drop (36 * b.1)).take b.2.count) + blockFlags m b.2))
    else [(dst + r * d.dstStride, v.flatMap (fun y => leBytes bytes (drainFloat d.target sat mode y)), valFlags m v)])

/-- A drained accumulator and its residue disagree (R73). -/
def residueFails (f : MeFields) (d : MeDesc) (e : Engine) : Bool :=
  let q := quadOf f
  let a := f.acc.toNat
  if isColFmt d.fmtA then (upTo 64).any (fun j => decide ((colOf e a j).val.toNat % 3 ≠ (colOf e a j).res))
  else
    let cell := fun i j => cellOf e a ((if q < 4 then quadRows q else 0) + i) ((if q < 4 then quadCols q else 0) + j)
    (upTo (quadSize q)).any (fun i => (upTo (quadSize q)).any (fun j => decide ((cell i j).val.toNat % 3 ≠ (cell i j).res)))

/-- ME.DRAIN issues: the accumulators are taken; each row is rounded in its slot, sets its flags when it is written, and becomes visible after
its own grant (R145, R168, R72). A failed residue check still writes the result, then faults the machine (R73). -/
def issueDrain (s : State) (p : PodId) (f : MeFields) : State :=
  let x := pod s p
  let d := meDesc (mdReg x f.md)
  let c := x.core.cycle
  let q := quadOf f
  let e := vget x.me (engineOf f)
  let col := isColFmt d.fmtA
  let serial := nextSerial s p
  let op := serial.1
  let s := serial.2
  let rows := drainRows s p f d e
  let pieces := rows.map (fun r => (r.1, r.2.1))
  let lat := if col then latColDrain s p 7 6 else latMeDrain s p 6 5
  let lastSlot := c + pieces.length - 1
  let vis := if isHusk (d.dst + sNum x f.dreg) then 8 else 3
  let e' := { e with
    accFree := setAccs e.accFree (accIxs col f.acc.toNat q) ⟨op, lastSlot + lat⟩
    drains := e.drains ++ [⟨op, q, fin 2 (by decide) f.acc.toNat, c, lat, pieces.map (fun w => (w.1, w.2.length))⟩]
    drainOps := e.drainOps.filter (fun o => x.ranges.any (fun r => r.op = o.1)) ++ [(op, decide (q < 4))]
    results := e.results ++ rows.map (fun r => (op, r.1, r.2.2)) }
  let writes := pieces.map (fun w => (podAddr p w.1, w.2))
  let s := forEach writes s (fun t w => digestWrite t p 0 w.1 w.2)
  let s := modPod s p (fun y => addRange { y with me := vput y.me (engineOf f) e' } op 0 true
    (spanOf (pieces.map (fun w => (w.1, w.2.length)))) (some (lastSlot + lat + 1 + vis)) writes)
  if residueFails f d e then
    raisePodErr s 1 rErrResidue p f.engine.toNat true
  else s

/-! ## ME.BLOAD -/

/-- The bytes a B buffer takes: 64 columns of K elements (R142). -/
def bloadData (s : State) (p : PodId) (f : MeFields) (d : MeDesc) : List Byte :=
  (upTo 64).flatMap (fun j => memRead s (podAddr p (mmaB (pod s p) f d + j * d.bStride)) (d.k * colBytes d.fmtB))

/-- Cycle in which an ME.BLOAD completes, counted from issue (R146). -/
def bloadCycles (husk : Bool) (bytes : Nat) : Nat :=
  if husk then 8 + ceilDiv bytes 128 - 1 else 3 + ceilDiv bytes 256 - 1

/-- Drop repeats. -/
def nub : List Nat → List Nat
  | [] => []
  | a :: l => if l.contains a then nub l else a :: nub l

/-- The store lines of [a, a + n): 128 bytes in near store, 64 in Husk store. -/
def lineAddrs (a n : Nat) : List Nat :=
  let w := if isHusk a then 64 else 128
  (upTo (ceilDiv (a % w + n) w)).map (fun i => a / w * w + i * w)

/-- Two by two. -/
def pairUp : List Nat → List (List Nat)
  | a :: b :: l => [a, b] :: pairUp l
  | [a] => [[a]]
  | [] => []

/-- The lines an ME.BLOAD presents from cycle `c`: those of its 64 columns in address order, two in a cycle (R172). -/
def bloadLines (op : Nat) (f : MeFields) (b stride colLen c : Nat) : List LineStream :=
  let steps := pairUp (nub ((upTo 64).flatMap (fun j => lineAddrs (b + j * stride) colLen)))
  (List.zip (upTo steps.length) steps).map (fun e =>
    { meLines op f 6 false (e.2.headD b) 0 0 (c + e.1) 1 1 with refused := e.2 })

/-- ME.BLOAD issues. -/
def issueBload (s : State) (p : PodId) (f : MeFields) : State :=
  let x := pod s p
  let d := meDesc (mdReg x f.md)
  let c := x.core.cycle
  let b := mmaB x f d
  let colLen := d.k * colBytes d.fmtB
  let done_ := c + bloadCycles (isHusk b) (64 * colLen)
  let serial := nextSerial s p
  let op := serial.1
  let s := serial.2
  let buf : BBuf := ⟨BitVec.ofNat 4 d.fmtB, d.k, bloadData s p f d, ⟨op, done_⟩,
    (vget (vget x.me (engineOf f)).bufs (fin 2 (by decide) f.buf.toNat)).used⟩
  let s := checkPieces s p (strided b d.bStride 64 colLen)
  modPod s p (fun y =>
    let y := { y with
      me := vmod y.me (engineOf f) (fun e => { e with bufs := vput e.bufs (fin 2 (by decide) f.buf.toNat) buf })
      lines := y.lines ++ bloadLines op f b d.bStride colLen c
      reads := y.reads ++ [⟨op, .bbuf (engineOf f) (fin 2 (by decide) f.buf.toNat), (upTo 64).map (fun j => (b + j * d.bStride, colLen))⟩] }
    addRange y op 0 false (spanOf (rangeBload x f d)) (some done_) [])

/-! ## Interlocks (R71, R146, R147) -/

/-- An operation or a drain of the other kind is unfinished: products in the pipeline, rows not all visible (R147). -/
def otherKindBusy (x : Pod) (e : Engine) (quad : Bool) (c : Nat) : Bool :=
  e.mmaOps.any (fun o => o.2 != quad && e.contReady.toList.any (fun d => decide (d.op = o.1) && decide (c < d.cyc)))
    || e.drainOps.any (fun o => o.2 != quad && x.ranges.any (fun r => r.op = o.1))

/-- The engine counts as active in cycle `c` (R147). -/
def engineActive (e : Engine) (c : Nat) : Bool := e.activeUntil.toList.any (fun d => decide (c < d.cyc))

/-- The Pod's share of POWER_ENVELOPE (R371): no limit while no weave is active. -/
def envelopeShare (s : State) (p : PodId) : Nat :=
  match s.active with
  | none => 4
  | some w => min 4 (w.envelope / 64 + (if p.val < w.envelope % 64 then 1 else 0))

/-- The stall causes an ME operation meets in cycle `c`. -/
def meStalls (s : State) (p : PodId) (c : Nat) (code : Nat) (f : MeFields) : List Nat :=
  let x := pod s p
  let d := meDesc (mdReg x f.md)
  let e := vget x.me (engineOf f)
  let q := quadOf f
  let buf := vget e.bufs (fin 2 (by decide) f.buf.toNat)
  let late := fun (v : Vector Due 10) =>
    (accIxs (isColFmt d.fmtA) f.acc.toNat q).any (fun i => decide (c < (vget v i).cyc))
  if code = 3 then trapIf (decide (c < buf.used.cyc)) 0x0B
  else if code = 2 then trapIf (late e.drainReady) 0x0A
  else
    trapIf ((quadsOf q).any (fun i => decide (c < (vget e.nextMma (fin 4 (by decide) i)).cyc))
        || otherKindBusy x e (decide (q < 4)) c) 0x09
      ++ trapIf (late e.contReady || late e.accFree) 0x0A
      ++ trapIf (isColFmt d.fmtA && decide (c < buf.ready.cyc)) 0x0B
      ++ trapIf (!engineActive e c
          && decide (envelopeShare s p ≤ ((List.finRange 4).filter (fun i => engineActive (vget x.me i) c)).length)) 0x0C

end Sys2Proof.Machine
end

