-- ==== Sys2Proof/Machine/Flags.lean ====
section
/-! DEFINITION. The flags of the Vector Unit, POD_VU_FLAGS (R129): when a floating-point result sets OVERFLOW or INVALID, and
how an operation's flags are recorded. -/

namespace Sys2Proof.Machine

/-- The flags of a floating-point result: OVERFLOW where it overflowed, INVALID where it is a NaN and no input is one. -/
def floatFlags (inputs : List Fp) (exact : Fp) (r : FpRes) : VFlags :=
  (if r.ovf then 1 else 0) + (if fpIsNan exact && !inputs.any fpIsNan then 16 else 0)

/-- A finished floating-point result with its flags. -/
def floatResult (c : Nat) (mode : RMode) (inputs : List Fp) (exact : Fp) : Flagged :=
  let r := fpFinish c mode exact
  (r.code, floatFlags inputs exact r)

/-- The union of flags. -/
def unionFlags (l : List VFlags) : VFlags := l.foldl Nat.lor 0

/-- Record flags in POD_VU_FLAGS. -/
def setVuFlags (s : State) (p : PodId) (f : VFlags) : State := orReg s (rPod p 0x604) f

end Sys2Proof.Machine
end

