-- ==== Sys2Proof/Machine/Transcendental.lean ====
section
/-! DEFINITION. VU.TRANS (R112, R316 to R318): the functions by 320-bit fixed point, whose result is rounded once, and the AP1
reference algorithms. -/

namespace Sys2Proof.Machine

/-! ## Fixed point -/

/-- Fraction bits of the fixed point. -/
def fxP : Nat := 320
/-- One. -/
def fxOne : Nat := 2 ^ fxP

/-- Sum of x^k / k! from the term `t` of index `k`. -/
def fxExpSum : Nat → Nat → Nat → Nat → Nat
  | 0, _, _, _ => 0
  | fuel + 1, x, k, t => t + fxExpSum fuel x (k + 1) (t * x / fxOne / (k + 1))

/-- e^x for 0 ≤ x < 1. -/
def fxExp (x : Nat) : Nat := fxExpSum 90 x 0 fxOne

/-- Sum of t^(2j+1) / (2j+1), `t` the running power. -/
def fxAtanhSum : Nat → Nat → Nat → Nat → Nat
  | 0, _, _, _ => 0
  | fuel + 1, sq, j, t => t / (2 * j + 1) + fxAtanhSum fuel sq (j + 1) (t * sq / fxOne)

/-- The natural logarithm of num / den, 1 ≤ num / den ≤ 2. -/
def fxLn (num den : Nat) : Nat :=
  let t := (num - den) * fxOne / (num + den)
  2 * fxAtanhSum 110 (t * t / fxOne) 0 t

/-- ln 2. -/
def fxLn2 : Nat := fxLn 2 1

/-- floor(v × 2^sh). -/
def floorShift (v : Int) (sh : Int) : Int :=
  if 0 ≤ sh then v * (2 : Int) ^ sh.toNat else v / (2 : Int) ^ (-sh).toNat

/-- A fixed-point number rounded to 62 fraction bits, nearest. -/
def fxTo62 (x : Nat) : Nat := (x + 2 ^ (fxP - 63)) / 2 ^ (fxP - 62)

/-- The integer square root by bits, from bit `i` down. -/
def isqrt : Nat → Nat → Nat → Nat
  | 0, _, r => r
  | i + 1, n, r => if (r + 2 ^ i) * (r + 2 ^ i) ≤ n then isqrt i n (r + 2 ^ i) else isqrt i n r

/-- A positive value whose bits below 2^e are not all known: twice the known integer plus one. -/
def fpApprox (neg : Bool) (m : Nat) (e : Int) : Fp := .fin neg (2 * m + 1) (e - 1)

/-! ## Exponentials, correctly rounded -/

/-- e^r × 2^n. -/
def expScaled (n : Int) (r : Nat) : Fp := fpApprox false (fxExp r) (n - fxP)

/-- A positive value below every half subnormal. -/
def fpTiny : Fp := .fin false 1 (-400)
/-- A value beyond every format. -/
def fpHuge : Fp := .fin false 1 400

/-- 2^x of a finite x. -/
def exp2Of (neg : Bool) (m : Nat) (e : Int) : Fp :=
  let v : Int := if neg then -(m : Int) else m
  if 200 ≤ floorShift v e then fpHuge
  else if floorShift v e < -200 then fpTiny
  else
    let x := floorShift v (e + fxP)
    let n := x / (fxOne : Int)
    let f := (x % (fxOne : Int)).toNat
    if f = 0 then .fin false 1 n else expScaled n (f * fxLn2 / fxOne)

/-- e^x of a finite x. -/
def expOf (neg : Bool) (m : Nat) (e : Int) : Fp :=
  let v : Int := if neg then -(m : Int) else m
  if m = 0 then .fin false 1 0
  else if 150 ≤ floorShift v e then fpHuge
  else if floorShift v e < -150 then fpTiny
  else
    let x := floorShift v (e + fxP)
    let n := x / (fxLn2 : Int)
    expScaled n (x - n * (fxLn2 : Int)).toNat

/-! ## Logarithms, correctly rounded -/

/-- A signed fixed-point number as a value, its last bit unknown; `exact` where it is known. -/
def fxFp (exact : Bool) (v : Int) : Fp :=
  if exact then fpOfInt v (-(fxP : Int)) else fpApprox (decide (v < 0)) v.natAbs (-(fxP : Int))

/-- log2 of m × 2^e, m > 0. -/
def log2Of (m : Nat) (e : Int) : Fp :=
  let k := Nat.log2 m
  let l := fxLn m (2 ^ k)
  fxFp (decide (m = 2 ^ k)) (((k : Int) + e) * (fxOne : Int) + (l * fxOne / fxLn2 : Nat))

/-- The natural logarithm of m × 2^e, m > 0. -/
def lnOf (m : Nat) (e : Int) : Fp :=
  let k := Nat.log2 m
  let l := fxLn m (2 ^ k)
  if m = 2 ^ k ∧ (k : Int) + e = 0 then .fin false 0 0
  else fxFp false (((k : Int) + e) * (fxLn2 : Int) + (l : Int))

/-! ## AP1 (R317, R318) -/

/-- mulq of R317. -/
def mulq (a b : Nat) : Nat := a * b / 2 ^ 62

/-- C_i of R317. -/
def ap1C (i : Nat) : Nat :=
  fxTo62 (if i = 1 then fxLn2 else if i = 2 then fxLn2 ^ 2 / fxOne / 2 else if i = 3 then fxLn2 ^ 3 / fxOne ^ 2 / 6
    else fxLn2 ^ 4 / fxOne ^ 3 / 24)

/-- T[j] of R317. -/
def ap1T (j : Nat) : Nat := fxTo62 (fxExp (j * fxLn2 / 64))

/-- The exponent factor k of R317. -/
def ap1K (isExp : Bool) : Nat := if isExp then fxTo62 (fxOne * fxOne / fxLn2) else 2 ^ 62

/-- EXP and EXP2 of a finite value in AP1 (R317). -/
def ap1Exp (isExp neg : Bool) (m : Nat) (e : Int) : Fp :=
  let v : Int := (if neg then -(m : Int) else m) * (ap1K isExp : Int)
  if 128 ≤ floorShift v (e - 62) then fpHuge
  else
    let lowZ : Int := -160 * 2 ^ 32
    let x := max lowZ (floorShift v (e - 30))
    let n := x / (2 ^ 32 : Int)
    let r := (x % (2 ^ 32 : Int)).toNat
    let j := r / 2 ^ 26
    let t := r % 2 ^ 26 * 2 ^ 30
    let y := mulq t (ap1C 4)
    let y := mulq t (ap1C 3 + y)
    let y := mulq t (ap1C 2 + y)
    let y := mulq t (ap1C 1 + y)
    .fin false (ap1T j + mulq (ap1T j) y) (n - 62)

/-- R[j] of R318, the nearest integer. -/
def ap1R (j : Nat) : Nat := (2 ^ 69 + (64 + j)) / (2 * (64 + j))
/-- G[j] of R318. -/
def ap1G (j : Nat) : Nat := fxTo62 (fxLn (64 + j) 64 * fxOne / fxLn2)
/-- A_i of R318. -/
def ap1A (i : Nat) : Nat := fxTo62 (fxOne * fxOne / fxLn2 / i)

/-- LOG and LOG2 of m × 2^e, m > 0, in AP1 (R318). -/
def ap1Log (isLn : Bool) (m : Nat) (e : Int) : Fp :=
  let lg := Nat.log2 m
  let u := m * 2 ^ (23 - lg)
  let j := u / 2 ^ 17 % 64
  let d := u * 2 ^ 39 - (64 + j) * 2 ^ 56
  let zz := mulq d (ap1R j)
  let w := ap1A 5
  let w := ap1A 4 - mulq zz w
  let w := ap1A 3 - mulq zz w
  let w := ap1A 2 - mulq zz w
  let w := ap1A 1 - mulq zz w
  let s : Int := ((lg : Int) + e) * 2 ^ 62 + (ap1G j : Int) + (mulq zz w : Int)
  let s := if isLn then s * (fxTo62 fxLn2 : Int) / 2 ^ 62 else s
  fpOfInt s (-62)

/-! ## Roots and reciprocals -/

/-- The square root of m × 2^e, m > 0: exact, or with its last bit unknown. -/
def sqrtOf (m : Nat) (e : Int) : Fp :=
  let odd := e % 2 ≠ 0
  let mm := (if odd then 2 * m else m) * 2 ^ 200
  let ee := (if odd then e - 1 else e) - 200
  let r := isqrt 128 mm 0
  if r * r = mm then .fin false r (ee / 2) else fpApprox false r (ee / 2)

/-- 1 / (m × 2^e), m > 0. -/
def rcpOf (neg : Bool) (m : Nat) (e : Int) : Fp :=
  let q := 2 ^ 300 / m
  if q * m = 2 ^ 300 then .fin neg q (-300 - e) else fpApprox neg q (-300 - e)

/-- 1 / sqrt(m × 2^e), m > 0. -/
def rsqrtOf (m : Nat) (e : Int) : Fp :=
  let odd := e % 2 ≠ 0
  let mm := if odd then 2 * m else m
  let ee := if odd then e - 1 else e
  let r := isqrt 201 (2 ^ 400 / mm) 0
  if r * r * mm = 2 ^ 400 then .fin false r (-200 - ee / 2) else fpApprox false r (-200 - ee / 2)

/-! ## Hyperbolic tangent and sigmoid -/

/-- e^-x for x = m × 2^e ≥ 0 below 150, as t × 2^-(320 + k) with t near 2^320. -/
def expNeg (m : Nat) (e : Int) : Nat × Nat :=
  let x := (floorShift (m : Int) (e + fxP)).toNat
  let k := x / fxLn2 + 1
  (fxExp (k * fxLn2 - x), k)

/-- tanh of a positive finite value. -/
def tanhOf (neg : Bool) (m : Nat) (e : Int) : Fp :=
  if 50 ≤ floorShift (m : Int) e then fpApprox neg (fxOne - 1) (-(fxP : Int))
  else
    let (t, k) := expNeg m (e + 1)
    let d := fxOne * 2 ^ k
    fpApprox neg ((d - t) * fxOne / (d + t)) (-(fxP : Int))

/-- The sigmoid of a finite value. -/
def sigmoidOf (neg : Bool) (m : Nat) (e : Int) : Fp :=
  if m = 0 then .fin false 1 (-1)
  else if 150 ≤ floorShift (m : Int) e then (if neg then fpTiny else fpApprox false (fxOne - 1) (-(fxP : Int)))
  else
    let (t, k) := expNeg m e
    let d := fxOne * 2 ^ k
    if neg then fpApprox false (t * d / (d + t)) (-((fxP + k : Nat) : Int))
    else fpApprox false (d * fxOne / (d + t)) (-(fxP : Int))

/-! ## Rounding with the freedom R112 leaves -/

/-- A faithful result: the exact value where it is representable, else one of its two neighbours (log 11). -/
def faithful (func c : Nat) (mode : RMode) (code rcode : Nat) : Fp → FpRes
  | .fin neg m e =>
    let r := roundMag c .rtz neg m e
    if fmtMax c < r.1 then fpFinish c mode (.fin neg m e)
    else if r.2 then
      let g := if Config.faithfulUp func (BitVec.ofNat 4 c) rcode (BitVec.ofNat 32 code) then r.1 + 1 else r.1
      ⟨fmtSign c neg + g, decide (fmtMax c < g), true⟩
    else ⟨fmtSign c neg + r.1, false, false⟩
  | x => fpFinish c mode x

/-- Whether the magnitude of code `g` of format `c` lies within 2 ulp of m × 2^e, an ulp being the unit of code `r`, the exact
value cut to the format (R112, log 11). -/
def withinTwo (c r g m : Nat) (e : Int) : Bool :=
  match fpDecode c r, fpDecode c g with
  | .fin _ _ u, .fin _ gm ge =>
    let low := min e (min u ge)
    let x := m * 2 ^ (e - low).toNat
    let y := gm * 2 ^ (ge - low).toNat
    decide ((x - y) + (y - x) ≤ 2 * 2 ^ (u - low).toNat)
  | _, _ => false

/-- A result within 2 ulp of the exact value: a code near the truncated one, taken where it is within the bound (log 11). -/
def nearTwo (func c : Nat) (code : Nat) : Fp → FpRes
  | .fin neg m e =>
    let r := (roundMag c .rtz neg m e).1
    let g := r + Config.withinTwoUlp func (BitVec.ofNat 4 c) (BitVec.ofNat 32 code) % 7 - 4
    ⟨fmtSign c neg + (if withinTwo c r g m e then g else r), false, true⟩
  | x => fpFinish c .rne x

/-- The exact function of a value, NaN where it has none. SUB: 0 EXP, 1 EXP2, 2 LOG, 3 LOG2, 4 RCP, 5 RSQRT, 6 SQRT, 7 TANH,
8 SIGMOID (R148). -/
def transExact (ap1 : Bool) (func : Nat) : Fp → Fp
  | .nan => .nan
  | .inf neg =>
    if func ≤ 1 then (if neg then .fin false 0 0 else .inf false)
    else if func = 4 then .fin neg 0 0
    else if func = 7 then .fin neg 1 0
    else if func = 8 then (if neg then .fin false 0 0 else .fin false 1 0)
    else if neg then .nan
    else if func = 5 then .fin false 0 0
    else .inf false
  | .fin neg m e =>
    if func ≤ 1 then
      (if ap1 then ap1Exp (decide (func = 0)) neg m e
       else if func = 0 then expOf neg m e else exp2Of neg m e)
    else if func = 7 then (if m = 0 then .fin neg 0 0 else tanhOf neg m e)
    else if func = 8 then sigmoidOf neg m e
    else if func = 4 then (if m = 0 then .inf neg else rcpOf neg m e)
    else if m = 0 then
      (if func = 6 then .fin neg 0 0 else if func = 5 then .inf neg else .inf true)
    else if neg then .nan
    else if func = 6 then sqrtOf m e
    else if func = 5 then rsqrtOf m e
    else if ap1 then ap1Log (decide (func = 2)) m e
    else if func = 2 then lnOf m e else log2Of m e

/-- VU.TRANS of one lane (R112). -/
def transLane (ap1 : Bool) (func c : Nat) (mode : RMode) (rcode code : Nat) : Flagged :=
  let x := fpDecode c code
  let y := transExact ap1 func x
  let isFin : Bool := match x with | .fin _ m _ => decide (m ≠ 0) || decide (func = 8) | _ => false
  let r :=
    if (func = 4 ∨ func = 5) ∧ isFin then faithful func c mode code rcode y
    else if (func = 7 ∨ func = 8) ∧ isFin then nearTwo func c code y
    else fpFinish c mode y
  (r.code, floatFlags [x] y r)

end Sys2Proof.Machine
end

