-- ==== Sys2Proof/Machine/Vector.lean ====
section
/-! DEFINITION. The Vector Unit (R103 to R118, R148 to R150): the value of every operation, lane by lane, and its flags. -/

namespace Sys2Proof.Machine

/-! ## Elementwise operations -/

/-- The rounding mode an operation of Pod `p` names: one of R58, DEFAULT, or SR with its draw. -/
def vuMode (s : State) (p : PodId) (f : VuFields) (draw : Nat) : RMode :=
  if f.rmode = 4 then rmodeOf (getF (pReg s p 0x600) 0 2)
  else if f.rmode = 5 then
    if f.src = 0 then
      let d := reg64 s (rPod p 0x608)
      let seed := match s.active with
        | some w => w.seeds.getD f.seed.toNat 0
        | none => 0
      .sr (ctrDraw seed (BitVec.ofNat 64 (stepCount s p)) (BitVec.ofNat 64 (d % 2 ^ 47 * 2 ^ 16 + draw)))
    else .sr (Config.entropyDraw s.fresh draw)
  else rmodeOf f.rmode.toNat

/-- Signed or unsigned value of an integer lane. -/
def intLane (c x : Nat) : Int := if c = 0xC then (x : Int) else signed (laneBits c) x

/-- An integer result; one outside the lane's format is a free value (DESIGN CHOICE, log 10). -/
def intResult (op c a b : Nat) (v : Int) : Nat :=
  let (lo, hi) := intRange c
  if lo ≤ v ∧ v ≤ hi then wrap (laneBits c) v
  else (Config.intOutOfRange op (BitVec.ofNat 4 c) (BitVec.ofNat 32 a) (BitVec.ofNat 32 b)).toNat % 2 ^ laneBits c

/-- ADD, SUB, MUL, MIN, MAX, ABS and NEG of one lane (R105, R106): operation code, format, mode, operands. -/
def vuArith (op c : Nat) (mode : RMode) (a b : Nat) : Flagged :=
  if fmtIsInt c then
    let x := intLane c a
    let y := intLane c b
    let v := if op = 1 then x + y else if op = 2 then x - y else if op = 3 then x * y else if op = 4 then min x y
      else if op = 5 then max x y else if op = 6 then (x.natAbs : Int) else -x
    (intResult op c a b v, 0)
  else
    let x := fpDecode c a
    let y := fpDecode c b
    if op = 1 then floatResult c mode [x, y] (fpAdd mode x y)
    else if op = 2 then floatResult c mode [x, y] (fpAdd mode x (fpNeg y))
    else if op = 3 then floatResult c mode [x, y] (fpMul x y)
    else if op = 4 then ((fpFinish c .rne (fpMin x y)).code, 0)
    else if op = 5 then ((fpFinish c .rne (fpMax x y)).code, 0)
    else if op = 6 then ((fpFinish c .rne (fpAbs x)).code, 0)
    else ((fpFinish c .rne (fpNeg x)).code, 0)

/-- AND, OR, XOR, SHL and SHR of one lane (R148). -/
def vuBits (op c a b : Nat) : Nat :=
  let w := laneBits c
  if op = 0xA then Nat.land a b
  else if op = 0xB then Nat.lor a b
  else if op = 0xC then Nat.xor a b
  else if op = 0xD then a * 2 ^ (b % w) % 2 ^ w
  else if c = 0xB ∨ c = 0xD then wrap w (signed w a / (2 : Int) ^ (b % w))
  else a / 2 ^ (b % w)

/-- CMP of one lane (R148, R106). -/
def vuCompare (kind c a b : Nat) : Bool :=
  if fmtIsInt c then
    let x := intLane c a
    let y := intLane c b
    if kind = 0 then decide (x = y) else if kind = 1 then decide (x ≠ y) else if kind = 2 then decide (x < y)
    else if kind = 3 then decide (x ≤ y) else if kind = 4 then decide (y < x) else if kind = 5 then decide (y ≤ x)
    else decide (kind = 7)
  else
    let x := fpDecode c a
    let y := fpDecode c b
    if fpIsNan x || fpIsNan y then decide (kind = 6)
    else if kind = 0 then fpEq x y else if kind = 1 then !fpEq x y else if kind = 2 then fpLt x y
    else if kind = 3 then fpLt x y || fpEq x y else if kind = 4 then fpLt y x else if kind = 5 then fpLt y x || fpEq x y
    else decide (kind = 7)

/-- Lanes of two registers, pairwise. -/
def pairLanes (w : Nat) (a b : BitVec 8192) : List (Nat × Nat) := List.zip (lanes w a) (lanes w b)

/-- Take the flags of the lanes whose mask bit is 1. -/
def maskedFlags (mask : BitVec 512) (l : List Flagged) : VFlags :=
  unionFlags ((List.zip l (upTo l.length)).map (fun x => if mask.getLsbD x.2 then x.1.2 else 0))

/-- A register whose active lanes take new values and flags. -/
def laneResult (w : Nat) (mask : BitVec 512) (old : BitVec 8192) (new : List Flagged) : Nat × VFlags :=
  (joinLanes w (mergeLanes mask (lanes w old) (new.map (·.1))), maskedFlags mask new)

/-! ## XPS, MX and format conversions -/

/-- XPS block `b` of a register (R149). -/
def regBlock (v : BitVec 8192) (b : Nat) : Xps := xpsOfBytes (leBytes 256 (getF v (2048 * b) 2048))

/-- A register of four blocks. -/
def joinBlocks (l : List Xps) : Nat := leNat (l.flatMap xpsBytes)

/-- The 32-bit lanes of a number. -/
def lanes32 (x : Nat) : List Nat := lanes 32 (BitVec.ofNat 8192 x)

/-- A 32-bit lane result under a mask, without flags of its own. -/
def masked32 (mask : BitVec 512) (old : BitVec 8192) (new : Nat) : Nat :=
  joinLanes 32 (mergeLanes mask (lanes 32 old) (lanes32 new))

/-- COUNT of the blocks XCVTI writes: a block that the device writes has a COUNT of 1 to 36 (R61). Which it has where S[SREG] names another is a
free value. -/
def xcvtiCount (n : Nat) : Nat := if 1 ≤ n ∧ n ≤ 36 then n else 1 + Config.countOutOfRange n % 36

/-- The four blocks of XCVTI (R61, R114, R149). SCALE is S[SREG][15:0] as it stands (R149), also where it lies outside the
-1,024 to +1,023 of R60, for which no rule names a check or another value: the model's choice (log 53). -/
def xcvtiBlocks (mode : RMode) (v : BitVec 8192) (scalar : Word64) : List Xps :=
  let scale := signed 16 (getF scalar 0 16)
  let count := xcvtiCount (getF scalar 16 8)
  (upTo 4).map (fun b =>
    xpsBlock scale count ((upTo 36).map (fun i => xcvtIn mode scale (fpDecode 0xA (getF v (32 * (36 * b + i)) 32)))))

/-- The 144 lanes of XCVTO with their flags (R64, R148). -/
def xcvtoLanes (mode : RMode) (v : BitVec 8192) : List Flagged :=
  (upTo 4).flatMap (fun b => let x := regBlock v b; (upTo 36).map (fun i => xcvtOut32 mode x i))

/-- emax of an MX element format (R115). -/
def mxEmax (c : Nat) : Int :=
  if c = 0 then 8 else if c = 1 then 15 else if c = 2 then 4 else if c = 3 then 2 else if c = 4 then 2 else 0

/-- floor(log2) of a finite non-zero magnitude. -/
def floorLog2 : Fp → Int
  | .fin _ m e => (Nat.log2 m : Int) + e
  | _ => 0

/-- A value divided by 2^x. -/
def scaleFp (x : Int) : Fp → Fp
  | .fin neg m e => .fin neg m (e - x)
  | y => y

/-- One MX block: elements, scale code and flags (R115). -/
def mxBlock (c : Nat) (mode : Nat → RMode) (base : Nat) (xs : List Fp) : List Nat × Nat × VFlags :=
  let zero := xs.map (fun _ => 0)
  if xs.any (fun x => match x with | .fin _ _ _ => false | _ => true) then (zero, 0xFF, 0)
  else if xs.all (fun x => match x with | .fin _ m _ => decide (m = 0) | _ => false) then (zero, 0x7F, 0)
  else
    let top := (xs.filter (fun x => match x with | .fin _ m _ => decide (m ≠ 0) | _ => false)).map floorLog2
    let x := max (-127) (min 127 (top.foldl max (top.headD 0) - mxEmax c))
    let r := (List.zip xs (upTo xs.length)).map (fun e => fpConvert c true (mode (base + e.2)) (scaleFp x e.1))
    (r.map (·.1), (x + 127).toNat, unionFlags (r.map (·.2)))

/-- The register VU.MXQ writes: packed elements from byte 0, scale codes in bytes 256 to 263, all else zero (R149). -/
def mxqValue (c : Nat) (mode : Nat → RMode) (v : BitVec 8192) : Nat × VFlags :=
  let blocks := (upTo 8).map (fun b =>
    mxBlock c mode (32 * b) ((upTo 32).map (fun i => fpDecode 0xA (getF v (32 * (32 * b + i)) 32))))
  let w := fmtBits c
  (joinLanes w (blocks.flatMap (·.1)) + joinLanes 8 (blocks.map (fun b => b.2.1)) * 2 ^ 2048,
    unionFlags (blocks.map (fun b => b.2.2)))

/-- A 32-bit format. -/
def is32 (c : Nat) : Bool := c = 0xA || c = 0xB || c = 0xC

/-- Elements of a VU.CVT (R150). -/
def cvtCount (c d : Nat) : Nat := if is32 c || is32 d then 256 else 512

/-- Bit position of element `i` of format `c` in its register (R150). -/
def cvtPos (c n half i : Nat) : Nat :=
  if is32 c then 32 * i
  else if fmtBits c = 16 then (if n = 512 then 16 * i else 16 * (256 * half + i))
  else fmtBits c * i

/-- The register VU.CVT writes (R150, R106, R470). The lane of a stochastic draw (R117) is the element's index i, also where the result stands in
16-bit lane 256 + i (DESIGN CHOICE, log 59). -/
def cvtValue (c d half : Nat) (sat : Bool) (mode : Nat → RMode) (mask : BitVec 512) (v old : BitVec 8192) :
    BitVec 8192 × VFlags :=
  let n := cvtCount c d
  (upTo n).foldl (fun acc i =>
    if mask.getLsbD i then
      let r := fpConvert d sat (mode i) (fpDecode c (getF v (cvtPos c n half i) (fmtBits c)))
      (setF acc.1 (cvtPos d n half i) (fmtBits d) r.1, Nat.lor acc.2 r.2)
    else acc) (old, 0)

/-! ## Reductions (R107) -/

/-- A source lane in the accumulator's 32-bit form. -/
def widen (c x : Nat) : Nat :=
  if c = 0xD then wrap 32 (signed 16 x)
  else if fmtIsInt c then x
  else (fpFinish 0xA .rne (fpDecode c x)).code

/-- The 32-bit kind of a source format. -/
def redKind (c : Nat) : Nat := if c = 0xC then 0xC else if c = 0xB ∨ c = 0xD then 0xB else 0xA

/-- The identity of a reduction (R148): operation code 0x18 RSUM, 0x19 RMAX, 0x1A RMIN. -/
def redIdentity (op k : Nat) : Nat :=
  if op = 0x18 then 0
  else if op = 0x19 then (if k = 0xA then 0xFF800000 else if k = 0xB then 0x80000000 else 0)
  else (if k = 0xA then 0x7F800000 else if k = 0xB then 0x7FFFFFFF else 0xFFFFFFFF)

/-- Combine two 32-bit values of a reduction. -/
def redOp (op k a b : Nat) : Flagged :=
  if k = 0xA then
    let x := fpDecode 0xA a
    let y := fpDecode 0xA b
    if op = 0x18 then floatResult 0xA .rne [x, y] (fpAdd .rne x y)
    else ((fpFinish 0xA .rne (if op = 0x19 then fpMax x y else fpMin x y)).code, 0)
  else
    let x := intLane k a
    let y := intLane k b
    (wrap 32 (if op = 0x18 then x + y else if op = 0x19 then max x y else min x y), 0)

/-- Neighbouring pairs combined: one level of the fixed tree. -/
def redLevel (op k : Nat) : List Nat → List Nat × VFlags
  | a :: b :: t =>
    let r := redOp op k a b
    let rest := redLevel op k t
    (r.1 :: rest.1, Nat.lor r.2 rest.2)
  | l => (l, 0)

/-- The fixed pairwise tree: `fuel` levels. -/
def redTree (op k : Nat) : Nat → List Nat → Nat × VFlags
  | 0, l => (l.headD 0, 0)
  | fuel + 1, l =>
    let r := redLevel op k l
    let t := redTree op k fuel r.1
    (t.1, Nat.lor r.2 t.2)

/-- The lanes of a reduction with masked-off lanes as the identity. -/
def redLanes (op c : Nat) (mask : BitVec 512) (v : BitVec 8192) : List Nat :=
  let w := laneBits c
  (List.zip (lanes w v) (upTo (8192 / w))).map (fun x =>
    if mask.getLsbD x.2 then widen c x.1 else redIdentity op (redKind c))

/-- A NaN of the source among the active lanes: the lowest such lane. -/
def firstNan (c : Nat) (mask : BitVec 512) (v : BitVec 8192) : Option Nat :=
  if fmtIsInt c then none
  else ((List.zip (lanes (laneBits c) v) (upTo (8192 / laneBits c))).find?
    (fun x => mask.getLsbD x.2 && fpIsNan (fpDecode c x.1))).map (·.2)

/-- RSUM, RMAX or RMIN into an accumulator (R107). -/
def reduceInto (op c : Nat) (zero : Bool) (mask : BitVec 512) (v : BitVec 8192) (a : ScalarAcc) : ScalarAcc × VFlags :=
  let k := redKind c
  let t := redTree op k (if laneBits c = 32 then 8 else 9) (redLanes op c mask v)
  let r := if zero then (t.1, 0) else redOp op k a.val.toNat t.1
  ({ val := BitVec.ofNat 32 r.1, idx := 0, runs := if zero then 0 else a.runs,
     sawNan := (!zero && a.sawNan) || (firstNan c mask v).isSome, started := true }, Nat.lor t.2 r.2)

/-- The order of RARGMAX: strictly larger. -/
def argLess (k a b : Nat) : Bool :=
  if k = 0xA then fpBelow (fpDecode 0xA a) (fpDecode 0xA b) else decide (intLane k a < intLane k b)

/-- RARGMAX into an accumulator (R107): a CONTINUE starts from what the accumulator holds, which is no element where every lane
since its ZERO was masked off. -/
def argmaxInto (c : Nat) (zero : Bool) (mask : BitVec 512) (v : BitVec 8192) (a : ScalarAcc) : ScalarAcc :=
  let k := redKind c
  let n := 8192 / laneBits c
  let a := if zero then { ScalarAcc.zero with started := false } else a
  let base := a.runs * n
  let a' := { a with runs := a.runs + 1 }
  if a.sawNan then a'
  else match firstNan c mask v with
    | some i => { a' with val := BitVec.ofNat 32 (fmtNan 0xA), idx := BitVec.ofNat 32 (base + i), sawNan := true, started := true }
    | none =>
      let l := (List.zip (lanes (laneBits c) v) (upTo n)).filter (fun x => mask.getLsbD x.2)
      let b := l.foldl (fun (b : ScalarAcc) x =>
        let y := widen c x.1
        if !b.started || argLess k b.val.toNat y then
          { b with val := BitVec.ofNat 32 y, idx := BitVec.ofNat 32 (base + x.2), started := true }
        else b) a'
      if b.started then b
      else
        let e := Config.argmaxEmpty (BitVec.ofNat 4 c)
        { b with val := e.setWidth 32, idx := (e >>> 32).setWidth 32 }

/-! ## Sorting (R110) -/

/-- The total order of keys of format `c`: a number that rises with the key. -/
def keyRank (c x : Nat) : Int :=
  if c = 0xC then (x : Int)
  else if c = 0xB then signed 32 x
  else if x < 2 ^ 31 then (x : Int) else -(x - 2 ^ 31 : Int) - 1

/-- Key `a` may stand before key `b`. -/
def keyLe (c : Nat) (desc : Bool) (a b : Nat × Nat) : Bool :=
  if desc then decide (keyRank c b.1 ≤ keyRank c a.1) else decide (keyRank c a.1 ≤ keyRank c b.1)

/-- Keys and payloads of a register pair: a payload is the low half of its 32-bit lane (DEDUCED, log 12). -/
def keyPairs (keys pays : BitVec 8192) : List (Nat × Nat) :=
  List.zip (lanes 32 keys) ((lanes 32 pays).map (· % 2 ^ 16))

/-- The register pair of 256 keys and payloads. -/
def pairValues (l : List (Nat × Nat)) : Nat × Nat := (joinLanes 32 (l.map (·.1)), joinLanes 32 (l.map (·.2)))

/-- The list is sorted. -/
def isSorted (c : Nat) (desc : Bool) : List (Nat × Nat) → Bool
  | a :: b :: t => keyLe c desc a b && isSorted c desc (b :: t)
  | _ => true

/-- Merge two sorted lists, the first source first among equals. -/
def mergeKeys (c : Nat) (desc : Bool) : Nat → List (Nat × Nat) → List (Nat × Nat) → List (Nat × Nat)
  | 0, a, b => a ++ b
  | _ + 1, [], b => b
  | _ + 1, a, [] => a
  | fuel + 1, x :: a, y :: b =>
    if keyLe c desc x y then x :: mergeKeys c desc fuel a (y :: b) else y :: mergeKeys c desc fuel (x :: a) b

/-- The four registers of a MERGE (DESIGN CHOICE, log 12): keys and payloads of the lower 256, then of the upper 256. -/
def mergeValues (c : Nat) (desc : Bool) (a b : List (Nat × Nat)) : List Nat :=
  if isSorted c desc a && isSorted c desc b then
    let m := mergeKeys c desc 512 a b
    let lo := pairValues (m.take 256)
    let hi := pairValues (m.drop 256)
    [lo.1, lo.2, hi.1, hi.2]
  else (upTo 4).map (fun r => joinLanes 32 ((upTo 256).map (fun i => (Config.mergeUnsorted a b r i).toNat)))

end Sys2Proof.Machine
end

