-- ==== Sys2Proof/Machine/VectorUnit.lean ====
section
/-! DEFINITION. Vector Unit operations as they issue: traps (R149, R150, R471), results with their latencies (R109, R111,
R112, R148), interlocks, draw counts (R117) and the operation counter (R129). -/

namespace Sys2Proof.Machine

/-! ## Traps -/

/-- RMODE names DEFAULT or a mode of R58. -/
def plainMode (f : VuFields) : Bool := decide (f.rmode.toNat ≤ 4)

/-- RMODE is legal for a conversion whose target is narrow or 16-bit floating point (R116). -/
def convertMode (f : VuFields) (d : Nat) : Bool :=
  plainMode f || (f.rmode = 5 && (decide (d ≤ 9)))

/-- The formats FMA and TRANS accept. -/
def isFloatLane (c : Nat) : Bool := c = 8 || c = 9 || c = 0xA

/-- A breach of the operand rules (R116, R137, R149, R150, R471). -/
def vuBadOperand (x : Pod) (c : Nat) (f : VuFields) : Bool :=
  let m := f.fmt.toNat
  let d := f.fmt2.toNat
  if 1 ≤ c ∧ c ≤ 3 then !isLaneFmt m || !plainMode f
  else if (4 ≤ c ∧ c ≤ 9) ∨ (0xA ≤ c ∧ c ≤ 0xE) then !isLaneFmt m
  else if c = 0x10 then !isFloatLane m || !plainMode f
  else if c = 0x11 then decide (0xD < m) || decide (0xD < d) || !convertMode f d
    || (cvtCount m d = 512 && decide (f.sub ≠ 0))
  else if c = 0x13 ∨ c = 0x14 then !plainMode f
  else if c = 0x15 then !(decide (d ≤ 4) || d = 7) || !convertMode f d
  else if 0x18 ≤ c ∧ c ≤ 0x1B then !isLaneFmt m
  else if c = 0x20 then !is32 m || decide (f.vd.toNat % 2 ≠ 0)
  else if c = 0x21 then !is32 m || decide (f.vd.toNat % 4 ≠ 0) || decide (f.va.toNat % 2 ≠ 0) || decide (f.vb.toNat % 2 ≠ 0)
  else if c = 0x24 then !isFloatLane m || !plainMode f || decide (8 < f.sub.toNat)
  else if c = 0x28 then !isLaneFmt m
  else if c = 0x29 then !isLaneFmt m || decide (8192 / laneBits m ≤ sNum x f.sreg)
  else false

/-- The traps of a VU operation beside those every slot shares. -/
def vuTraps (s : State) (p : PodId) (c : Nat) (f : VuFields) : List Nat :=
  trapIf (vuBadOperand (pod s p) c f) tOperand
    ++ trapIf ((c = 0x11 || c = 0x15) && f.rmode = 5 && f.src = 1
        && getB (reg s (rErrEntropy + 4 * (p.val / 32))) (p.val % 32)) tEntropy

/-! ## Values -/

/-- AP1 governs EXP, EXP2, LOG and LOG2: an A1, or a B0 in compatibility mode (R113, R316). -/
def ap1Active (s : State) (p : PodId) : Bool := isA1 s || getB (pReg s p 0x600) 3

/-- The accumulator as the next reduction finds it: with the last result still on its way (R109). -/
def saNow (x : Pod) (i : Fin 4) : ScalarAcc :=
  let a := vget x.sa i
  match (x.pend.filter (fun w => w.dest = .sa i)).getLast? with
  | some w => { a with val := w.value.setWidth 32, idx := (w.value >>> 32).setWidth 32 }
  | none => a

/-- The index of the accumulator an operation names. -/
def saIx (f : VuFields) : Fin 4 := fin 4 (by decide) f.sa.toNat

/-- A vector register with its 32-bit lanes as numbers under a mask. -/
def vuLanes (x : Pod) (f : VuFields) (g : Nat → Nat → Flagged) : Nat × VFlags :=
  let w := laneBits f.fmt.toNat
  laneResult w (mReg x f.mask) (vReg x f.vd) ((pairLanes w (vReg x f.va) (vReg x f.vb)).map (fun e => g e.1 e.2))

/-- The mask register that VU.CMP writes (R148). -/
def cmpMask (x : Pod) (f : VuFields) : Nat :=
  let m := f.fmt.toNat
  let mask := mReg x f.mask
  let old := mReg x (f.vd.setWidth 3)
  let l := pairLanes (laneBits m) (vReg x f.va) (vReg x f.vb)
  joinLanes 1 ((List.zip l (upTo l.length)).map (fun e =>
    b2n (if mask.getLsbD e.2 then vuCompare f.sub.toNat m e.1.1 e.1.2 else old.getLsbD e.2)))

/-- The registers an operation writes, with their values, and the flags it sets; reductions apart. XCVTI and XCVTO set the flags
of their blocks whatever the mask, on which the rules are silent: the model's choice (log 53). -/
def vuValue (s : State) (p : PodId) (c : Nat) (f : VuFields) : List (Dest × Nat) × VFlags :=
  let x := pod s p
  let m := f.fmt.toNat
  let d := f.fmt2.toNat
  let mode := vuMode s p f 0
  let mask := mReg x f.mask
  let old := vReg x f.vd
  let one := fun (r : Nat × VFlags) => ([(destV f.vd, r.1)], r.2)
  if 1 ≤ c ∧ c ≤ 7 then one (vuLanes x f (fun a b => vuArith c m mode a b))
  else if c = 8 then ([(.m (fin 8 (by decide) f.vd.toNat), cmpMask x f)], 0)
  else if c = 9 then
    let l := pairLanes (laneBits m) (vReg x f.va) (vReg x f.vb)
    ([(destV f.vd, joinLanes (laneBits m) ((List.zip l (upTo l.length)).map (fun e =>
      if mask.getLsbD e.2 then e.1.1 else e.1.2)))], 0)
  else if 0xA ≤ c ∧ c ≤ 0xE then one (vuLanes x f (fun a b => (vuBits c m a b, 0)))
  else if c = 0x10 then
    let w := laneBits m
    let l := List.zip (pairLanes w (vReg x f.va) (vReg x f.vb)) (lanes w (vReg x f.vc))
    one (laneResult w mask old (l.map (fun e =>
      let a := fpDecode m e.1.1
      let b := fpDecode m e.1.2
      let cc := fpDecode m e.2
      floatResult m mode [a, b, cc] (fpAdd mode (fpMul a b) cc))))
  else if c = 0x11 then
    let r := cvtValue m d (f.sub.toNat % 2) (getB (pReg s p 0x600) 2) (vuMode s p f) mask (vReg x f.va) old
    ([(destV f.vd, r.1.toNat)], r.2)
  else if c = 0x12 then
    let v := joinBlocks ((upTo 4).map (fun b => xpsAdd (regBlock (vReg x f.va) b) (regBlock (vReg x f.vb) b)))
    ([(destV f.vd, masked32 mask old v)], 0)
  else if c = 0x13 then
    let b := xcvtiBlocks mode (vReg x f.va) (sReg x f.sreg)
    ([(destV f.vd, masked32 mask old (joinBlocks b))], unionFlags (b.map xcvtiFlags))
  else if c = 0x14 then
    let l := xcvtoLanes mode (vReg x f.va)
    let new := l ++ ((lanes 32 old).drop 144).map (fun v => (v, 0))
    let r := laneResult 32 mask old new
    ([(destV f.vd, r.1)], Nat.lor r.2 (unionFlags ((upTo 4).map (fun b => xcvtFlags (regBlock (vReg x f.va) b)))))
  else if c = 0x15 then one (mxqValue d (vuMode s p f) (vReg x f.va))
  else if c = 0x1C then
    let a := vget x.sa (saIx f)
    ([(destS f.vd, a.val.toNat + 2 ^ 32 * a.idx.toNat)], 0)
  else if c = 0x20 then
    let pays := if f.sub.getLsbD 1 then vReg x f.vb else BitVec.ofNat 8192 (joinLanes 32 (upTo 256))
    let r := pairValues (sortBy (keyLe m (f.sub.getLsbD 0)) (keyPairs (vReg x f.va) pays))
    ([(destV f.vd, r.1), (destVn (f.vd.toNat + 1), r.2)], 0)
  else if c = 0x21 then
    let src := fun (r : BitVec 5) => keyPairs (vReg x r) (vReg x (r + 1))
    ((List.zip (upTo 4) (mergeValues m (f.sub.getLsbD 0) (src f.va) (src f.vb))).map (fun e =>
      (destVn (f.vd.toNat + e.1), e.2)), 0)
  else if c = 0x24 then
    let ap1 := ap1Active s p
    one (vuLanes x f (fun a _ => transLane ap1 f.sub.toNat m mode f.rmode.toNat a))
  else if c = 0x28 then
    let w := laneBits m
    ([(destV f.vd, joinLanes w (List.replicate (8192 / w) (sNum x f.sreg)))], 0)
  else
    let w := laneBits m
    ([(destS f.vd, getF (vReg x f.va) (w * sNum x f.sreg) w)], 0)

/-! ## Timing -/

/-- The issue interval and latency of VU.TRANS (R112): functions 0 to 3, 4 to 6, 7 and 8. -/
def transTiming (s : State) (p : PodId) (func : Nat) : Nat × Nat :=
  if ap1Active s p then (8, if func ≤ 3 then 24 else if func ≤ 6 then 20 else 28)
  else (4, if func ≤ 3 then 16 else if func ≤ 6 then 14 else 18)

/-- Pod cycles from issue until the result is readable. -/
def vuLatency (s : State) (p : PodId) (c : Nat) (f : VuFields) : Nat :=
  if c = 0x10 then latVuBasic s p 5 4
  else if c = 0x12 ∨ c = 0x13 ∨ c = 0x14 then latVuXps s p
  else if c = 0x15 then latVuMxq s p
  else if 0x18 ≤ c ∧ c ≤ 0x1B then latVuRsum s p
  else if c = 0x1C then 1
  else if c = 0x20 then latVuSort s p
  else if c = 0x21 then latVuMerge s p
  else if c = 0x24 then (transTiming s p f.sub.toNat).2
  else if c = 0x28 then 2
  else latVuBasic s p 4 3

/-- The registers a VU operation reads. -/
def vuReads (c : Nat) (f : VuFields) : List Dest :=
  let mk : List Dest := if f.mask = 0 then [] else [.m (fin 8 (by decide) f.mask.toNat)]
  let v := destV
  if (1 ≤ c ∧ c ≤ 5) ∨ (8 ≤ c ∧ c ≤ 0xE) ∨ c = 0x12 then [v f.va, v f.vb] ++ mk
  else if c = 6 ∨ c = 7 ∨ c = 0x11 ∨ c = 0x14 ∨ (0x18 ≤ c ∧ c ≤ 0x1B) ∨ c = 0x24 then [v f.va] ++ mk
  else if c = 0x10 then [v f.va, v f.vb, v f.vc] ++ mk
  else if c = 0x13 then [v f.va, destS f.sreg] ++ mk
  else if c = 0x15 then [v f.va]
  else if c = 0x20 then [v f.va] ++ (if f.sub.getLsbD 1 then [v f.vb] else [])
  else if c = 0x21 then [v f.va, v f.vb, destVn (f.va.toNat + 1), destVn (f.vb.toNat + 1)]
  else if c = 0x28 then [destS f.sreg]
  else if c = 0x29 then [v f.va, destS f.sreg]
  else []

/-- The registers a VU operation writes; the scalar accumulators chain without an interlock (R109). -/
def vuWrites (c : Nat) (f : VuFields) : List Dest :=
  if c = 8 then [.m (fin 8 (by decide) f.vd.toNat)]
  else if c = 0x1C ∨ c = 0x29 then [destS f.vd]
  else if 0x18 ≤ c ∧ c ≤ 0x1B then []
  else if c = 0x20 then [destV f.vd, destVn (f.vd.toNat + 1)]
  else if c = 0x21 then (upTo 4).map (fun i => destVn (f.vd.toNat + i))
  else [destV f.vd]

/-- The stall causes of a VU operation that are its unit's own (R109, R111, R112). -/
def vuStalls (x : Pod) (c : Nat) (f : VuFields) : List Nat :=
  trapIf (c = 0x1C && x.pend.any (fun w => w.dest = .sa (saIx f) && decide (x.core.cycle < w.due))) 0x11
    ++ trapIf ((c = 0x20 && decide (x.core.cycle < x.core.sortNext)) || (c = 0x21 && decide (x.core.cycle < x.core.mergeNext))) 0x12
    ++ trapIf (c = 0x24 && decide (x.core.cycle < x.core.transNext)) 0x13

/-! ## Issue -/

/-- The draw an operation consumes: one COUNTER draw for all its lanes, or one of the noise source (R117). -/
def consumeDraw (s : State) (p : PodId) (c : Nat) (f : VuFields) : State :=
  if (c = 0x11 ∨ c = 0x15) ∧ f.rmode = 5 then
    if f.src = 0 then setReg64 s (rPod p 0x608) ((reg64 s (rPod p 0x608) + 1) % 2 ^ 48)
    else (draw s).2
  else s

/-- Set the busy cycles of SORT, MERGE and TRANS (R111, R112). -/
def setIntervals (s : State) (p : PodId) (c : Nat) (f : VuFields) : State :=
  modCore s p (fun k =>
    if c = 0x20 then { k with sortNext := k.cycle + 8 }
    else if c = 0x21 then { k with mergeNext := k.cycle + 4 }
    else if c = 0x24 then { k with transNext := k.cycle + (transTiming s p f.sub.toNat).1 }
    else k)

/-- A reduction issues: the accumulator's new value becomes readable at its latency (R107, R109). -/
def issueReduction (s : State) (p : PodId) (c : Nat) (f : VuFields) : State :=
  let x := pod s p
  let i := saIx f
  let zero := decide (f.start = 0)
  let mask := mReg x f.mask
  let m := f.fmt.toNat
  let r := if c = 0x1B then (argmaxInto m zero mask (vReg x f.va) (saNow x i), 0)
    else reduceInto c m zero mask (vReg x f.va) (saNow x i)
  let serial := nextSerial s p
  let op := serial.1
  let s := serial.2
  let due := x.core.cycle + vuLatency s p c f
  let s := modPod s p (fun y =>
    addPend { y with sa := vmod y.sa i (fun a => { a with runs := r.1.runs, sawNan := r.1.sawNan, started := r.1.started }) }
      op 1 (.sa i) (r.1.val.toNat + 2 ^ 32 * r.1.idx.toNat) due)
  setVuFlags s p r.2

/-- A VU operation issues. -/
def issueVu (s : State) (p : PodId) (c : Nat) (f : VuFields) : State :=
  let s0 := add64 s (rPod p 0x610) 1
  if 0x18 ≤ c ∧ c ≤ 0x1B then issueReduction s0 p c f
  else
    let r := vuValue s0 p c f
    let due := (pod s0 p).core.cycle + vuLatency s0 p c f
    let serial := nextSerial s0 p
    let op := serial.1
    let s1 := serial.2
    let s2 := modPod s1 p (fun y => r.1.foldl (fun z w => addPend z op 1 w.1 w.2 due) y)
    setIntervals (consumeDraw (setVuFlags s2 p r.2) p c f) p c f

end Sys2Proof.Machine
end

