-- ==== Sys2Proof/Machine/Issue.lean ====
section
/-! DEFINITION. An operation of any slot: its traps (R131, R135, R158, R161), its registers and ranges (R159, R160), its stalls
(R164), traps and halts of a Pod (R158, R429, R430), its issue, and an operation's row as the moment of its issue. -/

namespace Sys2Proof.Machine

/-! ## Operands of any slot -/

/-- The registers an operation reads. -/
def opReads : SlotOp → List Dest
  | .me c f => if c = 0 then [] else
      [.md (fin 16 (by decide) f.md.toNat)] ++ (if c = 1 then [destS f.areg, destS f.breg] else if c = 2 then [destS f.dreg]
        else [destS f.breg])
  | .vu c f => if c = 0 then [] else vuReads c f
  | .te c f => if c = 0 then [] else [destS f.xa] ++ (if c = 2 then [] else [destS f.xb])
  | .mem c f => memReads c f
  | .ctl c f => ctlReads c f

/-- The registers an operation writes. -/
def opWrites : SlotOp → List Dest
  | .me _ _ => []
  | .vu c f => if c = 0 then [] else vuWrites c f
  | .te _ _ => []
  | .mem c f => if c = 0 then [] else memWrites c f
  | .ctl c f => ctlWrites c f

/-- The spans of a list of piece lists. -/
def spansOf (l : List (List (Nat × Nat))) : List (Nat × Nat) := l.filterMap spanOf

/-- The read ranges an operation meets in the table. -/
def opRangeReads (s : State) (p : PodId) : SlotOp → List (Nat × Nat)
  | .me c f => if c = 0 then [] else spansOf (meReads (pod s p) c f (meDesc (mdReg (pod s p) f.md)))
  | .vu _ _ => []
  | .te c f => if c = 0 then [] else spansOf (teReads s p c f)
  | .mem c f => spansOf ((memRangeReads s p c f).map (fun e => [e]))
  | .ctl _ _ => []

/-- The write ranges. -/
def opRangeWrites (s : State) (p : PodId) : SlotOp → List (Nat × Nat)
  | .me c f => if c = 0 then [] else spansOf (meWrites (pod s p) c f (meDesc (mdReg (pod s p) f.md)))
  | .vu _ _ => []
  | .te c f => if c = 0 then [] else spansOf (teWrites (pod s p) c f)
  | .mem c f => spansOf ((memRangeWrites s p c f).map (fun e => [e]))
  | .ctl _ _ => []

/-- An operation registers its ranges (the loads do not). -/
def opRegisters : SlotOp → Bool
  | .mem c _ => decide (0 < memEntries c)
  | _ => true

/-- Entries of the range table an operation needs. -/
def opEntries (s : State) (p : PodId) (o : SlotOp) : Nat :=
  if opRegisters o then (opRangeReads s p o).length + (opRangeWrites s p o).length else 0

/-! ## Traps -/

/-- The traps of one operation: those every slot shares, else those of its unit. -/
def opTraps (s : State) (p : PodId) (o : SlotOp) : List Nat :=
  if opcode o = 0 ∨ (slotUses o).isNone then slotTraps s o
  else slotTraps s o ++ (match o with
    | .me c f => meTraps s p c f
    | .vu c f => vuTraps s p c f
    | .te c f => teTraps s p c f
    | .mem c f => memTraps s p c f
    | .ctl c f => ctlTraps s p c f)

/-- Some range of one list overlaps one of another. -/
def anyOverlap (a b : List (Nat × Nat)) : Bool := a.any (fun x => b.any (overlaps x))

/-- An operation conflicts with an earlier slot of its bundle (R135, R161). -/
def slotConflict (s : State) (p : PodId) (o e : SlotOp) : Bool :=
  (opWrites o).any (fun d => (opWrites e).contains d)
    || (opRegisters e && (anyOverlap (opRangeReads s p o) (opRangeWrites s p e)
      || anyOverlap (opRangeWrites s p o) (opRangeReads s p e ++ opRangeWrites s p e)))

/-- The lowest-numbered trapping slot with its causes. R158 does not say whether SLOT_CONFLICT stands beside the other causes of its slot: it is a
cause only where the slot has no other (DESIGN CHOICE, log 65). -/
def bundleTraps (s : State) (p : PodId) : List SlotOp → List SlotOp → Option (Nat × List Nat)
  | _, [] => none
  | before, o :: l =>
    match opTraps s p o with
    | a :: t => some (slotNo o, a :: t)
    | [] => if before.any (slotConflict s p o) then some (slotNo o, [tConflict]) else bundleTraps s p (before ++ [o]) l

/-- The Pod with every result that is on its way applied: the values its next operation will read. -/
def withPending (s : State) (p : PodId) : State :=
  modPod s p (fun x => x.pend.foldl (fun y w => writeDest y w.dest w.value) x)

/-- The cause recorded of several: which one is left open (R158). -/
def chooseTrap (n : Nat) (l : List Nat) : Nat := l.getD (Config.trapChoice n % l.length) (l.headD 0)

/-- A trap (R158): the Pod stops, POD_TRAP_INFO records it, and the machine faults. -/
def trapPod (s0 : State) (p : PodId) (slot : Nat) (causes : List Nat) : State :=
  let d := draw s0
  let s := d.2
  let info := 2 ^ 31 + slot * 2 ^ 24 + chooseTrap d.1 causes * 2 ^ 16 + pcOf s p
  let s1 := setFlag (setFlag s (rPod p 0x100) 31 false) (rPod p 0x100) 29 true
  let s2 := modCore (setReg s1 (rPod p 0x104) (BitVec.ofNat 32 info)) p (fun k => { k with stepping := false })
  raisePodErr s2 5 rErrTrap p info true

/-! ## Halts (R429, R430) -/

/-- Halt one Pod with a cause. In an active weave that is DEBUG_HALT (R25, R432). -/
def haltPod (s : State) (p : PodId) (cause num : Nat) : State :=
  let s1 := setFlag (setFlag s (rPod p 0x100) 30 true) (rPod p 0x100) 31 false
  let s2 := modCore s1 p (fun k => { k with haltCause := BitVec.ofNat 8 cause, haltNum := BitVec.ofNat 8 num, stepping := false })
  if hasCode s p && weaveActive s then causeArises s2 8 else s2

/-- A breakpoint or watchpoint halt: with HALT_GROUP, every other Pod halts too (R428). -/
def haltAt (s : State) (p : PodId) (cause num : Nat) : State :=
  let s1 := haltPod s p cause num
  if flag s rDbgStatus 28 then
    forEach allPods s1 (fun t q => if q = p ∨ podHalted t q then t else haltPod t q 5 0)
  else s1

/-- The enabled breakpoint at bundle `b`. -/
def breakAt (x : Pod) (b : Nat) : Option Nat :=
  (upTo 4).find? (fun n => vget x.breaks (fin 4 (by decide) n) = some (BitVec.ofNat 14 b))

/-- The watchpoint that an operation's ranges meet. -/
def watchHit (s : State) (p : PodId) (ops : List SlotOp) : Option Nat :=
  let x := pod s p
  let reads := ops.flatMap (opRangeReads s p)
  let writes := ops.flatMap (opRangeWrites s p)
  (upTo 2).find? (fun n =>
    match vget x.watches (fin 2 (by decide) n) with
    | none => false
    | some w =>
      let here := fun (l : List (Nat × Nat)) => l.any (fun e => overlaps (podAddr p e.1, podAddr p e.2) (w.addr, w.addr + w.len))
      (w.onRead && here reads) || (w.onWrite && here writes))

/-! ## Stalls (R159, R160, R164) -/

/-- A write to S0 or M0 is dropped: no later operation waits for it (R134). -/
def droppedDest (d : Dest) : Bool := d = .s 0 || d = .m 0

/-- Causes from the registers. -/
def regStalls (x : Pod) (o : SlotOp) : List Nat :=
  let waits := fun (l : List Dest) =>
    x.pend.any (fun w => l.contains w.dest && !droppedDest w.dest && decide (x.core.cycle < w.due))
  trapIf (waits (opReads o)) 0x04 ++ trapIf (waits (opWrites o)) 0x05

/-- The held ranges an operation conflicts with: the scoreboard does not see a write from outside the Pod (R163). -/
def blockers (s : State) (p : PodId) (o : SlotOp) : List StoreRange :=
  let reads := opRangeReads s p o
  let writes := opRangeWrites s p o
  (pod s p).ranges.filter (fun r => decide (r.cls ≠ 8) &&
    ((r.write && reads.any (overlaps (r.lo, r.hi))) || writes.any (overlaps (r.lo, r.hi))))

/-- Causes from the range table. -/
def rangeStalls (s : State) (p : PodId) (o : SlotOp) : List Nat :=
  (blockers s p o).map (fun r => if r.ge then 0x08 else 0x06)

/-- Causes of the operation's unit. -/
def unitStalls (s : State) (p : PodId) (o : SlotOp) : List Nat :=
  let x := pod s p
  match o with
  | .me c f => if c = 0 then [] else meStalls s p x.core.cycle c f
  | .vu c f => vuStalls x c f
  | .te c f => if c = 0 then [] else teStalls x c f
  | .mem c f => memStalls x c f
  | .ctl c f => ctlStalls x c f

/-- Entries in use of the table of 48 (R160): a unit of a commit that waits for its bank is none (R309), nor is a write of the on-die network. -/
def rangeEntries (x : Pod) : Nat := (x.ranges.filter (fun r => r.cls < 7)).length

/-- Every stall cause of a bundle in the present cycle. -/
def bundleStalls (s : State) (p : PodId) (ops : List SlotOp) : List Nat :=
  let need := (ops.map (opEntries s p)).sum
  ops.flatMap (fun o => regStalls (pod s p) o ++ rangeStalls s p o ++ unitStalls s p o)
    ++ trapIf (decide (0 < need) && decide (48 < rangeEntries (pod s p) + need)) 0x07

/-! ## Issue -/

/-- The operation's bit of POD_V_USED (R304). -/
def markVClass (s : State) (p : PodId) (o : SlotOp) : State :=
  match vClass o with
  | some b => orReg s (rPod p 0x908) (2 ^ b)
  | none => s

/-- A Vector Unit operation counts for the power estimate (R379). -/
def countVu (s : State) : State := { s with power := { s.power with vuOps := s.power.vuOps + 1 } }

/-- An operation issues. The second component says that it set the next bundle itself. -/
def issueOp (s0 : State) (p : PodId) (o : SlotOp) : State × Bool :=
  let s := markVClass s0 p o
  if opcode o = 0 then (s, false)
  else match o with
    | .me c f => (if c = 1 then issueMma s p f else if c = 2 then issueDrain s p f else issueBload s p f, false)
    | .vu c f => (issueVu (countVu s) p c f, false)
    | .te c f => (issueTe s p c f, false)
    | .mem c f => (issueMem s p c f, false)
    | .ctl c f => issueCtl s p c f

/-! ## An operation's row -/

/-- The registers whose pending results must have been delivered before an operation issues (R109, R159). -/
def opDepends (o : SlotOp) : List Dest :=
  opReads o ++ opWrites o ++ (match o with | .vu c f => if c = 0x1C then [.sa (saIx f)] else [] | _ => [])

/-- The classes, as C.SYNC numbers them, whose work must be complete before an operation issues (R155, R157): those of C.FEND, those that C.SYNC
names, and none for any other operation. -/
def barrierMask : SlotOp → Nat
  | .ctl c f => if c = 0x18 then 0xF else if c = 0x19 then getF f.imm 0 6 else 0
  | _ => 0

/-- The classes of an operation's barrier take in class `i`. -/
def inBarrier (o : SlotOp) (i : Nat) : Bool := decide (barrierMask o / 2 ^ i % 2 = 1)

/-- Deliver the pending results that `sel` selects, in the order of their issue. -/
def deliver (sel : PendWrite → Bool) (x : Pod) : Pod :=
  (x.pend.filter sel).foldl (fun y w => writeDest y w.dest w.value) { x with pend := x.pend.filter (fun w => !sel w) }

/-- Release the timed ranges that `sel` selects. -/
def releaseTimed (sel : StoreRange → Bool) (s : State) (p : PodId) : State :=
  let x := pod s p
  let gone := x.ranges.filter (fun r => r.due.isSome && sel r)
  writeResults (fun w => gone.any (fun r => r.op = w.1))
    (forEach gone (setPod s p { x with ranges := x.ranges.filter (fun r => !(r.due.isSome && sel r)) }) (writeRange p)) p

/-- The Tree Engine's work is complete: its windows have set their flags and counted their compares, and its loads are over (R95, R96, R102). -/
def settleTree (s : State) (p : PodId) : State :=
  let x := pod s p
  let te := { x.te with windows := [], nloads := [], halves := x.te.halves.map (fun h => { h with loads := [] }) }
  settleTeCfg (forEach x.te.windows (setPod s p { x with te := te }) (fun t w =>
    orReg (add64 t (rPod p 0x510) w.steps.sum) (rPod p 0x508) w.flags.toNat)) p

/-- An engine with nothing left to wait for. -/
def settledEngine (e : Engine) : Engine :=
  { e with
    bufs := e.bufs.map (fun b => { b with ready := Due.zero, used := Due.zero })
    nextMma := Engine.reset.nextMma, activeUntil := Engine.reset.activeUntil, admitFrom := Engine.reset.admitFrom
    drainReady := Engine.reset.drainReady, contReady := Engine.reset.contReady, accFree := Engine.reset.accFree
    drains := [], drainOps := [], mmaOps := [], forming := [] }

/-- The Matrix Engines' work is complete (R71, R72, R144 to R147): every product has been formed, and every line has been granted. -/
def settleEngines (s : State) (p : PodId) : State :=
  let x := pod s p
  let left := (x.me.toList.flatMap (fun e => e.forming.map (·.left))).sum
  let s1 := forEach x.mmas (setPod s p { x with mmas := [], lines := x.lines.filter (fun l => decide (l.rank ≠ 1)) }) (finishMma p)
  add64 (modPod s1 p (fun y => { y with me := y.me.map settledEngine })) (rPod p 0x408) left

/-- What the scoreboard requires to have completed by the time an operation issues is completed: the pending results of its
registers and the timed ranges it would conflict with; before a barrier, the timed work of its classes: the Matrix Engines' and the Tree
Engine's rows and loads, the Vector Unit's results, the stores and copies. -/
def settleFor (s : State) (p : PodId) (o : SlotOp) : State :=
  let dep := opDepends o
  let s1 := modPod s p (deliver (fun w => dep.contains w.dest || (inBarrier o 1 && decide (w.slot = 1))))
  let b := blockers s1 p o
  let s2 := releaseTimed (fun r => b.contains r || (decide (r.cls < 4) && inBarrier o r.cls)) s1 p
  let s3 := if inBarrier o 0 then settleEngines s2 p else s2
  if inBarrier o 2 then settleTree s3 p else s3

/-- The operation has to wait: for a range, for an entry of the table, for its unit (R71, R75, R94, R111, R112, R146, R147, R371), for a token, a
full queue or a queue's completion, or for the Tree Engine to be idle (R80). What a barrier still waits for are its tokens and gather
requests. -/
def opWaits (s : State) (p : PodId) (o : SlotOp) : Bool :=
  let x := pod s p
  !(blockers s p o).isEmpty || (decide (0 < opEntries s p o) && decide (48 < rangeEntries x + opEntries s p o))
    || (if barrierMask o = 0 then !(unitStalls s p o).isEmpty else syncWaits x (barrierMask o / 16 * 16))

/-- An operation comes up by itself and issues. A Pod that is halted or trapped, or whose clock stands still (R366, R368), issues nothing; a breach
traps the Pod; an operation that has to wait leaves the state as it is. -/
def runOp (s : State) (p : PodId) (o : SlotOp) : State :=
  if podTrapped s p || podHalted s p || !podClockRuns s p then s
  else
    match opTraps (withPending s p) p o with
    | a :: t => trapPod s p (slotNo o) (a :: t)
    | [] =>
      let s1 := settleFor s p o
      if opWaits s1 p o then s else (issueOp s1 p o).1

end Sys2Proof.Machine
end

