-- ==== Sys2Proof/Machine/LinkRx.lean ====
section
/-! DEFINITION. What a port receives: the twine plane (R249, R252 to R258), acknowledgements and credits (R246 to R249, R253), the
TRAIN flits (R264, R265), flits as they come from the lanes (R235 to R240), and the events of training and recovery. -/

namespace Sys2Proof.Machine

/-! ## Twine packets (R249, R254, R258) -/

/-- Units in use in a receive buffer. -/
def unitsIn (l : List Packet) : Nat := (l.map unitsOf).sum

/-- The receive buffer of a channel. -/
def rxList (x : Port) (c : Nat) : List Packet := if c = 2 then x.rxByp else if c = 1 then x.rxRsp else x.rxReq

/-- A packet enters its receive buffer, and the high-water mark follows (R270). -/
def enterRx (s : State) (p : PortId) (k : Packet) : State :=
  let c := channelOf k
  let s1 := modPort s p (fun x =>
    if c = 2 then { x with rxByp := x.rxByp ++ [k] }
    else if c = 1 then { x with rxRsp := x.rxRsp ++ [k] }
    else { x with rxReq := x.rxReq ++ [k] })
  let used := unitsIn (rxList (port s1 p) c)
  let lo := if c = 2 then 0 else if c = 1 then 12 else 21
  let w := if c = 2 then 6 else 9
  if field s1 (rPort p 0x34) lo w < used then setField s1 (rPort p 0x34) lo w used else s1

/-- The reach port onto which a packet accepted on rack port `p` is forwarded (R258). -/
def forwardPort (s : State) (p : PortId) (k : Packet) : Option PortId := forwardTo s p (channelOf k) (devOf k.dst)

/-- A packet's DST names this device. -/
def forHere (s : State) (k : Packet) : Bool := decide (devOf k.dst = deviceCoord s)

/-- A FENCE packet waits while an earlier packet from its source device to its destination, received on the same port, remains in that
port's RSP buffer (R259). -/
def fenceWaits (s : State) (r : Option PortId) (k : Packet) : Bool :=
  match r with
  | none => false
  | some i => k.fence && (port s i).rxRsp.any (fun j => devOf j.src = devOf k.src && devOf j.dst = devOf k.dst && newer k.seq j.seq)

/-- Packets of the RSP buffer are delivered from its head; one that waits keeps those behind it (R257). -/
def drainRsp : Nat → PortId → State → State
  | 0, _, s => s
  | n + 1, p, s =>
    match (port s p).rxRsp with
    | [] => s
    | k :: _ =>
      if !forHere s k || isWaiting s k (some p) then s
      else if k.type = 0xC then drainRsp n p (takeDoneResponse (freeRx s p k) k)
      else if k.type = 0xD then
        let t := deliverWrite s (some p) k
        if isWaiting t k (some p) then t else drainRsp n p t
      else drainRsp n p (toKeeper s (some p) k)

/-- As many rounds as the buffer has packets. -/
def settleRsp (s : State) (p : PortId) : State := drainRsp (port s p).rxRsp.length p s

/-- A BYP message is sunk (R262): a control message, or one for a queue or the Keeper. -/
def sinkByp (s : State) (p : PortId) (k : Packet) : State :=
  if k.offset = 0xFFFFFF then receiveControl s p k
  else if forHere s k then deliverByp s (some p) k
  else noRoute (freeRx s p k) k

/-- An accepted packet goes on its way: a request for this device waits for the responder (R257). -/
def routeAccepted (s : State) (p : PortId) (k : Packet) : State :=
  if channelOf k = 2 then sinkByp s p k
  else if forHere s k then if channelOf k = 1 then settleRsp s p else s
  else
    match forwardPort s p k with
    | some q => queueTx s q (some p) k
    | none => noRoute (freeRx s p k) k

/-- The receiver asks for a replay from its expected number, once for that number (R249). -/
def askReplay (s : State) (p : PortId) : State :=
  modPort s p (fun x =>
    if x.nakTSent = some x.rxTwineSeq then x
    else { x with sendNakT := true, nakTSent := some x.rxTwineSeq, nakTTick := tick s })

/-- An intact twine packet (R249, R254, R267). -/
def receiveTwine (s : State) (p : PortId) (k : Packet) : State :=
  let x := port s p
  let e := x.rxTwineSeq
  if k.type.toNat < 8 then unexpected s (dieOf s p) k.circuit.toNat
  else if k.seq = e then
    let c := channelOf k
    if bufferUnits.getD c 0 < unitsIn (rxList x c) + unitsOf k then raiseErr s 9 (rErrLink p) 3 p 0
    else
      let s1 := modPort s p (fun y => { y with rxTwineSeq := e + 1, nakTSent := none, sendNakT := false })
      routeAccepted (enterRx s1 p k) p k
  else if newer k.seq e then askReplay s p
  else if newer e k.seq then add64 s (rPort p 0x88) 1
  else enterRecover (raiseErr s 9 (rErrLink p) 4 p 0) p true

/-! ## Acknowledgements of the twine plane (R249, R256) -/

/-- The token of an MSG or BYP that the first link has acknowledged completes (R256). -/
def confirmSent (s : State) (k : Packet) : State :=
  if devOf k.src = deviceCoord s then
    if k.type = 0xD then
      confirmToken s (podOf k.src) (queueOf k.src) (fun t => t.kind = .twMsg && t.dstDev = devOf k.dst)
    else if k.type = 0xF ∧ k.offset ≠ 0xFFFFFF then
      confirmToken s (podOf k.src) (queueOf k.src) (fun t => t.kind = .twByp && t.dstDev = devOf k.dst)
    else s
  else s

/-- A cumulative acknowledgement of twine number `a`. -/
def takeAckT (s : State) (p : PortId) (a : BitVec 12) : State :=
  let done_ := fun (k : Packet) => decide ((a - k.seq).toNat < 2048)
  let gone := (port s p).replay.filter done_
  if gone.isEmpty then s
  else
    let s1 := modPort s p (fun x =>
      let left := x.replay.filter (fun k => !done_ k)
      { x with replay := left, replayLeft := min x.replayLeft left.length, replaysNoProgress := 0, replaySince := tick s })
    forEach gone s1 confirmSent

/-- A replay starts from the oldest unacknowledged packet; sixteen without progress enter RECOVER. -/
def startReplay (s : State) (p : PortId) : State :=
  if (port s p).replay.isEmpty then s
  else
    let s1 := modPort s p (fun x => { x with
      replayLeft := x.replay.length, replaysNoProgress := x.replaysNoProgress + 1, replaySince := tick s })
    let s2 := add64 s1 (rPort p 0x80) 1
    if 16 ≤ (port s2 p).replaysNoProgress then
      enterRecover (modPort s2 p (fun x => { x with replaysNoProgress := 0 })) p true
    else s2

/-! ## Warp reports (R246, R247, R248) -/

/-- A NAK_W: the copy moves to the retry list, but for a held NOTICE, under which nothing is retried (R223); one freed already declares the
port down. -/
def takeNakW (s : State) (p : PortId) (n : BitVec 12) : State :=
  match (port s p).copies.find? (fun c => c.seq = n) with
  | none => declareDown s p (some 7)
  | some c =>
    let again := match c.retryPick with
      | none => !c.naked
      | some t => decide (t + 80 ≤ absPick s)
    if again then
      modPort s p (fun x => { x with copies := x.copies.map (fun d =>
        if d.seq = n then { d with naked := true, scheduled := !noticeHeld s } else d) })
    else s

/-- A RACK frees the retried copy. -/
def takeRack (s : State) (p : PortId) (n : BitVec 12) : State :=
  modPort s p (fun x => { x with copies := x.copies.filter (fun c => !(c.seq = n && c.retryPick.isSome)) })

/-- ACK_W decides every number up to its own (R245): copies that have not been NAKed are freed. -/
def takeAckW (s : State) (p : PortId) (h : BitVec 12) : State :=
  let passed := fun (c : WarpCopy) => decide ((h - c.seq).toNat < 2048)
  modPort s p (fun x => { x with
    copies := (x.copies.filter (fun c => c.naked || !passed c)).map (fun c => if passed c then { c with decided := true } else c) })

/-! ## Credits (R253) -/

/-- A LIMIT received for a channel. Credits start with PACKET or PARLEY (R241); what comes before is not taken. -/
def takeCredit (s : State) (p : PortId) (c : Nat) (v : Nat) : State :=
  let o := rPort p (0x20 + 4 * c)
  let held := field s o 16 16
  let used := field s o 0 16
  let mod16 := fun (a b : Nat) => (a + 65536 - b) % 65536
  if 2 < c ∨ lstate s p < 4 ∨ 6 < lstate s p then s
  else if 32767 < mod16 v held then s
  else if (port s p).train.peerBufs.getD c 0 < mod16 v used then raiseErr s 9 (rErrLink p) 2 p 0
  else setField s o 16 16 v

/-! ## TRAIN flits (R264 to R267) -/

/-- An ANNOUNCE records the peer (R264, R266, R270). -/
def takeAnnounce (s : State) (p : PortId) (b : List Byte) : State :=
  let w := BitVec.ofNat 32
  let major := numAt b 2 1
  let minor := numAt b 3 1
  let s1 := setReg s (rPort p 0x08) (w (2 ^ 31 + numAt b 8 2 % 0x8000 * 2 ^ 16 + numAt b 1 1 % 16))
  let s2 := setReg s1 (rPort p 0x0C) (w (major * 2 ^ 24 + minor * 2 ^ 16 + numAt b 4 2))
  let s3 := setReg s2 (rPort p 0x10) (w (numAt b 6 2))
  let s4 := setField s3 (rPort p 0x38) 19 1 (b2n (numAt b 0x0A 2 = 0x1280))
  let s5 := if major = field s4 rPrtVersion 24 8 then setField s4 (rPort p 0x04) 24 4 (min minor (field s4 rPrtVersion 16 8)) else s4
  decidePort (modTrain s5 p (fun t => { t with
    peer := some b, peerBufs := [numAt b 0x0E 2, numAt b 0x10 2, numAt b 0x12 2] })) p

/-- A DELAY_REQ waits for its answer. -/
def takeDelayReq (s : State) (p : PortId) (b : List Byte) : State :=
  modTrain s p (fun t => { t with replies := t.replies ++ [(b, tick s)] })

/-- The cable delay in ps of 64 measurements: half their median less the fixed delay. The median of an even number is the mean of
the middle two (DESIGN CHOICE, log 16). -/
def cableDelay (l : List Nat) : Nat :=
  let m := sortBy (fun a b => decide (a ≤ b)) l
  min 0xFFFFF (125 * (m.getD 31 0 + m.getD 32 0) - 500 * Config.fixedDelay)

/-- A DELAY_RSP gives one measurement; the 64th gives the cable delay. -/
def takeDelayRsp (s : State) (p : PortId) (b : List Byte) : State :=
  let t := (port s p).train
  if !t.asked || decide (64 ≤ t.delays.length) then s
  else
    let l := t.delays ++ [tick s - numAt b 0x20 8 - numAt b 0x28 8]
    let s1 := modTrain s p (fun t => { t with delays := l, asked := false })
    if l.length = 64 then decidePort (setField s1 (rPort p 0x14) 0 20 (cableDelay l)) p else s1

/-- A READY records the peer's outcome (R283). -/
def takeReady (s : State) (p : PortId) (b : List Byte) : State :=
  let o := numAt b 0x0D 1
  let s1 := setField s (rPort p 0x38) 28 4 o
  finishExchange (modTrain s1 p (fun t => { t with peerReady := some (BitVec.ofNat 8 o) })) p

/-- A RECOVER takes part in the recovery exchange: once it has gone both ways, READY follows (R267). -/
def takeRecover (s : State) (p : PortId) : State :=
  if lstate s p ≠ 6 then s
  else modTrain s p (fun t => { t with peerRecover := true, step := if t.step = 2 then 4 else t.step })

/-- A TRAIN payload by its KIND. -/
def takeTrain (s : State) (p : PortId) (b : List Byte) : State :=
  let kind := numAt b 0 1
  if kind = 0 then takeAnnounce s p b
  else if kind = 1 then takeDelayReq s p b
  else if kind = 2 then takeDelayRsp s p b
  else if kind = 3 then takeReady s p b
  else if kind = 4 then takeRecover s p
  else s

/-! ## Flits (R235 to R240) -/

/-- The packet that the bytes of its flits hold, when its CRC-32 matches. -/
def packetOfFlits (b : List Byte) : Option Packet :=
  let h := numAt b 0 16
  let len := (h / 2 ^ 64 % 64 + 1) * 64
  if b.length < len + 20 then none
  else if numAt b (16 + len) 4 = packetCrc32 (b.take (16 + len)) then some (packetOf h (sliceB b 16 len))
  else none

/-- The flits of a packet are complete. -/
def packetDone (s : State) (p : PortId) (plane : Bool) (b : List Byte) : State :=
  match packetOfFlits b with
  | none => add64 s (rPort p 0x68) 1
  | some k => if plane then receiveTwine s p k else receiveWarp s p k

/-- The header in a flit's first bytes is a NOTICE's (R197, R222). -/
def isNoticeFlit (b : List Byte) : Bool := decide (numAt b 0 16 / 2 ^ 12 % 16 = 4)

/-- A flit of a packet in packet mode (R239). Between the flits of a twine packet only a NOTICE may stand. -/
def packetFlit (s : State) (p : PortId) (type : Nat) (plane : Bool) (b : List Byte) : State :=
  let part := (port s p).rxPartial
  let put := fun (x : Option Partial) => modPort s p (fun y => { y with rxPartial := x })
  if type = 4 then
    let between := match part with
      | some t => t.plane && !plane && isNoticeFlit b
      | none => false
    packetDone (if between then s else put none) p plane b
  else if type = 1 then put (some ⟨plane, [b], false⟩)
  else
    match part with
    | none => s
    | some t =>
      if t.plane ≠ plane ∨ t.spoiled = true then put none
      else if type = 2 then put (some { t with flits := t.flits ++ [b] })
      else packetDone (put none) p plane (t.flits.flatten ++ b)

/-- An intact packet-mode IDLE reveals lost numbers (R244, R249), and a packet that it interrupts is lost (R239). -/
def idleFlit (s : State) (p : PortId) (b : List Byte) : State :=
  let x := port s p
  let nextW := BitVec.ofNat 12 (numAt b 0 2)
  let nextT := BitVec.ofNat 12 (numAt b 2 2)
  let s0 := modPort s p (fun y => { y with pickIdles := y.pickIdles + 1, rxPartial := none })
  let s1 := if newer nextW x.rxWarpSeq then
      modPort (loseNumbers s0 p x.rxWarpSeq nextW) p (fun y => { y with rxWarpSeq := nextW })
    else s0
  let s2 := modPort s1 p (fun y => { y with uncertain := [] })
  if newer nextT x.rxTwineSeq then askReplay s2 p else s2

/-- The control field of a packet-mode flit: hold, twine and warp acknowledgements, credit (R236). -/
def packetControl (s : State) (p : PortId) (c : Nat) : State :=
  let f := fun (lo len : Nat) => c / 2 ^ lo % 2 ^ len
  let s1 := if f 55 1 = 1 then takeHold s p (f 56 8) else s
  let ackT := BitVec.ofNat 12 (f 41 12)
  let s2 := if f 53 1 = 1 then startReplay (takeAckT s1 p (ackT - 1)) p else takeAckT s1 p ackT
  let subject := BitVec.ofNat 12 (f 27 12)
  let s3 := if f 39 1 = 1 then takeNakW s2 p subject
    else if f 40 1 = 1 ∧ field s2 (rPort p 0x04) 24 4 ≠ 0 then takeRack s2 p subject
    else takeAckW s2 p subject
  takeCredit s3 p (f 9 2) (f 11 16)

/-- A flit that cannot be corrected, or whose type its mode does not allow (R235, R237, R240, R267). -/
def badFlit (s : State) (p : PortId) : State :=
  let s1 := add64 s (rPort p 0x60) 1
  if lstate s p = 5 then
    let s2 := modPort s1 p (fun x => { x with
      rxHistory := lastN 64 (x.rxHistory ++ [true])
      rxPartial := x.rxPartial.map (fun t => { t with spoiled := true }) })
    if 8 ≤ ((port s2 p).rxHistory.filter (fun b => b)).length then enterRecover s2 p false else s2
  else modPort s1 p (fun x => { x with nakF := true, hunt := true })

/-- Unacknowledged counted flits up to count `a` are acknowledged (R240): a BYP message among them is delivered to the link's other end, and its
token completes (R256, R266). -/
def takeAckF (s : State) (p : PortId) (a : BitVec 12) : State :=
  let x := port s p
  let oldest := x.txCount - BitVec.ofNat 12 x.flitReplay.length
  let n := (a - oldest + 1).toNat
  if n ≤ x.flitReplay.length then
    let gone := (x.flitReplay.take n).filter (fun e => e.1 = 4)
    let s1 := modPort s p (fun y => { y with flitReplay := y.flitReplay.drop n })
    finishExchange (forEach gone s1 (fun t e => confirmSent t (packetOf (numAt e.2 0 16) []))) p
  else s

/-- The control field of a flit-mode flit. -/
def flitControl (s : State) (p : PortId) (c : Nat) : State :=
  let f := fun (lo len : Nat) => c / 2 ^ lo % 2 ^ len
  let ack := BitVec.ofNat 12 (f 41 12)
  let s1 := if f 53 1 = 1 then
      modPort (takeAckF s p (ack - 1)) p (fun x => { x with sendIdleF := true, flitResend := x.flitReplay })
    else takeAckF s p ack
  takeCredit s1 p (f 9 2) (f 11 16)

/-- A counted flit of flit mode: a TRAIN exchange, or in PARLEY one BYP message (R240, R262, R266). -/
def countedFlit (s : State) (p : PortId) (type : Nat) (b : List Byte) : State :=
  if (port s p).hunt then s
  else
    let s1 := modPort s p (fun x => { x with rxCount := x.rxCount + 1 })
    if type = 5 then takeTrain s1 p b
    else if lstate s1 p = 4 then
      match packetOfFlits b with
      | some k =>
        if k.type.toNat < 8 then unexpected s1 (dieOf s1 p) k.circuit.toNat
        else if channelOf k = 2 then sinkByp (enterRx s1 p k) p k else s1
      | none => add64 s1 (rPort p 0x68) 1
    else s1

/-- An IDLE of flit mode: NEXT_F ends a hunt, or reveals a loss (R240). -/
def idleF (s : State) (p : PortId) (b : List Byte) : State :=
  let x := port s p
  if BitVec.ofNat 12 (numAt b 0 2) = x.rxCount then modPort s p (fun y => { y with hunt := false })
  else if x.hunt then s
  else modPort s p (fun y => { y with hunt := true, nakF := true })

/-- A corrected flit of flit mode. -/
def flitModeFlit (s0 : State) (p : PortId) (b : List Byte) : State :=
  let c := numAt b 256 8
  let type := c / 32 % 8
  if numAt b 254 2 ≠ flitCrc16 (b.take 254 ++ sliceB b 256 8) then
    let s1 := add64 s0 (rPort p 0x68) 1
    if lstate s1 p = 5 then
      modPort s1 p (fun x => { x with
        rxHistory := lastN 64 (x.rxHistory ++ [false])
        rxPartial := x.rxPartial.map (fun t => { t with spoiled := true }) })
    else modPort s1 p (fun x => { x with nakF := true, hunt := true })
  else if type ≠ 0 ∧ type ≠ 4 ∧ type ≠ 5 ∧ type ≠ 6 then badFlit s0 p
  else
    let s := if lstate s0 p = 5 then enterRecover s0 p true else s0
    if !inFlitMode s p then s
    else
      let s1 := flitControl s p c
      if type = 0 then idleF s1 p b else if type = 6 then s1 else countedFlit s1 p type b

/-- A corrected flit of packet mode, which only a port in PACKET takes (R263). A type that packet mode does not allow is handled as
uncorrectable in every state (R237). -/
def packetModeFlit (s : State) (p : PortId) (b : List Byte) : State :=
  let c := numAt b 256 8
  let type := c / 32 % 8
  if 4 < type then badFlit s p
  else if lstate s p ≠ 5 then s
  else
    let s0 := modPort s p (fun x => { x with rxHistory := lastN 64 (x.rxHistory ++ [false]) })
    let s1 := packetControl s0 p c
    if lstate s1 p ≠ 5 then s1
    else if type = 0 then idleFlit s1 p b
    else packetFlit s1 p type (decide (c / 256 % 2 = 1)) (b.take 256)

/-- The port receives flits. -/
def receives (s : State) (p : PortId) : Bool := inFlitMode s p || decide (lstate s p = 5)

/-- FLIT_RX: 288 bytes from the lanes. -/
def execFlitRx (p : PortId) (raw : List Byte) (s : State) : Host.Outcome State Fault Refusal :=
  if !receives s p then .next s
  else
    match flitCorrect raw with
    | none => .next (badFlit s p)
    | some r =>
      let s1 := add64 s (rPort p 0x58) r.2
      .next (if numAt r.1 256 8 / 2 ^ 54 % 2 = 1 then flitModeFlit s1 p r.1 else packetModeFlit s1 p r.1)

/-! ## Rows of the twine plane -/

/-- TWINE_PACKET_RX: an intact twine packet on a port in PACKET. -/
def execTwinePacketRx (p : PortId) (pkt : Packet) (s : State) : Host.Outcome State Fault Refusal :=
  .next (if portUp s p then receiveTwine s p pkt else s)

/-- A packet delivered at this device, with the FENCE packets of this device to itself that it releases (R200); another device's packet changes
nothing. -/
def delivered (s : State) (k : Packet) (f : State) : State := if forHere s k then settleLocal f else s

/-- TWINE_REQUEST_SERVED: the responder takes the request at the head of a port's REQ buffer, once a response slot is free (R257). -/
def execTwineRequestServed (p : PortId) (s : State) : Host.Outcome State Fault Refusal :=
  match (port s p).rxReq with
  | k :: _ => if fenceWaits s (some p) k then .next s else .next (delivered s k (serveRequest s (some p) k))
  | [] => .next s

/-- QUEUED_ENTRY_ACCEPT: an entry that waited is accepted; what waited behind it in its receive buffer follows (R191, R257). -/
def execQueuedEntryAccept (p : PodId) (q : Fin 8) (s : State) : Host.Outcome State Fault Refusal :=
  .next (forEach allPorts (acceptWaiting s p q) settleRsp)

/-- WRITE: a twine WRITE is delivered (R256). -/
def execWrite (p : Option PortId) (pkt : Packet) (s : State) : Host.Outcome State Fault Refusal :=
  .next (delivered s pkt (if canRespond s pkt && !fenceWaits s p pkt then deliverWrite s p pkt else s))

/-- FADD: a twine FADD is delivered (R307). -/
def execFadd (p : Option PortId) (pkt : Packet) (s : State) : Host.Outcome State Fault Refusal :=
  .next (delivered s pkt (if canRespond s pkt then deliverFadd s p pkt else s))

/-- OCOMMIT: a twine OCOMMIT is delivered (R308). -/
def execOcommit (p : Option PortId) (pkt : Packet) (s : State) : Host.Outcome State Fault Refusal :=
  .next (delivered s pkt (if canRespond s pkt then deliverOcommit s p pkt else s))

/-- MGMT_REQ: a Keeper request goes to the Keeper (R255). -/
def execMgmtReq (p : PortId) (pkt : Packet) (s : State) : Host.Outcome State Fault Refusal :=
  .next (delivered s pkt (toKeeper s (some p) pkt))

/-- MGMT_RSP: a Keeper response goes to the Keeper (R255). -/
def execMgmtRsp (p : PortId) (pkt : Packet) (s : State) : Host.Outcome State Fault Refusal :=
  .next (delivered s pkt (settleRsp (toKeeper s (some p) pkt) p))

/-- DONE: matched to the oldest outstanding request (R256). -/
def execDone (p : Option PortId) (pkt : Packet) (s : State) : Host.Outcome State Fault Refusal :=
  .next (delivered s pkt (takeDoneResponse (freeFrom s p pkt) pkt))

/-- MSG: written, and its entry placed (R256). -/
def execMsg (p : Option PortId) (pkt : Packet) (s : State) : Host.Outcome State Fault Refusal :=
  .next (delivered s pkt (deliverWrite s p pkt))

/-- BYP: a BYP message is sunk (R262). -/
def execByp (p : PortId) (pkt : Packet) (s : State) : Host.Outcome State Fault Refusal := .next (sinkByp s p pkt)

/-- TWINE_REPLAY_TIMEOUT ticks have passed since tick `t` (R249, R269). -/
def replayOver (s : State) (t : Nat) : Bool := decide (field s rLinkCfg 16 16 ≤ ticksSince s t)

/-- The receiver may send NAK_T for its expected number again (R249). -/
def rearmNak (s : State) (p : PortId) : State :=
  if replayOver s (port s p).nakTTick then modPort s p (fun x => { x with nakTSent := none }) else s

/-- TWINE_REPLAY_TIMEOUT (R249): each of the two timers acts where its own ticks have passed: without progress of ACK_T the sender replays, and
after its last NAK_T the receiver may send another. -/
def execTwineReplayTimeout (p : PortId) (s : State) : Host.Outcome State Fault Refusal :=
  let s1 := rearmNak s p
  .next (if !portUp s p then s else if replayOver s (port s p).replaySince then startReplay s1 p else s1)

/-- ACK_TIMEOUT: a warp packet is still undecided 80 picks after it was sent (R245, R248). A port in RECOVER is judged on its return
(R267). -/
def execAckTimeout (p : PortId) (s : State) : Host.Outcome State Fault Refusal :=
  .next (if portUp s p && (port s p).copies.any (fun c => !c.decided && decide (c.sentPick + 80 ≤ absPick s)) then
      declareDown s p (some 5)
    else s)

/-! ## Rows of training and recovery -/

/-- LANE_SIGNAL_DETECT: a port in DETECT enters TRAIN (R265), and so does one that TRAIN_FAIL left in DOWN with the outcome DARK_EXPECTED: it
keeps watching for signal, and its outcome is decided afresh (R284). -/
def execLaneSignalDetect (p : PortId) (s : State) : Host.Outcome State Fault Refusal :=
  .next (if lstate s p = 1 ∨ (lstate s p = 7 ∧ outcome s p = 2) then enterTrain s p else s)

/-- FEC_LOCK: flit mode begins with the elastic buffer centred and the phase of a reach port measured, or the recovery exchange
proceeds (R265, R267, R293). Counted flits sent before the lock are asked for again. -/
def execFecLock (p : PortId) (phasePs : BitVec 12) (s : State) : Host.Outcome State Fault Refusal :=
  let l := lstate s p
  if (port s p).train.step = 0 ∧ (l = 2 ∨ l = 6) then
    let s1 := modPort s p (fun x => { x with train := { x.train with step := 1 }, hunt := true, nakF := true })
    .next (if l = 2 then setReg s1 (rPort p 0x3C) (if 12 ≤ p.val then phasePs.setWidth 32 else 0) else s1)
  else .next s

/-- TRAIN_DEADLINE: a training step has missed its deadline (R265). -/
def execTrainDeadline (p : PortId) (s : State) : Host.Outcome State Fault Refusal :=
  .next (if lstate s p = 2 then failAttempt s p else s)

/-- ANNOUNCE. -/
def execAnnounce (p : PortId) (payload : List Byte) (s : State) : Host.Outcome State Fault Refusal :=
  .next (if inFlitMode s p then takeAnnounce s p payload else s)

/-- DELAY_REQ. -/
def execDelayReq (p : PortId) (payload : List Byte) (s : State) : Host.Outcome State Fault Refusal :=
  .next (if inFlitMode s p then takeDelayReq s p payload else s)

/-- DELAY_RSP. -/
def execDelayRsp (p : PortId) (payload : List Byte) (s : State) : Host.Outcome State Fault Refusal :=
  .next (if inFlitMode s p then takeDelayRsp s p payload else s)

/-- READY. -/
def execReady (p : PortId) (payload : List Byte) (s : State) : Host.Outcome State Fault Refusal :=
  .next (if inFlitMode s p then takeReady s p payload else s)

/-- RECOVER: a port in PACKET enters RECOVER on this flit of flit mode (R238, R267). -/
def execRecover (p : PortId) (payload : List Byte) (s : State) : Host.Outcome State Fault Refusal :=
  if numAt payload 0 1 = 4 then .next (takeRecover (enterRecover s p true) p) else .next s

/-- LANE_LOCK_LOSS: a port in PACKET enters RECOVER. -/
def execLaneLockLoss (p : PortId) (s : State) : Host.Outcome State Fault Refusal := .next (enterRecover s p false)

/-- RECOVER_FAIL: a recovery has exceeded RECOVER_LIMIT (R267). -/
def execRecoverFail (p : PortId) (s : State) : Host.Outcome State Fault Refusal :=
  .next (if lstate s p = 6 && decide (field s rLinkCfg 0 16 < ticksSince s (port s p).recoverTick) then declareDown s p (some 8) else s)

/-- ELASTIC_SLIP (R293, R294): the pointer is recorded; beyond its limit the port goes down and the machine is faulted. -/
def execElasticSlip (p : PortId) (pointer : Int) (s : State) : Host.Outcome State Fault Refusal :=
  let most := max (field s (rPort p 0x3C) 16 8) (min 255 pointer.natAbs)
  let s1 := setField (setField s (rPort p 0x3C) 24 8 (wrap 8 pointer)) (rPort p 0x3C) 16 8 most
  if !receives s p then .next s
  else if (if 12 ≤ p.val then 48 else 6) < pointer.natAbs then
    .next (machineFault (declareDown (raiseErr s1 11 rErrPlace 3 p 0) p none) rErrPlace 3 p)
  else .next s1

/-- DARK_EXPECTED: a port with a cable is still in DETECT 5 s after reset release (R284). -/
def execDarkExpected (p : PortId) (s : State) : Host.Outcome State Fault Refusal :=
  .next (if lstate s p = 1 && cabled s p && decide (outcome s p ≠ 2) then setLink (takeOutcome s p 2 0) p 3 2 else s)

/-! ## PRT_CTRL and the port map (R268, R270, R287) -/

/-- A write of PRT_CTRL. -/
def writePrtCtrl (s : State) (p : PortId) (v : Word) : State :=
  let was := enabled s p
  let s1 := setReg s (rPort p 0) (v &&& 5)
  if was && !getB v 0 then setLstate (if portActive s1 p then declareDown s1 p none else s1) p 0
  else if !was && getB v 0 then if flag s1 rCfgStatus 31 then enterDetect s1 p else s1
  else if getB v 1 ∧ (lstate s1 p = 7 ∨ lstate s1 p = 3) then enterDetect s1 p
  else s1

/-- RETRAIN: PRT_CTRL written with RETRAIN = 1. -/
def execRetrain (p : PortId) (value : Word) (s : State) : Host.Outcome State Fault Refusal :=
  .next (writePrtCtrl s p (value ||| 2))

/-- ENABLE: PRT_CTRL written with ENABLE = 0. -/
def execEnable (p : PortId) (value : Word) (s : State) : Host.Outcome State Fault Refusal :=
  .next (writePrtCtrl s p (value &&& 0xFFFFFFFE))

/-- The physical ports a map value gives to the eight logical ports of its register. -/
def mapPorts (v : Word) : List Nat := (upTo 8).map (fun i => getF v (4 * i) 4)

/-- A group of this device's manifest is remappable and holds both ports. -/
def groupHolds (s : State) (a b : Nat) : Bool :=
  isListed s && (groups (installed s)).any (fun g => (g.node = deviceCoord s || g.node = 0xFFFF) && g.flags % 2 = 1
    && decide (g.ports / 2 ^ a % 2 = 1) && decide (g.ports / 2 ^ b % 2 = 1))

/-- A write of PRT_PORT_MAP_LO or _HI: accepted with its changed ports retrained, or dropped with REFUSED. -/
def writePortMap (s : State) (hi : Bool) (v : Word) : State :=
  let base := if hi then 8 else 0
  let o := if hi then rPortMapHi else rPortMapLo
  let l := mapPorts v
  let perm := (upTo 8).all (fun i => l.contains (base + i))
  let moved := (List.zip (upTo 8) l).all (fun e => base + e.1 = e.2 || groupHolds s (base + e.1) e.2)
  if weaveActive s || weavePending s || !perm || !moved then setFlag s rMapStatus 1 true
  else
    let changed := (List.zip (upTo 8) l).filter (fun e => decide (getF (reg s o) (4 * e.1) 4 ≠ e.2))
    let s1 := setReg s o v
    let s2 := setFlag s1 rMapStatus 0
      (decide (reg s1 rPortMapLo ≠ 0x76543210) || decide (reg s1 rPortMapHi ≠ 0xFEDCBA98))
    let s3 := forEach changed s2 (fun t e => setField t (rPort (toPort e.2) 0x38) 20 4 (base + e.1))
    forEach changed s3 (fun t e => enterDetect t (toPort e.2))

/-- PRT_PORT_MAP_WRITE. -/
def execPrtPortMapWrite (hi : Bool) (value : Word) (s : State) : Host.Outcome State Fault Refusal :=
  .next (writePortMap s hi value)

end Sys2Proof.Machine
end

