-- ==== Sys2Proof/Machine/PodCycle.lean ====
section
/-! DEFINITION. POD_CYCLE and the rows of what becomes due in a Pod: results (R162), buffers (R146, R96), accumulators (R145),
ranges (R160) and windows (R95). One Pod cycle settles what is due, issues the next bundle or counts why it does not (R164),
serves the rounding units (R46, R145) and the banks (R169 to R174), applies the issue rate (R373) and advances the phase. -/

namespace Sys2Proof.Machine

/-! ## Delays (R144, R172) -/

/-- A figure of operation `op` that lies after cycle `now` moves one cycle later. -/
def delayDue (op now : Nat) (d : Due) : Due := if d.op = op ∧ now < d.cyc then { d with cyc := d.cyc + 1 } else d

/-- Delay an operation's figures in an engine. -/
def delayEngine (op now : Nat) (e : Engine) : Engine :=
  let dd := delayDue op now
  { e with
    bufs := e.bufs.map (fun b => { b with ready := dd b.ready, used := dd b.used })
    nextMma := e.nextMma.map dd
    activeUntil := e.activeUntil.map dd
    admitFrom := e.admitFrom.map dd
    drainReady := e.drainReady.map dd
    contReady := e.contReady.map dd
    accFree := e.accFree.map dd
    drains := e.drains.map (fun d => if d.op = op ∧ now < d.next then { d with next := d.next + 1 } else d) }

/-- A number of an operation that lies after `now` moves one later. -/
def delayNat (same : Bool) (now n : Nat) : Nat := if same && decide (now < n) then n + 1 else n

/-- Every later figure of an operation moves one cycle later. -/
def delayFigures (x : Pod) (op : Nat) : Pod :=
  let now := x.core.cycle
  let te : TreeEngine := { x.te with
    halves := x.te.halves.map (fun h => { h with loads := h.loads.map (delayDue op now) })
    windows := x.te.windows.map (fun w => { w with due := delayNat (decide (w.op = op)) now w.due })
    nloads := x.te.nloads.map (delayDue op now) }
  { x with
    me := x.me.map (delayEngine op now)
    te := te
    pend := x.pend.map (fun w => { w with due := delayNat (decide (w.op = op)) now w.due })
    ranges := x.ranges.map (fun r => { r with due := r.due.map (delayNat (decide (r.op = op)) now) }) }

/-- Every later step and figure of an operation moves one cycle later. -/
def delayOp (x : Pod) (op : Nat) : Pod :=
  let y := delayFigures x op
  { y with lines := y.lines.map (fun l => if l.op = op ∧ y.core.cycle ≤ l.nextAt then { l with nextAt := l.nextAt + 1 } else l) }

/-! ## Rounding slots (R46, R145) -/

/-- The drain that takes an engine's rounding slot in cycle `c`: the whole array, else the lowest quadrant; of two drains of the same quadrant or of
the whole array the older. R46 orders different quadrants only; that the whole array goes first and the older before the younger is the model's
choice (DESIGN CHOICE, log 58). -/
def slotWinner (c : Nat) (l : List Drain) : Option Drain :=
  let due := l.filter (fun d => decide (d.next ≤ c))
  match due.find? (fun d => d.quad = 4) with
  | some d => some d
  | none => (upTo 4).findSome? (fun q => due.find? (fun d => d.quad = q))

/-- The winner's row is taken: its write is presented in the cycle after it is rounded. -/
def takeSlot (m : Nat) (x : Pod) (d : Drain) : Pod :=
  let c := x.core.cycle
  let order := (m * 8 + (if d.quad < 4 then d.quad + 1 else 0)) * 8
  let row := d.rows.headD (0, 0)
  let line : LineStream := ⟨d.op, 1, order, true, row.1, row.2, row.2, c + d.latency + 1, 1, 1, []⟩
  let rest := fun (e : Drain) => if e.op = d.op then { e with next := c + 1, rows := e.rows.tail } else e
  { x with
    lines := x.lines ++ [line]
    me := vmod x.me (fin 4 (by decide) m) (fun e =>
      { e with drains := (e.drains.map rest).filter (fun e => !e.rows.isEmpty) }) }

/-- One engine's rounding unit in the present cycle; each loser waits a cycle and counts ME_DRAIN. The lines of rows that have been through the
slot keep their cycles (R145). -/
def roundEngine (s : State) (p : PodId) (m : Nat) : State :=
  let x := pod s p
  let c := x.core.cycle
  let drains := (vget x.me (fin 4 (by decide) m)).drains
  match slotWinner c drains with
  | none => s
  | some d =>
    let losers := drains.filter (fun e => decide (e.next ≤ c) && decide (e.op ≠ d.op))
    let later := fun (y : Pod) (e : Drain) =>
      let y := delayFigures y e.op
      { y with me := vmod y.me (fin 4 (by decide) m) (fun g =>
          { g with drains := g.drains.map (fun k => if k.op = e.op then { k with next := c + 1 } else k) }) }
    add64 (setPod s p (losers.foldl later (takeSlot m x d))) (rPod p (0x200 + 8 * 0x18)) losers.length

/-! ## The issue rate (R373) -/

/-- An engine under rate `m` admits operands in the cycle of phase `n`. -/
def admits (m n : Nat) : Bool := decide (n % 8 * m / 8 < (n % 8 + 1) * m / 8)

/-- The operations of an engine whose operands enter in cycle `c`. -/
def admitting (e : Engine) (c : Nat) : List Nat :=
  nub ((List.finRange 4).filterMap (fun q =>
    if (vget e.admitFrom q).cyc ≤ c ∧ c < (vget e.activeUntil q).cyc then some (vget e.activeUntil q).op else none))

/-! ## Banks (R166, R169 to R174) -/

/-- The bank index of a line. -/
def bankOf (a : Nat) : Nat :=
  if isHusk a then Nat.xor (a / 64 % 64) (a / 4096 % 64) else Nat.xor (a / 128 % 32) (a / 4096 % 32)

/-- The port of a bank that a request needs: read and write ports of near banks, one port of Husk banks. -/
def bankPort (a : Nat) (write : Bool) : Nat := if isHusk a then 64 + bankOf a else 2 * bankOf a + b2n write

/-- A Husk bank accepts accesses in its phase only. -/
def phaseOk (n a : Nat) : Bool := !isHusk a || decide ((n + bankOf a / 32) % 2 = 0)

/-- Grant what can be granted of a list of lines: the ports now used, the lines refused. -/
def grantLines (n : Nat) (write : Bool) : List Nat → List Nat → List Nat × List Nat
  | used, [] => (used, [])
  | used, a :: l =>
    if phaseOk n a && !used.contains (bankPort a write) then grantLines n write (bankPort a write :: used) l
    else
      let r := grantLines n write used l
      (r.1, a :: r.2)

/-- The lines a stream presents in the present cycle. -/
def presented (l : LineStream) : List Nat := if l.refused.isEmpty then lineAddrs l.base l.width else l.refused

/-- A stream's rank among the requests of a cycle. -/
def streamLe (a b : LineStream) : Bool := decide (a.rank < b.rank) || (decide (a.rank = b.rank) && decide (a.order ≤ b.order))

/-- What one cycle of arbitration leaves: the streams that go on, each stream with the lines granted to it, and the streams of which a bank
refused a line. -/
structure Arbitration where
  next : List LineStream
  granted : List (LineStream × List Nat)
  refused : List LineStream
  deriving DecidableEq, Repr

/-- A stream whose step has been granted in cycle `n` goes on with its next step. -/
def nextStep (n : Nat) (l : LineStream) : List LineStream :=
  if l.stepsLeft ≤ 1 then []
  else [{ l with base := l.base + l.stride, stepsLeft := l.stepsLeft - 1, nextAt := n + l.every, refused := [] }]

/-- One cycle of arbitration over the ranked streams, given the ports already used (R169 to R173). -/
def arbitrate (n : Nat) : List Nat → List LineStream → Arbitration
  | _, [] => ⟨[], [], []⟩
  | used, l :: t =>
    if n < l.nextAt then
      let r := arbitrate n used t
      { r with next := l :: r.next }
    else
      let lines := presented l
      let g := grantLines n l.write used lines
      let r := arbitrate n g.1 t
      let taken := (l, lines.filter (fun a => !g.2.contains a))
      if g.2.isEmpty then ⟨nextStep n l ++ r.next, taken :: r.granted, r.refused⟩
      else ⟨{ l with refused := g.2, nextAt := n } :: r.next, taken :: r.granted, l :: r.refused⟩

/-- Lines of 64 bytes granted. -/
def linesGranted (l : List (LineStream × List Nat)) : Nat :=
  (l.map (fun e => e.2.length * (if isHusk e.1.base then 1 else 2))).sum

/-! ## What a grant does (R167, R168) -/

/-- The bytes of a granted line that its stream asks for, as a span of store offsets. -/
def grantSpan (l : LineStream) (a : Nat) : Nat × Nat :=
  let hi := a + (if isHusk a then 64 else 128)
  if l.width = 0 then (a, hi) else (max a l.base, min hi (l.base + l.width))

/-- The part of a write that lies in [lo, hi), and the parts that do not. -/
def cutWrite (lo hi : Nat) (w : Nat × List Byte) : List (Nat × List Byte) × List (Nat × List Byte) :=
  let x := max w.1 lo
  let y := min (w.1 + w.2.length) hi
  if x < y then
    ([(x, sliceB w.2 (x - w.1) (y - x))],
      [(w.1, w.2.take (x - w.1)), (y, w.2.drop (y - w.1))].filter (fun e => !e.2.isEmpty))
  else ([], [w])

/-- A write line granted in cycle `n`: its bytes are visible three cycles later in near store and eight in Husk store (R167). The last line of
a commit's unit, or of a write of the on-die network, gives its range a release (R175, R309). -/
def landLine (p : PodId) (n : Nat) (l : LineStream) (x : Pod) (a : Nat) : Pod :=
  let sp := grantSpan l a
  let due := n + (if isHusk a then 8 else 3)
  { x with ranges := x.ranges.map (fun r =>
      if r.op = l.op && r.write then
        let parts := r.writes.map (cutWrite (podAddr p sp.1) (podAddr p sp.2))
        let left := parts.flatMap (·.2)
        { r with
          writes := left
          landing := r.landing ++ (parts.flatMap (·.1)).map (fun w => (due, w.1, w.2))
          due := if 7 ≤ r.cls && left.isEmpty then some due else r.due }
      else r) }

/-- The bytes of a read's pieces with those in [lo, hi) as the store holds them now. -/
def refreshBytes (s : State) (p : PodId) (lo hi : Nat) : List (Nat × Nat) → List Byte → List Byte
  | [], b => b
  | (a, n) :: l, b =>
    let x := max a lo
    let y := min (a + n) hi
    let here := b.take n
    (if x < y then here.take (x - a) ++ memRead s (podAddr p x) (y - x) ++ here.drop (y - a) else here)
      ++ refreshBytes s p lo hi l (b.drop n)

/-- A read takes the bytes of [lo, hi) as the store holds them now (R167). -/
def refreshJob (s : State) (p : PodId) (lo hi : Nat) (x : Pod) (j : ReadJob) : Pod :=
  let n := (j.pieces.map (·.2)).sum
  let get := refreshBytes s p lo hi j.pieces
  match j.target with
  | .result => { x with pend := x.pend.map (fun w =>
      if w.op = j.op then { w with value := BitVec.ofNat 8192 (leNat (get (leBytes n w.value.toNat))) } else w) }
  | .bbuf e b => { x with me := vmod x.me e (fun g => { g with bufs := vmod g.bufs b (fun u =>
      if u.ready.op = j.op then { u with data := get u.data } else u) }) }
  | .half h => { x with te := { x.te with halves := vmod x.te.halves h (fun u =>
      if (u.loads.getLast?.map (·.op)) = some j.op then
        { u with words := (chunksB 4 u.words.length (get (u.words.flatMap (fun w => leBytes 4 w.toNat)))).map (fun b => BitVec.ofNat 32 (leNat b)) }
      else u) } }
  | .token q => { x with outq := vmod x.outq q (fun o => { o with tokens := o.tokens.map (fun t =>
      if t.op = j.op then { t with data := get t.data } else t) }) }
  | .nodes _ => x
  | .copy dst =>
    let src := (j.pieces.headD (0, 0)).1
    let one := fun (w : Nat × List Byte) => (w.1, refreshBytes s p lo hi [(src + (w.1 - podAddr p dst), w.2.length)] w.2)
    { x with ranges := x.ranges.map (fun r => if r.op = j.op && r.write then { r with writes := r.writes.map one } else r) }

/-- The node slots of a TE.NLOAD take the bytes of [lo, hi) as the store holds them now (R94, R167). -/
def refreshNodes (p : PodId) (lo hi : Nat) (s : State) (j : ReadJob) : State :=
  match j.target, j.pieces with
  | .nodes dst, (a, n) :: _ =>
    let x := max a lo
    let y := min (a + n) hi
    if x < y then memWrite s (podAddr p (dst + (x - a))) (memRead s (podAddr p x) (y - x)) else s
  | _, _ => s

/-- The operands of an ME.MMA take the bytes of [lo, hi) as the store holds them now (R167). -/
def refreshMma (s : State) (p : PodId) (op lo hi : Nat) (j : MmaJob) : MmaJob :=
  if j.op = op then
    let d := refreshBytes s p lo hi j.pieces j.data
    { j with data := d, changed := j.changed || decide (d ≠ j.data) }
  else j

/-- A read of the on-die network takes the bytes of [lo, hi) as the store holds them now (R167, R175). -/
def refreshNet (s : State) (p : PodId) (op lo hi : Nat) (j : NetJob) : NetJob :=
  if j.op = op ∧ j.pod = p then { j with data := refreshBytes s p lo hi j.pieces j.data } else j

/-- The bytes of an M.COPY that a granted line writes enter the pair digest (R323). -/
def digestLine (p : PodId) (l : LineStream) (s : State) (lo hi : Nat) : State :=
  let parts := ((pod s p).ranges.filter (fun r => r.op = l.op && r.write && r.digest)).flatMap (fun r =>
    r.writes.flatMap (fun w => (cutWrite (podAddr p lo) (podAddr p hi) w).1))
  forEach parts s (fun t w => digestWrite t p 3 w.1 w.2)

/-- A granted line: a write is on its way into the store, and a read takes the bytes that stand there. -/
def takeLine (p : PodId) (n : Nat) (l : LineStream) (s : State) (a : Nat) : State :=
  let sp := grantSpan l a
  if l.write then
    let t := digestLine p l s sp.1 sp.2
    writeResults (fun r => r.1 = l.op && r.2.1 = l.base) (setPod t p (landLine p n l (pod t p) a)) p
  else if 5 ≤ l.rank then modMisc s (fun m => { m with netJobs := m.netJobs.map (refreshNet s p l.op sp.1 sp.2) })
  else
    let x := pod s p
    let jobs := x.reads.filter (fun j => j.op = l.op)
    let y := jobs.foldl (refreshJob s p sp.1 sp.2) { x with mmas := x.mmas.map (refreshMma s p l.op sp.1 sp.2) }
    forEach jobs (setPod s p y) (refreshNodes p sp.1 sp.2)

/-- A read is over once no stream presents lines for it; so is the hold on the source of a Q.STORE or TW operation (R160, R188). -/
def dropReads (x : Pod) : Pod :=
  { x with
    reads := x.reads.filter (fun j => sourceOpen x j.op)
    ranges := x.ranges.filter (fun r => decide (r.cls ≠ 4) || r.write || r.due.isSome || sourceOpen x r.op) }

/-- The ME.MMAs whose operands have all been read are finished. -/
def finishMmas (s : State) (p : PodId) : State :=
  let x := pod s p
  let read := x.mmas.filter (fun j => !sourceOpen x j.op)
  if read.isEmpty then s
  else forEach read (setPod s p { x with mmas := x.mmas.filter (fun j => sourceOpen x j.op) }) (finishMma p)

/-- What the banks of a Pod have granted to the twine plane goes on (R175, R256, R307): packets of this device to itself, and those in the receive
buffers of the ports. -/
def resumeTwine (s : State) (p : PodId) : State :=
  let ready := s.misc.netJobs.filter (fun j => decide (j.pod = p) && netDone s j)
  let one := fun (t : State) (j : NetJob) =>
    match j.key with
    | .packet none _ _ => settleLocal t
    | .packet (some i) k _ =>
      if channelOf k = 0 then settleLocal (serveRequest t (some i) k) else settleRsp (settleLocal (deliverWrite t (some i) k)) i
    | _ => t
  forEach ready s one

/-- Engines that admit operands in the present cycle: one whose lines a bank has refused does not (R72, R144). -/
def engineBusy (s : State) (x : Pod) (late : List Nat) : Nat :=
  if admits (field s rPwrStatus 0 4) x.core.cycle then
    (x.me.toList.filter (fun e => (admitting e x.core.cycle).any (fun o => !late.contains o))).length
  else 0

/-- The products that the operations admitting operands in this cycle form: those of the operands that enter (R72). -/
def formStep (c : Nat) (late : List Nat) (e : Engine) : Engine × Nat :=
  let ops := (admitting e c).filter (fun o => !late.contains o)
  ({ e with forming := (e.forming.map (fun f => if ops.contains f.op then { f with left := f.left - f.per } else f)).filter (fun f => f.left ≠ 0) },
    ((e.forming.filter (fun f => ops.contains f.op)).map (fun f => min f.per f.left)).sum)

/-- POD_ME_PRODUCTS in a cycle of the issue rate's grant (R72, R373). -/
def formProducts (s : State) (p : PodId) (late : List Nat) : State :=
  let x := pod s p
  if admits (field s rPwrStatus 0 4) x.core.cycle then
    let r := x.me.toList.map (formStep x.core.cycle late)
    let n := (r.map (·.2)).sum
    if n = 0 then s
    else add64 (setPod s p { x with me := x.me.map (fun e => (formStep x.core.cycle late e).1) }) (rPod p 0x408) n
  else s

/-- Engines that admit operands count in POD_ME_BUSY (R72) and as engine cycles (R379). -/
def countBusy (s : State) (p : PodId) (n : Nat) : State :=
  if n = 0 then s
  else add64 { s with power := { s.power with meCycles := s.power.meCycles + n } } (rPod p 0x410) 1

/-- The requests of the on-die network at the banks of a Pod. -/
def netLinesOf (s : State) (p : PodId) : List LineStream := (s.misc.netLines.filter (fun e => e.1 = p)).map (·.2)

/-- Replace them. -/
def setNetLines (s : State) (p : PodId) (l : List LineStream) : State :=
  modMisc s (fun m => { m with netLines := m.netLines.filter (fun e => e.1 ≠ p) ++ l.map (fun e => (p, e)) })

/-- The banks' part of a Pod cycle: a refused line is presented again, its operation moves one cycle later and counts BANK. The on-die
network's requests come last; they are no operation of the Pod, and their refusals count nowhere (DEDUCED from R173 and R174, log 57). -/
def bankCycle (s0 : State) (p : PodId) : State :=
  let x := pod s0 p
  let n := x.core.cycle
  let r := arbitrate n [] (sortBy streamLe (x.lines ++ netLinesOf s0 p))
  let late := nub ((r.refused.filter (fun l => decide (l.rank < 5))).map (·.op))
  let s := formProducts (countBusy s0 p (engineBusy s0 x late)) p late
  let s1 := modPod s p (fun y => { y with lines := r.next.filter (fun l => decide (l.rank < 5)) })
  let s2 := setNetLines s1 p (r.next.filter (fun l => decide (5 ≤ l.rank)))
  let s3 := forEach r.granted s2 (fun t e => forEach e.2 t (takeLine p n e.1))
  let s4 := sendTwines (finishMmas (modPod s3 p (fun y => dropReads (late.foldl delayOp y))) p) p
  add64 { s4 with power := { s4.power with lines := s4.power.lines + linesGranted r.granted } } (rPod p (0x200 + 8 * 0x1A)) late.length

/-! ## The issue rate's part of a cycle (R373) -/

/-- The engines' part of a Pod cycle: a cycle that the rate withholds counts ME_RATE for each engine and delays its operations. -/
def rateCycle (s : State) (p : PodId) : State :=
  let x := pod s p
  let c := x.core.cycle
  let ops := x.me.toList.map (fun e => admitting e c)
  if admits (field s rPwrStatus 0 4) c then s
  else add64 (setPod s p ((ops.flatten).foldl delayOp x)) (rPod p (0x200 + 8 * 0x19)) (ops.filter (fun l => !l.isEmpty)).length

/-! ## Counters of a cycle -/

/-- Engines active in the present cycle, over the device. -/
def enginesActive (s : State) : Nat :=
  (allPods.map (fun p => ((pod s p).me.toList.filter (fun e => engineActive e (pod s p).core.cycle)).length)).sum

/-- PWR_ENVELOPE.PEAK (R379), Tree Engine compares (R102), and the L walk cycles of a window, from the third after its issue on (R95, R379). -/
def countCycle (s : State) (p : PodId) : State :=
  let x := pod s p
  let c := x.core.cycle
  let busy := (x.me.toList.filter (fun e => engineActive e c)).length
  let walking := x.te.windows.any (fun w => decide (w.issued + 3 ≤ c) && decide (c < w.issued + 3 + w.length))
  let peak := if busy = 0 then 0 else enginesActive s
  let s2 := if field s rPwrEnvelope 16 9 < peak then setField s rPwrEnvelope 16 9 peak else s
  countCompares { s2 with power := { s2.power with teCycles := s2.power.teCycles + b2n walking } } p

/-- A Pod cycle of a region passes, in the cycle of its lowest Pod: a stretched one counts, and the supply has been above both thresholds one
cycle longer (R364). -/
def countStretch (s : State) (p : PodId) : State :=
  let r := fin 16 (by decide) (p.val / 4)
  let n := vget s.clock.stretch r
  if p.val % 4 ≠ 0 then s
  else
    let s1 := { s with clock := { s.clock with since25 := vmod s.clock.since25 r (· + 1), since50 := vmod s.clock.since50 r (· + 1) } }
    if n = 0 then s1 else addSat s1 (if n = 50 then rStretch50 r.val else rStretch25 r.val) 1

/-! ## The bundle of a cycle -/

/-- A stalled cycle counts under one cause (R164). -/
def stallAt (s : State) (p : PodId) (cause : Nat) : State :=
  add64 (add64 s (rPod p (0x200 + 8 * cause)) 1) (rPod p 0x110) 1

/-- The debug port answers a command (R427). -/
def debugAnswer (s : State) (data : Nat) (addr : BitVec 48) (status : Nat) : State :=
  let d := { s.dport with
    rspData := BitVec.ofNat 64 data, rspAddr := addr, rspStatus := BitVec.ofNat 8 status }
  emit { s with dport := d } (.debugRsp (BitVec.ofNat 64 data) addr (BitVec.ofNat 8 status))

/-- The bundle issued: counters, and the halts that follow it (R429, R430). -/
def afterIssue (s : State) (p : PodId) (hit : Option Nat) (stepping : Bool) : State :=
  let s1 := add64 (add64 s (rPod p 0x118) 1) (rPod p 0x110) 1
  let s2 := modCore s1 p (fun k => { k with upSince := none, skipBreak := false, frameBundles := k.frameBundles + 1 })
  let s3 := match hit with
    | some n => haltAt s2 p 4 n
    | none => s2
  if stepping then
    let s4 := if hit.isNone then haltPod s3 p 2 0 else s3
    if s4.dport.stepPod = some p then debugAnswer { s4 with dport := { s4.dport with stepPod := none } } 0 s4.dport.rspAddr 0 else s4
  else s3

/-- All operations of a bundle issue, in the order of their slots (R132). -/
def issueSlots (s : State) (p : PodId) (ops : List SlotOp) : State × Bool :=
  ops.foldl (fun r o =>
    let t := issueOp r.1 p o
    (t.1, r.2 || t.2)) (s, false)

/-- The bundle `b` issues. The first bundle of a frame is its resume bundle, from which C.RDS counts (R155). R156 does not say whether the test
of the open loop's END follows a bundle that takes a branch, C.CALL, C.RET or a C.LOOP of count 0: the target goes before, and the test is not
made (DESIGN CHOICE, log 65). -/
def issueBundle (s0 : State) (p : PodId) (b : Nat) (ops : List SlotOp) : State :=
  let hit := watchHit s0 p ops
  let stepping := (pod s0 p).core.stepping
  let s := modCore s0 p (fun k => if k.frameBundles = 0 then { k with resumeCycle := k.cycle } else k)
  let r := issueSlots s p ops
  let s1 := if r.2 then r.1 else advancePc r.1 p b
  afterIssue s1 p hit stepping

/-- A bundle that has come up stalls under the lowest cause present, or issues. -/
def tryIssue (s : State) (p : PodId) (b : Nat) (ops : List SlotOp) : State :=
  match bundleStalls s p ops with
  | [] => issueBundle s p b ops
  | c :: l => stallAt s p (l.foldl min c)

/-- The next bundle comes up for issue: breakpoint, trap check in its first cycle (R158, R430), then stalls. R164 does not say what the cycle in
which a bundle traps counts under: under no cause, nor in POD_CYCLES (DESIGN CHOICE, log 65). -/
def bundleUp (s : State) (p : PodId) : State :=
  let x := pod s p
  let b := pcOf s p
  let beyond := x.core.beyond || decide ((pReg s p 0x108).toNat ≤ b)
  let ops := if beyond then [] else bundleSlots (x.code.getD b 0)
  if x.core.upSince.isSome then tryIssue s p b ops
  else
    let brk := if x.core.skipBreak || x.core.beyond then none else breakAt x b
    match brk with
    | some n => stallAt (modCore (haltAt s p 3 n) p (fun k => { k with skipBreak := true })) p 0
    | none =>
      if beyond then trapPod s p 7 [tPc]
      else
        match bundleTraps (withPending s p) p [] ops with
        | some t => trapPod s p t.1 t.2
        | none => tryIssue (modCore s p (fun k => { k with upSince := some k.cycle, selSeen := [] })) p b ops

/-- What the control core does in a cycle. The resume bundle of a frame, its first, issues in a cycle with n even only (R171). R157 does not say which
cause counts while the resume bundle itself stalls: its own in even cycles, and FRAME_WAIT in the odd ones, in which it may not issue (DESIGN
CHOICE, log 65). -/
def coreCycle (s : State) (p : PodId) : State :=
  let k := (pod s p).core
  if podHalted s p then stallAt s p 0
  else if !podRunning s p then s
  else if podAtFend s p || decide (k.cycle < k.resumeCycle) || (k.frameBundles = 0 && k.cycle % 2 = 1) then stallAt s p 1
  else if k.cycle < k.holdUntil then stallAt s p (if k.holdIdle then 0x17 else 0x16)
  else bundleUp s p

/-! ## POD_CYCLE -/

/-- Everything due by the present cycle takes effect (R162). -/
def settleDue (s : State) (p : PodId) : State :=
  let s1 := modPod s p (settlePend (fun _ => true))
  settleTeCfg (settleWindows (settleRanges (fun _ => true) (settleLandings s1 p) p) p) p

/-- The debug port asks the banks of a Pod for 8 bytes at a device address, at rank 5 (R169, R431). -/
def startDebug (s : State) (a : BitVec 48) (w : Option Word64) : State :=
  let p := podOfAddr a.toNat
  let o := offsetOf a.toNat
  match w with
  | some v => startWrite s p (.debug true a) o 8 [(o, leBytes 8 v.toNat)]
  | none => askRead s p (.debug false a) [(o, 8)]

/-- A debug write into the node region that waits for the Tree Engine asks the banks once no window walks (R431). -/
def startHeldWrite (s : State) (p : PodId) : State :=
  match s.dport.heldWrite with
  | some (a, v) =>
    let x := pod s p
    if podOfAddr a.toNat = p ∧ !x.te.windows.any (winWalking x.core.cycle) then
      startDebug { s with dport := { s.dport with heldWrite := none } } a (some v)
    else s
  | none => s

/-- An access of the debug port to a Pod store is answered once the banks have granted it (R431): a read with the bytes granted, and with status
ECC where they are marked uncorrectable. -/
def answerDebug (s : State) (p : PodId) : State :=
  match s.misc.netJobs.find? (fun j => decide (j.pod = p) && (match j.key with | .debug _ _ => true | _ => false) && netDone s j) with
  | some j =>
    match j.key with
    | .debug true a => debugAnswer (closeJob s j.key) 0 a 0
    | .debug false a => debugAnswer (closeJob s j.key) (leNat j.data) a (if (eccIn s 2 a.toNat 8).isEmpty then 0 else 5)
    | _ => s
  | none => s

/-- One Pod cycle, while the Pod's clock runs. The core counts its cycles where it has code or is halted (R164, R165). -/
def podCycle (s : State) (p : PodId) : State :=
  let s1 := startHeldWrite (answerDebug (resumeTwine (settleDue s p) p) p) p
  let s2 := if hasCode s1 p || podHalted s1 p then coreCycle s1 p else s1
  let s3 := (upTo 4).foldl (fun t m => roundEngine t p m) s2
  let s4 := countStretch (countCycle (bankCycle (rateCycle s3 p) p) p) p
  modCore s4 p (fun k => { k with cycle := k.cycle + 1 })

/-- POD_CYCLE. -/
def execPodCycle (p : PodId) (s : State) : Host.Outcome State Fault Refusal :=
  .next (if podClockRuns s p then podCycle s p else s)

/-! ## What becomes due -/

/-- RESULT_READABLE: the results of a register that are due are written to it (R162). -/
def execResultReadable (p : PodId) (d : Dest) (s : State) : Host.Outcome State Fault Refusal :=
  .next (modPod s p (settlePend (fun w => w.dest = d)))

/-- The operations that load a buffer. -/
def bufferOps (x : Pod) : BufferName → List Nat
  | .bb e b => [(vget (vget x.me e).bufs b).ready.op]
  | .fb h => (vget x.te.halves h).loads.map (·.op)
  | .nodes => x.te.nloads.map (·.op)

/-- BUFFER_COMPLETE: the load's source ranges that are due are released (R96, R146, R160). -/
def execBufferComplete (p : PodId) (b : BufferName) (s : State) : Host.Outcome State Fault Refusal :=
  let ops := bufferOps (pod s p) b
  .next (settleRanges (fun r => ops.contains r.op) s p)

/-- A figure that is reached holds nothing back. -/
def clearReached (now : Nat) (d : Due) : Due := if d.cyc ≤ now then Due.zero else d

/-- ACCUMULATOR_FREE: accumulators whose last row has been rounded may be started again (R145). -/
def execAccumulatorFree (p : PodId) (e : EngineId) (s : State) : Host.Outcome State Fault Refusal :=
  .next (modPod s p (fun x => { x with
    me := vmod x.me e (fun g => { g with accFree := g.accFree.map (clearReached x.core.cycle) }) }))

/-- RANGE_RELEASE: an operation's ranges that are due are released, and the source of a Q.STORE or TW operation once its last line has been
read (R160, R188). -/
def execRangeRelease (p : PodId) (op : Nat) (s : State) : Host.Outcome State Fault Refusal :=
  let s1 := settleRanges (fun r => r.op = op) s p
  .next (modPod s1 p (fun x => { x with
    ranges := x.ranges.filter (fun r => !(r.op = op && r.due.isNone && !r.write && r.cls = 4 && !sourceOpen x op)) }))

/-- TE_WINDOW_DONE: windows due set their flags, and their records become visible (R95, R102). -/
def execTeWindowDone (p : PodId) (s : State) : Host.Outcome State Fault Refusal :=
  let ops := ((pod s p).te.windows.filter (fun w => decide (w.due ≤ (pod s p).core.cycle))).map (·.op)
  .next (settleTeCfg (settleRanges (fun r => ops.contains r.op) (settleWindows s p) p) p)

end Sys2Proof.Machine
end

