-- ==== Sys2Proof/Machine/Clock.lean ====
section
/-! DEFINITION. Clocks (R354 to R370): reference loss and return, PLL locks, the Keeper's multiplexer, gating, P-step changes, droop
stretching and the frequency counter, with their rows. -/

namespace Sys2Proof.Machine

/-! ## Reference and PLLs (R366 to R368) -/

/-- A port goes to OFF. -/
def portOff (s : State) (p : PortId) : State :=
  let s1 := setLstate s p 0
  if func s1 (fLink p) = 2 then setLink s1 p 1 0 else s1

/-- Every port goes to OFF. -/
def portsOff (s : State) : State := forEach allPorts s portOff

/-- TIM_CTRL.SYNCED changes, and TIME with it (R386, R406). -/
def setSynced (s : State) (b : Bool) : State :=
  let s1 := setFlag s rTimCtrl 2 b
  if b ∧ func s1 fTime = 1 then setFunc s1 fTime 2 0
  else if b = false ∧ func s1 fTime = 2 then setFunc s1 fTime 1 0
  else s1

/-- REFOUT is driven: it is enabled, the reference is present and the device is out of reset. Else both its legs are low (R366, R447). -/
def refoutDriven (s : State) : Bool := flag s rClkRefout 31 && refRuns s

/-- The reference is lost: every clock stops, every port enters OFF, the links of PCIe and of the management port, whose transmitter is disabled, are
down, the Keeper is held in reset and Root memory has to train again (R366, R386). A switch of the Keeper's multiplexer that hangs goes on
hanging (R359). -/
def loseReference (s : State) : State :=
  let s1 := raiseErr s 15 rErrClk 0 0xFF 0
  let s2 := setReg { s1 with clock := { s1.clock with refLost := true } } rClkStatus 0
  let s3 := setField s2 rClkKeeper 29 3 0
  let s4 := (upTo 12).foldl (fun t k => if func t (fRoot k) = 2 then setFunc t (fRoot k) 1 0 else t) (portsOff s3)
  let s5 := [fPcie, fMgmt].foldl (fun t f => if func t f = 2 then setFunc t f 1 0 else t) s4
  setSynced s5 false

/-- CLK_KEEPER once the reference is back: REF runs and KPLL stays off, so the Keeper runs on REF; a hung multiplexer keeps its switch in
progress (R359, R367; the SEL of a device whose SETTINGS name KPLL is DEDUCED, log 66). -/
def keeperOnRef (s : State) : State :=
  setReg s rClkKeeper (BitVec.ofNat 32 (2 ^ 31 + (if s.clock.keeperHung then b2n (flag s rClkKeeper 28) * 2 ^ 28 + b2n (flag s rClkKeeper 0) else 0)))

/-- The reference is back: the warm-reset flow, and every function reports readiness again (R367). -/
def returnReference (s : State) : State :=
  let s0 := warmReset (keeperOnRef { s with clock := { s.clock with refLost := false } }) 4
  let s1 := setFlag (keeperOnRef s0) rClkStatus 29 false
  if func s1 fPcie = 0 then s1 else setFunc s1 fPcie 1 0

/-- A PLL's bit of CLK_STATUS; REFOUT's has none. -/
def pllBit : Pll → Option Nat
  | .podRegion r => some r.val
  | .network d => some (20 + d.val)
  | .root d => some (24 + d.val)
  | .pcie => some 28
  | .fabric => some 30
  | .refout => none

/-- A PLL's code in the CLK capture (R413). -/
def pllCode : Pll → Nat
  | .podRegion r => r.val
  | .network d => 0x10 + d.val
  | .root d => 0x14 + d.val
  | .pcie => 0x18
  | .fabric => 0x30
  | .refout => 0x1A

/-- Write a PLL's lock bit. -/
def setLock (s : State) (p : Pll) (b : Bool) : State :=
  match pllBit p with
  | some i => setFlag s rClkStatus i b
  | none => s

/-- A PLL loses lock while the reference is present: its domain stops and the machine is faulted. -/
def losePll (s : State) (p : Pll) : State :=
  let s1 := setLock s p false
  let s2 := if p = .fabric then portsOff s1 else if p = .pcie ∧ func s1 fPcie = 2 then setFunc s1 fPcie 1 0 else s1
  raiseFault s2 15 rErrClk 1 (pllCode p) 0

/-! ## The Keeper clock (R359, R360, R378) -/

/-- A write of CLK_KEEPER: dropped where SEL names a clock that does not run. A move of SEL away from KPLL while it does not run, be it that this
write stops it or an earlier one has, hangs the multiplexer, and the switch stays in progress. -/
def writeClkKeeper (s : State) (v : Word) : State :=
  let sel := getB v 0
  let en := getB v 1
  let runs := if sel then flag s rClkKeeper 30 else flag s rClkKeeper 31
  if !runs then s
  else
    let hang := flag s rClkKeeper 0 && !sel && !(flag s rClkKeeper 30 && en)
    let s1 := setFlag (setField s rClkKeeper 0 2 (getF v 0 2)) rClkKeeper 30 en
    let s2 := if en then s1 else setKpllLock s1 false
    if hang then setFlag { s2 with clock := { s2.clock with keeperHung := true } } rClkKeeper 28 true else s2

/-! ## Gating (R358, R441) -/

/-- A write of CLK_GATE: a gated block stops and its registers take their reset values; MGMT follows its clock (R386). -/
def writeClkGate (s : State) (v : Word) : State :=
  let g := v &&& 0x7F
  let s1 := setReg s rClkGate g
  let s2 := if getB g 6 then s1
    else { resetRange s1 rFcountCtrl (rFcount + 4) with clock := { s1.clock with fcountRunning := false } }
  let s3 := if getB g 0 then s2 else resetRange s2 rPtpCtrl (rPtpLat + 4)
  if getB g 0 = false then if func s3 fMgmt = 4 then s3 else setFunc s3 fMgmt 4 0
  else if func s3 fMgmt ≠ 4 then s3
  else setFunc s3 fMgmt (if func s3 fKeeper = 2 then 1 else 0) 0

/-! ## P-steps (R24, R361, R362) -/

/-- The armed request's end: PENDING clears. -/
def dropRequest (s : State) : State :=
  setFlag { s with clock := { s.clock with request := none, finalPassed := false } } rPstepReq 29 false

/-- ARM: too late a stake sets LATE; another request PENDING drops it without a flag. -/
def armPstep (s : State) : State :=
  let n := reg64 s rPstepAt
  if flag s rPstepReq 29 then s
  else if n < stakeNo s + 128 then setFlag s rPstepReq 28 true
  else setFlag { s with clock := { s.clock with request := some (n, field s rPstepReq 0 3), finalPassed := false } } rPstepReq 29 true

/-- CANCEL: up to stake n − 9. -/
def cancelPstep (s : State) : State :=
  match s.clock.request with
  | some (n, _) => if stakeNo s + 9 ≤ n then dropRequest s else s
  | none => s

/-- A write of CLK_PSTEP_REQ. -/
def writePstepReq (s : State) (v : Word) : State :=
  let s1 := setField s rPstepReq 0 3 (getF v 0 3)
  let s2 := modReg s1 rPstepReq (fun w => w &&& ~~~ (v &&& 0x18000000))
  let s3 := if getB v 31 then armPstep s2 else s2
  if getB v 30 then cancelPstep s3 else s3

/-- The voltage of a step goes to the four VDD_CD rails over AVSBus, where that works (R358, R426). -/
def writeRails (s : State) (mv : Nat) : State :=
  if busRuns s 3 then (List.finRange 4).foldl (fun t r => emit t (.avs r mv)) s else s

/-- The request raises the voltage. -/
def raisesVoltage (s : State) (target : Nat) : Bool := decide (pstepMv s (pstepNow s) < pstepMv s target)

/-- A rail reports a voltage within 10 mV. -/
def railNear (mv want : Nat) : Bool := decide (mv ≤ want + 10) && decide (want ≤ mv + 10)

/-- The final check at stake n − 8. -/
def finalCheck (s : State) (target : Nat) (locked : BitVec 16) (railMv : List Nat) : Bool :=
  locked = 0xFFFF && (!raisesVoltage s target
    || (busRuns s 3 && (upTo 4).all (fun i => railNear (railMv.getD i 0) (pstepMv s target))))

/-! ## Droop (R364) -/

/-- The stretch that a supply `mv` below VDD_MV causes. -/
def stretchFor (s : State) (mv : Nat) : Nat := if field s rDroop 8 8 < mv then 50 else if field s rDroop 0 8 < mv then 25 else 0

/-- A detection starts the count of cycles above each threshold that the supply is below. -/
def droopDetect (s : State) (r : RegionId) (mv : Nat) : State :=
  let n := stretchFor s mv
  { s with clock := { s.clock with
      stretch := vmod s.clock.stretch r (max n)
      since25 := if 25 ≤ n then vput s.clock.since25 r 0 else s.clock.since25
      since50 := if 50 ≤ n then vput s.clock.since50 r 0 else s.clock.since50 } }

/-- The stretch that stays: one lasts 16 Pod cycles, and until the supply has been above its threshold for 16 cycles. Where the deeper one ends and
the supply is still below the other threshold, the lesser goes on (DEDUCED, log 29). -/
def stretchLeft (s : State) (r : RegionId) : Nat :=
  let n := vget s.clock.stretch r
  if n = 50 ∧ vget s.clock.since50 r < 16 then 50
  else if n ≠ 0 ∧ vget s.clock.since25 r < 16 then 25
  else 0

/-! ## The frequency counter (R370) -/

/-- A SOURCE code of R378. -/
def sourceOk (c : Nat) : Bool := decide (c ≤ 0x1A) || (decide (0x20 ≤ c) && decide (c ≤ 0x2F))

/-- A write of CLK_FCOUNT_CTRL. -/
def writeFcount (s : State) (v : Word) : State :=
  if !flag s rClkGate 6 then s
  else
    let s1 := setField (setField s rFcountCtrl 0 8 (getF v 0 8)) rFcountCtrl 20 4 (getF v 20 4)
    if !getB v 31 then s1
    else if sourceOk (getF v 0 8) then setFlag { s1 with clock := { s1.clock with fcountRunning := true } } rFcountCtrl 30 false
    else setFlag (setReg { s1 with clock := { s1.clock with fcountRunning := false } } rFcount 0) rFcountCtrl 30 true

/-! ## Rows -/

/-- REF_LOSS (R366). -/
def execRefLoss (s : State) : Host.Outcome State Fault Refusal := .next (loseReference s)

/-- REFERENCE_RETURN: the detector has counted consecutive edges; at 100,000 the reference is back (R367). -/
def execReferenceReturn (edges : Nat) (s : State) : Host.Outcome State Fault Refusal :=
  .next (if s.clock.refLost && decide (100000 ≤ edges) then returnReference s else s)

/-- PLL_UNLOCK (R368). -/
def execPllUnlock (pll : Pll) (s : State) : Host.Outcome State Fault Refusal := .next (if s.clock.refLost then s else losePll s pll)

/-- PLL_RELOCK (R368). -/
def execPllRelock (pll : Pll) (s : State) : Host.Outcome State Fault Refusal := .next (if s.clock.refLost then s else setLock s pll true)

/-- KPLL_LOCK: KPLL has locked. -/
def execKpllLock (s : State) : Host.Outcome State Fault Refusal := .next (if flag s rClkKeeper 1 && refRuns s then setKpllLock s true else s)

/-- KPLL_LOCK_LOSS (R360). -/
def execKpllLockLoss (s : State) : Host.Outcome State Fault Refusal := .next (setKpllLock s false)

/-- CLK_KEEPER_WRITE (R359). -/
def execClkKeeperWrite (value : Word) (s : State) : Host.Outcome State Fault Refusal := .next (writeClkKeeper s value)

/-- CLK_GATE_WRITE (R358). -/
def execClkGateWrite (value : Word) (s : State) : Host.Outcome State Fault Refusal := .next (writeClkGate s value)

/-- DROOP_DETECT: a region's supply is `belowMv` below the VDD_MV in force; the deeper stretch stays until its end (R364). -/
def execDroopDetect (r : RegionId) (belowMv : Nat) (s : State) : Host.Outcome State Fault Refusal := .next (droopDetect s r belowMv)

/-- STRETCH_END: a region's stretch ends once its cycles have passed (R364). -/
def execStretchEnd (r : RegionId) (s : State) : Host.Outcome State Fault Refusal :=
  .next { s with clock := { s.clock with stretch := vput s.clock.stretch r (stretchLeft s r) } }

/-- ARM: CLK_PSTEP_REQ is written with ARM = 1. -/
def execArm (value : Word) (s : State) : Host.Outcome State Fault Refusal := .next (writePstepReq s (value ||| 0x80000000))

/-- CANCEL: CLK_PSTEP_REQ is written with CANCEL = 1. -/
def execCancel (value : Word) (s : State) : Host.Outcome State Fault Refusal := .next (writePstepReq s (value ||| 0x40000000))

/-- PSTEP_VOLTAGE_RAISE: stake n − 64 of an armed request (R362). -/
def execPstepVoltageRaise (s : State) : Host.Outcome State Fault Refusal :=
  .next (match s.clock.request with
    | some (n, t) => if raisesVoltage s t && decide (stakeNo s + 64 = n) then writeRails s (pstepMv s t) else s
    | none => s)

/-- PSTEP_FINAL_CHECK: stake n − 8 (R362). -/
def execPstepFinalCheck (locked : BitVec 16) (railMv : List Nat) (s : State) : Host.Outcome State Fault Refusal :=
  .next (match s.clock.request with
    | some (n, t) =>
      if stakeNo s + 8 ≠ n then s
      else if finalCheck s t locked railMv then { s with clock := { s.clock with finalPassed := true } }
      else raiseErr (dropRequest s) 15 rErrClk 2 0xFF 0
    | none => s)

/-- All regions switch to the target P-step of the armed request for stake `n` (R7, R24, R362). -/
def switchPstep (s : State) (n t : Nat) : State :=
  let lower := if pstepMv s t < pstepMv s (pstepNow s) then some (n + 1, pstepMv s t) else none
  let s1 := dropRequest (setField s rPstepReq 8 3 t)
  { s1 with clock := { s1.clock with lowerAt := lower, podMhz := pstepClockMhz s t } }

/-- PSTEP_SWITCH: the final check point of stake n − 1, after a final check that has passed (R24, R362). -/
def execPstepSwitch (s : State) : Host.Outcome State Fault Refusal :=
  .next (match s.clock.request with
    | some (n, t) => if decide (stakeNo s + 1 = n) && atFinalCheck s && s.clock.finalPassed then switchPstep s n t else s
    | none => s)

/-- PSTEP_VOLTAGE_LOWER: stake n + 1 (R362). -/
def execPstepVoltageLower (s : State) : Host.Outcome State Fault Refusal :=
  .next (match s.clock.lowerAt with
    | some (n, mv) =>
      let s1 := writeRails s mv
      if stakeNo s = n then { s1 with clock := { s1.clock with lowerAt := none } } else s
    | none => s)

/-- START: CLK_FCOUNT_CTRL is written with START = 1 (R370). -/
def execStart (value : Word) (s : State) : Host.Outcome State Fault Refusal := .next (writeFcount s (value ||| 0x80000000))

/-- The edges that a count sees of its source: REFOUT has none while both its legs are low (R366, R370). -/
def edgesSeen (s : State) (edges : Word) : Word := if field s rFcountCtrl 0 8 = 0x1A && !refoutDriven s then 0 else edges

/-- FCOUNT_WINDOW_END: the window of a running count is over; it has seen `edges` edges (R370). -/
def execFcountWindowEnd (edges : Word) (s : State) : Host.Outcome State Fault Refusal :=
  .next (if s.clock.fcountRunning then
      setFlag (setReg { s with clock := { s.clock with fcountRunning := false } } rFcount (edgesSeen s edges)) rFcountCtrl 30 true
    else s)

end Sys2Proof.Machine
end

