-- ==== Sys2Proof/Machine/Clocktime.lean ====
section
/-! DEFINITION. The writes that device time waits for (R406, R411) and PTP time stamps (R408), with their rows. -/

namespace Sys2Proof.Machine

/-- A write of TIM_CTRL: SET and ADD_OFFSET wait for the next stake, SYNCED changes at once. -/
def writeTimCtrl (s : State) (v : Word) : State :=
  let t := s.time
  setSynced { s with time := { t with setPending := t.setPending || getB v 0, offsetPending := t.offsetPending || getB v 1 } } (getB v 2)

/-- A write of TIM_INCR is stored, at the nearer bound where it lies outside its range (R443); it takes effect at the next stake (R406). -/
def writeTimIncr (s : State) (v : Word) : State :=
  let n := max 0x7FFC0000 (min 0x80040000 v.toNat)
  setReg s rTimIncr (BitVec.ofNat 32 n)

/-- Device time moved by a number of tenths of a nanosecond. -/
def latTime (t : TimeState) (tenths : Int) : TimeState :=
  let total : Int := (t.secs.toNat : Int) * (secondNs32 : Int) + t.ns32 + tenths * 2 ^ 32 / 10
  let m := (total % ((2 ^ 48 * secondNs32 : Nat) : Int)).toNat
  { t with secs := BitVec.ofNat 48 (m / secondNs32), ns32 := m % secondNs32 }

/-! ## PTP frames (R408). The layouts are those of IEEE 1588-2019, IEEE 802.3, IPv4, IPv6 and UDP (PRESUMED, log 24) -/

/-- A big-endian number of `n` bytes at offset `o`. -/
def beAt (b : List Byte) (o n : Nat) : Nat := leNat (sliceB b o n).reverse

/-- Where the EtherType stands after at most `n` VLAN tags. -/
def afterTags : Nat → List Byte → Nat → Nat
  | 0, _, o => o
  | n + 1, b, o => if beAt b o 2 = 0x8100 ∨ beAt b o 2 = 0x88A8 then afterTags n b (o + 4) else o

/-- Where the PTP message of a frame begins and the IP version that carries it, 0 for Ethernet: the transports that the port times. -/
def ptpPlace (b : List Byte) : Option (Nat × Nat) :=
  let o := afterTags 2 b 12
  let h := o + 2
  let v4 := h + 4 * (numAt b h 1 % 16)
  if beAt b o 2 = 0x88F7 then some (h, 0)
  else if beAt b o 2 = 0x0800 ∧ numAt b (h + 9) 1 = 17 ∧ beAt b (v4 + 2) 2 = 319 then some (v4 + 8, 4)
  else if beAt b o 2 = 0x86DD ∧ numAt b (h + 6) 1 = 17 ∧ beAt b (h + 42) 2 = 319 then some (h + 48, 6)
  else none

/-- The messageType of the PTP message at `m`: 0 Sync, and 1 to 3 the other event messages. -/
def ptpType (b : List Byte) (m : Nat) : Nat := numAt b m 1 % 16

/-- Its twoStepFlag. -/
def ptpTwoStep (b : List Byte) (m : Nat) : Bool := decide (numAt b (m + 6) 1 / 2 % 2 = 1)

/-- The place of an event message that the management port stamps: its clock is not gated, the reference is
present (R366) and the transport is one it times. -/
def stamps (s : State) (f : PtpFrame) : Option (Nat × Nat) :=
  match ptpPlace f.bytes with
  | some e => if flag s rClkGate 0 && refRuns s && decide (ptpType f.bytes e.1 < 4) then some e else none
  | none => none

/-- The ones' complement sum of 16-bit numbers. -/
def onesSum (l : List Nat) : Nat :=
  let x := l.sum % 65536 + l.sum / 65536
  x % 65536 + x / 65536

/-- A UDP checksum after the 16-bit words `old` of the datagram have become `new`. -/
def updateChecksum (sum : Nat) (old new : List Nat) : Nat :=
  let x := 65535 - onesSum ((65535 - sum) :: old.map (65535 - ·) ++ new)
  if x = 0 then 65535 else x

/-- The 16-bit words of the PTP message at `m` that a one-step time stamp may change: correctionField to originTimestamp. -/
def stampedWords (b : List Byte) (m : Nat) : List Nat := (upTo 18).map (fun i => beAt b (m + 8 + 2 * i) 2)

/-- A one-step Sync with its time: originTimestamp takes S and NS, FRAC is added to correctionField, the UDP checksum is zero over IPv4 and updated
over IPv6, and the frame check sequence is computed again. -/
def oneStepFrame (b : List Byte) (e : Nat × Nat) (t : TimeState) : List Byte :=
  let m := e.1
  let b1 := patchB (patchB b (m + 8) (beBytes 8 (beAt b (m + 8) 8 + timeFrac t))) (m + 34) (beBytes 6 t.secs.toNat ++ beBytes 4 (timeNs t))
  let sum := if e.2 = 4 then 0 else updateChecksum (beAt b (m - 2) 2) (stampedWords b m) (stampedWords b1 m)
  let b2 := if e.2 = 0 then b1 else patchB b1 (m - 2) (beBytes 2 sum)
  let n := b2.length - 4
  patchB b2 n (leBytes 4 (packetCrc32 (b2.take n)))

/-- A departing event message (R408). The transmit correction is added (DEDUCED, log 24). -/
def ptpSend (s : State) (f : PtpFrame) : State :=
  let t := latTime s.time (field s rPtpLat 16 16)
  match stamps s f with
  | none => s
  | some e =>
    let two := ptpTwoStep f.bytes e.1
    let s1 := if flag s rPtpCtrl 31 && decide (ptpType f.bytes e.1 = 0) && !two then emit s (.ptpOneStep (oneStepFrame f.bytes e t)) else s
    if flag s rPtpCtrl 30 && two then
      emit s1 (.ptpTxTime t.secs (BitVec.ofNat 32 (timeNs t)) (BitVec.ofNat 16 (timeFrac t)))
    else s1

/-- A received event message (R408). The receive correction is taken off. -/
def ptpReceive (s : State) (f : PtpFrame) : State :=
  let t := latTime s.time (- (field s rPtpLat 0 16 : Int))
  if (stamps s f).isSome then emit s (.ptpRxTime t.secs (BitVec.ofNat 32 (timeNs t)) (BitVec.ofNat 16 (timeFrac t))) else s

/-! ## Rows -/

/-- TIM_CTRL_SET: TIM_CTRL is written with SET = 1. -/
def execTimCtrlSet (value : Word) (s : State) : Host.Outcome State Fault Refusal := .next (writeTimCtrl s (value ||| 1))

/-- TIM_CTRL_ADD_OFFSET: TIM_CTRL is written with ADD_OFFSET = 1. -/
def execTimCtrlAddOffset (value : Word) (s : State) : Host.Outcome State Fault Refusal := .next (writeTimCtrl s (value ||| 2))

/-- TIM_CTRL_SYNCED: TIM_CTRL is written with SYNCED = 1. -/
def execTimCtrlSynced (value : Word) (s : State) : Host.Outcome State Fault Refusal := .next (writeTimCtrl s (value ||| 4))

/-- TIM_INCR_WRITE. -/
def execTimIncrWrite (value : Word) (s : State) : Host.Outcome State Fault Refusal := .next (writeTimIncr s value)

/-- PTP_EVENT_TX. -/
def execPtpEventTx (f : PtpFrame) (s : State) : Host.Outcome State Fault Refusal := .next (ptpSend s f)

/-- PTP_EVENT_RX. -/
def execPtpEventRx (f : PtpFrame) (s : State) : Host.Outcome State Fault Refusal := .next (ptpReceive s f)

end Sys2Proof.Machine
end

