-- ==== Sys2Proof/Machine/PodOps.lean ====
section
/-! DEFINITION. The rows of the Pod operations: each is the moment at which that operation comes up and issues by itself
(R131, R142, R148, R151, R152, R155). What the operation does stands in the files of its slot; here stands its opcode. -/

namespace Sys2Proof.Machine

/-- ME.MMA (R142 to R144): products of A and B enter an accumulator. -/
def execMeMma (p : PodId) (f : MeFields) (s : State) : Host.Outcome State Fault Refusal := .next (runOp s p (.me 0x1 f))

/-- ME.DRAIN (R46, R145): an accumulator is rounded and written to the store. -/
def execMeDrain (p : PodId) (f : MeFields) (s : State) : Host.Outcome State Fault Refusal := .next (runOp s p (.me 0x2 f))

/-- ME.BLOAD (R146): a B buffer is loaded. -/
def execMeBload (p : PodId) (f : MeFields) (s : State) : Host.Outcome State Fault Refusal := .next (runOp s p (.me 0x3 f))

/-- TE.NLOAD (R96, R151): node slots are loaded. -/
def execTeNload (p : PodId) (f : TeFields) (s : State) : Host.Outcome State Fault Refusal := .next (runOp s p (.te 0x1 f))

/-- TE.FLOAD (R92, R96): a feature half is loaded. -/
def execTeFload (p : PodId) (f : TeFields) (s : State) : Host.Outcome State Fault Refusal := .next (runOp s p (.te 0x2 f))

/-- TE.WIN (R88 to R95): a window is walked and its record formed. -/
def execTeWin (p : PodId) (f : TeFields) (s : State) : Host.Outcome State Fault Refusal := .next (runOp s p (.te 0x3 f))

/-- VU.ADD (R104, R105, R148): lane sums. -/
def execVuAdd (p : PodId) (f : VuFields) (s : State) : Host.Outcome State Fault Refusal := .next (runOp s p (.vu 0x1 f))

/-- VU.SUB (R104, R148): lane differences. -/
def execVuSub (p : PodId) (f : VuFields) (s : State) : Host.Outcome State Fault Refusal := .next (runOp s p (.vu 0x2 f))

/-- VU.MUL (R104, R148): lane products. -/
def execVuMul (p : PodId) (f : VuFields) (s : State) : Host.Outcome State Fault Refusal := .next (runOp s p (.vu 0x3 f))

/-- VU.MIN (R106, R148): lane minima. -/
def execVuMin (p : PodId) (f : VuFields) (s : State) : Host.Outcome State Fault Refusal := .next (runOp s p (.vu 0x4 f))

/-- VU.MAX (R106, R148): lane maxima. -/
def execVuMax (p : PodId) (f : VuFields) (s : State) : Host.Outcome State Fault Refusal := .next (runOp s p (.vu 0x5 f))

/-- VU.ABS (R106, R148): lane absolute values. -/
def execVuAbs (p : PodId) (f : VuFields) (s : State) : Host.Outcome State Fault Refusal := .next (runOp s p (.vu 0x6 f))

/-- VU.NEG (R106, R148): lane negations. -/
def execVuNeg (p : PodId) (f : VuFields) (s : State) : Host.Outcome State Fault Refusal := .next (runOp s p (.vu 0x7 f))

/-- VU.CMP (R106, R148): lane comparison into a mask register. -/
def execVuCmp (p : PodId) (f : VuFields) (s : State) : Host.Outcome State Fault Refusal := .next (runOp s p (.vu 0x8 f))

/-- VU.SEL (R148): lanes chosen by mask. -/
def execVuSel (p : PodId) (f : VuFields) (s : State) : Host.Outcome State Fault Refusal := .next (runOp s p (.vu 0x9 f))

/-- VU.AND (R148). -/
def execVuAnd (p : PodId) (f : VuFields) (s : State) : Host.Outcome State Fault Refusal := .next (runOp s p (.vu 0xA f))

/-- VU.OR (R148). -/
def execVuOr (p : PodId) (f : VuFields) (s : State) : Host.Outcome State Fault Refusal := .next (runOp s p (.vu 0xB f))

/-- VU.XOR (R148). -/
def execVuXor (p : PodId) (f : VuFields) (s : State) : Host.Outcome State Fault Refusal := .next (runOp s p (.vu 0xC f))

/-- VU.SHL (R148): lanes shifted left. -/
def execVuShl (p : PodId) (f : VuFields) (s : State) : Host.Outcome State Fault Refusal := .next (runOp s p (.vu 0xD f))

/-- VU.SHR (R148): lanes shifted right. -/
def execVuShr (p : PodId) (f : VuFields) (s : State) : Host.Outcome State Fault Refusal := .next (runOp s p (.vu 0xE f))

/-- VU.FMA (R104, R148): fused multiply-add. -/
def execVuFma (p : PodId) (f : VuFields) (s : State) : Host.Outcome State Fault Refusal := .next (runOp s p (.vu 0x10 f))

/-- VU.CVT (R113 to R117, R149): conversion between formats. -/
def execVuCvt (p : PodId) (f : VuFields) (s : State) : Host.Outcome State Fault Refusal := .next (runOp s p (.vu 0x11 f))

/-- VU.XADD (R148, R150): XPS blocks added. -/
def execVuXadd (p : PodId) (f : VuFields) (s : State) : Host.Outcome State Fault Refusal := .next (runOp s p (.vu 0x12 f))

/-- VU.XCVTI (R150): into XPS. -/
def execVuXcvti (p : PodId) (f : VuFields) (s : State) : Host.Outcome State Fault Refusal := .next (runOp s p (.vu 0x13 f))

/-- VU.XCVTO (R150): out of XPS. -/
def execVuXcvto (p : PodId) (f : VuFields) (s : State) : Host.Outcome State Fault Refusal := .next (runOp s p (.vu 0x14 f))

/-- VU.MXQ (R118, R150): block quantisation. -/
def execVuMxq (p : PodId) (f : VuFields) (s : State) : Host.Outcome State Fault Refusal := .next (runOp s p (.vu 0x15 f))

/-- VU.RSUM (R107 to R109): sum reduction. -/
def execVuRsum (p : PodId) (f : VuFields) (s : State) : Host.Outcome State Fault Refusal := .next (runOp s p (.vu 0x18 f))

/-- VU.RMAX (R107): maximum reduction. -/
def execVuRmax (p : PodId) (f : VuFields) (s : State) : Host.Outcome State Fault Refusal := .next (runOp s p (.vu 0x19 f))

/-- VU.RMIN (R107): minimum reduction. -/
def execVuRmin (p : PodId) (f : VuFields) (s : State) : Host.Outcome State Fault Refusal := .next (runOp s p (.vu 0x1A f))

/-- VU.RARGMAX (R107): value and index of the maximum. -/
def execVuRargmax (p : PodId) (f : VuFields) (s : State) : Host.Outcome State Fault Refusal := .next (runOp s p (.vu 0x1B f))

/-- VU.SAMOV (R107, R148): a scalar accumulator to a register. -/
def execVuSamov (p : PodId) (f : VuFields) (s : State) : Host.Outcome State Fault Refusal := .next (runOp s p (.vu 0x1C f))

/-- VU.SORT (R110, R111). -/
def execVuSort (p : PodId) (f : VuFields) (s : State) : Host.Outcome State Fault Refusal := .next (runOp s p (.vu 0x20 f))

/-- VU.MERGE (R110, R111). -/
def execVuMerge (p : PodId) (f : VuFields) (s : State) : Host.Outcome State Fault Refusal := .next (runOp s p (.vu 0x21 f))

/-- VU.TRANS (R112, R316 to R318): a transcendental function. -/
def execVuTrans (p : PodId) (f : VuFields) (s : State) : Host.Outcome State Fault Refusal := .next (runOp s p (.vu 0x24 f))

/-- VU.BCAST (R148): a scalar to every lane. -/
def execVuBcast (p : PodId) (f : VuFields) (s : State) : Host.Outcome State Fault Refusal := .next (runOp s p (.vu 0x28 f))

/-- VU.MOVS (R148): one lane replaced by a scalar. -/
def execVuMovs (p : PodId) (f : VuFields) (s : State) : Host.Outcome State Fault Refusal := .next (runOp s p (.vu 0x29 f))

/-- M.LDV (R152): a vector is loaded. -/
def execMLdv (p : PodId) (f : MemFields) (s : State) : Host.Outcome State Fault Refusal := .next (runOp s p (.mem 0x1 f))

/-- M.STV (R152): a vector is stored. -/
def execMStv (p : PodId) (f : MemFields) (s : State) : Host.Outcome State Fault Refusal := .next (runOp s p (.mem 0x2 f))

/-- M.LDS (R152): a scalar is loaded. -/
def execMLds (p : PodId) (f : MemFields) (s : State) : Host.Outcome State Fault Refusal := .next (runOp s p (.mem 0x3 f))

/-- M.STS (R152): a scalar is stored. -/
def execMSts (p : PodId) (f : MemFields) (s : State) : Host.Outcome State Fault Refusal := .next (runOp s p (.mem 0x4 f))

/-- M.MDLD (R152): a matrix descriptor is loaded. -/
def execMMdld (p : PodId) (f : MemFields) (s : State) : Host.Outcome State Fault Refusal := .next (runOp s p (.mem 0x5 f))

/-- M.COPY (R152): bytes move inside the store. -/
def execMCopy (p : PodId) (f : MemFields) (s : State) : Host.Outcome State Fault Refusal := .next (runOp s p (.mem 0x6 f))

/-- Q.FETCH (R152, R185): a Root read is queued. -/
def execQFetch (p : PodId) (f : MemFields) (s : State) : Host.Outcome State Fault Refusal := .next (runOp s p (.mem 0x8 f))

/-- Q.STORE (R152, R188): a Root write is queued. -/
def execQStore (p : PodId) (f : MemFields) (s : State) : Host.Outcome State Fault Refusal := .next (runOp s p (.mem 0x9 f))

/-- Q.WAIT (R154): wait for a token. -/
def execQWait (p : PodId) (f : MemFields) (s : State) : Host.Outcome State Fault Refusal := .next (runOp s p (.mem 0xA f))

/-- Q.POP (R152, R191): an inbound entry is popped. -/
def execQPop (p : PodId) (f : MemFields) (s : State) : Host.Outcome State Fault Refusal := .next (runOp s p (.mem 0xB f))

/-- Q.SEL (R153): the first queue to complete. -/
def execQSel (p : PodId) (f : MemFields) (s : State) : Host.Outcome State Fault Refusal := .next (runOp s p (.mem 0xC f))

/-- Q.SELORD (R153): the lowest queue that has completed. -/
def execQSelord (p : PodId) (f : MemFields) (s : State) : Host.Outcome State Fault Refusal := .next (runOp s p (.mem 0xD f))

/-- TW.SEND (R152, R256): a write, message or bypass packet. -/
def execTwSend (p : PodId) (f : MemFields) (s : State) : Host.Outcome State Fault Refusal := .next (runOp s p (.mem 0x10 f))

/-- TW.FADD (R152, R307): a remote add. -/
def execTwFadd (p : PodId) (f : MemFields) (s : State) : Host.Outcome State Fault Refusal := .next (runOp s p (.mem 0x11 f))

/-- TW.OCOMMIT (R152, R308): an ordered commit. -/
def execTwOcommit (p : PodId) (f : MemFields) (s : State) : Host.Outcome State Fault Refusal := .next (runOp s p (.mem 0x12 f))

/-- GE.REQ (R120, R152): a Gather Engine request. -/
def execGeReq (p : PodId) (f : MemFields) (s : State) : Host.Outcome State Fault Refusal := .next (runOp s p (.mem 0x14 f))

/-- C.ADD (R155). -/
def execCAdd (p : PodId) (f : CtlFields) (s : State) : Host.Outcome State Fault Refusal := .next (runOp s p (.ctl 0x1 f))

/-- C.SUB (R155). -/
def execCSub (p : PodId) (f : CtlFields) (s : State) : Host.Outcome State Fault Refusal := .next (runOp s p (.ctl 0x2 f))

/-- C.AND (R155). -/
def execCAnd (p : PodId) (f : CtlFields) (s : State) : Host.Outcome State Fault Refusal := .next (runOp s p (.ctl 0x3 f))

/-- C.OR (R155). -/
def execCOr (p : PodId) (f : CtlFields) (s : State) : Host.Outcome State Fault Refusal := .next (runOp s p (.ctl 0x4 f))

/-- C.XOR (R155). -/
def execCXor (p : PodId) (f : CtlFields) (s : State) : Host.Outcome State Fault Refusal := .next (runOp s p (.ctl 0x5 f))

/-- C.SHL (R155). -/
def execCShl (p : PodId) (f : CtlFields) (s : State) : Host.Outcome State Fault Refusal := .next (runOp s p (.ctl 0x6 f))

/-- C.SHR (R155). -/
def execCShr (p : PodId) (f : CtlFields) (s : State) : Host.Outcome State Fault Refusal := .next (runOp s p (.ctl 0x7 f))

/-- C.MUL (R155). -/
def execCMul (p : PodId) (f : CtlFields) (s : State) : Host.Outcome State Fault Refusal := .next (runOp s p (.ctl 0x8 f))

/-- C.ADDI (R155). -/
def execCAddi (p : PodId) (f : CtlFields) (s : State) : Host.Outcome State Fault Refusal := .next (runOp s p (.ctl 0x9 f))

/-- C.SLT (R155). -/
def execCSlt (p : PodId) (f : CtlFields) (s : State) : Host.Outcome State Fault Refusal := .next (runOp s p (.ctl 0xA f))

/-- C.LI (R155). -/
def execCLi (p : PodId) (f : CtlFields) (s : State) : Host.Outcome State Fault Refusal := .next (runOp s p (.ctl 0xB f))

/-- C.LIH (R155). -/
def execCLih (p : PodId) (f : CtlFields) (s : State) : Host.Outcome State Fault Refusal := .next (runOp s p (.ctl 0xC f))

/-- C.BR (R155): branch when not zero. -/
def execCBr (p : PodId) (f : CtlFields) (s : State) : Host.Outcome State Fault Refusal := .next (runOp s p (.ctl 0x10 f))

/-- C.BZ (R155): branch when zero. -/
def execCBz (p : PodId) (f : CtlFields) (s : State) : Host.Outcome State Fault Refusal := .next (runOp s p (.ctl 0x11 f))

/-- C.JMP (R155). -/
def execCJmp (p : PodId) (f : CtlFields) (s : State) : Host.Outcome State Fault Refusal := .next (runOp s p (.ctl 0x12 f))

/-- C.CALL (R155): the next bundle is stacked. -/
def execCCall (p : PodId) (f : CtlFields) (s : State) : Host.Outcome State Fault Refusal := .next (runOp s p (.ctl 0x13 f))

/-- C.RET (R155): back to the stacked bundle. -/
def execCRet (p : PodId) (f : CtlFields) (s : State) : Host.Outcome State Fault Refusal := .next (runOp s p (.ctl 0x14 f))

/-- C.LOOP (R156): a zero-overhead loop. -/
def execCLoop (p : PodId) (f : CtlFields) (s : State) : Host.Outcome State Fault Refusal := .next (runOp s p (.ctl 0x15 f))

/-- C.IDLE (R155): nothing issues for IMM cycles. -/
def execCIdle (p : PodId) (f : CtlFields) (s : State) : Host.Outcome State Fault Refusal := .next (runOp s p (.ctl 0x16 f))

/-- C.FEND (R157): the frame end. -/
def execCFend (p : PodId) (f : CtlFields) (s : State) : Host.Outcome State Fault Refusal := .next (runOp s p (.ctl 0x18 f))

/-- C.SYNC (R155): a barrier over classes. -/
def execCSync (p : PodId) (f : CtlFields) (s : State) : Host.Outcome State Fault Refusal := .next (runOp s p (.ctl 0x19 f))

/-- C.STEP (R312): the step counter advances. -/
def execCStep (p : PodId) (f : CtlFields) (s : State) : Host.Outcome State Fault Refusal := .next (runOp s p (.ctl 0x1A f))

/-- C.RDS (R155): a special value is read. -/
def execCRds (p : PodId) (f : CtlFields) (s : State) : Host.Outcome State Fault Refusal := .next (runOp s p (.ctl 0x1B f))

/-- C.CSRW (R155, R443): a register of the own block is written. -/
def execCCsrw (p : PodId) (f : CtlFields) (s : State) : Host.Outcome State Fault Refusal := .next (runOp s p (.ctl 0x1E f))

/-- C.CSRR (R155, R443): a register of the own block is read. -/
def execCCsrr (p : PodId) (f : CtlFields) (s : State) : Host.Outcome State Fault Refusal := .next (runOp s p (.ctl 0x1F f))

/-- Q.WAIT's timeout (R154): the token is still outstanding IMM cycles after the bundle came up, and the operation answers 1.
With no timeout set, with the token complete, or with the Pod clock at rest (R366, R368), the row changes nothing. -/
def execQWaitTimeout (p : PodId) (f : MemFields) (s : State) : Host.Outcome State Fault Refusal :=
  if podTrapped s p || podHalted s p || !podClockRuns s p then .next s
  else
    match opTraps (withPending s p) p (.mem 0xA f) with
    | a :: t => .next (trapPod s p 3 (a :: t))
    | [] =>
      let s1 := settleFor s p (.mem 0xA f)
      if f.imm ≠ 0 ∧ tokenOut (pod s1 p) (sReg (pod s1 p) f.ra) = true then .next (issueStatus (markVClass s1 p (.mem 0xA f)) p f 1) else .next s

/-- POD_EGRESS (R341): a post is queued for the next frame. -/
def execPodEgress (p : PodId) (value : Word) (s : State) : Host.Outcome State Fault Refusal := .next (writeEgress s p value)

/-- POD_TE_CFG written (R80, R102): held until the engine is idle. -/
def execPodTeCfgWrite (p : PodId) (value : Word) (s : State) : Host.Outcome State Fault Refusal :=
  .next (writeTeCfg s p value)

end Sys2Proof.Machine
end

