-- ==== Sys2Proof/Machine/Registers.lean ====
section
/-! DEFINITION. Writes of registers: the access rules (R11, R12, R438 to R443), the snapshot control (R436), the re-arming of captures
(R415) and the rows DEV_SNAP_ARM, RELEASE, ERR_CAP_REARM and REGISTER_WRITE; and the commit of the configuration (R394, R397). -/

namespace Sys2Proof.Machine

/-! ## Fields by access code (R11, R442) -/

/-- The configuration has committed: RWL fields are read-only (R442). -/
def committed (s : State) : Bool := flag s rCfgStatus 31

/-- Write the fields of mask `m`. -/
def writeMask (s : State) (o m : Nat) (v : Word) : State :=
  modReg s o (fun w => (w &&& ~~~ BitVec.ofNat 32 m) ||| (v &&& BitVec.ofNat 32 m))

/-- Write ones clear the bits of mask `m` (W1C, W1CS). -/
def clearMask (s : State) (o m : Nat) (v : Word) : State := modReg s o (fun w => w &&& ~~~ (v &&& BitVec.ofNat 32 m))

/-- A number moved to the nearer bound of a range. -/
def clampTo (lo hi x : Nat) : Nat := max lo (min hi x)

/-! ## Registers with rules of their own -/

/-- A write of an RWL register before the commit (R42, R194, R269, R327, R361, R378, R379). -/
def writeLockable (s : State) (o : Nat) (v : Word) : State :=
  let put := fun (n : Nat) => setReg s o (BitVec.ofNat 32 n)
  if o = rHoldCtrl then if getF v 0 24 = 0 then s else put (getF v 0 24)
  else if o = rRootCtrl then put (max 9216 (getF v 0 24))
  else if o = rLinkCfg then put (max 1024 (getF v 16 16) * 65536 + max 1000 (getF v 0 16))
  else if o = rClkNoc then put (clampTo 800 1600 (getF v 0 11))
  else if o = rDroop then if getF v 8 8 ≤ getF v 0 8 then s else put (getF v 0 16)
  else if o = rRepro then setField s o 0 1 (getF v 0 1)
  else if 0x10100 ≤ o ∧ o < 0x10120 then put (getF v 0 22)
  else put (getF v 0 24)

/-- PWR_PRIO takes a permutation of the three codes (R379). -/
def writePrio (s : State) (v : Word) : State :=
  let a := getF v 0 2
  let b := getF v 2 2
  let c := getF v 4 2
  if a < 3 ∧ b < 3 ∧ c < 3 ∧ a ≠ b ∧ b ≠ c ∧ a ≠ c then setReg s rPwrPrio (BitVec.ofNat 32 (getF v 0 6))
  else setFlag s rPwrStatus 27 true

/-- CLK_REFOUT, at the nearer bounds (R378). -/
def writeRefout (s : State) (v : Word) : State :=
  setReg s rClkRefout (BitVec.ofNat 32 (getF v 31 1 * 2 ^ 31 + min 6 (getF v 16 3) * 2 ^ 16 + min 50 (getF v 0 6)))

/-- DEV_SNAP_CTRL (R436): LATE clears by writing 1, RELEASE clears HELD, ARM arms the stake of DEV_SNAP_AT or sets LATE. -/
def writeSnap (s : State) (v : Word) : State :=
  let s1 := clearMask s rSnapCtrl 0x08000000 v
  let s2 := if getB v 30 then setFlag s1 rSnapCtrl 28 false else s1
  if !getB v 31 then s2
  else if reg64 s2 rSnapAtLo < stakeNo s2 + 2 then setFlag s2 rSnapCtrl 27 true
  else setFlag (modMisc s2 (fun m => { m with snapStake := reg64 s2 rSnapAtLo })) rSnapCtrl 29 true

/-- ERR_CAP_CTRL (R415): VALID written 1 clears the whole record. -/
def writeCap (s : State) (b : Nat) (v : Word) : State := if getB v 31 then resetRange s (rCap b) (rCap b + 0x20) else s

/-- An MSI-X table entry (R330). Unmasking a vector sends the message that is pending. -/
def writeMsix (s : State) (o : Nat) (v : Word) : State :=
  let n := (o - 0x108000) / 16
  if o % 16 = 0 then writeMask s o 0xFFFFFFFC v
  else if o % 16 = 12 then
    let s1 := writeMask s o 1 v
    if !getB v 0 && flag s (rMsixPba + 4 * (n / 32)) (n % 32) then
      emit (setFlag s1 (rMsixPba + 4 * (n / 32)) (n % 32) false) (.msix n)
    else s1
  else setReg s o v

/-- The writable bits of a stream's configuration register. The low bits of an alignment read as zero (R352). -/
def streamMask (o : Nat) : Nat :=
  if o = 0x04 ∨ o = 0x0C ∨ o = 0x1C ∨ o = 0x28 then 0xFFFF
  else if o = 0x00 ∨ o = 0x08 then 0xFFFFF000
  else if o = 0x10 then 0x001F001F
  else if o = 0x14 then 0x00FF073F
  else if o = 0x20 ∨ o = 0x2C then 0xFFFFFFFF
  else 0xFFFFFFC0

/-- A register of a stream's group (R335, R336, R352). -/
def writeStreamReg (s : State) (i : StreamId) (o : Nat) (v : Word) : State :=
  if o < 0x30 then
    if strmState s i = 0 then writeMask s (rStream i o) (streamMask o) v else setFlag s (rStream i 0x34) 27 true
  else if o = 0x30 then writeStreamCtrl s i v
  else if o = 0x34 then clearMask s (rStream i o) 0x18000000 v
  else s

/-- CFG_PAIR may be written only while no weave is active or pending (R322). -/
def writePair (s : State) (v : Word) : State :=
  if weaveActive s || weavePending s then s else writeMask s rPair 0xE000000F v

/-- CFG_PAIR_LOC and CFG_PAIR_LOC_ADDR, into which the Keepers of a pair write what they have found (R326). -/
def isPairFinding (o : Nat) : Bool := o = rPairLoc || o = rPairLocAddr || o = rPairLocAddr + 4

/-- The Keeper writes the first difference that it has found: SLOT and BUNDLE beside the recorded Pod, or half of the address. LOCATED is set
(R326, R327). -/
def writePairFinding (s : State) (o : Nat) (v : Word) : State :=
  let m := if o = rPairLoc then 0x07003FFF else if o = rPairLocAddr then 0xFFFFFFFF else 0xFFFF
  setFlag (writeMask s o m v) rPairStatus 29 true

/-! ## The writable registers -/

/-- The bits of a register that any write changes as they stand: registers of access RW without a rule of their own,
ERR_RESTART among them (R424). -/
def plainMask (o : Nat) : Nat :=
  if o = rSnapAtLo ∨ o = rSnapAtLo + 4 ∨ o = rPstepAt ∨ o = rPstepAt + 4 ∨ o = rSetNs ∨ o = rSetSLo ∨ o = rTimOffset ∨ o = rPtpLat
      ∨ o = rPairCap ∨ o = rRestart ∨ o = rRestart + 4 then 0xFFFFFFFF
  else if o = rSetSHi then 0xFFFF
  else if o = rPtpCtrl then 0xC0000000
  else 0

/-- The bits of a register that writing 1 clears, outside the ERR block. -/
def onesMask (o : Nat) : Nat :=
  if o = rHoldCause then 0xF else if o = rPwrStatus then 0x08000000 else if o = rMapStatus then 2 else 0

/-- A register of the CLK, PWR, TIM and CFG blocks. -/
def writeSystem (s : State) (o : Nat) (v : Word) : State :=
  if o = rSnapCtrl then writeSnap s v
  else if o = rClkKeeper then writeClkKeeper s v
  else if o = rClkGate then writeClkGate s v
  else if o = rClkRefout then writeRefout s v
  else if o = rFcountCtrl then writeFcount s v
  else if o = rPstepReq then writePstepReq s v
  else if o = rPwrCap then setReg s o (BitVec.ofNat 32 (clampTo 300 1500 (getF v 0 11)))
  else if o = rPwrPrio then writePrio s v
  else if o = rTimIncr then writeTimIncr s v
  else if o = rTimCtrl then writeTimCtrl s v
  else if o = rCfgSelect then writeCfgSelect s v
  else if o = rCfgReset then writeCfgReset s v (lastStraps s)
  else if o = rCfgIdentity then ackIdentity s v
  else if o = rPair then writePair s v
  else clearMask (writeMask s o (plainMask o) v) o (onesMask o) v

/-- A register of the ERR block (R413, R415, R423). -/
def writeErrBlock (s : State) (o : Nat) (v : Word) : State :=
  if o = rErrPwr then clearErrPwr s v
  else if 0x80800 ≤ o then if o < 0x80A60 ∧ o % 0x20 = 0 then writeCap s ((o - 0x80800) / 0x20) v else s
  else if (upTo 19).any (fun b => (errRegs b).contains o) then clearMask s o 0xFFFFFFFF v
  else writeMask s o (plainMask o) v

/-- A register of the HST block (R330, R333, R352). -/
def writeHostBlock (s : State) (o : Nat) (v : Word) : State :=
  if 0x101000 ≤ o ∧ o < 0x101200 then
    let i := toStream ((o - 0x101000) / 8)
    if o % 8 = 0 then writeSqTail s i v else writeCqHead s i v
  else if 0x102000 ≤ o ∧ o < 0x103000 then writeStreamReg s (toStream ((o - 0x102000) / 0x40)) (o % 0x40) v
  else if 0x108000 ≤ o ∧ o < 0x108480 then writeMsix s o v
  else s

/-- A register of the FSQ and PRT blocks. -/
def writeFabric (s : State) (o : Nat) (v : Word) : State :=
  if o = rPortMapLo then writePortMap s false v
  else if o = rPortMapHi then writePortMap s true v
  else if 0x201000 ≤ o ∧ o < 0x202000 then
    if o % 0x100 = 0 then writePrtCtrl s (toPort ((o - 0x201000) / 0x100)) v else s
  else clearMask s o (onesMask o) v

/-- A 32-bit write by an agent to the register at BAR0 offset `o`. What no rule makes writable is dropped (R11, R12). A Pod's C.CSRW
reaches its own block only; RWL fields take what the Keeper and the debug port write before the commit, and nothing after it. The host never
sees them open (R384, R442). -/
def writeReg (s : State) (a : Agent) (o : Nat) (v : Word) : State :=
  match a with
  | .pod p => if o / 0x10000 = 0x100 + p.val then writePodReg s p true (o % 0x10000) v else s
  | _ =>
    if gatedOff s o then s
    else if isLockable o then if a ≠ .host && !committed s then writeLockable s o v else s
    else if a = .keeper && isPairFinding o then writePairFinding s o v
    else if o < 0x80000 then writeSystem s o v
    else if o < 0x100000 then writeErrBlock s o v
    else if o < 0x200000 then writeHostBlock s o v
    else if o < 0x202000 then writeFabric s o v
    else if 0x1000000 ≤ o ∧ o < 0x1400000 then writePodReg s (toPod ((o - 0x1000000) / 0x10000)) false (o % 0x10000) v
    else s

/-- A read of `n` bytes at BAR0 offset `o` by an agent (R438): the bytes of the aligned 32-bit registers that contain it, each read in ascending order
with its side effects. One longer than 8 bytes, or across an 8-byte boundary, is answered with Unsupported Request, here `none`. The table has
no row for a read by the host (log 9). -/
def readAccess (s : State) (a : Agent) (o n : Nat) : Option Nat × State :=
  if n = 0 ∨ 8 < o % 8 + n then (none, s)
  else
    let lo := readReg s a (o / 4 * 4)
    let hi := if 4 < o % 4 + n then readReg lo.2 a (o / 4 * 4 + 4) else (0, lo.2)
    (some ((lo.1.toNat + 2 ^ 32 * hi.1.toNat) / 2 ^ (8 * (o % 4)) % 2 ^ (8 * n)), hi.2)

/-- A write of `n` bytes (R438): 4 or 8, naturally aligned; 8 bytes are two writes in ascending order. Every other write is dropped. -/
def writeAccess (s : State) (a : Agent) (o n : Nat) (v : Word64) : State :=
  if n = 4 ∧ o % 4 = 0 then writeReg s a o (v.setWidth 32)
  else if n = 8 ∧ o % 8 = 0 then writeReg (writeReg s a o (v.setWidth 32)) a (o + 4) ((v >>> 32).setWidth 32)
  else s

/-! ## The configuration commits (R361, R394, R396, R397) -/

/-- One entry of the SETTINGS section. -/
def applySetting (s : State) (e : List Byte) : State :=
  let o := numAt e 0 4
  let v := BitVec.ofNat 32 (numAt e 4 4)
  if 0xFFFFFF00 ≤ o ∧ o < 0xFFFFFF10 then
    { s with power := { s.power with regulators := tabSet 0 s.power.regulators (o - 0xFFFFFF00) ((v &&& 0x7F).setWidth 8) } }
  else if !isSetting o then raiseErr s 17 rErrBoot 5 0xFF o
  else if 0x1000000 ≤ o ∧ o < 0x1010000 then allPods.foldl (fun t (p : PodId) => writeReg t .keeper (o + p.val * 0x10000) v) s
  else writeReg s .keeper o v

/-- The rules of R361 for the P-step table. -/
def pstepTableOk (s : State) : Bool :=
  let mhz := (upTo 8).map (pstepMhz s)
  let mv := (upTo 8).map (pstepMv s)
  mhz.all (fun m => decide (m % 25 = 0) && decide (200 ≤ m) && decide (m ≤ 1800)) && mv.all (fun v => decide (600 ≤ v) && decide (v ≤ 850))
    && (List.zip mhz (mhz.drop 1)).all (fun e => decide (e.2 < e.1)) && (List.zip mv (mv.drop 1)).all (fun e => decide (e.2 ≤ e.1))

/-- A P-step table that breaks a rule is replaced by the reset table. -/
def checkPsteps (s : State) : State :=
  if pstepTableOk s then s else setFlag (resetRange s (rPstep 0) (rPstep 8)) rPstepReq 27 true

/-- The settings are applied in order, as zeros through a gated SPI block (R358). -/
def applySettings (s : State) : State :=
  let b := if spiOn s then settingsBytes s else List.replicate (settingsBytes s).length 0
  (chunksB 8 (b.length / 8) b).foldl applySetting s

/-- The versions of the FSQ, POD and PHY images that are loaded. -/
def showImages (s : State) : State :=
  (upTo 3).foldl (fun t k => setReg t (rCfgImgVer (k + 1)) (BitVec.ofNat 32 (sectionOf (runHeader s) (k + 2)).version)) s

/-- Every ROOT, POD and LINK function takes a state. -/
def setUnits (s : State) (st : Nat) (links : Bool) : State :=
  let l := (upTo 12).map fRoot ++ (upTo 64).map fPod ++ (if links then (upTo 16).map fLink else [])
  l.foldl (fun t f => setFunc t f st 0) s

/-- The units start: Root and port training begin, and Pod BIST once VDD_MV of P7 has gone to the four VDD_CD rails (R384, R386, R452). -/
def startUnits (s : State) : State := forEach allPorts (setUnits (showImages (writeRails s (pstepMv s 7))) 1 false) enterDetect

/-- Every RWL register is at its reset value. -/
def resetLockable (s : State) : State := { s with regs := s.regs.filter (fun e => !isLockable e.1) }

/-- CONFIG_COMMIT: settings, commit and manifest, in this order (R384). In limited mode nothing but the Keeper runs, and the RWL registers lock at
their reset values (R396). -/
def configCommit (s : State) : State :=
  if committed s then s
  else if limited s then readManifest (setUnits (setFlag (resetLockable s) rCfgStatus 31 true) 4 true)
  else
    let s0 := checkPsteps (applySettings s)
    let s1 := readManifest (setFlag { s0 with clock := { s0.clock with podMhz := pstepClockMhz s0 (pstepNow s0) } } rCfgStatus 31 true)
    let s2 := setFlag s1 rRepro 31 (flag s1 rRepro 0 && decide (field s1 rManifest 18 9 = 1))
    startUnits s2

/-! ## Rows -/

/-- CONFIG_COMMIT, once on every power-on or cold boot, by the Keeper while its clock runs (R359). -/
def execConfigCommit (s : State) : Host.Outcome State Fault Refusal := .next (if keeperRuns s then configCommit s else s)

/-- An agent reaches the registers: the host while the PCIe function works, the Keeper while its clock runs, and none a device in reset (R359, R366,
R447). -/
def agentReaches (s : State) : Agent → Bool
  | .host => pcieRuns s
  | .keeper => keeperRuns s
  | _ => !inReset s

/-- DEV_SNAP_ARM: DEV_SNAP_CTRL is written with ARM = 1. -/
def execDevSnapArm (value : Word) (s : State) : Host.Outcome State Fault Refusal := .next (writeSnap s (value ||| 0x80000000))

/-- RELEASE: DEV_SNAP_CTRL is written with RELEASE = 1. -/
def execRelease (value : Word) (s : State) : Host.Outcome State Fault Refusal := .next (writeSnap s (value ||| 0x40000000))

/-- ERR_CAP_REARM: ERR_CAP_CTRL of a group is written with VALID = 1. -/
def execErrCapRearm (group : Fin 19) (value : Word) (s : State) : Host.Outcome State Fault Refusal :=
  .next (writeCap s group.val (value ||| 0x80000000))

/-- REGISTER_WRITE (R438, R443). -/
def execRegisterWrite (a : Agent) (offset : BitVec 26) (size : Nat) (value : Word64) (s : State) : Host.Outcome State Fault Refusal :=
  .next (if agentReaches s a then writeAccess s a offset.toNat size value else s)

end Sys2Proof.Machine
end

