-- ==== Sys2Proof/Machine/Debug.lean ====
section
/-! DEFINITION. The debug port (R425 to R434): the TAP instructions, the commands of the DBG register, their answers and the lock, with
their rows. -/

namespace Sys2Proof.Machine

/-! ## The TAP (R425, R426) -/

/-- The instruction in force. Under power-on reset the TAP is inactive (R447). -/
def setTap (s : State) (c : Byte) : State := if s.misc.porAsserted then s else { s with dport := { s.dport with tap := c } }

/-- EXTEST, CLAMP and HIGHZ are available to an unlocked port and while SYS_RST_N is low; else they act as BYPASS (R425). -/
def boundaryTap (s : State) (c : Byte) : State := setTap s (if s.dport.locked && !s.misc.sysRstLow then 0xFF else c)

/-- The debug port gives a response: not under power-on reset, where TDO is in high impedance (R447). -/
def tapAnswer (s : State) (o : Output) : State := if s.misc.porAsserted then s else emit s o

/-- IDCODE of the part (R426). -/
def idcodeWord (s : State) : Word := if isA1 s then 0x18240C5D else 0x28240C5D

/-! ## Commands (R427, R433) -/

/-- Status codes of a response. -/
def dbgOk : Nat := 0
def dbgBusy : Nat := 1
def dbgLocked : Nat := 2
def dbgBadOp : Nat := 3
def dbgBadAddr : Nat := 4
def dbgEcc : Nat := 5
def dbgNotHalted : Nat := 6
def dbgFrameEnd : Nat := 7

/-- The Keeper clock in MHz (R354). -/
def keeperMhz (s : State) : Nat := if flag s rClkKeeper 0 then 500 else 100

/-- The Keeper clock keeps the ratio of R355 to DBG_TCK. -/
def ratioKept (s : State) (f : DbgFields) : Bool := decide (4 * f.tckMhz ≤ keeperMhz s)

/-- An access of the debug port is at the banks of a Pod (R431). -/
def debugOpen (s : State) : Bool := s.misc.netJobs.any (fun j => match j.key with
  | .debug _ _ => true
  | _ => false)

/-- A command is in progress. -/
def debugBusy (s : State) : Bool := s.dport.stepPod.isSome || s.dport.heldWrite.isSome || debugOpen s

/-- A command of the DBG register. Without the Keeper clock, under SYS_RST_N too (R447), with one too slow for DBG_TCK (R355), or with a command in
progress that it may not join, it is not taken and the next capture loads BUSY. A locked port takes the commands of `free` only. -/
def debugCommand (s0 : State) (f : DbgFields) (free joins : Bool) (body : State → State) : State :=
  let s := setTap s0 0x20
  if !keeperRuns s || !ratioKept s f || (debugBusy s && !joins) then tapAnswer s (.debugRsp 0 0 (BitVec.ofNat 8 dbgBusy))
  else if s.dport.locked && !free then debugAnswer s 0 f.addr dbgLocked
  else body (setFlag s rDbgStatus 29 true)

/-- A command without a POD field. -/
def plainCommand (s : State) (f : DbgFields) (body : State → State) : State := debugCommand s f false false body

/-- The Pods that a POD value names, or the status of its refusal. -/
def podsOf (pod_ : Byte) (every : Bool) : Except Nat (List PodId) :=
  if pod_.toNat < 64 then .ok [toPod pod_.toNat]
  else if pod_ = 0xFF then if every then .ok allPods else .error dbgBadOp
  else .error dbgBadAddr

/-- A command with a POD field. -/
def podCommand (s : State) (f : DbgFields) (every joins : Bool) (body : State → List PodId → State) : State :=
  debugCommand s f false joins (fun t =>
    match podsOf f.pod every with
    | .ok l => body t l
    | .error e => debugAnswer t 0 f.addr e)

/-! ## HALT, RESUME, STEP (R429) -/

/-- A STEP that still waits is aborted: its Pod is halted again. -/
def abortStep (s : State) : State :=
  match s.dport.stepPod with
  | some p => haltPod { s with dport := { s.dport with stepPod := none } } p 1 0
  | none => s

/-- HALT of a list of Pods. -/
def haltPods (s : State) (f : DbgFields) (l : List PodId) : State :=
  let s1 := abortStep s
  let s2 := l.foldl (fun t (p : PodId) => if podHalted t p then t else haltPod t p 1 0) s1
  debugAnswer s2 0 f.addr dbgOk

/-- The core of a Pod issues again, where it has code of a weave and nothing else has stopped it (R158, R418). -/
def unhalt (s : State) (p : PodId) (stepping : Bool) : State :=
  let runs := hasCode s p && !podTrapped s p && !flag s rFaultState 31 && s.active.isSome
  let s1 := setFlag (setFlag s (rPod p 0x100) 30 false) (rPod p 0x100) 31 runs
  modCore s1 p (fun k => { k with haltCause := 0, haltNum := 0, stepping := stepping })

/-- A Pod that RESUME and STEP can take up again. -/
def canResume (s : State) (p : PodId) : Bool := podHalted s p && !podTrapped s p

/-- RESUME of a list of Pods. -/
def resumeHalted (s : State) (f : DbgFields) (l : List PodId) : State :=
  let good := l.filter (canResume s)
  let bad := good.isEmpty || l.any (fun p => podHalted s p && podTrapped s p)
  debugAnswer (good.foldl (fun t (p : PodId) => unhalt t p false) s) 0 f.addr (if bad then dbgNotHalted else dbgOk)

/-- STEP of one Pod: it is answered once the bundle has issued. -/
def stepPod (s : State) (f : DbgFields) (p : PodId) : State :=
  if !canResume s p then debugAnswer s 0 f.addr dbgNotHalted
  else if podAtFend s p then debugAnswer s 0 f.addr dbgFrameEnd
  else
    let t := unhalt s p true
    { t with dport := { t.dport with stepPod := some p, rspAddr := f.addr } }

/-! ## BREAK, WATCH, CONFIG, STATUS (R428, R430) -/

/-- BREAK sets or clears breakpoint ADDR[1:0]. -/
def setBreaks (s : State) (f : DbgFields) (l : List PodId) : State :=
  let b : Option (BitVec 14) := if getB f.data 63 then some (f.data.setWidth 14) else none
  let n := fin 4 (by decide) (getF f.addr 0 2)
  debugAnswer (l.foldl (fun t (p : PodId) => modPod t p (fun x => { x with breaks := vput x.breaks n b })) s) 0 f.addr dbgOk

/-- WATCH sets or clears watchpoint DATA[40]. -/
def setWatches (s : State) (f : DbgFields) (l : List PodId) : State :=
  let len := getF f.data 0 32
  let on := getB f.data 63
  if on && (decide (f.addr.toNat % 64 ≠ 0) || decide (len = 0) || decide (len % 64 ≠ 0)) then debugAnswer s 0 f.addr dbgBadAddr
  else
    let w : Option Watch := if on then some ⟨f.addr.toNat, len, getB f.data 61, getB f.data 62⟩ else none
    let n := fin 2 (by decide) (getF f.data 40 1)
    debugAnswer (l.foldl (fun t (p : PodId) => modPod t p (fun x => { x with watches := vput x.watches n w })) s) 0 f.addr dbgOk

/-- The mask of halted Pods. -/
def haltedMask (s : State) : Nat := maskOf 64 (fun p => podHalted s (toPod p))

/-! ## READ and WRITE (R431) -/

/-- An address of the register window. -/
def inRegWindow (a : Nat) : Bool := decide (regWindow ≤ a) && decide (a < regWindow + 2 ^ 26)

/-- Marks of kind `k` on what holds the 8 bytes at `a`: a 64-bit store word, or a 32-byte Root unit. -/
def debugMarks (s : State) (k a : Nat) : Bool :=
  let u := if a < rootEnd then a / 32 * 32 else a
  s.ecc.any (fun x => decide (x.1 = u) && decide (x.2 = k))

/-- 8 bytes of memory as the debug port reads them: an uncorrectable error is reported to the debugger only, a corrected one is counted. -/
def debugRead (s : State) (a : Nat) : State × Nat × Nat :=
  let s1 := if a < rootEnd then countRoot s 8 else s
  let s2 := if !debugMarks s 1 a then s1
    else if a < rootEnd then addSat s1 (rRootEcc (rootStack a)) 1
    else
      let p := (a - podBase) / podSize
      addSat s1 (rPod p (if (a - podBase) % podSize < 0x1000000 then 0x700 else 0x704)) 1
  (s2, memNum s a 8, if debugMarks s 2 a then dbgEcc else dbgOk)

/-- READ. An access to a Pod store is answered once the banks have granted it (R169, R431). -/
def debugReadCommand (s : State) (f : DbgFields) : State :=
  let a := f.addr.toNat
  if inRegWindow a then
    if a % 4 ≠ 0 then debugAnswer s 0 f.addr dbgBadAddr
    else
      let r := readReg s .debug (a - regWindow)
      debugAnswer r.2 r.1.toNat f.addr dbgOk
  else if a % 8 ≠ 0 then debugAnswer s 0 f.addr dbgBadAddr
  else
    let r := debugRead s a
    if inPodStore a then startDebug r.1 f.addr none else debugAnswer r.1 r.2.1 f.addr r.2.2

/-- A debug write that changes memory or a Pod register while a weave is active is recorded. -/
def noteWrite (s : State) (f : DbgFields) : State := if weaveActive s then raiseErr s 18 rErrDbg 1 0xFF f.addr.toNat else s

/-- A write of 8 bytes of memory. One into a Pod store goes to its banks, and one into the node region of a Pod whose Tree Engine walks waits before
that (R431). -/
def debugWriteMem (s : State) (f : DbgFields) : State :=
  let a := f.addr.toNat
  if inPodStore a then
    let x := pod s (podOfAddr a)
    if touchesNodes s (podOfAddr a) (offsetOf a) 8 && x.te.windows.any (winWalking x.core.cycle) then
      { s with dport := { s.dport with heldWrite := some (f.addr, f.data) } }
    else startDebug s f.addr (some f.data)
  else debugAnswer (memWrite (if a < rootEnd then countRoot s 8 else s) a (leBytes 8 f.data.toNat)) 0 f.addr dbgOk

/-- WRITE. -/
def debugWriteCommand (s : State) (f : DbgFields) : State :=
  let a := f.addr.toNat
  if inRegWindow a then
    if a % 4 ≠ 0 then debugAnswer s 0 f.addr dbgBadAddr
    else debugAnswer (writeReg s .debug (a - regWindow) (f.data.setWidth 32)) 0 f.addr dbgOk
  else if a % 8 ≠ 0 then debugAnswer s 0 f.addr dbgBadAddr
  else debugWriteMem (if isMem a then noteWrite s f else s) f

/-! ## READ_CORE and WRITE_CORE (R428) -/

/-- Class, index and word of a core address. -/
def coreClass (f : DbgFields) : Nat := getF f.addr 40 8
def coreIndex (f : DbgFields) : Nat := getF f.addr 32 8
def coreWord (f : DbgFields) : Nat := getF f.addr 0 16

/-- Registers of a class, and words of each. -/
def coreSize (c : Nat) : Nat × Nat :=
  if c = 0 then (32, 1) else if c = 1 then (32, 128) else if c = 2 then (8, 8) else if c = 3 then (16, 8) else if c = 4 then (4, 1)
  else if c = 5 then (4, 1) else if c = 6 then (16, 1) else if c = 7 then (2, 1) else (0, 0)

/-- The address names a word of a register. -/
def coreOk (f : DbgFields) : Bool :=
  decide (coreIndex f < (coreSize (coreClass f)).1) && decide (coreWord f < (coreSize (coreClass f)).2)

/-- 64-bit word `w` of a wide register. -/
def wordOf {n : Nat} (x : BitVec n) (w : Nat) : Nat := getF x (64 * w) 64

/-- A word of a Pod's registers. The call stack is numbered from the entry pushed first (DESIGN CHOICE, log 33). -/
def readCoreWord (s : State) (p : PodId) (f : DbgFields) : Nat :=
  let x := pod s p
  let c := coreClass f
  let i := coreIndex f
  let w := coreWord f
  if c = 0 then (vget x.s (fin 32 (by decide) i)).toNat
  else if c = 1 then wordOf (vget x.v (fin 32 (by decide) i)) w
  else if c = 2 then if i = 0 then 2 ^ 64 - 1 else wordOf (vget x.m (fin 8 (by decide) i)) w
  else if c = 3 then wordOf (vget x.md (fin 16 (by decide) i)) w
  else if c = 4 then
    let a := vget x.sa (fin 4 (by decide) i)
    a.val.toNat + 2 ^ 32 * a.idx.toNat
  else if c = 5 then (vget x.lc (fin 4 (by decide) i)).toNat
  else if c = 6 then (x.stack.reverse.getD i 0).toNat
  else if i = 0 then if x.core.beyond then 16384 else pcOf s p
  else x.core.haltCause.toNat + 256 * x.core.haltNum.toNat

/-- A wide register with one word replaced. -/
def putWord {n : Nat} (x : BitVec n) (w : Nat) (v : Word64) : BitVec n := setF x (64 * w) 64 v.toNat

/-- The call stack with entry `i` from the oldest replaced; an entry beyond its depth does not exist. -/
def putStack (l : List (BitVec 14)) (i : Nat) (v : BitVec 14) : List (BitVec 14) := (l.reverse.set i v).reverse

/-- Write a word of a Pod's registers. S0, M0 and the halt cause are read-only. -/
def writeCoreWord (s : State) (p : PodId) (f : DbgFields) : State :=
  let c := coreClass f
  let i := coreIndex f
  let w := coreWord f
  let v := f.data
  if c = 7 then
    if i = 0 then modCore (setNext s p (getF v 0 14)) p (fun k => { k with skipBreak := false, upSince := none }) else s
  else modPod s p (fun x =>
    if c = 0 then if i = 0 then x else { x with s := vput x.s (fin 32 (by decide) i) v }
    else if c = 1 then { x with v := vmod x.v (fin 32 (by decide) i) (fun y => putWord y w v) }
    else if c = 2 then if i = 0 then x else { x with m := vmod x.m (fin 8 (by decide) i) (fun y => putWord y w v) }
    else if c = 3 then { x with md := vmod x.md (fin 16 (by decide) i) (fun y => putWord y w v) }
    else if c = 4 then { x with sa := vmod x.sa (fin 4 (by decide) i) (fun y => { y with val := v.setWidth 32, idx := (v >>> 32).setWidth 32 }) }
    else if c = 5 then { x with lc := vput x.lc (fin 4 (by decide) i) (v.setWidth 32) }
    else { x with stack := putStack x.stack i (v.setWidth 14) })

/-- READ_CORE and WRITE_CORE of one halted Pod. -/
def coreCommand (s : State) (f : DbgFields) (write : Bool) (p : PodId) : State :=
  if !podHalted s p then debugAnswer s 0 f.addr dbgNotHalted
  else if !coreOk f then debugAnswer s 0 f.addr dbgBadAddr
  else if write then debugAnswer (writeCoreWord (noteWrite s f) p f) 0 f.addr dbgOk
  else debugAnswer s (readCoreWord s p f) f.addr dbgOk

/-- A command on one Pod. -/
def onePod (s : State) (l : List PodId) (body : State → PodId → State) : State := l.foldl body s

/-! ## The lock (R433) -/

/-- A new nonce is drawn. -/
def drawNonce (s : State) : State :=
  let d := draw s
  { d.2 with dport := { d.2.dport with nonce := sliceB (Config.debugNonce d.1) 0 32 } }

/-- CHALLENGE: word 0 draws a new nonce. -/
def challengeWord (s : State) (f : DbgFields) : State :=
  let n := getF f.addr 0 2
  let s1 := if n = 0 then drawNonce s else s
  debugAnswer s1 (numAt s1.dport.nonce (8 * n) 8) f.addr dbgOk

/-- RESPONSE: one of the twelve words of the signature. -/
def responseWord (s : State) (f : DbgFields) : State :=
  let n := getF f.addr 0 4
  if n < 12 then
    debugAnswer { s with dport := { s.dport with signature := vput s.dport.signature (fin 12 (by decide) n) f.data } } 0 f.addr dbgOk
  else debugAnswer s 0 f.addr dbgBadAddr

/-- What the signature covers: nonce, identity digest and DEV_ID. -/
def unlockMessage (s : State) : List Byte := s.dport.nonce ++ identityDigest s ++ leBytes 4 (reg s rDevId).toNat

/-- The 96 bytes of the signature. -/
def unlockSignature (s : State) : List Byte := s.dport.signature.toList.flatMap (fun w => leBytes 8 w.toNat)

/-- UNLOCK. A good signature unlocks the port; a failure is counted and draws a new nonce; after three it is not tried. -/
def unlock (s : State) (f : DbgFields) : State :=
  if 3 ≤ s.dport.fails then debugAnswer s 0 f.addr dbgLocked
  else if ecdsaVerify Config.debugKey (unlockMessage s) (unlockSignature s) then
    debugAnswer { s with dport := { s.dport with locked := false } } 0 f.addr dbgOk
  else
    let s1 := drawNonce (raiseErr s 18 rErrDbg 0 0xFF 0)
    debugAnswer { s1 with dport := { s1.dport with fails := s1.dport.fails + 1 } } 0 f.addr dbgLocked

/-- LOCK: at once, but for a part whose debug fuse is open. -/
def lockPort (s : State) (f : DbgFields) : State :=
  debugAnswer { s with dport := { s.dport with locked := !s.fuses.debugOpen } } 0 f.addr dbgOk

/-! ## Rows -/

/-- EXTEST. -/
def execExtest (s : State) : Host.Outcome State Fault Refusal := .next (boundaryTap s 0x00)

/-- IDCODE: the identification register is selected and captured. -/
def execIdcode (s : State) : Host.Outcome State Fault Refusal := .next (tapAnswer (setTap s 0x01) (.idcode (idcodeWord s)))

/-- SAMPLE/PRELOAD. -/
def execSamplePreload (s : State) : Host.Outcome State Fault Refusal := .next (setTap s 0x02)

/-- CLAMP. -/
def execClamp (s : State) : Host.Outcome State Fault Refusal := .next (boundaryTap s 0x05)

/-- HIGHZ. -/
def execHighz (s : State) : Host.Outcome State Fault Refusal := .next (boundaryTap s 0x06)

/-- BYPASS. -/
def execBypass (s : State) : Host.Outcome State Fault Refusal := .next (setTap s 0xFF)

/-- DBG_TRST_N: Test-Logic-Reset selects IDCODE. -/
def execDbgTrstN (s : State) : Host.Outcome State Fault Refusal := .next (setTap s 0x01)

/-- HALT. -/
def execDbgHalt (f : DbgFields) (s : State) : Host.Outcome State Fault Refusal :=
  .next (podCommand s f true true (fun t l => haltPods t f l))

/-- RESUME. -/
def execDbgResume (f : DbgFields) (s : State) : Host.Outcome State Fault Refusal :=
  .next (podCommand s f true false (fun t l => resumeHalted t f l))

/-- STEP. -/
def execDbgStep (f : DbgFields) (s : State) : Host.Outcome State Fault Refusal :=
  .next (podCommand s f false false (fun t l => onePod t l (fun u p => stepPod u f p)))

/-- BREAK. -/
def execDbgBreak (f : DbgFields) (s : State) : Host.Outcome State Fault Refusal :=
  .next (podCommand s f true false (fun t l => setBreaks t f l))

/-- WATCH. -/
def execDbgWatch (f : DbgFields) (s : State) : Host.Outcome State Fault Refusal :=
  .next (podCommand s f true false (fun t l => setWatches t f l))

/-- READ. -/
def execDbgRead (f : DbgFields) (s : State) : Host.Outcome State Fault Refusal := .next (plainCommand s f (fun t => debugReadCommand t f))

/-- WRITE. -/
def execDbgWrite (f : DbgFields) (s : State) : Host.Outcome State Fault Refusal := .next (plainCommand s f (fun t => debugWriteCommand t f))

/-- READ_CORE. -/
def execReadCore (f : DbgFields) (s : State) : Host.Outcome State Fault Refusal :=
  .next (podCommand s f false false (fun t l => onePod t l (fun u p => coreCommand u f false p)))

/-- WRITE_CORE. -/
def execWriteCore (f : DbgFields) (s : State) : Host.Outcome State Fault Refusal :=
  .next (podCommand s f false false (fun t l => onePod t l (fun u p => coreCommand u f true p)))

/-- STATUS. -/
def execDbgStatusCmd (f : DbgFields) (s : State) : Host.Outcome State Fault Refusal :=
  .next (debugCommand s f true false (fun t => debugAnswer t (haltedMask t) f.addr dbgOk))

/-- CHALLENGE. -/
def execDbgChallenge (f : DbgFields) (s : State) : Host.Outcome State Fault Refusal :=
  .next (debugCommand s f true false (fun t => challengeWord t f))

/-- RESPONSE. -/
def execResponse (f : DbgFields) (s : State) : Host.Outcome State Fault Refusal :=
  .next (debugCommand s f true false (fun t => responseWord t f))

/-- UNLOCK. -/
def execUnlock (f : DbgFields) (s : State) : Host.Outcome State Fault Refusal := .next (debugCommand s f true false (fun t => unlock t f))

/-- LOCK. -/
def execLock (f : DbgFields) (s : State) : Host.Outcome State Fault Refusal := .next (debugCommand s f true false (fun t => lockPort t f))

/-- CONFIG: HALT_GROUP. -/
def execConfig (f : DbgFields) (s : State) : Host.Outcome State Fault Refusal :=
  .next (plainCommand s f (fun t => debugAnswer (setFlag t rDbgStatus 28 (getB f.data 0)) 0 f.addr dbgOk))

end Sys2Proof.Machine
end

