-- ==== Sys2Proof/Machine/Board.lean ====
section
/-! DEFINITION. The board buses as a target (R461, R463, R464): the status window, the alert and the I3C address, with their rows. -/

namespace Sys2Proof.Machine

/-! ## The window (R463) -/

/-- The register that a Block Read with command byte `c` returns. -/
def windowReg (c : Nat) : Option Nat :=
  [rDevId, rReady, rPlace, rCfgStatus, rPwrStatus, rPwrEst, rPwrMeas, 0x20018, 0x2001C, rRefresh, rErrSummary, rFaultState][c]?

/-- The bus answers: its clock is not gated (R358, R461), its pins do not follow boundary scan (R426), and the device is out of reset (R447, R463). -/
def busAnswers (s : State) (i3c : Bool) : Bool := busRuns s (if i3c then 4 else 5) && !inReset s

/-- The four bytes of a Block Read. -/
def windowBytes (s : State) (c : Nat) : List Byte :=
  match windowReg c with
  | some o => leBytes 4 (plainRead s o).toNat
  | none => [0, 0, 0, 0]

/-- The 7-bit address of the target: 0x5C + SLOT_ID. -/
def busAddress (s : State) : Byte := BitVec.ofNat 8 (0x5C + field s rPlace 0 2)

/-- A dynamic address is assigned to a target that has none (PRESUMED: MIPI I3C Basic, log 36). -/
def assignI3c (s : State) (a : BitVec 7) : State :=
  if busAnswers s true && s.misc.i3cAddr.isNone then modMisc s (fun m => { m with i3cAddr := some a }) else s

/-! ## Rows -/

/-- BLOCK_READ. -/
def execBlockRead (i3c : Bool) (c : Byte) (s : State) : Host.Outcome State Fault Refusal :=
  .next (if busAnswers s i3c then emit s (.busRead i3c (windowBytes s c.toNat)) else s)

/-- TARGET_WRITE: a write that carries data is acknowledged and dropped, where the bus answers. -/
def execTargetWrite (i3c : Bool) (bytes : List Byte) (s : State) : Host.Outcome State Fault Refusal :=
  .next (if busAnswers s i3c && !bytes.isEmpty then emit s (.busAck i3c) else s)

/-- ALERT_RESPONSE: a device that drives SMB_ALERT_N low answers with its address and releases it. -/
def execAlertResponse (s : State) : Host.Outcome State Fault Refusal :=
  .next (if busAnswers s false && s.misc.alertLow then
      emit (emit (modMisc s (fun m => { m with alertLow := false })) (.arpAddress (busAddress s))) (.alert false)
    else s)

/-- ENTDAA. -/
def execEntdaa (addr : BitVec 7) (s : State) : Host.Outcome State Fault Refusal := .next (assignI3c s addr)

/-- SETDASA. -/
def execSetdasa (addr : BitVec 7) (s : State) : Host.Outcome State Fault Refusal := .next (assignI3c s addr)

end Sys2Proof.Machine
end

