-- ==== Sys2Proof/Machine/Frame.lean ====
section
/-! DEFINITION. Pod frames: what the end of a frame does (R323, R324, R421), how a frame begins (R20, R157, R171, R228), commits
(R309), and the row POD_FRAME_START. -/

namespace Sys2Proof.Machine

/-! ## State of the weave -/

/-- FSQ_WEAVE_STATE.QUIET. -/
def quiet (s : State) : Bool := flag s rWeaveState 29
/-- FSQ_WEAVE_STATE.RECOVERY. -/
def recovering (s : State) : Bool := flag s rWeaveState 28
/-- FAULTED (R416). -/
def faulted (s : State) : Bool := flag s rFaultState 31

/-- Some Pod still reloads its code or waits for quiet-stake work. -/
def someLoading (s : State) : Bool := allPods.any (fun p => (pod s p).core.loading)

/-! ## Commits (R309) -/

/-- An FP32 word as a whole multiple of 2^-149, or none where it is no finite number. -/
def exact32 (x : Nat) : Option Int :=
  match fpDecode 0xA x with
  | .fin neg m e => some ((if neg then -1 else 1) * (m : Int) * (2 : Int) ^ (e + 149).toNat)
  | _ => none

/-- The exact sum of FP32 words, rounded once by RNE; NaN, infinities and an exact zero as R309 says. -/
def exactSum32 (l : List Nat) : Nat :=
  let d := l.map (fpDecode 0xA)
  let pos := d.any (fun x => x = .inf false)
  let neg := d.any (fun x => x = .inf true)
  if d.any fpIsNan || (pos && neg) then fmtNan 0xA
  else if pos then fmtInf 0xA false
  else if neg then fmtInf 0xA true
  else (fpFinish 0xA .rne (fpOfInt ((l.filterMap exact32).sum) (-149))).code

/-- The 64-byte units that commits touch, each once: Pod and offset. -/
def commitUnits (l : List (Nat × PodId × Nat × List Word)) : List (PodId × Nat) :=
  (l.flatMap (fun c => (upTo (ceilDiv c.2.2.2.length 16)).map (fun i => (c.2.1, c.2.2.1 + 64 * i)))).foldl
    (fun acc u => if acc.contains u then acc else acc ++ [u]) []

/-- What commits add to the lane at offset `o` of a Pod's store. -/
def commitLanes (l : List (Nat × PodId × Nat × List Word)) (p : PodId) (o : Nat) : List Nat :=
  l.filterMap (fun c =>
    if c.2.1 = p ∧ c.2.2.1 ≤ o ∧ o < c.2.2.1 + 4 * c.2.2.2.length then (c.2.2.2[(o - c.2.2.1) / 4]?).map (·.toNat) else none)

/-- One unit is to take its commits: its new bytes are written when its banks grant them, and until then an access of the Pod to the unit
meets a range. A unit of the node region is dropped and counted (R473). -/
def commitUnit (l : List (Nat × PodId × Nat × List Word)) (s : State) (u : PodId × Nat) : State :=
  let r := storeRead s u.1 u.2 64
  let lanes := (upTo 16).flatMap (fun i =>
    leBytes 4 (exactSum32 (numAt r.2 (4 * i) 4 :: commitLanes l u.1 (u.2 + 4 * i))))
  if touchesNodes r.1 u.1 u.2 64 then addSat r.1 (rPod u.1 0x884) 1
  else
    let n := nextSerial r.1 u.1
    modPod (netStream n.2 u.1 n.1 true u.2 64) u.1 (fun x =>
      addRange x n.1 7 true (some (u.2, u.2 + 64)) none [(podAddr u.1 u.2, lanes)])

/-- Units of an earlier frame's commits that no bank has granted by now are written (DEDUCED, log 57). -/
def finishCommits (s : State) (p : PodId) : State :=
  let x := pod s p
  forEach (x.ranges.filter (fun r => r.cls = 7)) (setPod s p { x with ranges := x.ranges.filter (fun r => r.cls ≠ 7) }) (writeRange p)

/-- Every commit of weave frame `j` is applied. -/
def applyCommits (s : State) (j : Nat) : State :=
  let l := s.misc.commits.filter (fun c => c.1 = j)
  let s1 := allPods.foldl finishCommits (modMisc s (fun m => { m with commits := m.commits.filter (fun c => c.1 ≠ j) }))
  (commitUnits l).foldl (commitUnit l) s1

/-- Commits of this device to itself that found their half full are offered again. -/
def retryLocal (s : State) : State :=
  settleLocal ((s.misc.localReq.filter (fun k => k.type = 0xA)).foldl (fun t k => deliverOcommit t none k) s)

/-! ## The end of a frame -/

/-- D(p, k) of a Pod: 0 without code (R323). -/
def pairDigest (s : State) (p : PodId) : Word64 := if hasCode s p then (pod s p).core.pairSum else 0

/-- POD_PAIR_DIGEST shows the frame that has ended. -/
def showPairDigests (s : State) : State :=
  allPods.foldl (fun t (p : PodId) => setReg64 t (rPod p 0x918) (pairDigest s p).toNat) s

/-- The payload of pair digest packet `g`, filled to whole 64-byte units. -/
def pairPayload (k g : Nat) (l : List Word64) : List Byte :=
  sliceB (leBytes 1 2 ++ leBytes 1 g ++ List.replicate 6 0 ++ leBytes 8 k
    ++ ((l.drop (16 * g)).take 16).flatMap (fun d => leBytes 8 d.toNat)) 0 192

/-- The digests of a frame are sent to the pair's other device (R324). -/
def sendPairDigests (s : State) : State :=
  if flag s rPair 31 then
    let l := allPods.map (pairDigest s)
    let p := physOf s (toPort (field s rPair 0 4))
    let peer := (peerDev s p).getD 0
    (upTo 4).foldl (fun t g =>
      queueTx t p none (twinePacket 0xF (deviceCoord s * 512) (peer * 512) 0xFFFFFF false (pairPayload (weaveFrame s) g l))) s
  else s

/-- While the device compares, the digests of a frame are kept and compared with what has come from the other device (R324, R325). -/
def matchPairDigests (s : State) : State :=
  if flag s rPair 31 && flag s rPairStatus 31 then
    let k := weaveFrame s
    comparePair (modMisc s (fun m => { m with pairOwn := m.pairOwn ++ [(k, allPods.map (pairDigest s))] })) k
  else s

/-- Weave stake `c` is a checkpoint stake (R420). -/
def isCheckpoint (w : Weave) (c : Nat) : Bool :=
  if w.ckptInterval = 0 then w.ckptList.contains c else decide (0 < c) && decide (c % w.ckptInterval = 0)

/-- A Q.STORE or TW.* token of frame `c` or earlier is outstanding in some Pod. -/
def tokensOpen (s : State) (c : Nat) : Bool :=
  allPods.any (fun p => (pod s p).outq.toList.any (fun q => q.tokens.any (fun t =>
    (t.kind = .store || isTwineToken t) && decide (t.frame ≤ c))))

/-- The lowest-numbered Pod with code. -/
def firstCoded (s : State) : Option PodId := allPods.find? (hasCode s)

/-- Checkpoint `c` is recorded as LAST, with LAST's step, or skipped and counted, in the registers of R424 (R421). -/
def recordCheckpoint (s : State) (c : Nat) : State :=
  if tokensOpen s c then setField s rCkptStatus 0 16 (min 0xFFFF (field s rCkptStatus 0 16 + 1))
  else
    let step := match firstCoded s with
      | some p => (pod s p).core.fendStepPrev.toNat
      | none => 0
    let s1 := setReg64 (setReg64 s rCkptPrev (reg64 s rCkptLast)) rCkptPrevStep (reg64 s rCkptLastStep)
    let s2 := setReg64 (setReg64 s1 rCkptLast c) rCkptLastStep step
    setFlag (setFlag s2 rCkptStatus 30 (flag s rCkptStatus 31)) rCkptStatus 31 true

/-- The checkpoint of the frame before the one that ends. -/
def checkpointStep (s : State) : State :=
  match s.active with
  | none => s
  | some w =>
    let k := weaveFrame s
    if w.firstWeaveStake < k ∧ isCheckpoint w (k - 1) then recordCheckpoint s (k - 1) else s

/-- The end of a weave's Pod frame, at the last check point of its stake. -/
def endFrame (s : State) : State :=
  if weaveActive s && !faulted s && !s.stake.frameEnded then
    let s1 := checkpointStep (matchPairDigests (sendPairDigests (showPairDigests s)))
    { s1 with stake := { s1.stake with frameEnded := true } }
  else s

/-! ## A frame begins -/

/-- The cycles, even and within the crossing delay, in which a frame's resume bundle may issue (R157, R171). -/
def resumeCycles (c : Nat) : List Nat := (upTo 3).filterMap (fun d => if (c + d) % 2 = 0 then some (c + d) else none)

/-- A Pod with code leaves its frame end. -/
def resumePod (s : State) (p : PodId) : State :=
  if hasCode s p && podAtFend s p then
    let n := draw s
    let l := resumeCycles (pod s p).core.cycle
    let at_ := l.getD (Config.crossingDelay n.1 % l.length) (pod s p).core.cycle
    modCore (setFlag n.2 (rPod p 0x100) 28 false) p (fun k => { k with
      upSince := none, fendTick := none, fendStepPrev := k.fendStep, resumeCycle := at_, frameBundles := 0, pairSum := 0, selSeen := [] })
  else s

/-- Every Pod with code resumes. -/
def resumePods (s : State) : State := allPods.foldl resumePod s

/-- W now in force is what the completed loads have made it (R319). -/
def takeWeight (s : State) : State :=
  setDigest (modMisc s (fun m => { m with weightNow := m.weightNext })) rWeightDigest s.misc.weightNext

/-- What the on-die network has written for the earlier frames becomes readable (R21). -/
def landArrivals (s : State) : State :=
  forEach allFsqs s (fun t f =>
    (fsq t f).landed.foldl (fun u d => externalWrite u d.1 d.2.1 d.2.2) (modFsq t f (fun q => { q with landed := [] })))

/-- What every frame start does: arrivals and entries become visible, posts are processed, refused entries offered again, W taken. -/
def frameWork (s0 : State) : State :=
  let s := landArrivals s0
  let s1 := { s with stake := { s.stake with frames := s.stake.frames + 1, frameTick := tick s } }
  takeWeight (reofferEntries (processPosts s1))

/-- The weave frame that begins has number `k`. -/
def beginFrame (s : State) (k : Nat) : State := { s with stake := { s.stake with frame := k, frameEnded := false } }

/-- Weave frame 0 of a weave, or the first after a restart, begins at the quiet stake's check point (R228). -/
def firstFrame (s : State) (w : Weave) : State :=
  resumePods (startStreams (beginFrame (frameWork s) w.firstWeaveStake))

/-- The next frame of a running weave begins; commits of the frame before the last are applied. In stake S0 − 2 of a pending load the
old weave's Pods stay at their frame ends. -/
def nextFrame (s : State) : State :=
  let k := weaveFrame s + 1
  let s1 := beginFrame (frameWork s) k
  let s2 := if 2 ≤ k then retryLocal (applyCommits s1 (k - 2)) else s1
  if weavePending s && decide (reg64 s rStartStake = stakeNo s + 2) then s2 else resumePods s2

/-- POD_FRAME_START: the last check point of the stake has come. After a failure no frame begins until the recovery stake's (R225). -/
def frameStart (s0 : State) : State :=
  let s := endFrame s0
  if weaveActive s && noticeHeld s then s
  else
    match s.active with
    | none => beginFrame (frameWork s) (weaveFrame s + 1)
    | some w =>
      if faulted s then beginFrame (frameWork s) (weaveFrame s + 1)
      else if weaveActive s then nextFrame s
      else if quiet s && !someLoading s then firstFrame s w
      else beginFrame (frameWork s) (weaveFrame s + 1)

/-- POD_FRAME_START (R20, R157): the row names the check point of the stake's last hold round, after its CHECK_POINT and once in a stake; at any
other tick no frame begins. -/
def execPodFrameStart (s : State) : Host.Outcome State Fault Refusal :=
  .next (if atFinalCheck s && !s.stake.frameStarted then frameStart { s with stake := { s.stake with frameStarted := true } } else s)

end Sys2Proof.Machine
end

