-- ==== Sys2Proof/Machine/Gather.lean ====
section
/-! DEFINITION. The Gather Engines (R119 to R128). -/

namespace Sys2Proof.Machine

/-! ## Requests and graphs -/

/-- A gather request (R120). -/
structure GeReq where
  graph : Nat
  step : Word64
  seeds : Nat
  dst : Nat
  limit : Nat
  count : Nat
  k : Nat
  seedIndex : Nat
  flags : Nat
  draw : Nat
  featOffset : Nat
  featBytes : Nat
  rsvZero : Bool
  deriving DecidableEq, Repr

/-- Read a request's 64 bytes. -/
def geReqOf (b : List Byte) (step : Word64) : GeReq where
  graph := numAt b 0 8
  step := step
  seeds := numAt b 0x10 4
  dst := numAt b 0x14 4
  limit := numAt b 0x18 4
  count := numAt b 0x1C 1
  k := numAt b 0x1D 1
  seedIndex := numAt b 0x1E 1
  flags := numAt b 0x1F 1
  draw := numAt b 0x20 2
  featOffset := numAt b 0x24 4
  featBytes := numAt b 0x28 4
  rsvZero := zeroAt b 0x22 2 && zeroAt b 0x2C 20 && decide (numAt b 0x1F 1 < 8)

/-- DEDUP, FETCH and INCLUDE_SELF. -/
def geDedup (r : GeReq) : Bool := decide (r.flags % 2 = 1)
def geFetch (r : GeReq) : Bool := decide (r.flags / 2 % 2 = 1)
def geSelf (r : GeReq) : Bool := decide (r.flags / 4 % 2 = 1)

/-- A graph descriptor (R119). -/
structure Graph where
  rowptr : Nat
  colidx : Nat
  feat : Nat
  nodes : Nat
  stride : Nat
  edges : Nat
  rsvZero : Bool
  deriving DecidableEq, Repr

/-- Read a descriptor's 64 bytes. -/
def graphOf (b : List Byte) : Graph :=
  ⟨numAt b 0 8, numAt b 8 8, numAt b 0x10 8, numAt b 0x18 4, numAt b 0x1C 4, numAt b 0x20 8, zeroAt b 0x28 24⟩

/-! ## Checks (R124, R127) -/

/-- The largest possible output. R124 leaves open whether the rows of a request without FETCH count: they do not, and K + 1 entries always do
(DESIGN CHOICE, log 61). -/
def geLimit (r : GeReq) : Nat :=
  let n := r.count * (r.k + 1)
  64 + ceilTo 64 (2 * r.count * r.k) + ceilTo 64 (4 * n) + (if geFetch r then n * r.featBytes else 0)

/-- STATUS 1: the output area. -/
def geBadDst (s : State) (p : PodId) (r : GeReq) : Bool :=
  decide (r.limit < geLimit r) || decide (r.dst % 128 ≠ 0) || decide (0x1000000 < r.dst + r.limit)
    || touchesNodes s p r.dst r.limit

/-- STATUS 2 found in the request. -/
def geBadGraph (r : GeReq) : Bool := decide (r.graph % 64 ≠ 0) || decide (rootEnd < r.graph + 64)

/-- STATUS 3 found in the request. -/
def geBadRequest (r : GeReq) : Bool :=
  r.count = 0 || decide (64 < r.count) || r.k = 0 || decide (64 < r.k) || decide (r.featOffset % 64 ≠ 0)
    || decide (r.featBytes % 64 ≠ 0) || decide (r.featBytes < 64) || decide (4096 < r.featBytes) || !r.rsvZero

/-- STATUS 2 found in the descriptor. -/
def geBadArrays (r : GeReq) (g : Graph) : Bool :=
  decide (rootEnd < g.rowptr + 8 * (g.nodes + 1)) || decide (rootEnd < g.colidx + 4 * g.edges)
    || (geFetch r && decide (rootEnd < g.feat + g.nodes * g.stride))

/-- STATUS 3 found in the descriptor. -/
def geBadDescriptor (r : GeReq) (g : Graph) : Bool :=
  g.nodes = 0 || decide (g.stride % 64 ≠ 0) || decide (g.rowptr % 8 ≠ 0) || decide (g.colidx % 4 ≠ 0)
    || decide (g.feat % 64 ≠ 0) || !g.rsvZero || (geFetch r && decide (g.stride < r.featOffset + r.featBytes))

/-- The STATUS that a list of findings gives: several found at one tick leave it open, but the request alone decides it (R300, R301). -/
def geStatus (b : List Byte) (step : Word64) (l : List Nat) : Nat :=
  match l with
  | [] => 0
  | a :: _ => l.getD (Config.gatherStatus b step % l.length) a

/-! ## Sampling (R122) -/

/-- What one seed slot gives: its errors, its neighbours in order, entries scanned, and the unit of an uncorrectable
read. -/
structure GeSlot where
  seedRange : Bool
  malformed : Bool
  nbrRange : Bool
  chosen : List Nat
  scanned : Nat
  ue : Option Nat
  deriving DecidableEq, Repr

/-- Keep one of equal numbers. -/
def distinct : List Nat → List Nat
  | [] => []
  | a :: l => if l.contains a then distinct l else a :: distinct l

/-- The K candidates with the smallest (key, n), ascending. -/
def geChoose (seed : Word64) (r : GeReq) (v : Nat) (cands : List Nat) : List Nat :=
  let g := ctrDraw seed r.step (BitVec.ofNat 64 (2 ^ 63 + r.draw))
  let keyed := cands.map (fun n => ((mix64 (g ^^^ BitVec.ofNat 64 (v * 2 ^ 32 + n))).toNat, n))
  ((sortBy (fun a b => decide (a.1 < b.1) || (a.1 = b.1 && decide (a.2 ≤ b.2))) keyed).take r.k).map (·.2)

/-- The first uncorrectable unit that a Root read meets (R184). -/
def rootUe (s : State) (a n : Nat) : Option Nat := (eccIn s 2 a n).head?

/-- One seed slot. -/
def geSlot (s : State) (seed : Word64) (r : GeReq) (g : Graph) (v : Nat) : State × GeSlot :=
  if g.nodes ≤ v then (s, ⟨true, false, false, [], 0, none⟩)
  else
    let p := rootRead s (g.rowptr + 8 * v) 16
    let lo := numAt p.2.1 0 8
    let hi := numAt p.2.1 8 8
    if hi < lo ∨ g.edges < hi then (p.1, ⟨false, true, false, [], 0, rootUe s (g.rowptr + 8 * v) 16⟩)
    else
      let a := rootRead p.1 (g.colidx + 4 * lo) (4 * (hi - lo))
      let ids := payloadLanes a.2.1
      let good := distinct (ids.filter (fun n => decide (n < g.nodes)))
      (a.1, ⟨false, false, ids.any (fun n => decide (g.nodes ≤ n)), geChoose seed r v good, hi - lo,
        (rootUe s (g.rowptr + 8 * v) 16).orElse (fun _ => rootUe s (g.colidx + 4 * lo) (4 * (hi - lo)))⟩)

/-- Every seed slot in turn. -/
def geSlots (seed : Word64) (r : GeReq) (g : Graph) : State → List Nat → State × List GeSlot
  | s, [] => (s, [])
  | s, v :: l =>
    let a := geSlot s seed r g v
    let b := geSlots seed r g a.1 l
    (b.1, a.2 :: b.2)

/-! ## Output (R123) -/

/-- Position of a number in a list. -/
def indexOf? (n : Nat) : List Nat → Nat → Option Nat
  | [], _ => none
  | a :: l, i => if a = n then some i else indexOf? n l (i + 1)

/-- Take the neighbours into the unique list: the list and each neighbour's position. -/
def geUnique (dedup : Bool) : List Nat → List Nat → List Nat × List Nat
  | u, [] => (u, [])
  | u, n :: l =>
    match (if dedup then indexOf? n u 0 else none) with
    | some i => let r := geUnique dedup u l; (r.1, i :: r.2)
    | none => let r := geUnique dedup (u ++ [n]) l; (r.1, u.length :: r.2)

/-- The index rows of the seed slots, and the unique list. -/
def geIndex (dedup : Bool) (k : Nat) : List Nat → List GeSlot → List Nat × List Nat
  | u, [] => (u, [])
  | u, t :: l =>
    let r := geUnique dedup u t.chosen
    let q := geIndex dedup k r.1 l
    (q.1, r.2 ++ List.replicate (k - r.2.length) 0xFFFF ++ q.2)

/-- A mask of the slots that `f` selects. -/
def geMask (f : GeSlot → Bool) (l : List GeSlot) : Nat :=
  ((List.zip l (upTo l.length)).map (fun e => if f e.1 then 2 ^ e.2 else 0)).sum

/-- The 64-byte header. -/
def geHeader (status unique seedRange malformed nbrRange : Nat) : List Byte :=
  leBytes 2 status ++ leBytes 2 unique ++ leBytes 4 0 ++ leBytes 8 seedRange ++ leBytes 8 malformed ++ leBytes 8 nbrRange
    ++ List.replicate 32 0

/-- A part of the output at an offset, filled up to whole 64-bit words (R176). -/
def wholeWords (o : Nat) (b : List Byte) : List Byte :=
  b ++ (upTo (ceilTo 8 b.length - b.length)).map (fun i => Config.gatherFill (o + b.length + i))

/-- Parts of the output of operation `op` arrive at the Pod; a part that leaves the Pod store or would change the node region is dropped. The lines
ask the banks last of rank 4, and the bytes are written as they are granted (R121, R167, R169, R172). -/
def geWrite (s : State) (p : PodId) (op : Nat) (parts : List (Nat × List Byte)) : State :=
  arriveData s p op ((parts.map (fun e => (e.1, wholeWords e.1 e.2))).filter (fun e =>
    !(e.2.isEmpty || decide (podSize < e.1 + e.2.length) || touchesNodes s p e.1 e.2.length)))

/-- Read feature rows: each listed node with whether its row is read or zero-filled. -/
def geRows (r : GeReq) (g : Graph) : State → List (Nat × Bool) → State × List Byte × Option Nat
  | s, [] => (s, [], none)
  | s, (v, read) :: l =>
    if read then
      let a := rootRead s (g.feat + v * g.stride + r.featOffset) r.featBytes
      let b := geRows r g a.1 l
      (b.1, a.2.1 ++ b.2.1,
        (rootUe s (g.feat + v * g.stride + r.featOffset) r.featBytes).orElse (fun _ => b.2.2))
    else
      let b := geRows r g s l
      (b.1, List.replicate r.featBytes 0 ++ b.2.1, b.2.2)

/-! ## Service (R120, R126, R128) -/

/-- The Pod whose request the engine of die `d` serves next, in round-robin order. -/
def geNextPod (s : State) (d : DieId) : Option PodId :=
  let from_ := vget s.misc.geNext d
  ((upTo 16).map (fun i => toPod (d.val * 16 + (from_ + i) % 16))).find? (fun p => !(pod s p).gathers.isEmpty)

/-- A request has been served and its output is on its way: the counter advances, and the engine turns to the next Pod. Its token completes once
the output stands in the store (R120, R188). -/
def geFinish (s : State) (d : DieId) (p : PodId) : State :=
  let s1 := modPod s p (fun x => { x with gathers := x.gathers.tail })
  add64 (modMisc s1 (fun m => { m with geNext := vput m.geNext d ((p.val % 16 + 1) % 16) })) (rGe d.val 0x18) 1

/-- The seed entry a request names (R311). -/
def seedEntry (s : State) (i : Nat) : Word64 :=
  match s.active with
  | some w => w.seeds.getD i 0
  | none => 0

/-- Sample, list and fetch (R122, R123, R125), with the seeds as they have been read. A SEEDS list that passes the end of the Pod store is read on at the device addresses behind it:
the spec names no status or trap there (DESIGN CHOICE, log 61). -/
def geRun (s : State) (d : DieId) (p : PodId) (op : Nat) (r : GeReq) (seeds : List Nat) (g : Graph) : State :=
  let sl := geSlots (seedEntry s r.seedIndex) r g s seeds
  let slots := sl.2
  let start := if geSelf r then seeds else []
  let ix := geIndex (geDedup r) r.k start slots
  let unique := ix.1
  let rowFlags := (List.zip unique (upTo unique.length)).map (fun e =>
    (e.1, if e.2 < start.length then !((slots.getD e.2 ⟨false, false, false, [], 0, none⟩).seedRange
        || (slots.getD e.2 ⟨false, false, false, [], 0, none⟩).malformed) else true))
  let rows := if geFetch r then geRows r g sl.1 rowFlags else (sl.1, [], none)
  let ue := ((slots.filterMap (·.ue)).head?).orElse (fun _ => rows.2.2)
  let s1 := match ue with | some a => raiseFault rows.1 4 rErrGe d.val d.val a | none => rows.1
  let listAt := r.dst + 64 + ceilTo 64 (2 * r.count * r.k)
  let header := geHeader (if ue.isSome then 4 else 0) unique.length (geMask (·.seedRange) slots)
    (geMask (·.malformed) slots) (geMask (·.nbrRange) slots)
  let s5 := geWrite s1 p op ([(r.dst, header), (r.dst + 64, ix.2.flatMap (leBytes 2)), (listAt, unique.flatMap (leBytes 4))]
    ++ (if geFetch r then [(listAt + ceilTo 64 (4 * unique.length), rows.2.1)] else []))
  let s6 := add64 s5 (rGe d.val 0x10) ((slots.map (·.scanned)).sum)
  if geFetch r then add64 s6 (rGe d.val 0x08) ((rowFlags.filter (·.2)).length) else s6

/-- Serve one request: check it, read its graph, and form its output. `data` is the request and its seed list as the banks have granted them, from
which bytes of the node region read as zero (R79). -/
def geServe (s : State) (d : DieId) (p : PodId) (g : GatherReq) (data : List Byte) : State :=
  let q := maskNodes s p g.addr (data.take 64)
  let r := geReqOf q g.step
  let early := trapIf (geBadDst s p r) 1 ++ trapIf (geBadGraph r) 2 ++ trapIf (geBadRequest r) 3
  let finish := fun (t : State) (h : List Byte) => geFinish (geWrite t p g.op [(r.dst, h)]) d p
  let status := fun (l : List Nat) => geHeader (geStatus q g.step l) 0 0 0 0
  if early ≠ [] then finish s (status early)
  else
    let gr := rootRead s r.graph 64
    let graph := graphOf gr.2.1
    if gr.2.2 then
      finish (raiseFault gr.1 4 rErrGe d.val d.val ((rootUe s r.graph 64).getD r.graph)) (geHeader 4 0 0 0 0)
    else
      let late := trapIf (geBadArrays r graph) 2 ++ trapIf (geBadDescriptor r graph) 3
      if late ≠ [] then finish gr.1 (status late)
      else geFinish (geRun gr.1 d p g.op r (payloadLanes (maskNodes s p r.seeds (data.drop 64))) graph) d p

/-- A request can be served: the clocks of the engine, the die's network and its Root controllers run, and the pseudo-channel of the graph
descriptor is not in refresh (R181, R354). -/
def geReady (s : State) (d : DieId) (p : PodId) (g : GatherReq) : Bool :=
  fabricRuns s && networkRuns s d.val && rootRuns s d.val && !inRefresh s (reqField s p g.addr 0 8)

/-- What the engine reads of the Pod store for a request: the request and its seed list (R120). -/
def gePieces (s : State) (p : PodId) (g : GatherReq) : List (Nat × Nat) :=
  [(g.addr, 64), (reqField s p g.addr 0x10 4, 4 * reqField s p g.addr 0x1C 1)]

/-- GE_REQUEST_SERVE: the engine of die `d` takes the next request, reads it and its seeds over the on-die network (R169), and serves it once the
banks have granted them. -/
def execGeRequestServe (d : DieId) (s : State) : Host.Outcome State Fault Refusal :=
  match geNextPod s d with
  | none => .next s
  | some p =>
    match (pod s p).gathers with
    | [] => .next s
    | g :: _ =>
      if !geReady s d p g then .next s
      else
        let r := netRead s p (.gather d g.op) (gePieces s p g)
        match r.2 with
        | some data => .next (geServe r.1 d p g data)
        | none => .next r.1

/-- TOKEN_COMPLETE: the oldest transfer of an outbound queue moves on, and tokens complete in issue order (R188). -/
def execTokenComplete (p : PodId) (q : Fin 8) (s : State) : Host.Outcome State Fault Refusal :=
  .next (completeToken s p q)

/-- ENTROPY_HEALTH_FAIL: the Pod's noise source has failed its test (R118). -/
def execEntropyHealthFail (p : PodId) (s : State) : Host.Outcome State Fault Refusal :=
  .next (raisePodErr s 3 rErrEntropy p 0 false)

end Sys2Proof.Machine
end

