-- ==== Sys2Proof/Machine/LinkTx.lean ====
section
/-! DEFINITION. What a port sends in one flit slot: flit mode (R240, R264 to R267), packet mode with its scheduled picks, the order
of R260, the limits of R250 and R261, reports, acknowledgements, credits and holds (R236, R246, R249, R253), and the row FLIT_SLOT. -/

namespace Sys2Proof.Machine

/-! ## Flits -/

/-- The 288 bytes of a flit. -/
def flitBytes (payload : List Byte) (control : Nat) : List Byte :=
  let b := sliceB payload 0 256 ++ leBytes 8 control
  b ++ flitParity b

/-- A flit of flit mode with its CRC-16 (R240). -/
def flitModeBytes (payload : List Byte) (control : Nat) : List Byte :=
  let b := sliceB payload 0 254
  flitBytes (b ++ leBytes 2 (flitCrc16 (b ++ leBytes 8 control))) control

/-- A flit leaves a port; what is not IDLE counts for the power estimate (R379). -/
def sendFlit (s : State) (p : PortId) (idle : Bool) (b : List Byte) : State :=
  let s1 := emit s (.flit p b)
  if idle then add64 s1 (rPort p 0x50) 1 else { s1 with power := { s1.power with flits := s1.power.flits + 1 } }

/-! ## Flit mode -/

/-- The control field of a flit-mode flit: ACK_T names the last counted flit accepted, or with NAK_T the one expected (R240). A SINGLE carries a
packet of the twine plane (R236, R237). -/
def flitModeControl (x : Port) (type : Nat) : Nat :=
  let ack := if x.nakF then x.rxCount else x.rxCount - 1
  2 ^ 54 + b2n x.nakF * 2 ^ 53 + ack.toNat * 2 ^ 41 + (vget x.limits 2).toNat * 2 ^ 11 + 2 * 2 ^ 9
    + b2n (decide (type = 4)) * 2 ^ 8 + type * 2 ^ 5

/-- A flit of a type leaves in flit mode. -/
def sendFlitMode (s : State) (p : PortId) (type : Nat) (payload : List Byte) : State :=
  let x := port s p
  let s1 := modPort s p (fun y => { y with nakF := false, flitsSinceIdle := if type = 0 then 0 else y.flitsSinceIdle + 1 })
  sendFlit (modTrain s1 p (fun t => { t with sinceAnnounce := t.sinceAnnounce + 1 })) p (type = 0)
    (flitModeBytes payload (flitModeControl x type))

/-- An IDLE of flit mode: NEXT_F is the count the next counted flit carries. -/
def sendIdleFlitMode (s : State) (p : PortId) : State :=
  let x := port s p
  let next := x.txCount - BitVec.ofNat 12 x.flitResend.length
  sendFlitMode (modPort s p (fun y => { y with sendIdleF := false })) p 0 (leBytes 2 next.toNat)

/-- A new counted flit leaves and is kept until it is acknowledged. -/
def sendCounted (s : State) (p : PortId) (type : BitVec 3) (payload : List Byte) : State :=
  sendFlitMode (modPort s p (fun x => { x with
    txCount := x.txCount + 1, flitReplay := x.flitReplay ++ [(type, payload)] })) p type.toNat payload

/-- The payload of a TRAIN flit (R264). -/
def trainPayload (s : State) (p : PortId) (kind tEcho tTurn : Nat) : List Byte :=
  leBytes 1 kind ++ leBytes 1 (logicalOf s p).val ++ leBytes 1 (field s rPrtVersion 24 8) ++ leBytes 1 (field s rPrtVersion 16 8)
    ++ leBytes 2 (Config.weaveAbi / 2 ^ 16) ++ leBytes 2 Config.weaveAbi ++ leBytes 2 (deviceCoord s) ++ leBytes 2 0x8240
    ++ [s.fuses.stepping] ++ leBytes 1 (if kind = 3 then outcome s p else 0) ++ leBytes 2 384 ++ leBytes 2 384 ++ leBytes 2 32
    ++ leBytes 4 0 ++ leBytes 8 (tick s) ++ leBytes 8 tEcho ++ leBytes 8 tTurn ++ sliceB (manifestDigest s) 0 32

/-- A TRAIN flit leaves. -/
def sendTrain (s : State) (p : PortId) (kind tEcho tTurn : Nat) : State :=
  sendCounted s p 5 (trainPayload s p kind tEcho tTurn)

/-- READY leaves, and the exchange ends where the peer's has come (R265, R267). -/
def sendReady (s : State) (p : PortId) : State :=
  finishExchange (sendTrain (modTrain s p (fun t => { t with step := 5 })) p 3 0 0) p

/-- Units of credit left on a channel (R252). -/
def creditLeft (s : State) (p : PortId) (c : Nat) : Nat :=
  (field s (rPort p (0x20 + 4 * c)) 16 16 + 65536 - field s (rPort p (0x20 + 4 * c)) 0 16) % 65536

/-- Debit a channel. -/
def debit (s : State) (p : PortId) (c units : Nat) : State :=
  setField s (rPort p (0x20 + 4 * c)) 0 16 (field s (rPort p (0x20 + 4 * c)) 0 16 + units)

/-- The flits of a packet with its trailer, filled to `n` flits of 256 bytes (R239). -/
def packetBytes (k : Packet) (n : Nat) : List Byte :=
  let b := headerBytes k ++ k.payload
  sliceB (b ++ leBytes 4 (packetCrc32 b)) 0 (256 * n)

/-- A BYP message leaves in PARLEY as one SINGLE flit (R266); its token completes once the far end acknowledges the flit (R256). -/
def sendParley (s : State) (p : PortId) (k : Packet) : State :=
  let s1 := modPort (debit s p 2 (unitsOf k)) p (fun x => { x with txByp := x.txByp.tail })
  sendCounted (add64 s1 (rPort p 0x48) 1) p 4 (packetBytes k 1)

/-- An ANNOUNCE leaves (R265). -/
def sendAnnounce (s : State) (p : PortId) : State :=
  modTrain (sendTrain s p 0 0 0) p (fun t => { t with sinceAnnounce := 0 })

/-- `n` bytes of PRBS31, whose next bit is the exclusive or of the bits 31 and 28 before it; `w` holds the last 31 bits, the oldest lowest. The
spec names the sequence only: its polynomial x^31 + x^28 + 1 and the order of its bits in a byte are PRESUMED (log 17). -/
def prbs31 : Nat → Nat → List Byte
  | 0, _ => []
  | n + 1, w =>
    let b := Nat.xor w (w / 8) % 256
    BitVec.ofNat 8 b :: prbs31 n (w / 256 + b * 2 ^ 23)

/-- The next new flit of flit mode. In TRAIN an ANNOUNCE is due once 62 flits have left since the last, so that with an IDLE before it one leaves
in every 64 (R265). The spec gives no order among the rest; the model answers requests first (DESIGN CHOICE, log 17). -/
def newFlit (s : State) (p : PortId) : State :=
  let x := port s p
  let t := x.train
  let l := lstate s p
  if l = 2 ∧ 62 ≤ t.sinceAnnounce then sendAnnounce s p
  else
  match t.replies with
  | (b, at_) :: rest =>
    sendTrain (modTrain s p (fun t => { t with replies := rest })) p 2 (numAt b 0x18 8) (tick s - at_)
  | [] =>
    if l = 6 ∧ t.step = 1 then sendTrain (modTrain s p (fun t => { t with step := if t.peerRecover then 4 else 2 })) p 4 0 0
    else if l = 2 ∧ t.delays.length < 64 ∧ t.asked = false then sendTrain (modTrain s p (fun t => { t with asked := true })) p 1 0 0
    else if t.step = 4 ∧ (l = 2 ∨ l = 6) then sendReady s p
    else if l = 4 then
      match x.txByp with
      | (_, k) :: _ => if unitsOf k ≤ creditLeft s p 2 then sendParley s p k else sendIdleFlitMode s p
      | [] => sendIdleFlitMode s p
    else if l = 3 ∧ flag s (rPort p 0) 2 ∧ field s (rPort p 0x04) 24 4 = 1 then
      let n := draw s
      sendFlitMode n.2 p 6 (prbs31 254 (Config.testStart n.1 % (2 ^ 31 - 1) + 1))
    else sendIdleFlitMode s p

/-- A counted flit leaves again (R240): one of a packet counts as the twine plane's, and an ANNOUNCE is one more ANNOUNCE sent. -/
def sendAgainFlit (s : State) (p : PortId) (type : BitVec 3) (b : List Byte) : State :=
  let s1 := sendFlitMode (modPort s p (fun y => { y with flitResend := y.flitResend.tail })) p type.toNat b
  if type = 4 then add64 s1 (rPort p 0x48) 1
  else if numAt b 0 1 = 0 then modTrain s1 p (fun t => { t with sinceAnnounce := 0 })
  else s1

/-- One slot of flit mode. -/
def flitModeSlot (s : State) (p : PortId) : State :=
  let x := port s p
  if x.sendIdleF ∨ 63 ≤ x.flitsSinceIdle then sendIdleFlitMode s p
  else
    match x.flitResend with
    | (type, b) :: _ => sendAgainFlit s p type b
    | [] => if x.flitReplay.length < 64 then newFlit s p else sendIdleFlitMode s p

/-! ## The control field of packet mode -/

/-- The next report on the warp plane, and the port after it (R246). -/
def nextReport (x : Port) : Option (BitVec 12 × Bool) × Port :=
  match x.lost.find? (fun l => l.reports < 4) with
  | some l =>
    (some (l.seq, true), { x with lost := x.lost.map (fun m => if m.seq = l.seq then { m with reports := m.reports + 1 } else m) })
  | none =>
    match x.racks with
    | r :: rest =>
      (some (r.seq, false), { x with racks := if r.reports = 3 then rest else { r with reports := r.reports + 1 } :: rest })
    | [] =>
      match x.lost with
      | l :: rest => (some (l.seq, true), { x with lost := rest ++ [l] })
      | [] => (none, x)

/-- ACK_W: the highest number up to which every number is decided (R245, R246). -/
def ackW (x : Port) : BitVec 12 :=
  match x.lost.find? (fun l => l.reports < 4) with
  | some l => l.seq - 1
  | none => x.rxWarpSeq - 1

/-- The present flit slot of the pick (R233). -/
def flitSlotNo (s : State) : Nat := 7 * (stakeTick s % 36) / 36

/-- The control field of the present packet-mode flit, and the state after what it reports. -/
def packetModeControl (s : State) (p : PortId) (type : Nat) (plane : Bool) : State × Nat :=
  let x := port s p
  let rep := if flitSlotNo s < 4 then nextReport x else (none, x)
  let c := x.creditVc % 3
  let hold := if holdsNow s then holdTag s * 2 ^ 56 + 2 ^ 55 else 0
  let ackT := if x.sendNakT then 2 ^ 53 + x.rxTwineSeq.toNat * 2 ^ 41 else (x.rxTwineSeq - 1).toNat * 2 ^ 41
  let w := match rep.1 with
    | some (n, true) => 2 ^ 39 + n.toNat * 2 ^ 27
    | some (n, false) => 2 ^ 40 + n.toNat * 2 ^ 27
    | none => (ackW x).toNat * 2 ^ 27
  let credit := (vget x.limits (fin 3 (by decide) c)).toNat * 2 ^ 11 + c * 2 ^ 9
  (modPort s p (fun _ => { rep.2 with creditVc := (c + 1) % 3, sendNakT := false }),
    hold + ackT + w + credit + b2n plane * 2 ^ 8 + type * 2 ^ 5)

/-- An IDLE of packet mode leaves (R237). -/
def sendIdlePacket (s : State) (p : PortId) : State :=
  let x := port s p
  let c := packetModeControl s p 0 false
  sendFlit (modPort c.1 p (fun y => { y with flitsSinceIdle := 0 })) p true
    (flitBytes (leBytes 2 x.txWarpSeq.toNat ++ leBytes 2 x.txTwineSeq.toNat) c.2)

/-- A flit of a packet leaves. -/
def sendPacketFlit (s : State) (p : PortId) (type : Nat) (plane : Bool) (b : List Byte) : State :=
  let c := packetModeControl s p type plane
  let s1 := modPort c.1 p (fun y => { y with flitsSinceIdle := y.flitsSinceIdle + 1 })
  sendFlit (add64 s1 (rPort p (if plane then 0x48 else 0x40)) 1) p false (flitBytes b c.2)

/-- The types of the flits of a packet of `n` flits (R237). -/
def flitTypes (n : Nat) : List Nat := if n = 1 then [4] else [1] ++ List.replicate (n - 2) 2 ++ [3]

/-- The flits of a packet, each with its plane and type. -/
def flitsOf (k : Packet) (plane : Bool) (n : Nat) : List (List Byte × BitVec 64) :=
  List.zip (chunksB 256 n (packetBytes k n)) ((flitTypes n).map (fun t => BitVec.ofNat 64 (b2n plane * 2 ^ 8 + t * 2 ^ 5)))

/-- The next flit of the packet that the port is sending. -/
def sendHeadFlit (s : State) (p : PortId) : State :=
  match (port s p).txFlits with
  | (b, c) :: rest =>
    sendPacketFlit (modPort s p (fun x => { x with txFlits := rest })) p (getF c 5 3) (getB c 8) b
  | [] => sendIdlePacket s p

/-- A packet begins. -/
def beginPacket (s : State) (p : PortId) (plane : Bool) (n : Nat) (k : Packet) : State :=
  sendHeadFlit (modPort s p (fun x => { x with txFlits := flitsOf k plane n })) p

/-! ## The warp plane (R243, R247, R250) -/

/-- Flits of a warp-plane packet: warp data fills its pick, other packets are one flit (R199). -/
def warpFlits (k : Packet) : Nat := if isWarpData k then 7 else 1

/-- A warp-plane packet leaves for the first time: it takes the next number and a copy is kept (R243). -/
def beginWarp (s : State) (p : PortId) (k : Packet) : State :=
  let r := numberWarp s p k
  beginPacket r.1 p false (warpFlits k) r.2

/-- A copy was sent outside the warp picks of this stake, or is no warp data: it is unscheduled (R250). -/
def unscheduled (s : State) (c : WarpCopy) : Bool :=
  !isWarpData c.pkt || decide ((reg64 s rStakeStart + 896 * 36) / 36 ≤ c.sentPick)

/-- Bytes of a packet with header and trailer. -/
def wireBytes (k : Packet) : Nat := k.payload.length + 20

/-- The replay buffer has room for one more unscheduled warp-plane packet. -/
def roomForWarp (s : State) (p : PortId) (k : Packet) : Bool :=
  let l := (port s p).copies.filter (unscheduled s)
  decide (l.length < 47) && decide ((l.map (fun c => wireBytes c.pkt)).sum + wireBytes k ≤ 55020)

/-- A NOTICE leaves: the FSQ counts it (R231). -/
def sendNotice (s : State) (p : PortId) (k : Packet) : State :=
  let s1 := modPort s p (fun x => { x with txNotices := x.txNotices.tail })
  let r := numberWarp (add64 s1 (rFsq (dieOf s p) 0x068) 1) p k
  sendPacketFlit r.1 p 4 false (packetBytes r.2 1)

/-- A NOTICE that may leave now. -/
def readyNotice (s : State) (p : PortId) : Option Packet :=
  match (port s p).txNotices with
  | k :: _ => if roomForWarp s p k then some k else none
  | [] => none

/-- A scheduled retry that fits the present slot: warp data begins with a pick. -/
def readyRetry (s : State) (p : PortId) : Option WarpCopy :=
  (port s p).copies.find? (fun c => c.scheduled && (!isWarpData c.pkt || decide (flitSlotNo s = 0)))

/-- A retry leaves with its first number (R243, R247). -/
def sendRetry (s : State) (p : PortId) (c : WarpCopy) : State :=
  let s1 := modPort s p (fun x => { x with copies := x.copies.map (fun d =>
    if d.seq = c.seq then { d with scheduled := false, retryPick := some (absPick s) } else d) })
  beginPacket (add64 s1 (rPort p 0x78) 1) p false (warpFlits c.pkt) c.pkt

/-- The first late packet, RSQ or re-send of the port that may leave by now, in the order the FSQ produced them (R202, R216). -/
def headLate (s : State) (p : PortId) : Option TxItem :=
  s.txItems.find? (fun i => i.port = p && i.atPick.isNone && decide (i.earliest ≤ pickNo s))

/-- Late traffic leaves: what is no RSQ and no re-send is counted by the FSQ (R231). -/
def sendLate (s : State) (p : PortId) (i : TxItem) : State :=
  let s1 := { s with txItems := s.txItems.erase i }
  let s2 := if i.pkt.resend || i.pkt.type = 3 then s1 else add64 s1 (rFsq (dieOf s p) 0x030) 1
  beginWarp s2 p i.pkt

/-! ## Picks in which a port is scheduled (R243, R261) -/

/-- At position `c`, a record sends on TX of port `p` in pick `n`, which its input presented two picks before (R202). -/
def txScheduled (s : State) (p : PortId) (c n : Nat) : Bool :=
  decide (2 ≤ n) && (effectiveAt s (dieOf s p) c).any (fun r => r.mask.getLsbD (inputOf s p) && (runIndex r (n - 2)).isSome)

/-- No twine packet may run into pick `m`: the port is scheduled in it, or it starts the spare picks, a re-send span or the next
stake. Past a commit point that ended the stake, the picks are those of the next stake. -/
def barredPick (s : State) (p : PortId) (m : Nat) : Bool :=
  let stop := 1024 + 256 * s.stake.round
  if s.stake.committed && decide (stop ≤ m) then weaveActive s && txScheduled s p (nextPosition s) (m - stop)
  else (weaveActive s && txScheduled s p (position s) m) || decide (m = 896) || (decide (1024 ≤ m) && decide ((m - 1024) % 256 = 0))

/-- A twine packet of `u` flits that begins now ends before every barred pick. -/
def twineFits (s : State) (p : PortId) (u : Nat) : Bool :=
  let n := pickNo s
  let last := (7 * n + flitSlotNo s + u - 1) / 7
  (upTo (last - n)).all (fun i => !barredPick s p (n + 1 + i))

/-! ## The twine plane (R249, R250, R260) -/

/-- An older packet of a replay leaves again. -/
def sendReplay (s : State) (p : PortId) (k : Packet) : State :=
  beginPacket (modPort s p (fun x => { x with replayLeft := x.replayLeft - 1 })) p true (unitsOf k) k

/-- The packet that the replay sends next. -/
def nextReplay (s : State) (p : PortId) : Option Packet :=
  let x := port s p
  if x.replayLeft = 0 then none else x.replay[x.replay.length - x.replayLeft]?

/-- A forwarded packet may leave its receive buffer: it is at the head of it, and a FENCE waits for earlier packets of its source
in the RSP buffer (R257, R259). -/
def heldReady (s : State) (e : Option PortId × Packet) : Bool :=
  match e.1 with
  | none => true
  | some r =>
    let x := port s r
    let l := rxList x (channelOf e.2)
    decide (l.head? = some e.2) && !fenceWaits s (some r) e.2

/-- The twine part of the replay buffer has room (R242, R250). -/
def roomForTwine (s : State) (p : PortId) (k : Packet) : Bool :=
  let x := port s p
  let age := match x.replay.head? with
    | some h => (x.txTwineSeq - h.seq).toNat
    | none => 0
  decide (x.replay.length < 384) && decide ((x.replay.map wireBytes).sum + wireBytes k ≤ 65536) && decide (age < 2047)

/-- The first packet of a transmit list that is ready to leave. -/
def firstReady (s : State) (l : List (Option PortId × Packet)) : Option (Option PortId × Packet) := l.find? (heldReady s)

/-- Drop the first occurrence of an entry. -/
def dropEntry (e : Option PortId × Packet) (l : List (Option PortId × Packet)) : List (Option PortId × Packet) := l.erase e

/-- A new twine packet leaves: it takes the next number, its units are debited, a copy is kept, and the receive buffer or response
slot that held it is freed (R242, R252, R254, R257). -/
def sendNewTwine (s : State) (p : PortId) (e : Option PortId × Packet) : State :=
  let k := { e.2 with seq := (port s p).txTwineSeq }
  let c := channelOf k
  let s1 := modPort (debit s p c (unitsOf k)) p (fun x => { x with
    txTwineSeq := x.txTwineSeq + 1, replay := x.replay ++ [k], replaySince := if x.replay.isEmpty then tick s else x.replaySince
    txByp := if c = 2 then dropEntry e x.txByp else x.txByp
    txRsp := if c = 1 then dropEntry e x.txRsp else x.txRsp
    txReq := if c = 0 then dropEntry e x.txReq else x.txReq })
  let s2 := match e.1 with
    | some r => settleRsp (freeRx s1 r e.2) r
    | none => if k.type = 0xC then addSlots s1 p false else s1
  beginPacket s2 p true (unitsOf k) k

/-- The ALIGN due on this port: an aligned device's before pick 896, an unaligned one's at any time (R289). -/
def dueAlign (s : State) (p : PortId) : Option (Option PortId × Packet) :=
  if (port s p).alignSent || (aligned s && decide (896 ≤ pickNo s)) then none
  else
    let peer := (peerDev s p).getD 0
    some (none, twinePacket 0xF (deviceCoord s * 512) (peer * 512) 0xFFFFFF false (alignPayload s p))

/-- The candidates for a new twine packet in the order of R260. -/
def twineCandidates (s : State) (p : PortId) : List (Option PortId × Packet) :=
  let x := port s p
  let align := (dueAlign s p).toList
  let byp := if align.isEmpty then (firstReady s x.txByp).toList else align
  byp ++ (firstReady s x.txRsp).toList ++ (firstReady s x.txReq).toList

/-- An IDLE is due before a packet of `u` flits: outside the warp picks at least one in 64 flits (R261). -/
def idleDue (s : State) (p : PortId) (u : Nat) : Bool := decide (896 ≤ pickNo s) && decide (63 < (port s p).flitsSinceIdle + u)

/-- A wait at the replay limits is counted (R250). -/
def countStall (s : State) (p : PortId) (stalled : Bool) : State := if stalled then add64 s (rPort p 0xB0) 1 else s

/-- Twine packets that could leave by their credit, in the order of R260. -/
def creditedTwine (s : State) (p : PortId) : List (Option PortId × Packet) :=
  (twineCandidates s p).filter (fun e => decide (unitsOf e.2 ≤ creditLeft s p (channelOf e.2)))

/-- In this slot a packet waits at the replay limits (R250, R271): a NOTICE, late traffic whose span has come, or a new twine packet, whatever the
slot itself carries. -/
def waitsAtLimits (s : State) (p : PortId) : Bool :=
  let notice := match (port s p).txNotices with
    | k :: _ => !roomForWarp s p k
    | [] => false
  let late := match (if resendPick (pickNo s) then headLate s p else none) with
    | some i => !roomForWarp s p i.pkt
    | none => false
  notice || late || (creditedTwine s p).any (fun e => !roomForTwine s p e.2)

/-- A slot left for twine: a replay, a new packet within the link rate m (R372), or IDLE. -/
def twineSlot (s0 : State) (p : PortId) : State :=
  let i := (port s0 p).twinePhase
  let m := field s0 rPwrStatus 8 4
  let admitted := decide (i * m / 8 < (i + 1) * m / 8)
  let s := modPort s0 p (fun x => { x with twinePhase := (x.twinePhase + 1) % 8 })
  match nextReplay s p with
  | some k =>
    if twineFits s p (unitsOf k) && !idleDue s p (unitsOf k) then sendReplay s p k else sendIdlePacket s p
  | none =>
    let fit := (creditedTwine s p).find? (fun e =>
      roomForTwine s p e.2 && twineFits s p (unitsOf e.2) && !idleDue s p (unitsOf e.2))
    match (if admitted then fit else none) with
    | some e =>
      let isAlign := decide (channelOf e.2 = 2) && (dueAlign s p).isSome
      sendNewTwine (if isAlign then modPort s p (fun x => { x with alignSent := true }) else s) p e
    | none => sendIdlePacket s p

/-- A slot that no scheduled warp packet occupies, with no packet in progress (R260). -/
def freeSlot (s : State) (p : PortId) : State :=
  match readyNotice s p with
  | some k => if idleDue s p 1 then sendIdlePacket s p else sendNotice s p k
  | none =>
    if !resendPick (pickNo s) then twineSlot s p
    else
      match readyRetry s p with
      | some c => if idleDue s p (warpFlits c.pkt) then sendIdlePacket s p else sendRetry s p c
      | none =>
        match headLate s p with
        | some i =>
          let starts := decide (warpFlits i.pkt = 1) || decide (flitSlotNo s = 0)
          if !(port s p).txNotices.isEmpty || !roomForWarp s p i.pkt || !starts then twineSlot s p
          else if idleDue s p (warpFlits i.pkt) then sendIdlePacket s p
          else sendLate s p i
        | none => twineSlot s p

/-- A NOTICE may stand before the next flit of the twine packet in progress: what is left of the packet still ends before every barred pick and
before an IDLE is due (R239, R261; DEDUCED, log 62). -/
def noticeBetween (s : State) (p : PortId) : Bool :=
  let u := (port s p).txFlits.length + 1
  twineFits s p u && !idleDue s p u

/-- A packet in progress goes on, with a NOTICE between the flits of a twine packet where one is ready. -/
def packetGoesOn (s : State) (p : PortId) (twine : Bool) : State :=
  match readyNotice s p with
  | some k => if twine && noticeBetween s p then sendNotice s p k else sendHeadFlit s p
  | none => sendHeadFlit s p

/-- A pick in which the port is scheduled and the FSQ presents nothing: IDLE flits, and no twine packet; a NOTICE takes a slot, which no warp data
occupies (R222, R243, R260, R261). -/
def voidSlot (s : State) (p : PortId) : State :=
  match readyNotice s p with
  | some k => sendNotice s p k
  | none => sendIdlePacket s p

/-- One slot of packet mode. -/
def packetModeSlot (s0 : State) (p : PortId) : State :=
  let s := countStall s0 p (waitsAtLimits s0 p)
  let n := pickNo s
  match (port s p).txFlits with
  | (_, c) :: _ => packetGoesOn s p (getB c 8)
  | [] =>
    match s.txItems.find? (fun i => i.port = p && i.atPick = some n) with
    | some i => beginWarp { s with txItems := s.txItems.erase i } p i.pkt
    | none => if weaveActive s && txScheduled s p (position s) n then voidSlot s p else freeSlot s p

/-- FLIT_SLOT: the port sends what its state and the slot give; electrical idle and equalisation patterns are no flits (R263). -/
def execFlitSlot (p : PortId) (s : State) : Host.Outcome State Fault Refusal :=
  .next (if lstate s p = 5 then packetModeSlot s p else if inFlitMode s p then flitModeSlot s p else s)

end Sys2Proof.Machine
end

