-- ==== Sys2Proof/Machine/Stake.lean ====
section
/-! DEFINITION. The stake timer (R18, R20, R25 to R33): stake boundaries with what takes effect there, check points, commit points and
hold quanta; the start of a weave and the recovery stake (R225, R226, R228); snapshots (R436) and Root refresh (R181); and their rows. -/

namespace Sys2Proof.Machine

/-! ## What every stake boundary does -/

/-- A new stake in its round 0: its number, first tick and holds (R18); notices of earlier stakes are forgotten. -/
def newStake (s : State) : State :=
  let n := stakeNo s + 1
  let s1 := setReg (setReg64 (setReg64 s rStake n) rStakeStart (tick s)) rHoldStatus 0
  let keep := fun (x : Notice) => decide (n ≤ x.failStake)
  { s1 with stake := { s1.stake with
      round := 0, held := false, checked := false, committed := false, noticeRound := 0, judged := none, frameStarted := false
      notices := s1.stake.notices.filter keep, noticesAgain := s1.stake.noticesAgain.filter keep } }

/-- Every warp copy is freed and F emptied (R247); on an aligned device every port is to send ALIGN (R289). -/
def freeWarp (s : State) : State :=
  forEach allPorts s (fun t p => modPort t p (fun x => { x with
    copies := [], lost := [], txWarpExtra := [], alignSent := x.alignSent && !aligned s }))

/-- What an FSQ held of the stake that ended is dropped, but for the retained copies of its weave stake and the one before (R218). A
recovery stake repeats a weave stake, so what that has written stays written (R206, R226; DEDUCED, log 31). -/
def clearFsq (s : State) : State :=
  let w := weaveStake s
  let again := flag s rWeaveState 28
  let t := { s with txItems := [] }
  forEach allFsqs t (fun u f => modFsq u f (fun q => { q with
    written := if again then q.written else [], halves := [], missing := [], lateReads := [], arriving := []
    retained := q.retained.filter (fun c => decide (w ≤ c.weaveStake + 1)) }))

/-! ## The weave at a boundary -/

/-- An FSQ with no tables and no copies; what is staged for LOCAL is written still. -/
def emptyFsq (q : Fsq) : Fsq := { Fsq.reset with staged := q.staged, landed := q.landed }

/-- No weave is active: the flags of FSQ_WEAVE_STATE but PENDING, the splice and the envelope are cleared (R371). -/
def clearWeave (s : State) : State :=
  let s1 := setReg s rWeaveState (reg s rWeaveState &&& 0x40000000)
  let s2 := setReg (setReg s1 rSplice 0xFFFF0000) rPwrEnvelope 0
  let s3 := forEach allFsqs s2 (fun t f => modFsq t f emptyFsq)
  setFlag { s3 with active := none } rPairStatus 31 false

/-- The weave of a machine that has faulted is cleared (R418). -/
def cleanFault (s : State) : State := modMisc (clearWeave s) (fun m => { m with faultCleanup := false })

/-- The code that splice `n` gives Pod `p`, from the weave's Root copy (R225). -/
def newCode (s : State) (w : Weave) (n : Nat) (p : PodId) : Option (List (BitVec 256)) :=
  Config.spliceCode (memRead s w.rootCopy w.length) n (deviceCoord s) p.val

/-- The recovery stake begins: the named splice is active, and the Pods whose code it replaces reload it (R225, R226, R230). -/
def beginRecovery (s : State) (w : Weave) (n : Notice) : State :=
  let s1 := setFlag (setFlag (setFlag s rWeaveState 28 true) rWeaveState 27 true) rWeaveState 26 false
  let s2 := setField s1 rWeaveState 0 12 (min 0xFFF (field s1 rWeaveState 0 12 + 1))
  let s3 := setReg s2 rSplice (BitVec.ofNat 32 (n.splice * 65536 + n.port % 16))
  forEach allPods s3 (fun t p =>
    if (newCode t w n.splice p).isSome then modCore t p (fun k => { k with loading := true }) else t)

/-- The next weave stake begins, at its table position (R207, R226). -/
def nextWeaveStake (s : State) (w : Weave) : State :=
  let k := weaveStake s + 1
  setField (setReg64 (setFlag s rWeaveState 28 false) rWeaveStake k) rWeaveState 12 12 (k % w.period)

/-- A stake of a running weave begins: a splice boundary starts the recovery stake. -/
def runningStake (s : State) (w : Weave) (failed : Option Notice) : State :=
  match failed with
  | some n => beginRecovery s w n
  | none => nextWeaveStake s w

/-- The quiet stake of a pending load begins: the old weave is gone, and each Pod of the new one waits for its code (R228). -/
def beginQuiet (s : State) (w : Weave) : State :=
  let s1 := setFlag (clearWeave s) rWeaveState 29 true
  forEach allPods s1 (fun t p =>
    if tabGet [] w.code p.val ≠ [] then modCore t p (fun k => { k with loading := true }) else t)

/-- Pairing at the start of a weave: the digests are compared, and outside LOCATE earlier findings are cleared (R324, R326, R327;
DESIGN CHOICE, log 30). -/
def startPair (s : State) : State :=
  let s1 := setField (setFlag s rPairStatus 31 (flag s rPair 31)) rPairStatus 0 28 0
  if flag s rPair 29 then s1 else setField s1 rPairStatus 28 3 0

/-- Stake S0: the loaded weave is active (R226, R228, R230). -/
def beginWeave (s : State) (w : Weave) : State :=
  let k := w.firstWeaveStake
  let s1 := setReg64 (setReg s rSplice 0xFFFF0000) rWeaveStake k
  let v := 2 ^ 31 + b2n (decide (0 < w.spliceCount)) * 2 ^ 26 + b2n (w.pathMode || decide (0 < w.spliceCount)) * 2 ^ 24
    + k % w.period * 2 ^ 12
  startPair { setReg s1 rWeaveState (BitVec.ofNat 32 v) with loaded := none }

/-- The weave's part of a boundary at which stake `n` begins. `failed` is a notice whose failure stake has just ended. -/
def weaveBoundary (s : State) (n : Nat) (failed : Option Notice) : State :=
  let s0 := if s.misc.faultCleanup then cleanFault s else s
  match s0.loaded, s0.active with
  | some w, some a =>
    if quiet s0 && !someLoading s0 && decide (n = w.startStake) then beginWeave s0 w
    else if weavePending s0 && decide (n + 1 = w.startStake) then beginQuiet s0 w
    else if weaveActive s0 then runningStake s0 a failed
    else s0
  | some w, none => if weavePending s0 && !quiet s0 && decide (n + 1 = w.startStake) then beginQuiet s0 w else s0
  | none, some a => if quiet s0 then clearWeave s0 else if weaveActive s0 then runningStake s0 a failed else s0
  | none, none => if quiet s0 then clearWeave s0 else s0

/-- STAKE_BOUNDARY, at the tick on which the stake ends: what is read, applied and latched at the first tick of the next. -/
def stakeBoundary (s : State) (stackTemps cdTemps ioTemps : List Byte) : State :=
  if !boundaryDue s then s
  else
  let failed := if weaveActive s && !faulted s then s.stake.notices.find? (fun n => n.failStake = stakeNo s) else none
  let s1 := readJunctions (readStacks (newStake s) stackTemps) cdTemps ioTemps
  let s2 := latchEpoch (applyTimeWrites s1)
  let s3 := weaveBoundary (freeWarp s2) (stakeNo s2) failed
  holdNotice (clearFsq s3)

/-! ## The quiet stake (R228) -/

/-- No token of any queue is outstanding (R186). -/
def noTokens (s : State) : Bool := allPods.all (fun p => (pod s p).outq.toList.all (fun q => q.tokens.isEmpty))

/-- The windows of a Pod are zeroed (R204). -/
def zeroWindow (s : State) (p : PodId) (w : PodWindow) : State :=
  let z := fun (t : State) (base half : Nat) => memZero t (podAddr p base) (podAddr p base + 2 * half)
  z (z s w.depBase w.depHalf) w.arrBase w.arrHalf

/-- The delays of R315, PIN_A and PIN_B: a B0 part that runs sheet 0x00A1 is pinned. -/
def pinWords (s : State) (w : Weave) : Nat × Nat := if !isA1 s && w.sheet = 0xA1 then (0x11211124, 0x00008411) else (0, 0)

/-- The registers of a Pod block that a weave load resets or writes (R113, R133, R165, R193, R312, R315, R328). What AP1_COMPAT reads once the weave
is cleared is open: it stays until the next load (DESIGN CHOICE, log 64). -/
def loadPodRegs (s : State) (p : PodId) (w : Weave) (len : Nat) : State :=
  let r := fun (t : State) (lo hi : Nat) => resetRange t (rPod p lo) (rPod p hi)
  let s1 := r (r (r (r (r s 0x104 0x108) 0x110 0x120) 0x200 0x300) 0x800 0x888) 0x900 0x920
  let ctl := b2n (decide (0 < len)) * (2 ^ 28 + b2n (!podHalted s p) * 2 ^ 31) + b2n (podHalted s p) * 2 ^ 30
  let s2 := setReg (setReg s1 (rPod p 0x100) (BitVec.ofNat 32 ctl)) (rPod p 0x108) (BitVec.ofNat 32 len)
  let s3 := setReg64 (setReg64 s2 (rPod p 0x900) w.startStep.toNat) (rPod p 0x608) 0
  let s4 := setFlag s3 (rPod p 0x600) 3 (!isA1 s && w.profile = 1)
  setReg (setReg s4 (rPod p 0x910) (BitVec.ofNat 32 (pinWords s w).1)) (rPod p 0x914) (BitVec.ofNat 32 (pinWords s w).2)

/-- A Pod takes its code; every register of R134 is as at the start of a weave. Host entries, posts, debug settings and the cycle phase
are kept. Whether the feature buffer (R76) keeps its contents is open: both halves are emptied (DESIGN CHOICE, log 64). -/
def loadPod (s : State) (w : Weave) (p : PodId) : State :=
  let code := (tabGet [] w.code p.val).take 16384
  let s1 := zeroWindow s p (w.windows.getD p.val ⟨0, 0, 0, 0⟩)
  let s2 := modPod s1 p (fun x => { Pod.reset with
    code := code, inq := x.inq, waiting := x.waiting, posts := x.posts, breaks := x.breaks, watches := x.watches
    te := { TreeEngine.reset with heldCfg := x.te.heldCfg }
    ranges := x.ranges.filter (fun r => decide (r.cls = 8))
    core := { Core.reset with cycle := x.core.cycle, haltCause := x.core.haltCause, haltNum := x.core.haltNum } })
  loadPodRegs s2 p w code.length

/-- An FSQ takes its tables; its counters are zero (R231). -/
def loadFsq (s : State) (w : Weave) (f : FsqId) : State :=
  let rs := w.records.getD f.val []
  let s1 := modFsq s f (fun q => { emptyFsq q with records := rs, overlays := w.overlays.getD f.val [] })
  let s2 := resetRange s1 (rFsq f 0x010) (rFsq f 0x070)
  setReg (setReg s2 (rFsq f 0) (BitVec.ofNat 32 rs.length)) (rFsq f 4) (BitVec.ofNat 32 (w.overlayUnits.getD f.val 0))

/-- The new weave's tables, code, seeds and identities are in place; W is as at its load. -/
def installWeave (s : State) (w : Weave) : State :=
  let s1 := allFsqs.foldl (fun t f => loadFsq t w f) { s with active := some w }
  let s2 := allPods.foldl (fun t p => loadPod t w p) s1
  let s3 := setDigest (setReg64 s2 rSeedId w.seedId.toNat) rProgDigest w.program
  let s4 := setReg s3 rPwrEnvelope (BitVec.ofNat 32 w.envelope)
  modMisc s4 (fun m => { m with commits := [], localReq := [], captures := 0, pairOwn := [], pairPeer := [] })

/-- QUIET_STAKE_DONE: the work of the quiet stake is complete once no token is outstanding. -/
def quietDone (s : State) : State :=
  match s.loaded with
  | some w => if quiet s && s.active.isNone && noTokens s then installWeave s w else s
  | none => s

/-- SPLICE_RELOAD_DONE: the code that the active splice gives a Pod replaces its own (R225). -/
def spliceReloaded (s : State) (p : PodId) : State :=
  match s.active, activeSplice s with
  | some w, some n =>
    match newCode s w n p with
    | some code =>
      if (pod s p).core.loading && weaveActive s then
        let c := code.take 16384
        let s1 := modPod s p (fun x => { x with code := c, core := { x.core with loading := false } })
        setField s1 (rPod p 0x108) 0 15 c.length
      else s
    | none => s
  | _, _ => s

/-! ## Check points (R20, R23, R25) -/

/-- A Pod has not reached its frame-end bundle by the end of the tick before the present one. -/
def notAtEnd (s : State) (p : PodId) : Bool :=
  flag s (rPod p 0x100) 31 && (!podAtFend s p || (match (pod s p).core.fendTick with | some t => decide (tick s ≤ t) | none => false))

/-- A warp transfer into or out of the store of a Pod has missed its deadline (R175, R203, R205). -/
def transferLate (s : State) (p : PodId) : Bool :=
  allFsqs.any (fun f => (fsq s f).staged.any (fun d => decide (d.pod = p)) || (fsq s f).lateReads.any (fun e => decide (e.1.pod = p)))

/-- A commit of the frame before the one that ends is still to be confirmed (R310). -/
def commitOpen (s : State) (p : PodId) : Bool :=
  (pod s p).outq.toList.any (fun q => q.tokens.any (fun t => t.kind = .twOcommit && decide (t.frame < weaveFrame s)))

/-- A Pod is not ready. -/
def podNotReady (s : State) (p : PodId) : Bool :=
  if quiet s then (pod s p).core.loading
  else weaveActive s && hasCode s p
    && ((pod s p).core.loading || notAtEnd s p || transferLate s p || commitOpen s p)

/-- A Pod halted through the debug port holds a weave that is active (R432). -/
def debugHold (s : State) (p : PodId) : Bool := podHalted s p && hasCode s p && weaveActive s

/-- A Root token of a Pod has been outstanding longer than the budget (R190). -/
def rootWaits (s : State) (p : PodId) : Bool :=
  (pod s p).outq.toList.any (fun q => q.tokens.any (fun t =>
    isRootToken t && decide (t.issuedTick + field s rRootCtrl 0 24 < tick s)))

/-- A warp packet of the stake still awaits retry or re-send, outgoing or incoming (R25, R216). -/
def warpOpen (s : State) : Bool :=
  allFsqs.any (fun f => let q := fsq s f
    !q.missing.isEmpty || !q.halves.isEmpty || !q.lateReads.isEmpty || !q.arriving.isEmpty)
    || s.txItems.any (fun i => isWarpData i.pkt)
    || allPorts.any (fun p => let x := port s p
      x.copies.any (fun c => c.scheduled || (c.naked && c.retryPick.isNone) || (lstate s p = 6 && !c.decided))
        || !x.lost.isEmpty || x.txWarpExtra.any isWarpData)

/-- A NOTICE held since an earlier round keeps SPARE_OVERRUN away (R223). -/
def noticeQuiets (s : State) : Bool := noticeHeld s && decide (s.stake.noticeRound < s.stake.round)

/-- A notice of a failed port of this device is due at this check point (R222). -/
def noticeDue (s : State) : List Notice := s.stake.noticesAgain.filter (fun n => decide (n.failStake ≤ stakeNo s))

/-- The causes of R25, as the bits of FSQ_HOLD_CAUSE. A device that is faulted asserts none for its stopped Pods (R418). -/
def holdCauses (s : State) : Nat :=
  let pods := !faulted s && allPods.any (podNotReady s)
  let spare := weaveActive s && ((!noticeQuiets s && warpOpen s) || !(noticeDue s).isEmpty)
  let root := !faulted s && allPods.any (rootWaits s)
  let halt := !faulted s && allPods.any (debugHold s)
  b2n pods + 2 * b2n spare + 4 * b2n root + 8 * b2n halt

/-- The notices due are sent again on every UP port. -/
def sendAgain (s : State) : State :=
  let l := noticeDue s
  let s1 := l.foldl (fun t n => floodNotice t (noticePacket t (noticePayload n)) none) s
  { s1 with stake := { s1.stake with noticesAgain := s1.stake.noticesAgain.filter (fun n => !l.contains n) } }

/-- The device asserts a hold for the round (R25). FSQ_HOLD_CAUSE records this assertion in place of an earlier one: its causes, and the
lowest Pod not ready where POD_NOT_READY is one of them (R42). -/
def assertHold (s : State) (j : Nat × Nat) : State :=
  let s1 := setFlag { s with stake := { s.stake with held := true } } rHoldStatus 30 true
  setReg s1 rHoldCause (BitVec.ofNat 32 (j.1 % 16 + (if j.1 % 2 = 1 then j.2 % 64 * 1024 else 0)))

/-- The causes of a state and its lowest Pod that is not ready. -/
def judge (s : State) : Nat × Nat := (holdCauses s, ((allPods.find? (podNotReady s)).getD 0).val)

/-- The tick that begins is a check point: readiness is judged on the state at the end of the tick before (R23), before any command of the
new tick. -/
def judgeTick (s : State) : State :=
  if checkDue s then { s with stake := { s.stake with judged := some (judge s) } } else s

/-- The causes that CHECK_POINT asserts a hold for: those judged as the tick began, or where no tick has passed since the stake timer was set
those of the present state, and those that have arisen since the previous commit point (R23, R25). An unaligned device asserts no hold
(R288), and a faulted one asserts none for what its stopped Pods wait on (R418). -/
def checkCauses (s : State) : Nat × Nat :=
  let j := s.stake.judged.getD (judge s)
  if aligned s then (Nat.lor j.1 (if faulted s then 0 else s.stake.arisen), j.2) else (0, j.2)

/-- CHECK_POINT, at the tick of the round's check point (R20, R23, R25). -/
def checkPoint (s : State) : State :=
  if !checkDue s then s
  else
    let j := checkCauses s
    let s1 := sendAgain { s with stake := { s.stake with checked := true, judged := none, arisen := 0 } }
    if j.1 = 0 then s1 else assertHold s1 j

/-! ## Commit points (R28, R31, R32) -/

/-- The stake is extended by one quantum, and its next round begins. -/
def extendStake (s : State) : State :=
  let s1 := setField s rHoldStatus 0 24 (field s rHoldStatus 0 24 + 1)
  let s2 := add64 (setFlag (setFlag s1 rHoldStatus 31 true) rHoldStatus 30 false) rHoldTotal 1
  { s2 with stake := { s2.stake with
      round := s2.stake.round + 1, held := false, checked := false, committed := false, refusedRound := none, judged := none } }

/-- The stake ends without a further quantum; an indication for this round will be late (R31). -/
def endStake (s : State) : State :=
  let t := holdTag s
  let s1 := setFlag s rHoldStatus 30 false
  { s1 with stake := { s1.stake with committed := true, refusedRound := some t } }

/-- COMMIT_POINT, at the tick of the round's commit point: a hold for the round extends the stake, or faults the machine where HOLD_LIMIT is
reached. -/
def commitPoint (s : State) : State :=
  if !commitDue s then s
  else if !s.stake.held then endStake s
  else if field s rHoldStatus 0 24 < field s rHoldCtrl 0 24 then extendStake s
  else raiseFault (endStake s) 0 rErrStake 0 0xFF (field s rHoldStatus 0 24)

/-! ## Root refresh (R181) -/

/-- The period of the stake timer that the present tick lies in: ticks since its first tick, and its length. -/
def refreshPeriod (s : State) : Nat × Nat :=
  let o := stakeOffset s
  if o < 36864 then (o, 36864) else ((o - 36864) % 9216, 9216)

/-- The slot ticks of a period of `len` ticks, in normal and in raised refresh. -/
def slotTicks (len : Nat) (raised : Bool) : List Nat :=
  if len = 36864 then (if raised then (upTo 10).map (fun r => 3600 + 3600 * r) else (upTo 5).map (fun r => 3600 + 7200 * r))
  else if raised then [0, 2304, 4608, 6912] else [0, 4608]

/-- The present tick is a slot tick of pseudo-channel `c` of stack `k`: the table's, 100 ticks later for each channel, and less the period's
length where that lies beyond its end. -/
def refreshDue (s : State) (k : StackId) (c : Fin 32) : Bool :=
  let p := refreshPeriod s
  fabricRuns s && (slotTicks p.2 (flag s rRefresh k.val)).any (fun t => decide ((t + 100 * c.val) % p.2 = p.1))

/-! ## Rows -/

/-- STAKE_BOUNDARY: a new stake begins. -/
def execStakeBoundary (stackTemps cdTemps ioTemps : List Byte) (s : State) : Host.Outcome State Fault Refusal :=
  .next (stakeBoundary s stackTemps cdTemps ioTemps)

/-- CHECK_POINT of the present round. -/
def execCheckPoint (s : State) : Host.Outcome State Fault Refusal := .next (checkPoint s)

/-- COMMIT_POINT of the present round. -/
def execCommitPoint (s : State) : Host.Outcome State Fault Refusal := .next (commitPoint s)

/-- HOLD_QUANTUM_START (R29): the quantum was applied at the commit point; what it carries is sent slot by slot. -/
def execHoldQuantumStart (s : State) : Host.Outcome State Fault Refusal := .next s

/-- QUIET_STAKE_DONE (R228). -/
def execQuietStakeDone (s : State) : Host.Outcome State Fault Refusal := .next (quietDone s)

/-- SPLICE_RELOAD_DONE (R225). -/
def execSpliceReloadDone (p : PodId) (s : State) : Host.Outcome State Fault Refusal := .next (spliceReloaded s p)

/-- SNAPSHOT (R436): the first tick of the armed stake. -/
def execSnapshot (s : State) : Host.Outcome State Fault Refusal :=
  .next (if flag s rSnapCtrl 29 && decide (stakeNo s = s.misc.snapStake) && decide (stakeOffset s = 0) && fabricRuns s then
      setFlag (setFlag (takeSnapshot s) rSnapCtrl 29 false) rSnapCtrl 28 true
    else s)

/-- REFRESH_SLOT (R181): a pseudo-channel is unavailable from its slot tick. -/
def execRefreshSlot (k : StackId) (c : Fin 32) (s : State) : Host.Outcome State Fault Refusal :=
  let n := k.val * 32 + c.val
  .next (if refreshDue s k c && !s.misc.refreshing.any (fun e => e.1 = n) then
      modMisc s (fun m => { m with refreshing := (n, tick s) :: m.refreshing }) else s)

/-- REFRESH_END (R181): the pseudo-channel is available again 800 ticks after its slot tick. -/
def execRefreshEnd (k : StackId) (c : Fin 32) (s : State) : Host.Outcome State Fault Refusal :=
  .next (modMisc s (fun m => { m with
    refreshing := m.refreshing.filter (fun e => !(decide (e.1 = k.val * 32 + c.val) && decide (800 ≤ ticksSince s e.2))) }))

end Sys2Proof.Machine
end

