-- ==== Sys2Proof/Machine/Spdm.lean ====
section
/-! DEFINITION. The DOE mailbox and the SPDM responder (R349, R350): requests, their answers by the Keeper as time passes, and an abort,
with their rows; and what one step does on an empty queue. -/

namespace Sys2Proof.Machine

/-! ## Measurements (R350) -/

/-- The header of the running slot's bundle, or none for the recovery Keeper. -/
def runImage (s : State) : Option SlotImage :=
  if runSlot s < 2 then some (vget s.flash.slots (fin 2 (by decide) (runSlot s))) else none

/-- The digest of section `k` of the running bundle, or of its compatibility manifest for 5. -/
def bundleMeasure (s : State) (k : Nat) : List Byte :=
  match runImage s with
  | none => sliceB (Config.romMeasurement k) 0 32
  | some m =>
    let h := slotBytes m 0 256
    if k = 5 then sha256 (compatOf m h)
    else
      let e := sectionOf h k
      sha256 (slotBytes m e.offset (min e.length 0x2000000))

/-- P of the active weave, or zero. -/
def activeProgram (s : State) : List Byte :=
  match s.active with
  | some w => if weaveActive s then w.program else zeroDigest
  | none => zeroDigest

/-- The measurement of index `k`. -/
def measurement (s : State) (k : Nat) : List Byte :=
  if k ≤ 5 then bundleMeasure s k
  else if k = 6 then manifestDigest s
  else if k = 7 then activeProgram s
  else if k = 8 then s.misc.weightNow
  else sha256 (leBytes 4 (reg s rDevId).toNat ++ leBytes 4 (reg s rPlace).toNat)

/-- The blocks that a request names in its Param2: 0xFF every block, else one index (PRESUMED: DMTF SPDM 1.2, log 35). -/
def measurements (s : State) (req : List Byte) : List Byte :=
  let n := numAt req 3 1
  if n = 0xFF then (upTo 9).flatMap (fun i => measurement s (i + 1))
  else if 1 ≤ n ∧ n ≤ 9 then measurement s n
  else []

/-! ## Requests and answers (R349) -/

/-- The connection state that a request needs, and the one it leaves (PRESUMED: the order of DMTF SPDM 1.2, log 35). -/
def spdmStep (kind : DoeKind) (c : Nat) : Bool × Nat :=
  match kind with
  | .discovery => (true, c)
  | .version => (true, 1)
  | .capabilities => (decide (1 ≤ c), 2)
  | .algorithms => (decide (2 ≤ c), 3)
  | _ => (decide (3 ≤ c), c)

/-- The mailbox takes no request: it is out of reach while the PCIe link is down, and reports Busy until the Keeper is ready, and while a request is in progress. -/
def doeBusy (s : State) : Bool := !pcieRuns s || decide (func s fKeeper ≠ 2) || s.doe.request.isSome

/-- The mailbox takes a request of at most 64 KiB while it is not Busy. -/
def takeDoe (s : State) (kind : DoeKind) (req : List Byte) : State :=
  if !doeBusy s && decide (req.length ≤ 65536) then { s with doe := { s.doe with request := some (kind, req) } } else s

/-- The capabilities that the responder advertises: CERT, CHAL and MEAS with signature, and no other (PRESUMED: the Flags of DMTF SPDM 1.2, log
35). -/
def spdmCapabilities : Nat := 2 ^ 1 + 2 ^ 2 + 2 * 2 ^ 3

/-- The algorithms that the responder selects: ECDSA with NIST P-384 for signatures and SHA-384 as hash (PRESUMED: BaseAsymSel and BaseHashSel of
DMTF SPDM 1.2, log 35). -/
def spdmAlgorithms : Nat × Nat := (2 ^ 7, 2 ^ 1)

/-- The data objects that the mailbox carries, as vendor ID and type: DOE discovery and CMA/SPDM (R330, R349; the codes of PCI-SIG are PRESUMED,
log 35). -/
def doeProtocols : List (Nat × Nat) := [(1, 0), (1, 1)]

/-- What the spec itself puts into the answer to a request in its order: the protocols, version 1.2, capabilities, algorithms, the chain of slot 0
whose leaf is fused and its SHA-384 digest, and the measurements. -/
def answerFields (s : State) (kind : DoeKind) (req : List Byte) : List Byte :=
  match kind with
  | .discovery => doeProtocols.flatMap (fun e => leBytes 2 e.1 ++ leBytes 1 e.2)
  | .version => leBytes 2 0x1200
  | .digests => sha384 s.fuses.leafCert
  | .capabilities => leBytes 4 spdmCapabilities
  | .algorithms => leBytes 4 spdmAlgorithms.1 ++ leBytes 4 spdmAlgorithms.2
  | .certificate => s.fuses.leafCert
  | .measurements => measurements s req
  | .challenge => []

/-- The signature under the answers that carry one, by the fused identity key (R349, R403). -/
def answerSignature (s : State) (kind : DoeKind) (n : Nat) (fields req : List Byte) : List Byte :=
  if kind = .challenge ∨ kind = .measurements then Config.spdmSignature s.fuses.privateKey (fields ++ req) n else []

/-- The Keeper, while its clock runs, answers the request in progress, and vector 67 signals it (R348). A request out of order changes no
connection. -/
def answerDoe (s : State) : State :=
  match s.doe.request with
  | none => s
  | some (kind, req) =>
    if !keeperRuns s then s
    else
      let d := draw s
      let st := spdmStep kind s.doe.spdm
      let fields := if st.1 then answerFields s kind req else []
      let sig := if st.1 then answerSignature s kind d.1 fields req else []
      let s1 := { d.2 with doe := { spdm := if st.1 then st.2 else s.doe.spdm, request := none } }
      msix (emit s1 (.doe (fields ++ Config.identityAnswer d.1 req ++ sig))) 67

/-- What a step does on an empty queue: a request in progress is answered, one tick passes, and at a check point the readiness of the tick before is
judged (DESIGN CHOICE, log 1). -/
def idleTick (s : State) : State := judgeTick (passTick (answerDoe s))

/-! ## Rows -/

/-- GET_VERSION. -/
def execGetVersion (req : List Byte) (s : State) : Host.Outcome State Fault Refusal := .next (takeDoe s .version req)

/-- GET_CAPABILITIES. -/
def execGetCapabilities (req : List Byte) (s : State) : Host.Outcome State Fault Refusal := .next (takeDoe s .capabilities req)

/-- NEGOTIATE_ALGORITHMS. -/
def execNegotiateAlgorithms (req : List Byte) (s : State) : Host.Outcome State Fault Refusal := .next (takeDoe s .algorithms req)

/-- GET_DIGESTS. -/
def execGetDigests (req : List Byte) (s : State) : Host.Outcome State Fault Refusal := .next (takeDoe s .digests req)

/-- GET_CERTIFICATE. -/
def execGetCertificate (req : List Byte) (s : State) : Host.Outcome State Fault Refusal := .next (takeDoe s .certificate req)

/-- CHALLENGE. -/
def execChallenge (req : List Byte) (s : State) : Host.Outcome State Fault Refusal := .next (takeDoe s .challenge req)

/-- GET_MEASUREMENTS. -/
def execGetMeasurements (req : List Byte) (s : State) : Host.Outcome State Fault Refusal := .next (takeDoe s .measurements req)

/-- DOE_DISCOVERY. -/
def execDoeDiscovery (req : List Byte) (s : State) : Host.Outcome State Fault Refusal := .next (takeDoe s .discovery req)

/-- DOE_ABORT: the request in progress is discarded. -/
def execDoeAbort (s : State) : Host.Outcome State Fault Refusal := .next { s with doe := { s.doe with request := none } }

end Sys2Proof.Machine
end

