-- ==== Sys2Proof/Machine/Dispatch.lean ====
section
/-! DEFINITION. exec: one arm per command, each one direct call of its meaning. -/

namespace Sys2Proof.Machine

open Sys2Proof

/-- The effect of a command on everything but the queue. -/
def exec (i : Instr) (s : State) : Host.Outcome State Fault Refusal :=
  match i with
  | .powerOnReset straps => Sys2Proof.Machine.execPowerOnReset straps s
  | .railTrip rail => Sys2Proof.Machine.execRailTrip rail s
  | .sysRstN lowNs straps => Sys2Proof.Machine.execSysRstN lowNs straps s
  | .cfgResetCold value straps => Sys2Proof.Machine.execCfgResetCold value straps s
  | .cfgResetWarm value => Sys2Proof.Machine.execCfgResetWarm value s
  | .conventionalReset => Sys2Proof.Machine.execConventionalReset s
  | .hotReset => Sys2Proof.Machine.execHotReset s
  | .flr => Sys2Proof.Machine.execFlr s
  | .configCommit => Sys2Proof.Machine.execConfigCommit s
  | .keeperReady => Sys2Proof.Machine.execKeeperReady s
  | .pcieReady => Sys2Proof.Machine.execPcieReady s
  | .podBistDone p failed => Sys2Proof.Machine.execPodBistDone p failed s
  | .rootReady k failed => Sys2Proof.Machine.execRootReady k failed s
  | .bootDeadline d => Sys2Proof.Machine.execBootDeadline d s
  | .mgmtLinkUp => Sys2Proof.Machine.execMgmtLinkUp s
  | .mgmtLinkDown => Sys2Proof.Machine.execMgmtLinkDown s
  | .refLoss => Sys2Proof.Machine.execRefLoss s
  | .referenceReturn edges => Sys2Proof.Machine.execReferenceReturn edges s
  | .pllUnlock pll => Sys2Proof.Machine.execPllUnlock pll s
  | .pllRelock pll => Sys2Proof.Machine.execPllRelock pll s
  | .kpllLockLoss => Sys2Proof.Machine.execKpllLockLoss s
  | .clkKeeperWrite value => Sys2Proof.Machine.execClkKeeperWrite value s
  | .clkGateWrite value => Sys2Proof.Machine.execClkGateWrite value s
  | .droopDetect r belowMv => Sys2Proof.Machine.execDroopDetect r belowMv s
  | .stretchEnd r => Sys2Proof.Machine.execStretchEnd r s
  | .thermtrip d => Sys2Proof.Machine.execThermtrip d s
  | .arm value => Sys2Proof.Machine.execArm value s
  | .cancel value => Sys2Proof.Machine.execCancel value s
  | .pstepVoltageRaise => Sys2Proof.Machine.execPstepVoltageRaise s
  | .pstepFinalCheck locked railMv => Sys2Proof.Machine.execPstepFinalCheck locked railMv s
  | .pstepSwitch => Sys2Proof.Machine.execPstepSwitch s
  | .pstepVoltageLower => Sys2Proof.Machine.execPstepVoltageLower s
  | .start value => Sys2Proof.Machine.execStart value s
  | .fcountWindowEnd edges => Sys2Proof.Machine.execFcountWindowEnd edges s
  | .powerRateUpdate => Sys2Proof.Machine.execPowerRateUpdate s
  | .powerMeasureInterval readings => Sys2Proof.Machine.execPowerMeasureInterval readings s
  | .errPwrClear value => Sys2Proof.Machine.execErrPwrClear value s
  | .stakeBoundary stackTemps cdTemps ioTemps => Sys2Proof.Machine.execStakeBoundary stackTemps cdTemps ioTemps s
  | .pick incomplete => Sys2Proof.Machine.execPick incomplete s
  | .departureReadDone f channel circuit => Sys2Proof.Machine.execDepartureReadDone f channel circuit s
  | .localWrite f => Sys2Proof.Machine.execLocalWrite f s
  | .checkPoint => Sys2Proof.Machine.execCheckPoint s
  | .pairDigestTimeout => Sys2Proof.Machine.execPairDigestTimeout s
  | .commitPoint => Sys2Proof.Machine.execCommitPoint s
  | .holdQuantumStart => Sys2Proof.Machine.execHoldQuantumStart s
  | .podFrameStart => Sys2Proof.Machine.execPodFrameStart s
  | .snapshot => Sys2Proof.Machine.execSnapshot s
  | .refreshSlot k c => Sys2Proof.Machine.execRefreshSlot k c s
  | .refreshEnd k c => Sys2Proof.Machine.execRefreshEnd k c s
  | .flitSlot p => Sys2Proof.Machine.execFlitSlot p s
  | .unalignedAlignSend => Sys2Proof.Machine.execUnalignedAlignSend s
  | .flitRx p raw => Sys2Proof.Machine.execFlitRx p raw s
  | .warpPacketRx p pkt => Sys2Proof.Machine.execWarpPacketRx p pkt s
  | .write p pkt => Sys2Proof.Machine.execWrite p pkt s
  | .fadd p pkt => Sys2Proof.Machine.execFadd p pkt s
  | .ocommit p pkt => Sys2Proof.Machine.execOcommit p pkt s
  | .mgmtReq p pkt => Sys2Proof.Machine.execMgmtReq p pkt s
  | .mgmtRsp p pkt => Sys2Proof.Machine.execMgmtRsp p pkt s
  | .done p pkt => Sys2Proof.Machine.execDone p pkt s
  | .msg p pkt => Sys2Proof.Machine.execMsg p pkt s
  | .byp p pkt => Sys2Proof.Machine.execByp p pkt s
  | .twinePacketRx p pkt => Sys2Proof.Machine.execTwinePacketRx p pkt s
  | .queuedEntryAccept p q => Sys2Proof.Machine.execQueuedEntryAccept p q s
  | .twineRequestServed p => Sys2Proof.Machine.execTwineRequestServed p s
  | .notice p pkt => Sys2Proof.Machine.execNotice p pkt s
  | .faultNotice p pkt => Sys2Proof.Machine.execFaultNotice p pkt s
  | .rsqRx p pkt => Sys2Proof.Machine.execRsqRx p pkt s
  | .alignRx p payload => Sys2Proof.Machine.execAlignRx p payload s
  | .alignAdopt => Sys2Proof.Machine.execAlignAdopt s
  | .tickRootAlign => Sys2Proof.Machine.execTickRootAlign s
  | .altRootAlign => Sys2Proof.Machine.execAltRootAlign s
  | .alignTimeout => Sys2Proof.Machine.execAlignTimeout s
  | .pairDigestRx payload => Sys2Proof.Machine.execPairDigestRx payload s
  | .laneSignalDetect p => Sys2Proof.Machine.execLaneSignalDetect p s
  | .trainDeadline p => Sys2Proof.Machine.execTrainDeadline p s
  | .announce p payload => Sys2Proof.Machine.execAnnounce p payload s
  | .delayReq p payload => Sys2Proof.Machine.execDelayReq p payload s
  | .delayRsp p payload => Sys2Proof.Machine.execDelayRsp p payload s
  | .ready p payload => Sys2Proof.Machine.execReady p payload s
  | .recover p payload => Sys2Proof.Machine.execRecover p payload s
  | .laneLockLoss p => Sys2Proof.Machine.execLaneLockLoss p s
  | .recoverFail p => Sys2Proof.Machine.execRecoverFail p s
  | .ackTimeout p => Sys2Proof.Machine.execAckTimeout p s
  | .twineReplayTimeout p => Sys2Proof.Machine.execTwineReplayTimeout p s
  | .elasticSlip p pointer => Sys2Proof.Machine.execElasticSlip p pointer s
  | .darkExpected p => Sys2Proof.Machine.execDarkExpected p s
  | .retrain p value => Sys2Proof.Machine.execRetrain p value s
  | .enable p value => Sys2Proof.Machine.execEnable p value s
  | .prtPortMapWrite hi value => Sys2Proof.Machine.execPrtPortMapWrite hi value s
  | .tokenComplete p q => Sys2Proof.Machine.execTokenComplete p q s
  | .geRequestServe d => Sys2Proof.Machine.execGeRequestServe d s
  | .entropyHealthFail p => Sys2Proof.Machine.execEntropyHealthFail p s
  | .podCycle p => Sys2Proof.Machine.execPodCycle p s
  | .resultReadable p d => Sys2Proof.Machine.execResultReadable p d s
  | .bufferComplete p b => Sys2Proof.Machine.execBufferComplete p b s
  | .accumulatorFree p e => Sys2Proof.Machine.execAccumulatorFree p e s
  | .rangeRelease p op => Sys2Proof.Machine.execRangeRelease p op s
  | .teWindowDone p => Sys2Proof.Machine.execTeWindowDone p s
  | .meMma p f => Sys2Proof.Machine.execMeMma p f s
  | .meDrain p f => Sys2Proof.Machine.execMeDrain p f s
  | .meBload p f => Sys2Proof.Machine.execMeBload p f s
  | .teNload p f => Sys2Proof.Machine.execTeNload p f s
  | .teFload p f => Sys2Proof.Machine.execTeFload p f s
  | .teWin p f => Sys2Proof.Machine.execTeWin p f s
  | .vuAdd p f => Sys2Proof.Machine.execVuAdd p f s
  | .vuSub p f => Sys2Proof.Machine.execVuSub p f s
  | .vuMul p f => Sys2Proof.Machine.execVuMul p f s
  | .vuMin p f => Sys2Proof.Machine.execVuMin p f s
  | .vuMax p f => Sys2Proof.Machine.execVuMax p f s
  | .vuAbs p f => Sys2Proof.Machine.execVuAbs p f s
  | .vuNeg p f => Sys2Proof.Machine.execVuNeg p f s
  | .vuCmp p f => Sys2Proof.Machine.execVuCmp p f s
  | .vuSel p f => Sys2Proof.Machine.execVuSel p f s
  | .vuAnd p f => Sys2Proof.Machine.execVuAnd p f s
  | .vuOr p f => Sys2Proof.Machine.execVuOr p f s
  | .vuXor p f => Sys2Proof.Machine.execVuXor p f s
  | .vuShl p f => Sys2Proof.Machine.execVuShl p f s
  | .vuShr p f => Sys2Proof.Machine.execVuShr p f s
  | .vuFma p f => Sys2Proof.Machine.execVuFma p f s
  | .vuCvt p f => Sys2Proof.Machine.execVuCvt p f s
  | .vuXadd p f => Sys2Proof.Machine.execVuXadd p f s
  | .vuXcvti p f => Sys2Proof.Machine.execVuXcvti p f s
  | .vuXcvto p f => Sys2Proof.Machine.execVuXcvto p f s
  | .vuMxq p f => Sys2Proof.Machine.execVuMxq p f s
  | .vuRsum p f => Sys2Proof.Machine.execVuRsum p f s
  | .vuRmax p f => Sys2Proof.Machine.execVuRmax p f s
  | .vuRmin p f => Sys2Proof.Machine.execVuRmin p f s
  | .vuRargmax p f => Sys2Proof.Machine.execVuRargmax p f s
  | .vuSamov p f => Sys2Proof.Machine.execVuSamov p f s
  | .vuSort p f => Sys2Proof.Machine.execVuSort p f s
  | .vuMerge p f => Sys2Proof.Machine.execVuMerge p f s
  | .vuTrans p f => Sys2Proof.Machine.execVuTrans p f s
  | .vuBcast p f => Sys2Proof.Machine.execVuBcast p f s
  | .vuMovs p f => Sys2Proof.Machine.execVuMovs p f s
  | .mLdv p f => Sys2Proof.Machine.execMLdv p f s
  | .mStv p f => Sys2Proof.Machine.execMStv p f s
  | .mLds p f => Sys2Proof.Machine.execMLds p f s
  | .mSts p f => Sys2Proof.Machine.execMSts p f s
  | .mMdld p f => Sys2Proof.Machine.execMMdld p f s
  | .mCopy p f => Sys2Proof.Machine.execMCopy p f s
  | .qFetch p f => Sys2Proof.Machine.execQFetch p f s
  | .qStore p f => Sys2Proof.Machine.execQStore p f s
  | .qWait p f => Sys2Proof.Machine.execQWait p f s
  | .qWaitTimeout p f => Sys2Proof.Machine.execQWaitTimeout p f s
  | .qPop p f => Sys2Proof.Machine.execQPop p f s
  | .qSel p f => Sys2Proof.Machine.execQSel p f s
  | .qSelord p f => Sys2Proof.Machine.execQSelord p f s
  | .twSend p f => Sys2Proof.Machine.execTwSend p f s
  | .twFadd p f => Sys2Proof.Machine.execTwFadd p f s
  | .twOcommit p f => Sys2Proof.Machine.execTwOcommit p f s
  | .geReq p f => Sys2Proof.Machine.execGeReq p f s
  | .cAdd p f => Sys2Proof.Machine.execCAdd p f s
  | .cSub p f => Sys2Proof.Machine.execCSub p f s
  | .cAnd p f => Sys2Proof.Machine.execCAnd p f s
  | .cOr p f => Sys2Proof.Machine.execCOr p f s
  | .cXor p f => Sys2Proof.Machine.execCXor p f s
  | .cShl p f => Sys2Proof.Machine.execCShl p f s
  | .cShr p f => Sys2Proof.Machine.execCShr p f s
  | .cMul p f => Sys2Proof.Machine.execCMul p f s
  | .cAddi p f => Sys2Proof.Machine.execCAddi p f s
  | .cSlt p f => Sys2Proof.Machine.execCSlt p f s
  | .cLi p f => Sys2Proof.Machine.execCLi p f s
  | .cLih p f => Sys2Proof.Machine.execCLih p f s
  | .cBr p f => Sys2Proof.Machine.execCBr p f s
  | .cBz p f => Sys2Proof.Machine.execCBz p f s
  | .cJmp p f => Sys2Proof.Machine.execCJmp p f s
  | .cCall p f => Sys2Proof.Machine.execCCall p f s
  | .cRet p f => Sys2Proof.Machine.execCRet p f s
  | .cLoop p f => Sys2Proof.Machine.execCLoop p f s
  | .cIdle p f => Sys2Proof.Machine.execCIdle p f s
  | .cFend p f => Sys2Proof.Machine.execCFend p f s
  | .cSync p f => Sys2Proof.Machine.execCSync p f s
  | .cStep p f => Sys2Proof.Machine.execCStep p f s
  | .cRds p f => Sys2Proof.Machine.execCRds p f s
  | .cCsrw p f => Sys2Proof.Machine.execCCsrw p f s
  | .cCsrr p f => Sys2Proof.Machine.execCCsrr p f s
  | .podEgress p value => Sys2Proof.Machine.execPodEgress p value s
  | .podTeCfgWrite p value => Sys2Proof.Machine.execPodTeCfgWrite p value s
  | .hstSqTail str value => Sys2Proof.Machine.execHstSqTail str value s
  | .hstCqHead str value => Sys2Proof.Machine.execHstCqHead str value s
  | .descriptorFetchFail str hostAddr => Sys2Proof.Machine.execDescriptorFetchFail str hostAddr s
  | .submit str desc segments readFails => Sys2Proof.Machine.execSubmit str desc segments readFails s
  | .inputStaged str input => Sys2Proof.Machine.execInputStaged str input s
  | .completionRecord str => Sys2Proof.Machine.execCompletionRecord str s
  | .hstSCtrlEnable str value => Sys2Proof.Machine.execHstSCtrlEnable str value s
  | .hstSCtrlReset str value => Sys2Proof.Machine.execHstSCtrlReset str value s
  | .streamResetDone str => Sys2Proof.Machine.execStreamResetDone str s
  | .nop desc => Sys2Proof.Machine.execNop desc s
  | .loadWeave desc image seedSet readFails => Sys2Proof.Machine.execLoadWeave desc image seedSet readFails s
  | .quietStakeDone => Sys2Proof.Machine.execQuietStakeDone s
  | .spliceReloadDone p => Sys2Proof.Machine.execSpliceReloadDone p s
  | .load desc bytes readFails => Sys2Proof.Machine.execLoad desc bytes readFails s
  | .loadComplete => Sys2Proof.Machine.execLoadComplete s
  | .read desc => Sys2Proof.Machine.execRead desc s
  | .manifest desc bytes readFails => Sys2Proof.Machine.execManifest desc bytes readFails s
  | .bundleWrite desc bytes readFails => Sys2Proof.Machine.execBundleWrite desc bytes readFails s
  | .bundleVerify desc => Sys2Proof.Machine.execBundleVerify desc s
  | .bundleCommit desc => Sys2Proof.Machine.execBundleCommit desc s
  | .bundleRead desc => Sys2Proof.Machine.execBundleRead desc s
  | .cfgSelect value => Sys2Proof.Machine.execCfgSelect value s
  | .controlBlockWritten => Sys2Proof.Machine.execControlBlockWritten s
  | .cfgIdentityAck value => Sys2Proof.Machine.execCfgIdentityAck value s
  | .timCtrlSet value => Sys2Proof.Machine.execTimCtrlSet value s
  | .timCtrlAddOffset value => Sys2Proof.Machine.execTimCtrlAddOffset value s
  | .timCtrlSynced value => Sys2Proof.Machine.execTimCtrlSynced value s
  | .timIncrWrite value => Sys2Proof.Machine.execTimIncrWrite value s
  | .ptpEventTx f => Sys2Proof.Machine.execPtpEventTx f s
  | .ptpEventRx f => Sys2Proof.Machine.execPtpEventRx f s
  | .devSnapArm value => Sys2Proof.Machine.execDevSnapArm value s
  | .release value => Sys2Proof.Machine.execRelease value s
  | .errCapRearm group value => Sys2Proof.Machine.execErrCapRearm group value s
  | .registerWrite a offset size value => Sys2Proof.Machine.execRegisterWrite a offset size value s
  | .getVersion req => Sys2Proof.Machine.execGetVersion req s
  | .getCapabilities req => Sys2Proof.Machine.execGetCapabilities req s
  | .negotiateAlgorithms req => Sys2Proof.Machine.execNegotiateAlgorithms req s
  | .getDigests req => Sys2Proof.Machine.execGetDigests req s
  | .getCertificate req => Sys2Proof.Machine.execGetCertificate req s
  | .challenge req => Sys2Proof.Machine.execChallenge req s
  | .getMeasurements req => Sys2Proof.Machine.execGetMeasurements req s
  | .doeDiscovery req => Sys2Proof.Machine.execDoeDiscovery req s
  | .doeAbort => Sys2Proof.Machine.execDoeAbort s
  | .extest => Sys2Proof.Machine.execExtest s
  | .idcode => Sys2Proof.Machine.execIdcode s
  | .samplePreload => Sys2Proof.Machine.execSamplePreload s
  | .clamp => Sys2Proof.Machine.execClamp s
  | .highz => Sys2Proof.Machine.execHighz s
  | .bypass => Sys2Proof.Machine.execBypass s
  | .dbgTrstN => Sys2Proof.Machine.execDbgTrstN s
  | .dbgHalt f => Sys2Proof.Machine.execDbgHalt f s
  | .dbgResume f => Sys2Proof.Machine.execDbgResume f s
  | .dbgStep f => Sys2Proof.Machine.execDbgStep f s
  | .dbgBreak f => Sys2Proof.Machine.execDbgBreak f s
  | .dbgWatch f => Sys2Proof.Machine.execDbgWatch f s
  | .dbgRead f => Sys2Proof.Machine.execDbgRead f s
  | .dbgWrite f => Sys2Proof.Machine.execDbgWrite f s
  | .readCore f => Sys2Proof.Machine.execReadCore f s
  | .writeCore f => Sys2Proof.Machine.execWriteCore f s
  | .dbgStatusCmd f => Sys2Proof.Machine.execDbgStatusCmd f s
  | .dbgChallenge f => Sys2Proof.Machine.execDbgChallenge f s
  | .response f => Sys2Proof.Machine.execResponse f s
  | .unlock f => Sys2Proof.Machine.execUnlock f s
  | .lock f => Sys2Proof.Machine.execLock f s
  | .config f => Sys2Proof.Machine.execConfig f s
  | .blockRead i3c c => Sys2Proof.Machine.execBlockRead i3c c s
  | .targetWrite i3c bytes => Sys2Proof.Machine.execTargetWrite i3c bytes s
  | .alertResponse => Sys2Proof.Machine.execAlertResponse s
  | .entdaa addr => Sys2Proof.Machine.execEntdaa addr s
  | .setdasa addr => Sys2Proof.Machine.execSetdasa addr s
  | .perstNRelease => Sys2Proof.Machine.execPerstNRelease s
  | .pciePllTimeout => Sys2Proof.Machine.execPciePllTimeout s
  | .kpllLock => Sys2Proof.Machine.execKpllLock s
  | .fecLock p phasePs => Sys2Proof.Machine.execFecLock p phasePs s

end Sys2Proof.Machine
end

