-- ==== Sys2Proof/Safety.lean ====
section
/-! DEFINITION. What a safe run is, in the terms statements use: the tables keep their canonical form, so that equal contents
are equal data, and no command ends in a fault or a refusal; and the frames that statements name, each saying all that a
command may have changed. -/

namespace Sys2Proof.Machine

/-- The memory's canonical form. -/
def Memory.wf (m : List Host.Cell) : Bool := tabWf (fun _ => (0 : Byte)) m

/-- The register table's canonical form. -/
def Registers.wf (r : Tab Word) : Bool := tabWf regDefault r

/-- The invariant of the device: memory and registers are in canonical form. -/
def State.Inv (s : State) : Prop := Memory.wf s.mem = true ∧ Registers.wf s.regs = true

/-- A step that goes on: it answers a next state. -/
def Completes (o : Host.Outcome State Fault Refusal) : Prop := ∃ t, o = .next t

/-! ## Frames -/

/-- Every register (each stands at a multiple of four) outside `l` reads as before. -/
def RegsBut (l : List Nat) (s t : State) : Prop := ∀ o, o % 4 = 0 → o ∉ l → reg t o = reg s o

/-- Every byte of memory reads as before. -/
def MemSame (s t : State) : Prop := ∀ a, memByte t a = memByte s a

/-- Registers of `l` may have changed, and nothing else of the device. -/
def OnlyRegs (l : List Nat) (s t : State) : Prop := t = { s with regs := t.regs } ∧ RegsBut l s t

/-- The MSI-X pending bits of the vectors 0 to 71 (R330). -/
def pbaRegs : List Nat := [rMsixPba, rMsixPba + 4, rMsixPba + 8]

/-- The registers of first-error capture `b` (R415). -/
def capRegs (b : Nat) : List Nat := (upTo 8).map (fun i => rCap b + 4 * i)

/-- Registers of `l` may have changed, and what an event or an interrupt changes (R347, R348): an MSI-X pending bit, the records the
admin ring has waiting, the count of events, and what the device has sent. -/
def Notified (l : List Nat) (s t : State) : Prop :=
  t = { s with regs := t.regs, streams := t.streams, misc := { s.misc with eventCount := t.misc.eventCount }, out := t.out }
    ∧ RegsBut (l ++ pbaRegs) s t ∧ ∀ i : StreamId, i.val ≠ 0 → strm t i = strm s i

end Sys2Proof.Machine
end

