-- ==== Sys2Proof/Certificates/Slice0/Obligations.lean ====
section
/-! DEFINITION. The statements for the provers: what the numbered rules of spec/ say that each command does, in terms of exec and
step. Auxiliary predicates stand in the namespace Sys2Proof.Claims before the statements that use them. -/

open Sys2Proof Sys2Proof.Machine

/-! ## The machine as a whole -/

/-- A step takes the command at the front of the queue and runs it with the queue's rest. -/
def Obligations.StepRunsTheFrontCommand : Prop :=
  ∀ (c : Instr) (rest : List Instr) (s : State), s.pending = c :: rest → step s = exec c { s with pending := rest }

/-- Device time in units of 2^-32 ns. -/
def Sys2Proof.Claims.timeUnits (t : TimeState) : Nat := t.secs.toNat * secondNs32 + t.ns32

/-- With no command waiting, a step is one tick of the reference (the model's choice, log 1): TICK_COUNT and device time advance while
the fabric clock runs; memory, Pods and every register but TICK_COUNT and CLK_KEEPER_BEAT stay. Where the tick that begins is a check point,
what holds a stake is judged on the state before any command of that tick. -/
def Obligations.EmptyQueuePassesOneTick : Prop :=
  ∀ s : State, s.Inv → s.pending = [] → s.doe.request = none → fabricRuns s = true → s.time.ns32 < secondNs32 →
    ∃ t, step s = .next t ∧ tick t = (tick s + 1) % 2 ^ 64
      ∧ Sys2Proof.Claims.timeUnits t.time = (Sys2Proof.Claims.timeUnits s.time + s.time.incr.toNat) % (2 ^ 48 * secondNs32)
      ∧ MemSame s t ∧ t.pods = s.pods ∧ t.ports = s.ports ∧ RegsBut [rTick, rTick + 4, rClkBeat] s t
      ∧ t.stake = { s.stake with judged := t.stake.judged } ∧ (checkDue t = true → ∃ k, t.stake.judged = some (holdCauses t, k))
      ∧ (checkDue t = false → t.stake.judged = s.stake.judged)

/-- The state right after reset holds the invariant. -/
def Obligations.ResetHoldsTheInvariant : Prop := State.reset.Inv

/-- Every step keeps the canonical forms of memory and registers, in every state. -/
def Obligations.EveryStepKeepsTheInvariant : Prop := ∀ s t : State, s.Inv → step s = .next t → t.Inv

/-- Every command ends in a next state. None touches the queue of commands or the fuses, none takes back what the device has sent, and
free values are only ever drawn. -/
def Obligations.EveryCommandCompletes : Prop :=
  ∀ (c : Instr) (s : State), ∃ t, exec c s = .next t ∧ t.pending = s.pending ∧ t.fuses = s.fuses ∧ s.out <+: t.out ∧ s.fresh ≤ t.fresh

/-- What the machine holds right after reset: memory reads zero, every Pod is idle with zero registers, every port is OFF and every
stream DISABLED; TICK_COUNT, stake and weave state are zero; and the registers whose reset value is not zero.
For what the spec leaves open it follows the model's choices of log 4, 5 and 6. -/
def Obligations.ResetValuesOfTheDevice : Prop :=
  (∀ a, memByte State.reset a = 0) ∧ tick State.reset = 0 ∧ stakeNo State.reset = 0 ∧ reg State.reset rWeaveState = 0
    ∧ (∀ p : PodId, podRunning State.reset p = false ∧ hasCode State.reset p = false
        ∧ (∀ i, sReg (pod State.reset p) i = 0) ∧ (∀ i, vReg (pod State.reset p) i = 0) ∧ mReg (pod State.reset p) 0 = BitVec.allOnes 512)
    ∧ (∀ p : PortId, lstate State.reset p = 0) ∧ (∀ i : StreamId, strmState State.reset i = 0)
    ∧ reg State.reset rClkStatus = 0xDFF0FFFF ∧ reg State.reset rClkKeeper = 0x80000000 ∧ reg State.reset rClkNoc = 0x4B0
    ∧ reg State.reset rClkGate = 0x7F ∧ reg State.reset rPstepReq = 0x707 ∧ reg State.reset rDroop = 0x3C1E
    ∧ reg State.reset rPwrCap = 0x4B0 ∧ reg State.reset rPwrPrio = 0x24 ∧ reg State.reset rPwrStatus = 0x888
    ∧ reg State.reset rTimIncr = 0x80000000 ∧ reg State.reset rHoldCtrl = 0x1000 ∧ reg State.reset rSplice = 0xFFFF0000
    ∧ reg State.reset rLinkCfg = 0x20000FA0 ∧ reg State.reset rPortMapLo = 0x76543210 ∧ reg State.reset rPortMapHi = 0xFEDCBA98
    ∧ reg State.reset rRootCtrl = 0x12000

/-! ## Resets -/

/-- The device after a power-on or cold boot has begun: memory zero, no weave, every Pod and port as at reset, TICK_COUNT 0 and
unaligned, the straps in DEV_PLACE with their parity (an odd number of ones is good), the cause in CFG_STATUS.BOOT_CAUSE, KEEPER INIT,
and the rate ceiling at 1/8 while THERMTRIP_N is low. -/
def Sys2Proof.Claims.Booted (straps : BitVec 16) (cause : Nat) (s t : State) : Prop :=
  (∀ a, memByte t a = 0) ∧ t.active = none ∧ t.loaded = none ∧ t.pods = State.reset.pods ∧ t.ports = State.reset.ports
    ∧ tick t = 0 ∧ aligned t = false ∧ field t rCfgStatus 20 4 = cause ∧ func t fKeeper = 1
    ∧ reg t rPlace = BitVec.ofNat 32 ((if onesIn straps % 2 = 1 then 2 ^ 31 else 0) + straps.toNat)
    ∧ t.time.secs = 0 ∧ t.time.ns32 = 0 ∧ t.fuses = s.fuses ∧ t.pending = s.pending
    ∧ t.power.ceiling = (if s.misc.thermtripLow then 1 else 8) ∧ t.misc.d3hot = false

/-- Registers that a boot itself writes among those a cold reset keeps. -/
def Sys2Proof.Claims.bootErrs : List Nat := [rErrBoot, rErrPlace] ++ capRegs 11 ++ capRegs 17

/-- POWER_ON_RESET boots with cause 0; while SYS_RST_N is low it leaves the device in reset with nothing started. RAIL_TRIP asserts power-on
reset, in which memory is zero, every error register reads zero and KEEPER is OFF.
For what the spec leaves open it follows the model's choices of log 21 and 66. -/
def Obligations.PowerOnResetBoots : Prop :=
  (∀ (straps : BitVec 16) (s : State), s.misc.sysRstLow = false → ∃ t, exec (.powerOnReset straps) s = .next t
      ∧ Sys2Proof.Claims.Booted straps 0 s t ∧ t.misc.porAsserted = false)
    ∧ (∀ (straps : BitVec 16) (s : State), s.misc.sysRstLow = true → ∃ t, exec (.powerOnReset straps) s = .next t
        ∧ (∀ a, memByte t a = 0) ∧ func t fKeeper = 0 ∧ t.misc.porAsserted = false ∧ t.misc.sysRstLow = true)
    ∧ ∀ (rail : Rail) (s : State), ∃ t, exec (.railTrip rail) s = .next t ∧ (∀ a, memByte t a = 0) ∧ t.active = none
        ∧ t.pods = State.reset.pods ∧ t.ports = State.reset.ports ∧ (∀ o, isSticky o = true → reg t o = 0)
        ∧ func t fKeeper = 0 ∧ t.misc.porAsserted = true ∧ t.flash = s.flash ∧ t.fuses = s.fuses ∧ t.pending = s.pending
        ∧ t.misc.thermtripLow = (s.misc.thermtripLow && decide (rail ≠ .vdd1v8))

/-- SYS_RST_N low for 1 µs or longer, and a write of CFG_RESET.COLD with the key 0xC01D, boot with causes 1 and 2 and keep the W1CS
registers but for the errors of the boot itself; a wrong key changes nothing; a pulse under 500 ns does nothing, and one between may
reset or not. Under power-on reset the rise of SYS_RST_N boots nothing, and a device in reset takes no write of CFG_RESET.
For what the spec leaves open it follows the model's choices of log 21, 25 and 66. -/
def Obligations.ColdResetsBoot : Prop :=
  (∀ (n : Nat) (straps : BitVec 16) (s : State), s.Inv → s.misc.porAsserted = false → 1000 ≤ n ∨ s.misc.sysRstLow = true → ∃ t, exec (.sysRstN n straps) s = .next t
      ∧ Sys2Proof.Claims.Booted straps 1 s t ∧ ∀ o, isSticky o = true → o ∉ Sys2Proof.Claims.bootErrs → reg t o = reg s o)
    ∧ (∀ (n : Nat) (straps : BitVec 16) (s : State), s.misc.porAsserted = true → 1000 ≤ n →
        exec (.sysRstN n straps) s = .next { s with misc := { s.misc with sysRstLow := false } })
    ∧ (∀ (n : Nat) (straps : BitVec 16) (s : State), s.misc.sysRstLow = false → n < 500 → exec (.sysRstN n straps) s = .next s)
    ∧ (∀ (n : Nat) (straps : BitVec 16) (s : State), s.Inv → inReset s = false → 500 ≤ n → n < 1000 → ∃ t, exec (.sysRstN n straps) s = .next t
        ∧ (t = { s with fresh := s.fresh + 1 } ∨ Sys2Proof.Claims.Booted straps 1 s t))
    ∧ (∀ (v : Word) (straps : BitVec 16) (s : State), s.Inv → inReset s = false → getF v 16 16 = 0xC01D → ∃ t, exec (.cfgResetCold v straps) s = .next t
        ∧ Sys2Proof.Claims.Booted straps 2 s t ∧ ∀ o, isSticky o = true → o ∉ Sys2Proof.Claims.bootErrs → reg t o = reg s o)
    ∧ ∀ (v : Word) (straps : BitVec 16) (s : State), getF v 16 16 ≠ 0xC01D ∨ inReset s = true → exec (.cfgResetCold v straps) s = .next s

/-- CFG_RESET.WARM with the key: memory is zero, weave, Pods and ports are as at reset, BOOT_CAUSE is 3 and KEEPER INIT; the straps,
the manifest and its digest, the locked settings, DBG_STATUS.USED, the power state of the PCIe function and every W1CS register are kept;
device time goes on and SYNCED clears; the rate ceiling is 1/8 while THERMTRIP_N is low; a ROOT or POD function that has failed stays FAILED.
A wrong key, or a device in reset, changes nothing.
For what the spec leaves open it follows the model's choices of log 22. -/
def Obligations.WarmResetKeepsWhatItMust : Prop :=
  (∀ (v : Word) (s : State), s.Inv → inReset s = false → getF v 16 16 = 0xC01D → getB v 0 = false → ∃ t, exec (.cfgResetWarm v) s = .next t
      ∧ (∀ a, memByte t a = 0) ∧ t.active = none ∧ t.loaded = none ∧ t.pods = State.reset.pods ∧ t.ports = State.reset.ports
      ∧ tick t = 0 ∧ aligned t = false ∧ field t rCfgStatus 20 4 = 3 ∧ func t fKeeper = 1
      ∧ reg t rPlace = reg s rPlace ∧ reg t rManifest = reg s rManifest ∧ manifestDigest t = manifestDigest s ∧ t.manifest = s.manifest
      ∧ (∀ o, isSticky o = true ∨ isLockable o = true → reg t o = reg s o)
      ∧ (limited s = false → (∀ p : PodId, func t (fPod p.val) = if func s (fPod p.val) = 3 then 3 else 1)
          ∧ ∀ k : StackId, func t (fRoot k.val) = if func s (fRoot k.val) = 3 then 3 else 1)
      ∧ t.time.secs = s.time.secs ∧ t.time.ns32 = s.time.ns32 ∧ flag t rTimCtrl 2 = false ∧ t.flash = s.flash ∧ t.fuses = s.fuses
      ∧ flag t rDbgStatus 29 = flag s rDbgStatus 29 ∧ t.misc.d3hot = s.misc.d3hot
      ∧ t.power.ceiling = (if s.misc.thermtripLow then 1 else 8))
    ∧ ∀ (v : Word) (s : State), getF v 16 16 ≠ 0xC01D ∨ inReset s = true → exec (.cfgResetWarm v) s = .next s

/-- The host side of a reset (R351): every stream is DISABLED and empty but for the count of its submissions that a queue has accepted, and the
HST block reads its reset values; no DOE exchange or LOAD is open and the function is in D0; the posts that wait will be discarded; memory,
ports, weave and every other register but the PCIE function's are as before. -/
def Sys2Proof.Claims.HostReset (s t : State) : Prop :=
  (∀ i : StreamId, strmState t i = 0
      ∧ strm t i = { Stream.reset with orphans := (strm s i).orphans + ((strm s i).subs.filter isQueued).length })
    ∧ (∀ p : PodId, pod t p = { pod s p with posts := (pod s p).posts.map (fun po => { po with void := true }) })
    ∧ (∀ o, 0x100000 ≤ o → o < 0x110000 → reg t o = regDefault o)
    ∧ (∀ o, o < 0x100000 ∨ 0x110000 ≤ o → o ≠ rFunc fPcie → reg t o = reg s o)
    ∧ t = { s with regs := t.regs, streams := t.streams, misc := t.misc, pods := t.pods, doe := t.doe } ∧ t.misc.loading = none
    ∧ t.doe = State.reset.doe ∧ t.misc.d3hot = false

/-- CONVENTIONAL_RESET and HOT_RESET reset the host side and take PCIE from READY to INIT; FLR resets the host side and leaves PCIE;
no other function changes state. Under boundary scan PERST_N does not reach the device: the pin alone moves.
For what the spec leaves open it follows the model's choices of log 34. -/
def Obligations.HostResetsDisableStreams : Prop :=
  (∀ s : State, boundaryScan s = true → exec .conventionalReset s = .next { s with misc := { s.misc with perstLow := true } })
    ∧ (∀ s : State, s.Inv → boundaryScan s = false → ∃ t, exec .conventionalReset s = .next t ∧ Sys2Proof.Claims.HostReset s t ∧ t.misc.perstLow = true
      ∧ reg t (rFunc fPcie) = if func s fPcie = 2 then 1 else reg s (rFunc fPcie))
    ∧ (∀ s : State, s.Inv → ∃ t, exec .hotReset s = .next t ∧ Sys2Proof.Claims.HostReset s t ∧ t.misc.perstLow = s.misc.perstLow
        ∧ reg t (rFunc fPcie) = if func s fPcie = 2 then 1 else reg s (rFunc fPcie))
    ∧ ∀ s : State, ∃ t, exec .flr s = .next t ∧ Sys2Proof.Claims.HostReset s t ∧ t.misc.perstLow = s.misc.perstLow
        ∧ reg t (rFunc fPcie) = reg s (rFunc fPcie)

/-! ## Functions come up -/

/-- PCIE_PLL_TIMEOUT takes PCIE from INIT to FAILED with DETAIL 1; MGMT_LINK_UP and MGMT_LINK_DOWN move MGMT between INIT and READY;
the management link does not come up without the reference. PCIE_READY takes PCIE from INIT to READY while PERST_N is high, the configuration is
committed and the PCIe function works. The function's DEV_FUNC register reads the new state and DETAIL, an event may be posted, and nothing else
changes; in any other state of the function the row changes nothing. PERST_N_RELEASE starts a PCIE that is OFF once the boot has begun; under
boundary scan the pin alone moves. A row that a stopped clock keeps from acting changes nothing, as log 29 and log 2 say. -/
def Obligations.LinkFunctionsChangeState : Prop :=
  (∀ s : State, s.Inv → func s fPcie = 1 → ∃ t, exec .pciePllTimeout s = .next t ∧ reg t (rFunc fPcie) = 259 ∧ Notified [rFunc fPcie] s t)
    ∧ (∀ s : State, func s fPcie ≠ 1 → exec .pciePllTimeout s = .next s)
    ∧ (∀ s : State, s.Inv → func s fMgmt = 1 → refRuns s = true →
        ∃ t, exec .mgmtLinkUp s = .next t ∧ reg t (rFunc fMgmt) = 2 ∧ Notified [rFunc fMgmt] s t)
    ∧ (∀ s : State, func s fMgmt ≠ 1 ∨ refRuns s = false → exec .mgmtLinkUp s = .next s)
    ∧ (∀ s : State, s.Inv → func s fMgmt = 2 → ∃ t, exec .mgmtLinkDown s = .next t ∧ reg t (rFunc fMgmt) = 1 ∧ Notified [rFunc fMgmt] s t)
    ∧ (∀ s : State, func s fMgmt ≠ 2 → exec .mgmtLinkDown s = .next s)
    ∧ (∀ s : State, s.Inv → func s fPcie = 1 → s.misc.perstLow = false → committed s = true → pcieRuns s = true →
        ∃ t, exec .pcieReady s = .next t ∧ reg t (rFunc fPcie) = 2 ∧ Notified [rFunc fPcie] s t)
    ∧ (∀ s : State, func s fPcie ≠ 1 ∨ s.misc.perstLow = true ∨ committed s = false ∨ pcieRuns s = false → exec .pcieReady s = .next s)
    ∧ (∀ s : State, s.Inv → func s fPcie = 0 → func s fKeeper ≠ 0 → boundaryScan s = false → ∃ t, exec .perstNRelease s = .next t
        ∧ reg t (rFunc fPcie) = 1 ∧ Notified [rFunc fPcie] { s with misc := { s.misc with perstLow := false } } t)
    ∧ ∀ s : State, func s fPcie ≠ 0 ∨ func s fKeeper = 0 ∨ boundaryScan s = true →
        exec .perstNRelease s = .next { s with misc := { s.misc with perstLow := false } }

/-- POD_BIST_DONE and ROOT_READY take their function from INIT to READY, or to FAILED with the failure's code and ERR_BOOT bit 3 or 4, and leave
zeros in the Pod's store and in the stack; in any other state of the function, or while the clock of the Pod or of the die's Root controllers is
stopped (log 29, log 2), they change nothing. At a BOOT_DEADLINE, ERR_BOOT bit 3 or 4 is
set exactly where some Pod or stack is still INIT, and every function keeps its state. -/
def Obligations.SelfTestsDecideReadiness : Prop :=
  (∀ (p : PodId) (s : State), s.Inv → func s (fPod p.val) = 1 → podClockRuns s p = true → ∃ t, exec (.podBistDone p none) s = .next t
      ∧ reg t (rFunc (fPod p.val)) = 2 ∧ (∀ o, o < podSize → memByte t (podAddr p o) = 0) ∧ Notified [rFunc (fPod p.val)] (zeroPodStore s p) t)
    ∧ (∀ (p : PodId) (d : Byte) (s : State), s.Inv → func s (fPod p.val) = 1 → podClockRuns s p = true → ∃ t, exec (.podBistDone p (some d)) s = .next t
        ∧ reg t (rFunc (fPod p.val)) = BitVec.ofNat 32 (d.toNat * 256 + 3) ∧ flag t rErrBoot 3 = true
        ∧ Notified (rFunc (fPod p.val) :: rErrBoot :: capRegs 17) (zeroPodStore s p) t)
    ∧ (∀ (p : PodId) (d : Option Byte) (s : State), func s (fPod p.val) ≠ 1 ∨ podClockRuns s p = false → exec (.podBistDone p d) s = .next s)
    ∧ (∀ (k : StackId) (s : State), s.Inv → func s (fRoot k.val) = 1 → rootRuns s (k.val / 3) = true → ∃ t, exec (.rootReady k none) s = .next t
        ∧ reg t (rFunc (fRoot k.val)) = 2 ∧ (∀ a, a < rootEnd → rootStack a = k.val → memByte t a = 0)
        ∧ (∀ a, rootStack a ≠ k.val → memByte t a = memByte s a) ∧ Notified [rFunc (fRoot k.val)] (zeroStack s k.val) t)
    ∧ (∀ (k : StackId) (d : Byte) (s : State), s.Inv → func s (fRoot k.val) = 1 → rootRuns s (k.val / 3) = true → ∃ t, exec (.rootReady k (some d)) s = .next t
        ∧ reg t (rFunc (fRoot k.val)) = BitVec.ofNat 32 (d.toNat * 256 + 3) ∧ flag t rErrBoot 4 = true
        ∧ Notified (rFunc (fRoot k.val) :: rErrBoot :: capRegs 17) (zeroStack s k.val) t)
    ∧ (∀ (k : StackId) (d : Option Byte) (s : State), func s (fRoot k.val) ≠ 1 ∨ rootRuns s (k.val / 3) = false → exec (.rootReady k d) s = .next s)
    ∧ (∀ s : State, s.Inv → ∃ t, exec (.bootDeadline .pods) s = .next t ∧ Notified (rErrBoot :: capRegs 17) s t
        ∧ (flag t rErrBoot 3 = true ↔ flag s rErrBoot 3 = true ∨ ∃ p : PodId, func s (fPod p.val) = 1))
    ∧ ∀ s : State, s.Inv → ∃ t, exec (.bootDeadline .roots) s = .next t ∧ Notified (rErrBoot :: capRegs 17) s t
        ∧ (flag t rErrBoot 4 = true ↔ flag s rErrBoot 4 = true ∨ ∃ k : StackId, func s (fRoot k.val) = 1)

/-- CONFIG_COMMIT acts once, while the Keeper clock runs: CFG_STATUS.COMMITTED is set and a manifest is installed, the flash's where SPI reaches it
and it is accepted, else the implied one; in limited mode every ROOT, POD and LINK function is HELD and the RWL registers lock at their reset
values, else ROOT and POD functions are INIT and VDD_MV of P7 has gone to the four VDD_CD rails. Committed already, or with the Keeper clock
stopped (log 29, log 2), it changes nothing. KEEPER_READY, while the Keeper clock runs, takes KEEPER to READY and starts TIME, ALIGN and MGMT. -/
def Obligations.BootCommitsAndKeeperStarts : Prop :=
  (∀ s : State, committed s = true ∨ keeperRuns s = false → exec .configCommit s = .next s)
    ∧ (∀ s : State, s.Inv → committed s = false → keeperRuns s = true → ∃ t, exec .configCommit s = .next t ∧ committed t = true
        ∧ flag t rManifest 31 = true ∧ t.flash.manifest = s.flash.manifest
        ∧ t.manifest = some (if spiOn t = true ∧ manifestOk s.flash.manifest = true then s.flash.manifest.take (mfTotal s.flash.manifest)
            else impliedManifest (deviceCoord s))
        ∧ (∀ p : PodId, func t (fPod p.val) = if limited s then 4 else 1)
        ∧ (∀ k : StackId, func t (fRoot k.val) = if limited s then 4 else 1)
        ∧ (limited s = true → (∀ p : PortId, func t (fLink p.val) = 4) ∧ ∀ o, isLockable o = true → reg t o = regDefault o)
        ∧ (limited s = false → busRuns t 3 = true → ∀ r : Fin 4, Output.avs r (pstepMv t 7) ∈ t.out))
    ∧ (∀ s : State, s.Inv → func s fKeeper = 1 → committed s = true → keeperRuns s = true → ∃ t, exec .keeperReady s = .next t ∧ func t fKeeper = 2
        ∧ func t fTime = (if flag s rTimCtrl 2 then 2 else 1) ∧ func t fAlign = (if aligned s then 2 else 1)
        ∧ func t fMgmt = (if flag s rClkGate 0 then 1 else 4) ∧ MemSame s t ∧ t.pods = s.pods ∧ t.manifest = s.manifest)
    ∧ ∀ s : State, func s fKeeper ≠ 1 ∨ committed s = false ∨ keeperRuns s = false → exec .keeperReady s = .next s

/-- A write of CFG_SELECT without REFUSED is accepted with its key, KEEPER READY and a slot that may be selected and is not: the selection
waits for the control block (PENDING), with the slot that runs then; otherwise REFUSED is set and nothing else changes. CONTROL_BLOCK_WRITTEN, while
the Keeper clock runs and the flash is reached, makes the slot the selected one, and one in state VALID or FAILED a TRIAL with the slot that ran as PREVIOUS, and
both copies of the control block hold it; without them it changes nothing (log 29, log 2). CFG_IDENTITY.ACK with its key acknowledges a REPLACED device.
For what the spec leaves open it follows the model's choices of log 23. -/
def Obligations.ConfigurationIsSelectedAndAcknowledged : Prop :=
  (∀ (v : Word) (s : State), s.Inv → getB v 31 = false → getF v 8 8 = 0xA5 → func s fKeeper = 2 →
      s.flash.selected ≠ fin 2 (by decide) (getF v 0 1) →
      (∃ k, k ∈ [2, 3, 4, 5] ∧ slotState s.flash (fin 2 (by decide) (getF v 0 1)) = k) →
      ∃ t, exec (.cfgSelect v) s = .next t ∧ t.flash = { s.flash with selecting := some (fin 2 (by decide) (getF v 0 1)), selectRan := runSlot s }
        ∧ flag t rCfgSelect 30 = true ∧ flag t rCfgSelect 31 = flag s rCfgSelect 31
        ∧ t = { s with regs := t.regs, flash := t.flash }
        ∧ RegsBut [rCfgSlot 0, rCfgSlot 1, rCfgSlotVer 0, rCfgSlotVer 1, rCfgSelect] s t)
    ∧ (∀ (v : Word) (s : State), s.Inv → getB v 31 = false →
        (getF v 8 8 ≠ 0xA5 ∨ func s fKeeper ≠ 2 ∨ s.flash.selected = fin 2 (by decide) (getF v 0 1)
          ∨ (∃ k, k ∈ [0, 1, 6] ∧ slotState s.flash (fin 2 (by decide) (getF v 0 1)) = k)) →
        ∃ t, exec (.cfgSelect v) s = .next t ∧ flag t rCfgSelect 31 = true ∧ OnlyRegs [rCfgSelect] s t)
    ∧ (∀ (i : Fin 2) (s : State), s.Inv → s.flash.selecting = some i → keeperRuns s = true → spiOn s = true →
        ∃ t, exec .controlBlockWritten s = .next t ∧ t.flash.selecting = none ∧ flag t rCfgSelect 30 = false
          ∧ (slotState s.flash i = 2 ∨ slotState s.flash i = 5 → t.flash.selected = i ∧ slotState t.flash i = 3
              ∧ (vget t.flash.slots i).tries = 0 ∧ (s.flash.selectRan ≠ 2 → t.flash.previous = fin 2 (by decide) s.flash.selectRan))
          ∧ (slotState s.flash i = 3 ∨ slotState s.flash i = 4 → t.flash.selected = i)
          ∧ (¬ (2 ≤ slotState s.flash i ∧ slotState s.flash i ≤ 5) → t.flash.selected = s.flash.selected)
          ∧ (¬ (slotState s.flash i = 2 ∨ slotState s.flash i = 5) → t.flash.slots = s.flash.slots ∧ t.flash.previous = s.flash.previous)
          ∧ copyInForce t.flash = some 0 ∧ vget t.flash.copies 0 = vget t.flash.copies 1
          ∧ t = { s with regs := t.regs, flash := t.flash })
    ∧ (∀ s : State, s.flash.selecting = none ∨ keeperRuns s = false ∨ spiOn s = false → exec .controlBlockWritten s = .next s)
    ∧ (∀ (v : Word) (s : State), s.Inv → getF v 8 8 = 0xA5 → field s rCfgIdentity 29 3 = 2 → keeperRuns s = true → spiOn s = true →
        ∃ t, exec (.cfgIdentityAck v) s = .next t ∧ field t rCfgIdentity 29 3 = 3 ∧ t.flash.ackDigest = sha256 s.fuses.publicKey
          ∧ MemSame s t ∧ t.pods = s.pods)
    ∧ ∀ (v : Word) (s : State), getF v 8 8 ≠ 0xA5 ∨ field s rCfgIdentity 29 3 ≠ 2 ∨ keeperRuns s = false →
        exec (.cfgIdentityAck v) s = .next s

/-! ## Clocks -/

/-- When KPLL loses lock, its output keeps running and CLK_KEEPER.KPLL_LOCK reads 0, and the Keeper may then switch to REF. -/
def Obligations.KpllLockLossKeepsTheClock : Prop :=
  ∀ s : State, s.Inv → ∃ t, exec .kpllLockLoss s = .next t ∧ flag t rClkKeeper 29 = false ∧ keeperRuns t = keeperRuns s
    ∧ flag t rClkKeeper 30 = flag s rClkKeeper 30 ∧ OnlyRegs [rClkStatus, rClkKeeper] s t
    ∧ ∀ v : Word, getB v 0 = false → getB v 1 = true → flag s rClkKeeper 31 = true → keeperRuns s = true →
        ∃ u, exec (.clkKeeperWrite v) t = .next u ∧ flag u rClkKeeper 0 = false ∧ keeperRuns u = true

/-- REF_LOSS stops every clock: CLK_STATUS reads zero, every port is OFF, the links of PCIe and MGMT leave READY, KEEPER keeps its state, SYNCED
is 0, and ERR_CLK records it. REFERENCE_RETURN after 100,000 edges takes the warm-reset flow with cause 4: REF runs, KPLL is off, and a Keeper that
is not hung runs on REF; before that, or with the reference present, it
changes nothing (log 2). PLL_UNLOCK with the reference present clears the lock bit and faults the machine; PLL_RELOCK sets the bit. A droop of more
than T50_MV stretches the region's clock by 50 %, one of more than T25_MV by 25 %; STRETCH_END ends a stretch once 16 Pod cycles have passed
since the supply was last seen below its threshold, and before that it stays; other regions and everything else stay.
For what the spec leaves open it follows the model's choices of log 29 and 66. -/
def Obligations.ClocksStopAndStretch : Prop :=
  (∀ s : State, s.Inv → ∃ t, exec .refLoss s = .next t ∧ reg t rClkStatus = 0 ∧ (∀ p : PortId, lstate t p = 0)
      ∧ flag t rTimCtrl 2 = false ∧ flag t rErrClk 0 = true ∧ t.clock.refLost = true ∧ keeperRuns t = false ∧ func t fPcie ≠ 2
      ∧ func t fMgmt ≠ 2 ∧ func t fKeeper = func s fKeeper ∧ MemSame s t ∧ t.pods = s.pods ∧ t.active = s.active)
    ∧ (∀ (n : Nat) (s : State), s.Inv → s.clock.refLost = true → 100000 ≤ n → ∃ t, exec (.referenceReturn n) s = .next t
        ∧ t.clock.refLost = false ∧ field t rCfgStatus 20 4 = 4 ∧ (∀ a, memByte t a = 0) ∧ t.active = none
        ∧ (∀ o, isSticky o = true → reg t o = reg s o) ∧ func t fKeeper = 1 ∧ flag t rClkKeeper 31 = true ∧ flag t rClkKeeper 30 = false
        ∧ flag t rClkKeeper 29 = false ∧ flag t rClkStatus 29 = false
        ∧ (s.clock.keeperHung = false → flag t rClkKeeper 0 = false ∧ (inReset s = false → keeperRuns t = true)))
    ∧ (∀ (n : Nat) (s : State), s.clock.refLost = false ∨ n < 100000 → exec (.referenceReturn n) s = .next s)
    ∧ (∀ (p : Pll) (s : State), s.Inv → s.clock.refLost = false → ∃ t, exec (.pllUnlock p) s = .next t
        ∧ flag t rErrClk 1 = true ∧ flag t rFaultState 31 = true ∧ (∀ i, pllBit p = some i → flag t rClkStatus i = false)
        ∧ (p = .fabric → ∀ q : PortId, lstate t q = 0) ∧ (p = .pcie → func t fPcie ≠ 2) ∧ MemSame s t)
    ∧ (∀ (p : Pll) (s : State), s.Inv → s.clock.refLost = false → ∃ t, exec (.pllRelock p) s = .next t
        ∧ OnlyRegs [rClkStatus] s t ∧ ∀ i, pllBit p = some i → flag t rClkStatus i = true ∧ ∀ j, j < 32 → j ≠ i → flag t rClkStatus j = flag s rClkStatus j)
    ∧ (∀ (p : Pll) (s : State), s.clock.refLost = true → exec (.pllUnlock p) s = .next s ∧ exec (.pllRelock p) s = .next s)
    ∧ (∀ (r : RegionId) (mv : Nat) (s : State), field s rDroop 0 8 ≤ field s rDroop 8 8 → ∃ t, exec (.droopDetect r mv) s = .next t
        ∧ (field s rDroop 8 8 < mv → vget t.clock.stretch r = max (vget s.clock.stretch r) 50 ∧ vget t.clock.since50 r = 0 ∧ vget t.clock.since25 r = 0)
        ∧ (mv ≤ field s rDroop 8 8 → field s rDroop 0 8 < mv → vget t.clock.stretch r = max (vget s.clock.stretch r) 25
            ∧ vget t.clock.since50 r = vget s.clock.since50 r ∧ vget t.clock.since25 r = 0)
        ∧ (mv ≤ field s rDroop 0 8 → vget t.clock.stretch r = vget s.clock.stretch r)
        ∧ (∀ q, q ≠ r → vget t.clock.stretch q = vget s.clock.stretch q ∧ vget t.clock.since25 q = vget s.clock.since25 q
            ∧ vget t.clock.since50 q = vget s.clock.since50 q)
        ∧ t = { s with clock := { s.clock with stretch := t.clock.stretch, since25 := t.clock.since25, since50 := t.clock.since50 } })
    ∧ ∀ (r : RegionId) (s : State), ∃ t, exec (.stretchEnd r) s = .next t
        ∧ (16 ≤ vget s.clock.since25 r → 16 ≤ vget s.clock.since50 r → vget t.clock.stretch r = 0)
        ∧ (vget s.clock.stretch r = 50 → vget s.clock.since50 r < 16 → vget t.clock.stretch r = 50)
        ∧ (vget s.clock.stretch r = 25 → vget s.clock.since25 r < 16 → vget t.clock.stretch r = 25)
        ∧ (∀ q, q ≠ r → vget t.clock.stretch q = vget s.clock.stretch q)
        ∧ t = { s with clock := { s.clock with stretch := t.clock.stretch } }

/-- ARM (written without CANCEL) takes the request for the stake in CLK_PSTEP_AT where that stake lies 128 or more ahead and no request
is PENDING; too near a stake sets LATE, and with one PENDING nothing is armed. CANCEL (written without ARM) drops the armed request up
to stake n − 9. In stake n − 64 a higher voltage is written to the four VDD_CD rails. The final check, in stake n − 8, drops the request with
ERR_CLK bit 2 where a PLL has not locked, or where the voltage rises and a rail is not within 10 mV of it or AVSBus does not work, and else passes. The switch, at the final check point of stake n − 1 after a
final check that has passed, makes the target the step in force, with the Pod clock that the grade allows, and ends the request; and a
lower voltage is written in stake n + 1. In any other stake these rows change nothing (log 2). -/
def Obligations.PstepsAreRequestedAndChanged : Prop :=
  (∀ (v : Word) (s : State), s.Inv → getB v 30 = false → flag s rPstepReq 29 = false → stakeNo s + 128 ≤ reg64 s rPstepAt →
      ∃ t, exec (.arm v) s = .next t ∧ t.clock = { s.clock with request := some (reg64 s rPstepAt, getF v 0 3), finalPassed := false }
        ∧ flag t rPstepReq 29 = true ∧ t = { s with regs := t.regs, clock := t.clock } ∧ RegsBut [rPstepReq] s t)
    ∧ (∀ (v : Word) (s : State), s.Inv → getB v 30 = false → flag s rPstepReq 29 = false → reg64 s rPstepAt < stakeNo s + 128 →
        ∃ t, exec (.arm v) s = .next t ∧ flag t rPstepReq 28 = true ∧ flag t rPstepReq 29 = false ∧ OnlyRegs [rPstepReq] s t)
    ∧ (∀ (v : Word) (s : State), s.Inv → getB v 30 = false → flag s rPstepReq 29 = true →
        ∃ t, exec (.arm v) s = .next t ∧ flag t rPstepReq 29 = true ∧ OnlyRegs [rPstepReq] s t)
    ∧ (∀ (v : Word) (n t0 : Nat) (s : State), s.Inv → getB v 31 = false → s.clock.request = some (n, t0) → stakeNo s + 9 ≤ n →
        ∃ t, exec (.cancel v) s = .next t ∧ t.clock = { s.clock with request := none, finalPassed := false } ∧ flag t rPstepReq 29 = false
          ∧ t = { s with regs := t.regs, clock := t.clock } ∧ RegsBut [rPstepReq] s t)
    ∧ (∀ (v : Word) (n t0 : Nat) (s : State), s.Inv → getB v 31 = false → s.clock.request = some (n, t0) → n < stakeNo s + 9 →
        ∃ t, exec (.cancel v) s = .next t ∧ flag t rPstepReq 29 = flag s rPstepReq 29 ∧ OnlyRegs [rPstepReq] s t)
    ∧ (∀ (n k : Nat) (s : State), s.clock.request = some (n, k) → stakeNo s + 64 = n → busRuns s 3 = true →
        pstepMv s (pstepNow s) < pstepMv s k →
        exec .pstepVoltageRaise s = .next { s with out := s.out ++ (List.finRange 4).map (fun r => .avs r (pstepMv s k)) })
    ∧ (∀ (n k : Nat) (s : State), s.clock.request = some (n, k) → stakeNo s + 64 ≠ n ∨ pstepMv s k ≤ pstepMv s (pstepNow s) ∨ busRuns s 3 = false →
        exec .pstepVoltageRaise s = .next s)
    ∧ (∀ (n k : Nat) (mv : List Nat) (s : State), s.clock.request = some (n, k) → stakeNo s + 8 = n → pstepMv s k ≤ pstepMv s (pstepNow s) →
        exec (.pstepFinalCheck 0xFFFF mv) s = .next { s with clock := { s.clock with finalPassed := true } })
    ∧ (∀ (n k : Nat) (mv : List Nat) (s : State), s.clock.request = some (n, k) → stakeNo s + 8 = n → busRuns s 3 = true →
        (∀ i, i < 4 → mv.getD i 0 ≤ pstepMv s k + 10 ∧ pstepMv s k ≤ mv.getD i 0 + 10) →
        exec (.pstepFinalCheck 0xFFFF mv) s = .next { s with clock := { s.clock with finalPassed := true } })
    ∧ (∀ (n k : Nat) (l : BitVec 16) (mv : List Nat) (s : State), s.Inv → s.clock.request = some (n, k) → stakeNo s + 8 = n →
        (l ≠ 0xFFFF ∨ (pstepMv s (pstepNow s) < pstepMv s k
          ∧ (busRuns s 3 = false ∨ ∃ i, i < 4 ∧ ¬ (mv.getD i 0 ≤ pstepMv s k + 10 ∧ pstepMv s k ≤ mv.getD i 0 + 10)))) →
        ∃ t, exec (.pstepFinalCheck l mv) s = .next t ∧ t.clock = { s.clock with request := none, finalPassed := false }
          ∧ flag t rPstepReq 29 = false ∧ flag t rErrClk 2 = true ∧ MemSame s t ∧ t.pods = s.pods ∧ field t rPstepReq 8 3 = field s rPstepReq 8 3)
    ∧ (∀ (n k : Nat) (l : BitVec 16) (mv : List Nat) (s : State), s.clock.request = some (n, k) → stakeNo s + 8 ≠ n →
        exec (.pstepFinalCheck l mv) s = .next s)
    ∧ (∀ (n k : Nat) (s : State), s.Inv → s.clock.request = some (n, k) → stakeNo s + 1 = n → atFinalCheck s = true →
        s.clock.finalPassed = true → ∃ t, exec .pstepSwitch s = .next t
        ∧ field t rPstepReq 8 3 = k % 8 ∧ flag t rPstepReq 29 = false ∧ t.clock.request = none
        ∧ t.clock.podMhz = min (pstepMhz s k) (gradeCeiling s)
        ∧ t.clock.lowerAt = (if pstepMv s k < pstepMv s (pstepNow s) then some (n + 1, pstepMv s k) else none)
        ∧ t = { s with regs := t.regs, clock := t.clock } ∧ RegsBut [rPstepReq] s t)
    ∧ (∀ (n k : Nat) (s : State), s.clock.request = some (n, k) → stakeNo s + 1 ≠ n ∨ atFinalCheck s = false ∨ s.clock.finalPassed = false →
        exec .pstepSwitch s = .next s)
    ∧ (∀ (n mv : Nat) (s : State), s.clock.lowerAt = some (n, mv) → stakeNo s = n → exec .pstepVoltageLower s = .next
        { s with clock := { s.clock with lowerAt := none }, out := s.out ++ if busRuns s 3 then (List.finRange 4).map (fun r => .avs r mv) else [] })
    ∧ (∀ (n mv : Nat) (s : State), s.clock.lowerAt = some (n, mv) → stakeNo s ≠ n → exec .pstepVoltageLower s = .next s)
    ∧ ∀ s : State, s.clock.request = none → exec .pstepVoltageRaise s = .next s ∧ exec .pstepSwitch s = .next s

/-- KPLL_LOCK sets KPLL_LOCK in both registers while KPLL is enabled and the reference runs, else changes nothing (log 29, log 2). A write of CLK_KEEPER whose SEL names a clock that does not run is
dropped; any other sets SEL and EN, and hangs the multiplexer, with SWITCHING set, exactly where it moves SEL away from a KPLL that this
write stops or that does not run. A write of CLK_GATE stores its seven bits, and a gated block's registers take their reset values; MGMT is
HELD while its clock is gated. START with a source starts the count and clears DONE; with a reserved source it gives COUNT 0 and DONE. At the
window's end COUNT is the edges seen, of REFOUT none while it is not driven, and DONE is set. A gated counter and an end without a running count change nothing. -/
def Obligations.ClocksAreControlledAndCounted : Prop :=
  (∀ s : State, s.Inv → flag s rClkKeeper 1 = true → refRuns s = true → ∃ t, exec .kpllLock s = .next t ∧ flag t rClkKeeper 29 = true
      ∧ flag t rClkStatus 29 = true ∧ OnlyRegs [rClkStatus, rClkKeeper] s t)
    ∧ (∀ s : State, flag s rClkKeeper 1 = false ∨ refRuns s = false → exec .kpllLock s = .next s)
    ∧ (∀ (v : Word) (s : State), (if getB v 0 then flag s rClkKeeper 30 else flag s rClkKeeper 31) = false →
        exec (.clkKeeperWrite v) s = .next s)
    ∧ (∀ (v : Word) (s : State), s.Inv → (if getB v 0 then flag s rClkKeeper 30 else flag s rClkKeeper 31) = true →
        ∃ t, exec (.clkKeeperWrite v) s = .next t ∧ flag t rClkKeeper 0 = getB v 0 ∧ flag t rClkKeeper 1 = getB v 1
          ∧ flag t rClkKeeper 30 = getB v 1 ∧ (getB v 1 = false → flag t rClkKeeper 29 = false)
          ∧ t.clock.keeperHung = (s.clock.keeperHung || (flag s rClkKeeper 0 && !getB v 0 && !(flag s rClkKeeper 30 && getB v 1)))
          ∧ flag t rClkKeeper 28 = (flag s rClkKeeper 28 || (flag s rClkKeeper 0 && !getB v 0 && !(flag s rClkKeeper 30 && getB v 1)))
          ∧ t = { s with regs := t.regs, clock := t.clock } ∧ RegsBut [rClkStatus, rClkKeeper] s t)
    ∧ (∀ (v : Word) (s : State), s.Inv → ∃ t, exec (.clkGateWrite v) s = .next t ∧ reg t rClkGate = v &&& 0x7F
        ∧ (getB v 6 = false → reg t rFcountCtrl = 0 ∧ reg t rFcount = 0 ∧ t.clock.fcountRunning = false)
        ∧ (getB v 0 = false → reg t rPtpCtrl = 0 ∧ reg t rPtpLat = 0 ∧ func t fMgmt = 4)
        ∧ (getB v 0 = true → func t fMgmt = if func s fMgmt = 4 then (if func s fKeeper = 2 then 1 else 0) else func s fMgmt)
        ∧ RegsBut ([rClkGate, rFcountCtrl, rFcount, rPtpCtrl, rPtpLat, rFunc fMgmt] ++ pbaRegs) s t ∧ MemSame s t ∧ t.pods = s.pods)
    ∧ (∀ (v : Word) (s : State), s.Inv → flag s rClkGate 6 = true → sourceOk (getF v 0 8) = true → ∃ t, exec (.start v) s = .next t
        ∧ t.clock = { s.clock with fcountRunning := true } ∧ flag t rFcountCtrl 30 = false ∧ field t rFcountCtrl 0 8 = getF v 0 8
        ∧ t = { s with regs := t.regs, clock := t.clock } ∧ RegsBut [rFcountCtrl] s t)
    ∧ (∀ (v : Word) (s : State), s.Inv → flag s rClkGate 6 = true → sourceOk (getF v 0 8) = false → ∃ t, exec (.start v) s = .next t
        ∧ reg t rFcount = 0 ∧ flag t rFcountCtrl 30 = true ∧ t.clock.fcountRunning = false ∧ RegsBut [rFcountCtrl, rFcount] s t)
    ∧ (∀ (v : Word) (s : State), flag s rClkGate 6 = false → exec (.start v) s = .next s)
    ∧ (∀ (n : Word) (s : State), s.Inv → s.clock.fcountRunning = true → ∃ t, exec (.fcountWindowEnd n) s = .next t
        ∧ (field s rFcountCtrl 0 8 ≠ 0x1A ∨ refoutDriven s = true → reg t rFcount = n)
        ∧ (field s rFcountCtrl 0 8 = 0x1A → refoutDriven s = false → reg t rFcount = 0) ∧ flag t rFcountCtrl 30 = true ∧ t.clock = { s.clock with fcountRunning := false }
        ∧ t = { s with regs := t.regs, clock := t.clock } ∧ RegsBut [rFcountCtrl, rFcount] s t)
    ∧ ∀ (n : Word) (s : State), s.clock.fcountRunning = false → exec (.fcountWindowEnd n) s = .next s

/-! ## Power and heat -/

/-- The trial rate of class `c` after `n` cuts (R374): the class of the lowest priority goes from 8 to 1 first, then the middle one, then the first. -/
def Sys2Proof.Claims.trialRate (s : State) (n c : Nat) : Nat :=
  if field s rPwrPrio 4 2 = c then 8 - min 7 n else if field s rPwrPrio 2 2 = c then 8 - min 7 (n - 7) else 8 - min 7 (n - 14)

/-- The 1 µs estimate at the trial rates of `n` cuts exceeds the target, CAP_W or nine tenths of it; both sides times the current rates. -/
def Sys2Proof.Claims.OverTarget (s : State) (n : Nat) : Prop :=
  field s rPwrCap 0 11 * 100000 * targetTenths s * (rateOf s 0 * rateOf s 1 * rateOf s 2)
    < scaledModel (estimateParts s) [rateOf s 0, rateOf s 1, rateOf s 2]
        [Sys2Proof.Claims.trialRate s n 0, Sys2Proof.Claims.trialRate s n 1, Sys2Proof.Claims.trialRate s n 2]

/-- The rates that an update sets (R374): the trial has as many cuts as the target asks for, the lowest priority first. A rate falls to its trial
rate at once and rises by at most one eighth; compute keeps under the thermal ceiling; FLOOR says that even the trial exceeds the target. -/
def Sys2Proof.Claims.RatesFollow (s t : State) : Prop :=
  ∃ n, n ≤ 21 ∧ (∀ k, k < n → Sys2Proof.Claims.OverTarget s k) ∧ (n < 21 → ¬ Sys2Proof.Claims.OverTarget s n)
    ∧ (flag t rPwrStatus 29 = true ↔ Sys2Proof.Claims.OverTarget s n)
    ∧ ∀ c, c < 3 →
        let want := Sys2Proof.Claims.trialRate s n c
        let rate := if want < rateOf s c then want else min (rateOf s c + 1) want
        rateOf t c = if c = 2 then min rate s.power.ceiling else rate

/-- THERMTRIP drives its pin low once, unless the pin is under boundary scan, and holds the ceiling at 1/8; from a compute die it sets
ERR_PWR.THERM_LIMIT too. Each 1 µs update records the estimate in PWR_EST and starts its counts afresh; the rates are the trial rates of R374, cut from
the lowest priority up while the estimate exceeds the target, each rising by at most one eighth, and FLOOR says that even 1/8 is not enough; in
MEASURED mode PWR_STATUS does not change. An interval in which every named regulator was read shows M in PWR_MEAS with VALID; one without clears VALID, and
the eighth in a row sets ERR_PWR.PMBUS_LOST and ESTIMATE_ONLY. Clearing ERR_PWR restarts the counts, and the mode follows the bits left.
For what the spec leaves open it follows the model's choices of log 32. -/
def Obligations.PowerIsRatedAndMeasured : Prop :=
  (∀ (d : DieName) (s : State), computeDie d = none → ∃ t, exec (.thermtrip d) s = .next t ∧ t.misc.thermtripLow = true ∧ t.power.ceiling = 1
      ∧ t.out = s.out ++ (if s.misc.thermtripLow || boundaryScan s then [] else [.thermtrip]) ∧ t.regs = s.regs ∧ t.mem = s.mem ∧ t.pods = s.pods)
    ∧ (∀ (d : DieName) (s : State), s.Inv → computeDie d ≠ none → ∃ t, exec (.thermtrip d) s = .next t ∧ t.misc.thermtripLow = true
        ∧ t.power.ceiling = 1 ∧ flag t rErrPwr 2 = true ∧ (s.misc.thermtripLow = false → boundaryScan s = false → Output.thermtrip ∈ t.out)
        ∧ RegsBut (rErrPwr :: capRegs 16 ++ pbaRegs) s t ∧ t.mem = s.mem ∧ t.pods = s.pods)
    ∧ (∀ s : State, s.Inv → 1 ≤ s.power.ceiling → s.power.ceiling ≤ 8 →
        (∀ c, c < 3 → 1 ≤ rateOf s c ∧ rateOf s c ≤ 8) → ∃ t, exec .powerRateUpdate s = .next t
        ∧ (∀ c, c < 3 → 1 ≤ rateOf t c ∧ rateOf t c ≤ 8 ∧ rateOf t c ≤ rateOf s c + 1)
        ∧ (field s rPwrStatus 30 2 ≠ 1 → rateOf t 2 ≤ s.power.ceiling)
        ∧ (field s rPwrStatus 30 2 ≠ 1 → (∀ c, c < 3 → ∃ k, k < 3 ∧ field s rPwrPrio (2 * k) 2 = c) → Sys2Proof.Claims.RatesFollow s t)
        ∧ field t rPwrEst 0 16 = min 65535 ((estimateParts s).sum / 100000)
        ∧ (field s rPwrStatus 30 2 = 1 → reg t rPwrStatus = reg s rPwrStatus)
        ∧ t.power.meCycles = 0 ∧ t.power.teCycles = 0 ∧ t.power.vuOps = 0 ∧ t.power.lines = 0 ∧ t.power.rootUnits = 0 ∧ t.power.flits = 0
        ∧ t = { s with regs := t.regs, power := t.power } ∧ RegsBut [rPwrStatus, rPwrEst] s t)
    ∧ (∀ (r : List (Option (BitVec 16))) (m : Int) (s : State), s.Inv → measured s r = some m → ∃ t, exec (.powerMeasureInterval r) s = .next t
      ∧ flag t rPwrMeas 31 = true ∧ field t rPwrMeas 0 16 = min 65535 (m * 10 / 65536).toNat ∧ t.power.invalids = 0 ∧ MemSame s t ∧ t.pods = s.pods)
    ∧ (∀ (r : List (Option (BitVec 16))) (s : State), s.Inv → measured s r = none → s.power.invalids < 7 →
        ∃ t, exec (.powerMeasureInterval r) s = .next t ∧ flag t rPwrMeas 31 = false ∧ t.power.invalids = s.power.invalids + 1
          ∧ t = { s with regs := t.regs, power := t.power } ∧ RegsBut [rPwrMeas] s t)
    ∧ (∀ (r : List (Option (BitVec 16))) (s : State), s.Inv → measured s r = none → s.power.invalids = 7 →
        ∃ t, exec (.powerMeasureInterval r) s = .next t ∧ flag t rPwrMeas 31 = false ∧ flag t rErrPwr 1 = true
          ∧ field t rPwrStatus 30 2 = 2 ∧ t.power.invalids = 8 ∧ MemSame s t)
    ∧ ∀ (v : Word) (s : State), s.Inv → ∃ t, exec (.errPwrClear v) s = .next t ∧ reg t rErrPwr = reg s rErrPwr &&& ~~~ v
        ∧ field t rPwrStatus 30 2 = (if flag t rErrPwr 1 then 2 else if flag t rErrPwr 0 then 1 else 0)
        ∧ (getB v 0 = true → t.power.mismatches = 0) ∧ (getB v 1 = true → t.power.invalids = 0)
        ∧ t = { s with regs := t.regs, power := t.power } ∧ RegsBut [rErrPwr, rPwrStatus] s t
/-! ## Stakes, check points and frames -/

/-- STAKE_BOUNDARY, at the tick on which the stake has had its 36,864 ticks and 9,216 for each quantum, begins the next stake in its round 0; at any
other tick it changes nothing. It sets the number and first tick, the holds at zero, TICK_EPOCH, the waiting time writes
taken, junction and stack temperatures read with raised refresh above 85 °C and normal again at 82 °C, every warp copy freed; memory
stays. While a weave runs and no notice of failure is held, the next weave stake begins at its table position. -/
def Obligations.StakeBoundaryBeginsAStake : Prop :=
  (∀ (st cd io : List Byte) (s : State), s.Inv → fabricRuns s = true → stakeOffset s = 36864 + 9216 * s.stake.round → s.stake.committed = true →
      ∃ t, exec (.stakeBoundary st cd io) s = .next t ∧ stakeNo t = (stakeNo s + 1) % 2 ^ 64 ∧ reg64 t rStakeStart = tick s ∧ tick t = tick s ∧ reg t rHoldStatus = 0
      ∧ t.stake.round = 0 ∧ t.stake.held = false ∧ t.stake.checked = false ∧ t.stake.committed = false
      ∧ reg64 t rEpochTick = tick s ∧ t.time.incr = reg s rTimIncr ∧ t.time.setPending = false ∧ t.time.offsetPending = false
      ∧ reg t rPwrTemp = BitVec.ofNat 32 (numAt cd 0 4) ∧ reg t rPwrTempIo = BitVec.ofNat 32 (numAt io 0 2)
      ∧ (∀ k : StackId, field t (rStackTemp k.val) 0 8 = (st.getD k.val 0).toNat
          ∧ (85 < (st.getD k.val 0).toNat → flag t rRefresh k.val = true) ∧ ((st.getD k.val 0).toNat ≤ 82 → flag t rRefresh k.val = false))
      ∧ (∀ p : PortId, (port t p).copies = [] ∧ (port t p).lost = []) ∧ t.txItems = [] ∧ MemSame s t)
    ∧ (∀ (st cd io : List Byte) (s : State), fabricRuns s = false ∨ stakeOffset s ≠ 36864 + 9216 * s.stake.round ∨ s.stake.committed = false →
        exec (.stakeBoundary st cd io) s = .next s)
    ∧ ∀ (st cd io : List Byte) (w : Weave) (s : State), s.Inv → boundaryDue s = true → weaveActive s = true → s.active = some w → s.loaded = none → quiet s = false →
        s.misc.faultCleanup = false → (∀ n ∈ s.stake.notices, n.failStake ≠ stakeNo s) → ∃ t, exec (.stakeBoundary st cd io) s = .next t
        ∧ weaveStake t = (weaveStake s + 1) % 2 ^ 64 ∧ position t = (weaveStake s + 1) % w.period % 4096 ∧ weaveActive t = true
        ∧ recovering t = false

/-- A warp packet of the stake awaits retry or re-send on some path (R25, R216, R223), or a notice of this device's own failed port is due
again (R222). -/
def Sys2Proof.Claims.SpareOpen (s : State) : Prop :=
  weaveActive s = true
    ∧ (((noticeHeld s = false ∨ s.stake.round ≤ s.stake.noticeRound)
        ∧ ((∃ f : FsqId, (fsq s f).missing ≠ [] ∨ (fsq s f).halves ≠ [] ∨ (fsq s f).lateReads ≠ [] ∨ (fsq s f).arriving ≠ [])
          ∨ (∃ i ∈ s.txItems, i.pkt.type = 1 ∨ i.pkt.type = 2)
          ∨ ∃ p : PortId, (∃ c ∈ (port s p).copies, c.scheduled = true ∨ (c.naked = true ∧ c.retryPick = none) ∨ (lstate s p = 6 ∧ c.decided = false))
              ∨ (port s p).lost ≠ [] ∨ ∃ k ∈ (port s p).txWarpExtra, k.type = 1 ∨ k.type = 2))
      ∨ ∃ n ∈ s.stake.noticesAgain, n.failStake ≤ stakeNo s)

/-- CHECK_POINT, at tick 33,408 of the stake and 9,216 later for each round, asserts a hold exactly for a cause, with the cause's bit in FSQ_HOLD_CAUSE:
a Pod not ready, a warp packet that the spare picks have not settled, a Root token over its budget, a Pod halted under the debugger, as judged
when the tick began and where one has arisen since the last commit point. Each cause stands exactly where its condition does. Without a cause, or unaligned, it asserts none and no register changes. At any other tick it
changes nothing, nor does COMMIT_POINT at any tick but its own (log 2), and HOLD_QUANTUM_START changes nothing of its own.
For what the spec leaves open it follows the model's choices of log 41. -/
def Obligations.CheckPointAssertsHolds : Prop :=
  (∀ s : State, fabricRuns s = true → stakeOffset s = 33408 + 9216 * s.stake.round → s.stake.checked = false →
      aligned s = false ∨ (checkCauses s).1 = 0 → ∃ t, exec .checkPoint s = .next t ∧ t.stake.checked = true
      ∧ t.stake.held = s.stake.held ∧ t.regs = s.regs ∧ MemSame s t ∧ t.pods = s.pods)
    ∧ (∀ s : State, s.Inv → fabricRuns s = true → stakeOffset s = 33408 + 9216 * s.stake.round → s.stake.checked = false → aligned s = true →
        (checkCauses s).1 ≠ 0 → ∃ t, exec .checkPoint s = .next t ∧ t.stake.checked = true ∧ t.stake.held = true
        ∧ flag t rHoldStatus 30 = true ∧ (∀ i, i < 4 → flag t rHoldCause i = (checkCauses s).1.testBit i)
        ∧ RegsBut [rHoldStatus, rHoldCause] s t ∧ MemSame s t ∧ t.pods = s.pods)
    ∧ (∀ (p : PodId) (s : State), aligned s = true → faulted s = false → s.stake.judged = none →
        (podNotReady s p = true → (checkCauses s).1.testBit 0 = true) ∧ (rootWaits s p = true → (checkCauses s).1.testBit 2 = true)
          ∧ (debugHold s p = true → (checkCauses s).1.testBit 3 = true))
    ∧ (∀ (j : Nat × Nat) (s : State), aligned s = true → faulted s = false → s.stake.judged = some j →
        (checkCauses s).1 = Nat.lor j.1 s.stake.arisen)
    ∧ (∀ s : State, fabricRuns s = false ∨ stakeOffset s ≠ 33408 + 9216 * s.stake.round ∨ s.stake.checked = true → exec .checkPoint s = .next s)
    ∧ (∀ (p : PodId) (s : State), faulted s = false → podNotReady s p = true ∨ rootWaits s p = true ∨ debugHold s p = true → holdCauses s ≠ 0)
    ∧ (∀ s : State, s.stake.judged = none → aligned s = true → (checkCauses s).1 = Nat.lor (holdCauses s) (if faulted s then 0 else s.stake.arisen))
    ∧ (∀ s : State, ((holdCauses s).testBit 0 = true ↔ faulted s = false ∧ ∃ p : PodId, podNotReady s p = true)
        ∧ ((holdCauses s).testBit 1 = true ↔ Sys2Proof.Claims.SpareOpen s)
        ∧ ((holdCauses s).testBit 2 = true ↔ faulted s = false ∧ ∃ p : PodId, rootWaits s p = true)
        ∧ ((holdCauses s).testBit 3 = true ↔ faulted s = false ∧ ∃ p : PodId, debugHold s p = true) ∧ holdCauses s < 16)
    ∧ (∀ s : State, fabricRuns s = false ∨ stakeOffset s ≠ 36288 + 9216 * s.stake.round ∨ s.stake.committed = true → exec .commitPoint s = .next s)
    ∧ ∀ s : State, exec .holdQuantumStart s = .next s

/-- COMMIT_POINT, at tick 36,288 of the stake and 9,216 later for each round, of a round for which an indication was accepted extends the stake by one quantum: HOLDS and HOLD_TOTAL count it and the
next round begins, so that the stake does not end before that round's commit point; at HOLD_LIMIT the machine is faulted instead (R32). Without an
indication the stake ends with its round, at pick 1024 + 256 r (tick 36,864 + 9,216 r). -/
def Obligations.CommitPointExtendsOrEnds : Prop :=
  (∀ s : State, s.Inv → fabricRuns s = true → stakeOffset s = 36288 + 9216 * s.stake.round → s.stake.committed = false → s.stake.held = true →
      field s rHoldStatus 0 24 < field s rHoldCtrl 0 24 → ∃ t, exec .commitPoint s = .next t
      ∧ t.stake.round = s.stake.round + 1 ∧ t.stake.held = false ∧ t.stake.checked = false ∧ t.stake.committed = false
      ∧ field t rHoldStatus 0 24 = field s rHoldStatus 0 24 + 1 ∧ flag t rHoldStatus 31 = true ∧ flag t rHoldStatus 30 = false
      ∧ reg64 t rHoldTotal = (reg64 s rHoldTotal + 1) % 2 ^ 64 ∧ (∀ u : State, u.stake = t.stake → boundaryDue u = false)
      ∧ t = { s with regs := t.regs, stake := t.stake } ∧ RegsBut [rHoldStatus, rHoldTotal, rHoldTotal + 4] s t)
    ∧ (∀ s : State, s.Inv → fabricRuns s = true → stakeOffset s = 36288 + 9216 * s.stake.round → s.stake.committed = false → s.stake.held = false →
        ∃ t, exec .commitPoint s = .next t ∧ t.stake.round = s.stake.round
        ∧ (∀ u : State, u.stake = t.stake → (boundaryDue u = true ↔ fabricRuns u = true ∧ stakeOffset u = 36864 + 9216 * s.stake.round))
        ∧ t.stake.committed = true ∧ t.stake.refusedRound = some (holdTag s) ∧ field t rHoldStatus 0 24 = field s rHoldStatus 0 24
        ∧ t = { s with regs := t.regs, stake := t.stake } ∧ RegsBut [rHoldStatus] s t)
    ∧ ∀ s : State, s.Inv → fabricRuns s = true → stakeOffset s = 36288 + 9216 * s.stake.round → s.stake.committed = false → s.stake.held = true →
        field s rHoldCtrl 0 24 ≤ field s rHoldStatus 0 24 → ∃ t, exec .commitPoint s = .next t
        ∧ flag t rErrStake 0 = true ∧ flag t rFaultState 31 = true ∧ t.stake.committed = true ∧ MemSame s t

/-- POD_FRAME_START, at the stake's final check point and once in a stake, begins the next Pod frame: the frame number advances, W takes the completed loads, and in a running weave every Pod
with code leaves its frame end, and what the network has written for the frame before is in memory; while a NOTICE is held no frame begins. At any other
tick it changes nothing (log 2).
SNAPSHOT at the first tick of the armed stake copies every counter, and sets HELD.
For what the spec leaves open it follows the model's choices of log 3 and 41. -/
def Obligations.FramesBeginAndCountersAreHeld : Prop :=
  (∀ (w : Weave) (s : State), s.Inv → atFinalCheck s = true → s.stake.frameStarted = false → weaveActive s = true → s.active = some w →
      noticeHeld s = false → faulted s = false → flag s rPairStatus 31 = false → weavePending s = false → ∃ t, exec .podFrameStart s = .next t
      ∧ t.stake.frame = s.stake.frame + 1 ∧ t.stake.frames = s.stake.frames + 1 ∧ t.misc.weightNow = s.misc.weightNext
      ∧ t.stake.frameStarted = true ∧ (∀ f : FsqId, (fsq t f).landed = []) ∧ ∀ p : PodId, hasCode s p = true → podAtFend t p = false)
    ∧ (∀ s : State, s.Inv → atFinalCheck s = true → s.stake.frameStarted = false → s.active = none → weaveActive s = false →
        ∃ t, exec .podFrameStart s = .next t ∧ t.stake.frame = s.stake.frame + 1 ∧ t.stake.frames = s.stake.frames + 1
          ∧ ∀ f : FsqId, (fsq t f).landed = [])
    ∧ (∀ (f : FsqId) (p : PodId) (a : Nat) (b : List Byte) (s : State), s.Inv → atFinalCheck s = true → s.stake.frameStarted = false →
        s.active = none → weaveActive s = false → (∀ g, (fsq s g).landed = if g = f then [(p, a, b)] else []) →
        flag s (rPod p 0x500) 0 = false → a + b.length ≤ podSize → ∃ t, exec .podFrameStart s = .next t
          ∧ ∀ x, memByte t x = if podAddr p a ≤ x ∧ x < podAddr p a + b.length then b.getD (x - podAddr p a) 0 else memByte s x)
    ∧ (∀ s : State, s.Inv → atFinalCheck s = true → s.stake.frameStarted = false → weaveActive s = true → noticeHeld s = true →
        ∃ t, exec .podFrameStart s = .next t ∧ t.stake.frame = s.stake.frame ∧ t.stake.frames = s.stake.frames ∧ t.pods = s.pods)
    ∧ (∀ s : State, atFinalCheck s = false ∨ s.stake.frameStarted = true → exec .podFrameStart s = .next s)
    ∧ (∀ s : State, s.Inv → flag s rSnapCtrl 29 = true → stakeNo s = s.misc.snapStake → stakeOffset s = 0 → fabricRuns s = true → ∃ t, exec .snapshot s = .next t
        ∧ (∀ o ∈ counterOffsets, tabGet 0 t.shadow o = liveReg s o) ∧ flag t rSnapCtrl 28 = true ∧ flag t rSnapCtrl 29 = false
        ∧ t = { s with regs := t.regs, shadow := t.shadow } ∧ RegsBut [rSnapCtrl] s t)
    ∧ ∀ s : State, flag s rSnapCtrl 29 = false ∨ stakeNo s ≠ s.misc.snapStake ∨ stakeOffset s ≠ 0 ∨ fabricRuns s = false →
        exec .snapshot s = .next s

/-- From its REFRESH_SLOT, at a slot tick of the table, one pseudo-channel of one stack is unavailable until a REFRESH_END that comes 800 ticks
later or more; the others stay as they are. At any other tick REFRESH_SLOT changes nothing (log 2). -/
def Obligations.RefreshHoldsOneChannel : Prop :=
  (∀ (k : StackId) (c : Fin 32) (s : State), refreshDue s k c = true → ∃ t, exec (.refreshSlot k c) s = .next t
      ∧ (∃ e ∈ t.misc.refreshing, e.1 = k.val * 32 + c.val)
      ∧ (∀ e : Nat × Nat, e.1 ≠ k.val * 32 + c.val → (e ∈ t.misc.refreshing ↔ e ∈ s.misc.refreshing))
      ∧ t = { s with misc := { s.misc with refreshing := t.misc.refreshing } })
    ∧ (∀ (k : StackId) (c : Fin 32) (s : State), refreshDue s k c = false → exec (.refreshSlot k c) s = .next s)
    ∧ ∀ (k : StackId) (c : Fin 32) (s : State), ∃ t, exec (.refreshEnd k c) s = .next t
        ∧ (∀ e : Nat × Nat, e ∈ t.misc.refreshing ↔ e ∈ s.misc.refreshing ∧ ¬ (e.1 = k.val * 32 + c.val ∧ 800 ≤ ticksSince s e.2))
        ∧ t = { s with misc := { s.misc with refreshing := t.misc.refreshing } }

/-! ## The warp plane -/

/-- Exactly the bytes of `b` at address `a` are new in memory. -/
def Sys2Proof.Claims.Stored (s t : State) (a : Nat) (b : List Byte) : Prop :=
  ∀ x, memByte t x = if a ≤ x ∧ x < a + b.length then b.getD (x - a) 0 else memByte s x

/-- What a Pod's store gives the fabric at offset `o`: zero inside the node region while it is enabled (R79, R204). -/
def Sys2Proof.Claims.departedByte (s : State) (p : PodId) (o : Nat) : Byte :=
  if flag s (rPod p 0x500) 0 = true ∧ 0xC00000 ≤ o ∧ o < 0x1000000 then 0 else memByte s (podAddr p o)

/-- The packet of pick `i` of a DP record (R197, R205, R208, R209): its header, and as payload the bytes of the departure half that the weave stake
sends, half (stake + 1) mod 2 of the Pod's window (R21). -/
def Sys2Proof.Claims.Departed (s : State) (r : Record) (i : Nat) (k : Packet) : Prop :=
  k.circuit = BitVec.ofNat 16 (r.circuit + i) ∧ k.stakeTag = BitVec.ofNat 8 (weaveStake s) ∧ k.type = (if r.reduce then 2 else 1)
    ∧ k.lenM1 = BitVec.ofNat 6 r.lenM1 ∧ k.src = BitVec.ofNat 24 (deviceCoord s * 512 + r.pod.val * 8)
    ∧ k.resend = false ∧ k.fence = false ∧ k.payload.length = 64 * (r.lenM1 + 1)
    ∧ ∀ j, j < 64 * (r.lenM1 + 1) → k.payload.getD j 0 = Sys2Proof.Claims.departedByte s r.pod
        ((windowOf s r.pod).depBase + (weaveStake s + 1) % 2 * (windowOf s r.pod).depHalf + (r.offset + i * (r.lenM1 + 1)) * 64 + j)

/-- PICK, while the fabric clock runs, takes what was to arrive by this pick and leaves memory as it is; a lone departure record whose read the banks
have granted sends its packet on its TX port two picks later: outside a recovery stake the bytes that its departure half holds, in one a retained
copy's. DEPARTURE_READ_DONE, while the fabric clock and the network of the Pod's die run, sends the late packet with the bytes that the half holds
then, two picks later at the earliest, and none while a NOTICE is held. With a clock stopped both rows change nothing (log 29, log 2).
LOCAL_WRITE takes the oldest staged data of a die that the banks have granted, which a Pod reads from its next frame on; with none granted it
changes nothing.
For what the spec leaves open it follows the model's choices of log 3 and 57. -/
def Obligations.FabricSequencersMoveWarpData : Prop :=
  (∀ (inc : BitVec 16) (s : State), s.Inv → fabricRuns s = true → ∃ t, exec (.pick inc) s = .next t ∧ MemSame s t ∧ t.pods = s.pods
      ∧ (∀ (f : FsqId) (a : InFlight), a ∈ (fsq t f).arriving → pickNo s < a.atPick)
      ∧ ∀ p : PortId, (port t p).pickGot = false ∧ (port t p).pickIdles = 0)
    ∧ (∀ (inc : BitVec 16) (s : State), fabricRuns s = false → exec (.pick inc) s = .next s)
    ∧ (∀ (inc : BitVec 16) (f : FsqId) (r : Record) (i o : Nat) (s : State), s.Inv → fabricRuns s = true → weaveActive s = true → pickNo s < 896 →
        effective s f = [r] → effective s (fin 2 (by decide) (1 - f.val)) = [] → (∀ g, (fsq s g).arriving = []) → s.txItems = [] →
        s.misc.netLines = [] → (∀ g, ∀ d ∈ (fsq s g).staged, d.pod ≠ r.pod) → 12 ≤ r.input → r.reduce = false → runIndex r (pickNo s) = some i → r.runM1 < 65536 →
        inc.getLsbD (8 * f.val + (r.input - 12)) = false → outputs r.mask = [o] → o < 8 →
        ∃ t k, exec (.pick inc) s = .next t ∧ t.txItems = [⟨physOf s (toPort (8 * f.val + o)), some (pickNo s + 2), pickNo s + 2, k⟩]
          ∧ (flag s rWeaveState 28 = false → Sys2Proof.Claims.Departed s r i k)
          ∧ ∀ c, recoveryCopy s f r i = some c → k.payload = c.pkt.payload)
    ∧ (∀ (f : FsqId) (c : Fin 8) (circuit : BitVec 16) (e : Record × Nat) (o : Nat) (s : State), s.Inv →
        (fsq s f).lateReads.find? (fun e => decide (e.1.input = 12 + c.val) && decide (circuitOf e.1 e.2 = circuit.toNat)) = some e →
        netGranted s e.1.pod (departureOp f (circuitOf e.1 e.2)) = true → fabricRuns s = true → networkRuns s (e.1.pod.val / 16) = true →
        noticeHeld s = false → e.1.reduce = false → outputs e.1.mask = [o] →
        o < 8 → ∃ t k, exec (.departureReadDone f c circuit) s = .next t ∧ (fsq t f).lateReads = (fsq s f).lateReads.erase e
          ∧ t.txItems = s.txItems ++ [⟨physOf s (toPort (8 * f.val + o)), none, pickNo s + 2, k⟩] ∧ MemSame s t
          ∧ (flag s rWeaveState 28 = false → Sys2Proof.Claims.Departed s e.1 e.2 k))
    ∧ (∀ (f : FsqId) (c : Fin 8) (circuit : BitVec 16) (e : Record × Nat) (s : State), s.Inv →
        (fsq s f).lateReads.find? (fun e => decide (e.1.input = 12 + c.val) && decide (circuitOf e.1 e.2 = circuit.toNat)) = some e →
        netGranted s e.1.pod (departureOp f (circuitOf e.1 e.2)) = true → fabricRuns s = true → networkRuns s (e.1.pod.val / 16) = true →
        noticeHeld s = true → ∃ t, exec (.departureReadDone f c circuit) s = .next t ∧ (fsq t f).lateReads = (fsq s f).lateReads.erase e
          ∧ t.txItems = s.txItems ∧ MemSame s t)
    ∧ (∀ (f : FsqId) (c : Fin 8) (circuit : BitVec 16) (e : Record × Nat) (s : State),
        (fsq s f).lateReads.find? (fun e => decide (e.1.input = 12 + c.val) && decide (circuitOf e.1 e.2 = circuit.toNat)) = some e →
        netGranted s e.1.pod (departureOp f (circuitOf e.1 e.2)) = false ∨ fabricRuns s = false ∨ networkRuns s (e.1.pod.val / 16) = false →
        exec (.departureReadDone f c circuit) s = .next s)
    ∧ (∀ (f : FsqId) (c : Fin 8) (circuit : BitVec 16) (s : State),
        (fsq s f).lateReads.find? (fun e => decide (e.1.input = 12 + c.val) && decide (circuitOf e.1 e.2 = circuit.toNat)) = none →
        exec (.departureReadDone f c circuit) s = .next s)
    ∧ (∀ (f : FsqId) (d : Staged) (s : State), s.Inv → (fsq s f).staged.find? (localGranted s) = some d → ∃ t, exec (.localWrite f) s = .next t
        ∧ (fsq t f).staged = (fsq s f).staged.erase d ∧ (fsq t f).landed = (fsq s f).landed ++ [(d.pod, d.addr, d.payload)]
        ∧ reg64 t (rFsq f.val 0x020) = (reg64 s (rFsq f.val 0x020) + 1) % 2 ^ 64
        ∧ t = { s with regs := t.regs, fsqs := t.fsqs } ∧ RegsBut [rFsq f.val 0x020, rFsq f.val 0x024] s t)
    ∧ ∀ (f : FsqId) (s : State), (fsq s f).staged.find? (localGranted s) = none → exec (.localWrite f) s = .next s

/-- A warp packet on a port that is not UP changes nothing; one with the expected number is accepted, and WARP data of a running weave
stands at its input for the end of the pick; a number neither expected, nor lost, nor newer is dropped as a duplicate and counted. -/
def Obligations.WarpPacketsAreTakenInSequence : Prop :=
  (∀ (p : PortId) (k : Packet) (s : State), portUp s p = false → exec (.warpPacketRx p k) s = .next s)
    ∧ (∀ (p : PortId) (k : Packet) (s : State), s.Inv → portUp s p = true → weaveActive s = true → k.type = 1 → k.seq = (port s p).rxWarpSeq →
        ∃ t, exec (.warpPacketRx p k) s = .next t ∧ (port t p).rxWarpSeq = k.seq + 1 ∧ (port t p).pickGot = true ∧ (port t p).uncertain = []
          ∧ (fsq t (dieOf s p)).arriving = (fsq s (dieOf s p)).arriving ++ [⟨pickNo s, inputOf s p, k⟩]
          ∧ t = { s with ports := t.ports, fsqs := t.fsqs } ∧ ∀ q, q ≠ p → port t q = port s q)
    ∧ ∀ (p : PortId) (k : Packet) (s : State), s.Inv → portUp s p = true → k.seq ≠ (port s p).rxWarpSeq →
        (port s p).lost.any (fun l => l.seq = k.seq) = false → newer k.seq (port s p).rxWarpSeq = false →
        ∃ t, exec (.warpPacketRx p k) s = .next t ∧ reg64 t (rPort p.val 0x88) = (reg64 s (rPort p.val 0x88) + 1) % 2 ^ 64
          ∧ (port t p).rxWarpSeq = (port s p).rxWarpSeq ∧ RegsBut [rPort p.val 0x88, rPort p.val 0x8C] s t
          ∧ t = { s with regs := t.regs, ports := t.ports }

/-- Every NOTICE accepted is counted. A new one for this stake or a later is held, shown by NOTICE_HELD; one seen before changes nothing else, and a
new one of an earlier stake is not held. A new fault notice enters FAULTED with what it names, as not local; a FAULTED device counts it in
ERR_FAULT_MORE. An RSQ for this device is answered from the retained copy with RESEND, or is unexpected; another device's that came on a rack port
is passed on to a reach port, and any other is not forwarded.
For what the spec leaves open it follows the model's choices of log 49. -/
def Obligations.NoticesAndRequestsForResend : Prop :=
  (∀ (p : PortId) (k : Packet) (s : State), s.Inv → numAt k.payload 0x0C 2 ≠ 0xFFFE →
      s.stake.seen.contains (noticeOf k.payload) = true → ∃ t, exec (.notice p k) s = .next t
      ∧ reg64 t (rFsq (dieOf s p).val 0x068) = (reg64 s (rFsq (dieOf s p).val 0x068) + 1) % 2 ^ 64
      ∧ OnlyRegs [rFsq (dieOf s p).val 0x068, rFsq (dieOf s p).val 0x06C] s t)
    ∧ (∀ (p : PortId) (k : Packet) (s : State), s.Inv → numAt k.payload 0x0C 2 ≠ 0xFFFE →
        s.stake.seen.contains (noticeOf k.payload) = false → ∃ t, exec (.notice p k) s = .next t
        ∧ reg64 t (rFsq (dieOf s p).val 0x068) = (reg64 s (rFsq (dieOf s p).val 0x068) + 1) % 2 ^ 64
        ∧ t.stake.seen = s.stake.seen ++ [noticeOf k.payload]
        ∧ t.stake.notices = (if stakeNo s ≤ (noticeOf k.payload).failStake then s.stake.notices ++ [noticeOf k.payload] else s.stake.notices)
        ∧ ((noticeOf k.payload).failStake = stakeNo s → flag t rWeaveState 25 = true)
        ∧ (numAt k.payload 0x0C 2 = 0xFFFF → flag t rErrFsq 2 = true ∧ flag t rFaultState 31 = true) ∧ MemSame s t)
    ∧ (∀ (p : PortId) (k : Packet) (s : State), s.Inv → acceptedStake s ≤ numAt k.payload 0 8 →
        s.misc.seenFaults.contains (faultKey k.payload) = false → flag s rFaultState 31 = false → ∃ t, exec (.faultNotice p k) s = .next t
        ∧ flag t rFaultState 31 = true ∧ flag t rFaultState 30 = false ∧ field t rFaultState 0 16 = numAt k.payload 0x0E 4 % 0x10000
        ∧ reg64 t rFaultStake = numAt k.payload 0 8 ∧ faultKey k.payload ∈ t.misc.seenFaults
        ∧ reg64 t (rFsq (dieOf s p).val 0x068) = (reg64 s (rFsq (dieOf s p).val 0x068) + 1) % 2 ^ 64
        ∧ (flag s rClkGate 5 = true → t.misc.alertLow = true) ∧ MemSame s t)
    ∧ (∀ (p : PortId) (k : Packet) (s : State), s.Inv → acceptedStake s ≤ numAt k.payload 0 8 →
        s.misc.seenFaults.contains (faultKey k.payload) = false → flag s rFaultState 31 = true → ∃ t, exec (.faultNotice p k) s = .next t
        ∧ reg t rFaultMore = BitVec.ofNat 32 (min 0xFFFFFFFF ((reg s rFaultMore).toNat + 1)) ∧ faultKey k.payload ∈ t.misc.seenFaults
        ∧ reg64 t (rFsq (dieOf s p).val 0x068) = (reg64 s (rFsq (dieOf s p).val 0x068) + 1) % 2 ^ 64
        ∧ t = { s with regs := t.regs, misc := t.misc, ports := t.ports }
        ∧ RegsBut [rFsq (dieOf s p).val 0x068, rFsq (dieOf s p).val 0x06C, rFaultMore] s t)
    ∧ (∀ (p : PortId) (k : Packet) (s : State), s.Inv → numAt k.payload 0 8 < acceptedStake s ∨ s.misc.seenFaults.contains (faultKey k.payload) = true →
        ∃ t, exec (.faultNotice p k) s = .next t
          ∧ reg64 t (rFsq (dieOf s p).val 0x068) = (reg64 s (rFsq (dieOf s p).val 0x068) + 1) % 2 ^ 64
          ∧ OnlyRegs [rFsq (dieOf s p).val 0x068, rFsq (dieOf s p).val 0x06C] s t)
    ∧ (∀ (p : PortId) (k : Packet) (f : FsqId) (c : Retained) (q : PortId) (s : State), s.Inv → weaveActive s = true → noticeHeld s = false →
        devOf k.dst = deviceCoord s →
        allFsqs.findSome? (fun f => (retainedCopy s f k.circuit.toNat k.stakeTag.toNat).map (fun c => (f, c))) = some (f, c) →
        routeTo s 0 (devOf (BitVec.ofNat 24 (devOf k.src * 512))) = .out q → ∃ t, exec (.rsqRx p k) s = .next t
        ∧ t.txItems = s.txItems ++ [⟨q, none, pickNo s + 2, { c.pkt with resend := true, fence := false, dst := BitVec.ofNat 24 (devOf k.src * 512) }⟩]
        ∧ t = { s with regs := t.regs, txItems := t.txItems } ∧ RegsBut [rFsq f.val 0x040, rFsq f.val 0x044] s t)
    ∧ (∀ (p : PortId) (k : Packet) (q : PortId) (s : State), weaveActive s = true → devOf k.dst ≠ deviceCoord s → noticeHeld s = false → p.val < 12 →
        routeTo s 0 (devOf k.dst) = .out q → 12 ≤ q.val →
        exec (.rsqRx p k) s = .next { s with txItems := s.txItems ++ [⟨q, none, pickNo s + 2, k⟩] })
    ∧ (∀ (p : PortId) (k : Packet) (s : State), weaveActive s = true → devOf k.dst ≠ deviceCoord s →
        noticeHeld s = true ∨ 12 ≤ p.val ∨ (∀ q, routeTo s 0 (devOf k.dst) = .out q → q.val < 12) → exec (.rsqRx p k) s = .next s)
    ∧ ∀ (p : PortId) (k : Packet) (s : State), s.Inv →
        weaveActive s = false ∨ (devOf k.dst = deviceCoord s ∧ ∀ f, retainedCopy s f k.circuit.toNat k.stakeTag.toNat = none) →
        ∃ t, exec (.rsqRx p k) s = .next t ∧ flag t rErrFsq 1 = true ∧ MemSame s t ∧ t.pods = s.pods ∧ t.txItems = s.txItems

/-- The device once it holds the digests of packet `b`. -/
def Sys2Proof.Claims.withPeer (s : State) (b : List Byte) : State :=
  let k := numAt b 8 8
  let g := numAt b 1 1
  let rest := s.misc.pairPeer.filter (fun e => !(decide (e.1 = k) && decide (e.2.1 = g)))
  { s with misc := { s.misc with pairPeer := rest ++ [(k, g, digestsOf b)] } }

/-- Pair digests while digests are compared: the first frame that differs is recorded with its Pod in CFG_PAIR_STATUS and ERR_PAIR; equal
digests only count. A frame whose digests have not all come in time stops the comparison with ERR_PAIR bit 1. While nothing is compared,
both rows change nothing.
For what the spec leaves open it follows the model's choices of log 30. -/
def Obligations.PairDigestsAreCompared : Prop :=
  (∀ (b : List Byte) (s : State), flag s rPairStatus 31 = false ∨ 3 < numAt b 1 1 → exec (.pairDigestRx b) s = .next s)
    ∧ (∀ (b : List Byte) (own : Nat × List Word64) (peer : List Word64) (i : Nat) (s : State), s.Inv → flag s rPairStatus 31 = true →
        numAt b 1 1 ≤ 3 → flag s rPairStatus 30 = false → flag s rPair 30 = false →
        s.misc.pairOwn.find? (fun e => e.1 = numAt b 8 8) = some own → peerDigests (Sys2Proof.Claims.withPeer s b) (numAt b 8 8) = some peer →
        (upTo 64).find? (fun j => own.2.getD j 0 ≠ peer.getD j 0) = some i → ∃ t, exec (.pairDigestRx b) s = .next t
        ∧ flag t rPairStatus 30 = true ∧ reg64 t rPairLocStake = numAt b 8 8 ∧ field t rPairLoc 16 6 = i ∧ flag t rErrPair 0 = true
        ∧ flag t rFaultState 31 = flag s rFaultState 31 ∧ MemSame s t ∧ t.pods = s.pods)
    ∧ (∀ (b : List Byte) (own : Nat × List Word64) (peer : List Word64) (s : State), s.Inv → flag s rPairStatus 31 = true →
        numAt b 1 1 ≤ 3 → flag s rPair 29 = false →
        s.misc.pairOwn.find? (fun e => e.1 = numAt b 8 8) = some own → peerDigests (Sys2Proof.Claims.withPeer s b) (numAt b 8 8) = some peer →
        (∀ j, j < 64 → own.2.getD j 0 = peer.getD j 0) → ∃ t, exec (.pairDigestRx b) s = .next t
        ∧ field t rPairStatus 0 28 = min 0xFFFFFFF (field s rPairStatus 0 28 + 1) ∧ flag t rPairStatus 30 = flag s rPairStatus 30
        ∧ RegsBut [rPairStatus] s t ∧ t = { s with regs := t.regs, misc := t.misc })
    ∧ (∀ (e : Nat × List Word64) (s : State), s.Inv → flag s rPairStatus 31 = true →
        s.misc.pairOwn.find? (fun e => decide (e.1 + 3 ≤ (s.misc.pairOwn.map (·.1)).foldl max 0)) = some e →
        ∃ t, exec .pairDigestTimeout s = .next t ∧ flag t rPairStatus 31 = false ∧ flag t rErrPair 1 = true
          ∧ Notified ([rPairStatus, rErrPair] ++ capRegs 13) s t)
    ∧ ∀ s : State, flag s rPairStatus 31 = false → exec .pairDigestTimeout s = .next s

/-! ## The links -/

/-- Bits [lo + len - 1 : lo] of a flit's control field (R236). -/
def Sys2Proof.Claims.ctl (b : List Byte) (lo len : Nat) : Nat := numAt b 256 8 / 2 ^ lo % 2 ^ len

/-- A flit of packet mode (R234, R235, R236): its payload of 256 bytes, MODE 0, FLIT_TYPE, PLANE and the parity of the rest; the acknowledgements of
the port, the hold that the device sends, and a credit. Where no lost or retried number is to be reported, ACK_W is cumulative. -/
def Sys2Proof.Claims.PacketFlit (s : State) (p : PortId) (b payload : List Byte) (type plane : Nat) : Prop :=
  b.length = 288 ∧ b.take 256 = sliceB payload 0 256 ∧ b.drop 264 = flitParity (b.take 264)
    ∧ Sys2Proof.Claims.ctl b 54 1 = 0 ∧ Sys2Proof.Claims.ctl b 5 3 = type ∧ Sys2Proof.Claims.ctl b 8 1 = plane ∧ Sys2Proof.Claims.ctl b 0 5 = 0
    ∧ (if holdsNow s then Sys2Proof.Claims.ctl b 55 1 = 1 ∧ Sys2Proof.Claims.ctl b 56 8 = holdTag s else Sys2Proof.Claims.ctl b 55 9 = 0)
    ∧ (if (port s p).sendNakT then Sys2Proof.Claims.ctl b 53 1 = 1 ∧ Sys2Proof.Claims.ctl b 41 12 = (port s p).rxTwineSeq.toNat
        else Sys2Proof.Claims.ctl b 53 1 = 0 ∧ Sys2Proof.Claims.ctl b 41 12 = ((port s p).rxTwineSeq - 1).toNat)
    ∧ ((port s p).lost = [] → (port s p).racks = [] →
        Sys2Proof.Claims.ctl b 39 2 = 0 ∧ Sys2Proof.Claims.ctl b 27 12 = ((port s p).rxWarpSeq - 1).toNat)
    ∧ Sys2Proof.Claims.ctl b 9 2 = (port s p).creditVc % 3
    ∧ Sys2Proof.Claims.ctl b 11 16 = (vget (port s p).limits (fin 3 (by decide) ((port s p).creditVc % 3))).toNat

/-- The port is in PACKET with no packet in progress, and no warp packet of a warp pick occupies the slot (R260). -/
def Sys2Proof.Claims.OpenSlot (s : State) (p : PortId) : Prop :=
  lstate s p = 5 ∧ (port s p).txFlits = [] ∧ s.txItems.find? (fun i => i.port = p && i.atPick = some (pickNo s)) = none
    ∧ (weaveActive s && txScheduled s p (position s) (pickNo s)) = false

/-- FLIT_SLOT sends one flit, `b`, and nothing else; the port's later flits of the packet are `rest`. -/
def Sys2Proof.Claims.SendsFlit (s t : State) (p : PortId) (b : List Byte) (rest : Nat) : Prop :=
  exec (.flitSlot p) s = .next t ∧ t.out = s.out ++ [.flit p b] ∧ (port t p).txFlits.length = rest

/-- Every FLIT_SLOT of a port in PACKET or in flit mode sends one flit of 288 bytes; any other port sends none. In flit mode memory keeps
its bytes, and only an interrupt may follow the flit; in PACKET nothing follows it, and where no packet that the port forwards is ready to
leave, the flit is all the device sends and memory keeps its bytes. In PACKET a packet in progress goes on, a warp packet of the pick begins with
it, and any other slot sends the first that is ready of a NOTICE, in the spare picks and re-send spans a retry and then late traffic, a twine replay, a
new twine packet (BYP, then RSP, then REQ) within the link rate, and an IDLE that shows the next numbers. UNALIGNED_ALIGN_SEND makes every UP port of an unaligned device send its
ALIGN again, and does nothing on an aligned one.
For what the spec leaves open it follows the model's choices of log 13, 28 and 62. -/
def Obligations.PortsSendOneFlitASlot : Prop :=
  (∀ (p : PortId) (s : State), lstate s p = 5 → ∃ (t : State) (b : List Byte) (pre : List Output), exec (.flitSlot p) s = .next t
      ∧ b.length = 288 ∧ t.out = s.out ++ pre ++ [.flit p b]
      ∧ ((∀ e ∈ (port s p).txByp ++ (port s p).txRsp ++ (port s p).txReq, e.1 = none) → pre = [] ∧ MemSame s t))
    ∧ (∀ (p : PortId) (s : State), inFlitMode s p = true → ∃ (t : State) (b : List Byte) (post : List Output), exec (.flitSlot p) s = .next t ∧ b.length = 288
        ∧ t.out = s.out ++ [.flit p b] ++ post ∧ (∀ x ∈ post, ∃ v, x = .msix v) ∧ MemSame s t)
    ∧ (∀ (p : PortId) (s : State), lstate s p ≠ 5 → inFlitMode s p = false → exec (.flitSlot p) s = .next s)
    ∧ (∀ (p : PortId) (f : List Byte) (c : BitVec 64) (l : List (List Byte × BitVec 64)) (s : State), lstate s p = 5 →
        (port s p).txFlits = (f, c) :: l → readyNotice s p = none → ∃ t b, Sys2Proof.Claims.SendsFlit s t p b l.length ∧ (port t p).txFlits = l
          ∧ Sys2Proof.Claims.PacketFlit s p b f (getF c 5 3) (if getB c 8 then 1 else 0))
    ∧ (∀ (p : PortId) (i : TxItem) (s : State), lstate s p = 5 → (port s p).txFlits = [] →
        s.txItems.find? (fun i => i.port = p && i.atPick = some (pickNo s)) = some i → i.pkt.type = 1 ∨ i.pkt.type = 2 →
        ∃ t b, Sys2Proof.Claims.SendsFlit s t p b 6 ∧ t.txItems = s.txItems.erase i ∧ (port t p).txWarpSeq = (port s p).txWarpSeq + 1
          ∧ Sys2Proof.Claims.PacketFlit s p b (packetBytes { i.pkt with seq := (port s p).txWarpSeq } 7) 1 0)
    ∧ (∀ (p : PortId) (k : Packet) (s : State), Sys2Proof.Claims.OpenSlot s p → readyNotice s p = some k → idleDue s p 1 = false →
        ∃ t b, Sys2Proof.Claims.SendsFlit s t p b 0 ∧ (port t p).txNotices = (port s p).txNotices.tail ∧ (port t p).txWarpSeq = (port s p).txWarpSeq + 1
          ∧ Sys2Proof.Claims.PacketFlit s p b (packetBytes { k with seq := (port s p).txWarpSeq } 1) 4 0)
    ∧ (∀ (p : PortId) (c : WarpCopy) (s : State), Sys2Proof.Claims.OpenSlot s p → readyNotice s p = none → resendPick (pickNo s) = true →
        readyRetry s p = some c → idleDue s p (warpFlits c.pkt) = false → ∃ t b, Sys2Proof.Claims.SendsFlit s t p b (warpFlits c.pkt - 1)
          ∧ reg64 t (rPort p.val 0x78) = (reg64 s (rPort p.val 0x78) + 1) % 2 ^ 64
          ∧ Sys2Proof.Claims.PacketFlit s p b (packetBytes c.pkt (warpFlits c.pkt)) (if warpFlits c.pkt = 1 then 4 else 1) 0)
    ∧ (∀ (p : PortId) (i : TxItem) (s : State), Sys2Proof.Claims.OpenSlot s p → (port s p).txNotices = [] → resendPick (pickNo s) = true →
        readyRetry s p = none → headLate s p = some i → roomForWarp s p i.pkt = true → warpFlits i.pkt = 1 ∨ flitSlotNo s = 0 →
        idleDue s p (warpFlits i.pkt) = false → ∃ t b, Sys2Proof.Claims.SendsFlit s t p b (warpFlits i.pkt - 1) ∧ t.txItems = s.txItems.erase i
          ∧ Sys2Proof.Claims.PacketFlit s p b (packetBytes { i.pkt with seq := (port s p).txWarpSeq } (warpFlits i.pkt))
            (if warpFlits i.pkt = 1 then 4 else 1) 0)
    ∧ (∀ (p : PortId) (k : Packet) (s : State), Sys2Proof.Claims.OpenSlot s p → readyNotice s p = none →
        resendPick (pickNo s) = false ∨ (readyRetry s p = none ∧ headLate s p = none) → nextReplay s p = some k → 1 ≤ unitsOf k →
        twineFits s p (unitsOf k) = true → idleDue s p (unitsOf k) = false → ∃ t b, Sys2Proof.Claims.SendsFlit s t p b (unitsOf k - 1)
          ∧ (port t p).replayLeft = (port s p).replayLeft - 1
          ∧ Sys2Proof.Claims.PacketFlit s p b (packetBytes k (unitsOf k)) (if unitsOf k = 1 then 4 else 1) 1)
    ∧ (∀ (p : PortId) (k : Packet) (s : State), Sys2Proof.Claims.OpenSlot s p → readyNotice s p = none →
        resendPick (pickNo s) = false ∨ (readyRetry s p = none ∧ headLate s p = none) → nextReplay s p = none → dueAlign s p = none →
        ((port s p).txByp ++ (port s p).txRsp ++ (port s p).txReq).head? = some (none, k) → unitsOf k ≤ creditLeft s p (channelOf k) →
        (channelOf k = if (port s p).txByp ≠ [] then 2 else if (port s p).txRsp ≠ [] then 1 else 0) →
        roomForTwine s p k = true → 1 ≤ unitsOf k → twineFits s p (unitsOf k) = true → idleDue s p (unitsOf k) = false →
        (port s p).twinePhase * field s rPwrStatus 8 4 / 8 < ((port s p).twinePhase + 1) * field s rPwrStatus 8 4 / 8 →
        ∃ t b, Sys2Proof.Claims.SendsFlit s t p b (unitsOf k - 1) ∧ (port t p).txTwineSeq = (port s p).txTwineSeq + 1
          ∧ (port t p).replay = (port s p).replay ++ [{ k with seq := (port s p).txTwineSeq }]
          ∧ (port t p).txByp ++ (port t p).txRsp ++ (port t p).txReq = ((port s p).txByp ++ (port s p).txRsp ++ (port s p).txReq).tail
          ∧ Sys2Proof.Claims.PacketFlit s p b (packetBytes { k with seq := (port s p).txTwineSeq } (unitsOf k)) (if unitsOf k = 1 then 4 else 1) 1)
    ∧ (∀ (p : PortId) (s : State), Sys2Proof.Claims.OpenSlot s p → readyNotice s p = none →
        resendPick (pickNo s) = false ∨ (readyRetry s p = none ∧ headLate s p = none) → nextReplay s p = none → dueAlign s p = none →
        (port s p).txByp ++ (port s p).txRsp ++ (port s p).txReq = [] → ∃ t b, Sys2Proof.Claims.SendsFlit s t p b 0
          ∧ Sys2Proof.Claims.PacketFlit s p b (leBytes 2 (port s p).txWarpSeq.toNat ++ leBytes 2 (port s p).txTwineSeq.toNat) 0 0)
    ∧ (∀ s : State, aligned s = false → ∃ t, exec .unalignedAlignSend s = .next t ∧ (∀ p : PortId, portUp s p = true → (port t p).alignSent = false)
        ∧ (∀ p : PortId, portUp s p = false → port t p = port s p) ∧ t = { s with ports := t.ports })
    ∧ ∀ s : State, aligned s = true → exec .unalignedAlignSend s = .next s

/-- The port as an intact flit of packet mode has reached it, `n` symbols corrected. -/
def Sys2Proof.Claims.flitIn (s : State) (p : PortId) (n : Nat) : State :=
  modPort (add64 s (rPort p.val 0x58) n) p (fun x => { x with rxHistory := lastN 64 (x.rxHistory ++ [false]) })

/-- An intact packet-mode flit arrives on a port in PACKET: corrected to `b` with `n` symbols wrong, MODE 0 and its type. -/
def Sys2Proof.Claims.Arrives (s : State) (p : PortId) (raw b : List Byte) (n type : Nat) : Prop :=
  lstate s p = 5 ∧ flitCorrect raw = some (b, n) ∧ Sys2Proof.Claims.ctl b 54 1 = 0 ∧ Sys2Proof.Claims.ctl b 5 3 = type

/-- The control field indicates no hold, reports no number and grants no credit. -/
def Sys2Proof.Claims.NoReport (b : List Byte) : Prop :=
  Sys2Proof.Claims.ctl b 55 1 = 0 ∧ Sys2Proof.Claims.ctl b 53 1 = 0 ∧ Sys2Proof.Claims.ctl b 39 2 = 0 ∧ Sys2Proof.Claims.ctl b 9 2 = 3

/-- ACK_T less `m` and ACK_W acknowledge nothing that the port keeps. -/
def Sys2Proof.Claims.NoAck (s : State) (p : PortId) (b : List Byte) (m : BitVec 12) : Prop :=
  (∀ k ∈ (port s p).replay, 2048 ≤ (BitVec.ofNat 12 (Sys2Proof.Claims.ctl b 41 12) - m - k.seq).toNat)
    ∧ ∀ c ∈ (port s p).copies, 2048 ≤ (BitVec.ofNat 12 (Sys2Proof.Claims.ctl b 27 12) - c.seq).toNat

/-- An IDLE whose next numbers are those that the port expects. -/
def Sys2Proof.Claims.IdleNext (s : State) (p : PortId) (b : List Byte) : Prop :=
  BitVec.ofNat 12 (numAt b 0 2) = (port s p).rxWarpSeq ∧ BitVec.ofNat 12 (numAt b 2 2) = (port s p).rxTwineSeq

/-- An intact flit of flit mode with its CRC-16 arrives: its control field asks for nothing, acknowledges nothing and grants no credit. -/
def Sys2Proof.Claims.ArrivesF (s : State) (p : PortId) (raw b : List Byte) (n type : Nat) : Prop :=
  inFlitMode s p = true ∧ flitCorrect raw = some (b, n) ∧ Sys2Proof.Claims.ctl b 54 1 = 1 ∧ Sys2Proof.Claims.ctl b 5 3 = type
    ∧ numAt b 254 2 = flitCrc16 (b.take 254 ++ sliceB b 256 8) ∧ Sys2Proof.Claims.ctl b 9 2 = 3
    ∧ (port s p).flitReplay = [] ∧ (port s p).train.step < 5

/-- FLIT_RX. A port that receives nothing ignores its lanes. A flit that cannot be corrected is counted: in flit mode its port asks for
the counted flits again; in PACKET it spoils the packet in progress, and the eighth among 64 flits starts a recovery. A corrected flit
of flit mode with a wrong CRC adds the symbols corrected, is counted, and is asked for again. An intact flit of packet mode adds its symbols
corrected. Its control field acts: ACK_T and ACK_W free what they acknowledge, NAK_T starts a replay, NAK_W puts a copy on the retry list or, where
the copy is gone, takes the port down, RACK frees a retried copy, a hold for the present round is accepted, and one for a round refused faults the
machine, and a newer LIMIT is credit. A SINGLE acts as the packet it carries does by WARP_PACKET_RX or TWINE_PACKET_RX, and so do START, BODY and END
together; a wrong CRC-32 is counted; an IDLE decides what is uncertain. In flit mode an IDLE with the count expected ends a hunt and another starts
one, ACK_T frees flits, a NAK has them sent again, a TRAIN flit acts by its KIND's row, and its arrival in PACKET starts a recovery. -/
def Obligations.ReceivedFlitsAreChecked : Prop :=
  (∀ (p : PortId) (raw : List Byte) (s : State), receives s p = false → exec (.flitRx p raw) s = .next s)
    ∧ (∀ (p : PortId) (raw : List Byte) (s : State), s.Inv → receives s p = true → lstate s p ≠ 5 → flitCorrect raw = none →
        ∃ t, exec (.flitRx p raw) s = .next t ∧ reg64 t (rPort p.val 0x60) = (reg64 s (rPort p.val 0x60) + 1) % 2 ^ 64
          ∧ (port t p).nakF = true ∧ (port t p).hunt = true ∧ t = { s with regs := t.regs, ports := t.ports }
          ∧ RegsBut [rPort p.val 0x60, rPort p.val 0x64] s t)
    ∧ (∀ (p : PortId) (raw : List Byte) (s : State), s.Inv → lstate s p = 5 → flitCorrect raw = none →
        ((lastN 64 ((port s p).rxHistory ++ [true])).filter (fun b => b)).length < 8 →
        ∃ t, exec (.flitRx p raw) s = .next t ∧ reg64 t (rPort p.val 0x60) = (reg64 s (rPort p.val 0x60) + 1) % 2 ^ 64
          ∧ (port t p).rxHistory = lastN 64 ((port s p).rxHistory ++ [true]) ∧ lstate t p = 5
          ∧ (∀ x, (port t p).rxPartial = some x → x.spoiled = true) ∧ RegsBut [rPort p.val 0x60, rPort p.val 0x64] s t)
    ∧ (∀ (p : PortId) (raw : List Byte) (s : State), s.Inv → lstate s p = 5 → flitCorrect raw = none →
        8 ≤ ((lastN 64 ((port s p).rxHistory ++ [true])).filter (fun b => b)).length →
        ∃ t, exec (.flitRx p raw) s = .next t ∧ (lstate t p = 6 ∨ lstate t p = 7))
    ∧ (∀ (p : PortId) (raw b : List Byte) (n : Nat) (s : State), s.Inv → receives s p = true → lstate s p ≠ 5 → flitCorrect raw = some (b, n) →
        numAt b 256 8 / 2 ^ 54 % 2 = 1 → numAt b 254 2 ≠ flitCrc16 (b.take 254 ++ sliceB b 256 8) →
        ∃ t, exec (.flitRx p raw) s = .next t ∧ reg64 t (rPort p.val 0x58) = (reg64 s (rPort p.val 0x58) + n) % 2 ^ 64
          ∧ reg64 t (rPort p.val 0x68) = (reg64 s (rPort p.val 0x68) + 1) % 2 ^ 64 ∧ (port t p).nakF = true ∧ (port t p).hunt = true
          ∧ t = { s with regs := t.regs, ports := t.ports })
    ∧ (∀ (p : PortId) (raw b : List Byte) (n : Nat) (s : State), s.Inv → Sys2Proof.Claims.Arrives s p raw b n 0 → Sys2Proof.Claims.NoReport b →
        Sys2Proof.Claims.IdleNext s p b → ∃ t, exec (.flitRx p raw) s = .next t ∧ lstate t p = 5
          ∧ reg64 t (rPort p.val 0x58) = (reg64 s (rPort p.val 0x58) + n) % 2 ^ 64
          ∧ (port t p).rxHistory = lastN 64 ((port s p).rxHistory ++ [false]) ∧ (port t p).uncertain = [] ∧ (port t p).rxPartial = none
          ∧ (port t p).pickIdles = (port s p).pickIdles + 1
          ∧ (port t p).replay = (port s p).replay.filter (fun k => decide (2048 ≤ (BitVec.ofNat 12 (Sys2Proof.Claims.ctl b 41 12) - k.seq).toNat))
          ∧ (port t p).copies = ((port s p).copies.filter (fun c =>
              c.naked || decide (2048 ≤ (BitVec.ofNat 12 (Sys2Proof.Claims.ctl b 27 12) - c.seq).toNat))).map (fun c =>
              if (BitVec.ofNat 12 (Sys2Proof.Claims.ctl b 27 12) - c.seq).toNat < 2048 then { c with decided := true } else c))
    ∧ (∀ (p : PortId) (raw b : List Byte) (n : Nat) (k : Packet) (s : State), s.Inv → Sys2Proof.Claims.Arrives s p raw b n 4 →
        Sys2Proof.Claims.NoReport b → Sys2Proof.Claims.NoAck s p b 0 → (port s p).rxPartial = none → packetOfFlits (b.take 256) = some k →
        ∃ t, exec (.flitRx p raw) s = .next t
          ∧ exec (if Sys2Proof.Claims.ctl b 8 1 = 1 then .twinePacketRx p k else .warpPacketRx p k) (Sys2Proof.Claims.flitIn s p n) = .next t)
    ∧ (∀ (p : PortId) (raw b : List Byte) (n : Nat) (s : State), s.Inv → Sys2Proof.Claims.Arrives s p raw b n 4 →
        Sys2Proof.Claims.NoReport b → Sys2Proof.Claims.NoAck s p b 0 → (port s p).rxPartial = none → packetOfFlits (b.take 256) = none →
        ∃ t, exec (.flitRx p raw) s = .next t ∧ reg64 t (rPort p.val 0x68) = (reg64 s (rPort p.val 0x68) + 1) % 2 ^ 64
          ∧ t.ports = (Sys2Proof.Claims.flitIn s p n).ports ∧ t = { s with regs := t.regs, ports := t.ports })
    ∧ (∀ (p : PortId) (raw b : List Byte) (n : Nat) (s : State), s.Inv → Sys2Proof.Claims.Arrives s p raw b n 1 →
        Sys2Proof.Claims.NoReport b → Sys2Proof.Claims.NoAck s p b 0 → ∃ t, exec (.flitRx p raw) s = .next t
          ∧ (port t p).rxPartial = some ⟨decide (Sys2Proof.Claims.ctl b 8 1 = 1), [b.take 256], false⟩ ∧ t = { s with regs := t.regs, ports := t.ports })
    ∧ (∀ (p : PortId) (raw b : List Byte) (n : Nat) (l : List (List Byte)) (s : State), s.Inv → Sys2Proof.Claims.Arrives s p raw b n 2 →
        Sys2Proof.Claims.NoReport b → Sys2Proof.Claims.NoAck s p b 0 →
        (port s p).rxPartial = some ⟨decide (Sys2Proof.Claims.ctl b 8 1 = 1), l, false⟩ → ∃ t, exec (.flitRx p raw) s = .next t
          ∧ (port t p).rxPartial = some ⟨decide (Sys2Proof.Claims.ctl b 8 1 = 1), l ++ [b.take 256], false⟩
          ∧ t = { s with regs := t.regs, ports := t.ports })
    ∧ (∀ (p : PortId) (raw b : List Byte) (n : Nat) (l : List (List Byte)) (k : Packet) (s : State), s.Inv →
        Sys2Proof.Claims.Arrives s p raw b n 3 → Sys2Proof.Claims.NoReport b → Sys2Proof.Claims.NoAck s p b 0 →
        (port s p).rxPartial = some ⟨decide (Sys2Proof.Claims.ctl b 8 1 = 1), l, false⟩ → packetOfFlits (l.flatten ++ b.take 256) = some k →
        ∃ t, exec (.flitRx p raw) s = .next t
          ∧ exec (if Sys2Proof.Claims.ctl b 8 1 = 1 then .twinePacketRx p k else .warpPacketRx p k)
              (modPort (Sys2Proof.Claims.flitIn s p n) p (fun x => { x with rxPartial := none })) = .next t)
    ∧ (∀ (p : PortId) (raw b : List Byte) (n : Nat) (s : State), s.Inv → Sys2Proof.Claims.Arrives s p raw b n 0 → Sys2Proof.Claims.IdleNext s p b →
        Sys2Proof.Claims.ctl b 55 1 = 0 → Sys2Proof.Claims.ctl b 53 1 = 1 → Sys2Proof.Claims.ctl b 39 2 = 0 → Sys2Proof.Claims.ctl b 9 2 = 3 →
        Sys2Proof.Claims.NoAck s p b 1 → (port s p).replay ≠ [] → (port s p).replaysNoProgress + 1 < 16 → ∃ t, exec (.flitRx p raw) s = .next t
          ∧ (port t p).replayLeft = (port s p).replay.length ∧ (port t p).replay = (port s p).replay ∧ (port t p).copies = (port s p).copies
          ∧ reg64 t (rPort p.val 0x80) = (reg64 s (rPort p.val 0x80) + 1) % 2 ^ 64 ∧ t = { s with regs := t.regs, ports := t.ports })
    ∧ (∀ (p : PortId) (raw b : List Byte) (n : Nat) (s : State), s.Inv → Sys2Proof.Claims.Arrives s p raw b n 0 → Sys2Proof.Claims.IdleNext s p b →
        Sys2Proof.Claims.ctl b 55 1 = 0 → Sys2Proof.Claims.ctl b 53 1 = 0 → Sys2Proof.Claims.ctl b 39 1 = 1 → Sys2Proof.Claims.ctl b 9 2 = 3 →
        (∀ k ∈ (port s p).replay, 2048 ≤ (BitVec.ofNat 12 (Sys2Proof.Claims.ctl b 41 12) - k.seq).toNat) →
        (∀ c, (port s p).copies.find? (fun c => c.seq = BitVec.ofNat 12 (Sys2Proof.Claims.ctl b 27 12)) = some c → c.naked = false → c.retryPick = none →
            ∃ t, exec (.flitRx p raw) s = .next t ∧ (port t p).copies = (port s p).copies.map (fun d =>
              if d.seq = BitVec.ofNat 12 (Sys2Proof.Claims.ctl b 27 12) then { d with naked := true, scheduled := !noticeHeld s } else d))
          ∧ ((port s p).copies.find? (fun c => c.seq = BitVec.ofNat 12 (Sys2Proof.Claims.ctl b 27 12)) = none →
            ∃ t, exec (.flitRx p raw) s = .next t ∧ lstate t p = 7 ∧ flag t (rErrLink p.val) 7 = true ∧ MemSame s t))
    ∧ (∀ (p : PortId) (raw b : List Byte) (n : Nat) (s : State), s.Inv → Sys2Proof.Claims.Arrives s p raw b n 0 → Sys2Proof.Claims.IdleNext s p b →
        Sys2Proof.Claims.ctl b 55 1 = 0 → Sys2Proof.Claims.ctl b 53 1 = 0 → Sys2Proof.Claims.ctl b 39 1 = 0 → Sys2Proof.Claims.ctl b 40 1 = 1 →
        Sys2Proof.Claims.ctl b 9 2 = 3 → field s (rPort p.val 0x04) 24 4 ≠ 0 →
        (∀ k ∈ (port s p).replay, 2048 ≤ (BitVec.ofNat 12 (Sys2Proof.Claims.ctl b 41 12) - k.seq).toNat) →
        ∃ t, exec (.flitRx p raw) s = .next t ∧ (port t p).copies
          = (port s p).copies.filter (fun c => !(c.seq = BitVec.ofNat 12 (Sys2Proof.Claims.ctl b 27 12) && c.retryPick.isSome)))
    ∧ (∀ (p : PortId) (raw b : List Byte) (n : Nat) (s : State), s.Inv → Sys2Proof.Claims.Arrives s p raw b n 0 → Sys2Proof.Claims.IdleNext s p b →
        Sys2Proof.Claims.ctl b 55 1 = 1 → Sys2Proof.Claims.ctl b 53 1 = 0 → Sys2Proof.Claims.ctl b 39 2 = 0 → Sys2Proof.Claims.ctl b 9 2 = 3 →
        Sys2Proof.Claims.NoAck s p b 0 → ∃ t, exec (.flitRx p raw) s = .next t
          ∧ (aligned s = true → s.stake.refusedRound ≠ some (Sys2Proof.Claims.ctl b 56 8) → Sys2Proof.Claims.ctl b 56 8 = holdTag s →
              s.stake.committed = false → t.stake.held = true
                ∧ (s.stake.held = false → reg64 t (rPort p.val 0x90) = (reg64 s (rPort p.val 0x90) + 1) % 2 ^ 64))
          ∧ (aligned s = true → s.stake.refusedRound = some (Sys2Proof.Claims.ctl b 56 8) → flag t rErrStake 1 = true ∧ flag t rFaultState 31 = true)
          ∧ (aligned s = false ∨ (s.stake.refusedRound ≠ some (Sys2Proof.Claims.ctl b 56 8)
              ∧ (Sys2Proof.Claims.ctl b 56 8 ≠ holdTag s ∨ s.stake.committed = true)) → t.stake = s.stake ∧ MemSame s t))
    ∧ (∀ (p : PortId) (raw b : List Byte) (n c : Nat) (s : State), s.Inv → Sys2Proof.Claims.Arrives s p raw b n 0 → Sys2Proof.Claims.IdleNext s p b →
        Sys2Proof.Claims.ctl b 55 1 = 0 → Sys2Proof.Claims.ctl b 53 1 = 0 → Sys2Proof.Claims.ctl b 39 2 = 0 → Sys2Proof.Claims.ctl b 9 2 = c → c < 3 →
        Sys2Proof.Claims.NoAck s p b 0 →
        (Sys2Proof.Claims.ctl b 11 16 + 65536 - field s (rPort p.val (0x20 + 4 * c)) 16 16) % 65536 ≤ 32767 →
        (Sys2Proof.Claims.ctl b 11 16 + 65536 - field s (rPort p.val (0x20 + 4 * c)) 0 16) % 65536 ≤ (port s p).train.peerBufs.getD c 0 →
        ∃ t, exec (.flitRx p raw) s = .next t ∧ field t (rPort p.val (0x20 + 4 * c)) 16 16 = Sys2Proof.Claims.ctl b 11 16
          ∧ field t (rPort p.val (0x20 + 4 * c)) 0 16 = field s (rPort p.val (0x20 + 4 * c)) 0 16 ∧ t = { s with regs := t.regs, ports := t.ports })
    ∧ (∀ (p : PortId) (raw b : List Byte) (n : Nat) (s : State), s.Inv → Sys2Proof.Claims.ArrivesF s p raw b n 0 → Sys2Proof.Claims.ctl b 53 1 = 0 →
        BitVec.ofNat 12 (Sys2Proof.Claims.ctl b 41 12) + 1 = (port s p).txCount → ∃ t, exec (.flitRx p raw) s = .next t
          ∧ (BitVec.ofNat 12 (numAt b 0 2) = (port s p).rxCount → (port t p).hunt = false ∧ (port t p).nakF = (port s p).nakF)
          ∧ (BitVec.ofNat 12 (numAt b 0 2) ≠ (port s p).rxCount → (port t p).hunt = true ∧ (port t p).nakF = ((port s p).nakF || !(port s p).hunt))
          ∧ t = { s with regs := t.regs, ports := t.ports })
    ∧ (∀ (p : PortId) (raw b : List Byte) (n : Nat) (s : State), s.Inv → Sys2Proof.Claims.ArrivesF s p raw b n 5 → Sys2Proof.Claims.ctl b 53 1 = 0 →
        BitVec.ofNat 12 (Sys2Proof.Claims.ctl b 41 12) + 1 = (port s p).txCount → (port s p).hunt = false → numAt b 0 1 < 5 →
        ∃ t, exec (.flitRx p raw) s = .next t
          ∧ exec (if numAt b 0 1 = 0 then .announce p b else if numAt b 0 1 = 1 then .delayReq p b else if numAt b 0 1 = 2 then .delayRsp p b
              else if numAt b 0 1 = 3 then .ready p b else .recover p b)
            (modPort (add64 s (rPort p.val 0x58) n) p (fun x => { x with rxCount := x.rxCount + 1 })) = .next t)
    ∧ (∀ (p : PortId) (raw b : List Byte) (n type : Nat) (s : State), s.Inv → Sys2Proof.Claims.ArrivesF s p raw b n type → type = 5 ∨ type = 4 →
        Sys2Proof.Claims.ctl b 53 1 = 0 → BitVec.ofNat 12 (Sys2Proof.Claims.ctl b 41 12) + 1 = (port s p).txCount → (port s p).hunt = true →
        exec (.flitRx p raw) s = .next (add64 s (rPort p.val 0x58) n))
    ∧ (∀ (p : PortId) (raw b : List Byte) (n : Nat) (s : State), s.Inv → inFlitMode s p = true → flitCorrect raw = some (b, n) →
        Sys2Proof.Claims.ctl b 54 1 = 1 → Sys2Proof.Claims.ctl b 5 3 = 0 → numAt b 254 2 = flitCrc16 (b.take 254 ++ sliceB b 256 8) →
        Sys2Proof.Claims.ctl b 9 2 = 3 → (port s p).train.step < 5 →
        let ack := BitVec.ofNat 12 (Sys2Proof.Claims.ctl b 41 12) - BitVec.ofNat 12 (Sys2Proof.Claims.ctl b 53 1)
        let m := (ack + 1 - ((port s p).txCount - BitVec.ofNat 12 (port s p).flitReplay.length)).toNat
        ∃ t, exec (.flitRx p raw) s = .next t
          ∧ (port t p).flitReplay = (if m ≤ (port s p).flitReplay.length then (port s p).flitReplay.drop m else (port s p).flitReplay)
          ∧ (Sys2Proof.Claims.ctl b 53 1 = 1 → (port t p).flitResend = (port t p).flitReplay ∧ (port t p).sendIdleF = true))
    ∧ ∀ (p : PortId) (raw b : List Byte) (n : Nat) (s : State), s.Inv → lstate s p = 5 → flitCorrect raw = some (b, n) →
        Sys2Proof.Claims.ctl b 54 1 = 1 → numAt b 254 2 = flitCrc16 (b.take 254 ++ sliceB b 256 8) → Sys2Proof.Claims.ctl b 5 3 ∈ [0, 4, 5, 6] →
        ((port s p).recoverStakes.filter (fun m => decide (stakeNo s < m + 1024))).length < 8 →
        ∃ t, exec (.flitRx p raw) s = .next t ∧ lstate t p = 6

/-! ## The twine plane -/

/-- The conditions under which a WRITE or MSG for this device is performed at once: its queue has room, it does not wait already, and its
bytes lie in a store whose node region is not in force. -/
def Sys2Proof.Claims.Deliverable (s : State) (src : Option PortId) (k : Packet) : Prop :=
  forHere s k = true ∧ isWaiting s k src = false ∧ inqRoom s (podOf k.dst) (queueOf k.dst) = true
    ∧ targetOf k + k.payload.length ≤ podSize ∧ flag s (rPod (podOf k.dst).val 0x500) 0 = false

/-- No released FENCE packet of the device to itself waits to be delivered; an OCOMMIT may wait for its half of the commit buffer. -/
def Sys2Proof.Claims.NoneReleased (s : State) : Prop := ∀ k ∈ s.misc.localReq, k.type = 0xA

/-- A write of a packet's payload has been asked of the banks: a transfer of the on-die network stands for it, with the payload's bytes at the
addresses that the packet names, and no byte of memory has changed (R167, R169, R256). -/
def Sys2Proof.Claims.WriteAsked (s t : State) (key : NetKey) (k : Packet) (bytes : List Byte) : Prop :=
  ∃ j r, netJob t key = some j ∧ j.pod = podOf k.dst ∧ netGranted t j.pod j.op = false ∧ r ∈ (pod t j.pod).ranges ∧ r.op = j.op ∧ r.write = true
    ∧ r.writes = (upTo (ceilDiv bytes.length 64)).map (fun i => (podAddr j.pod (targetOf k + 64 * i), (bytes.drop (64 * i)).take 64))
    ∧ MemSame s t ∧ (pod t j.pod).inq = (pod s j.pod).inq

/-- Where no released FENCE packet waits: a WRITE or MSG whose queue has room first asks the banks for its payload's write; once they have granted
it, and its bytes are visible, it places its entry (header and first 48 bytes) last in its inbound queue, and a WRITE returns a DONE on the way to
its source. One whose queue is full waits, and no memory changes. FADD reads its lanes from the banks, asks them to write the sums by RNE, in one
rounding, and then returns its DONE. OCOMMIT joins the commits of its frame, and no memory changes yet. A packet for another device does nothing
here.
For what the spec leaves open it follows the model's choices of log 46, 55 and 57. -/
def Obligations.TwineRequestsAreDelivered : Prop :=
  (∀ (p : PortId) (k : Packet) (s : State), s.Inv → Sys2Proof.Claims.NoneReleased s → Sys2Proof.Claims.Deliverable s (some p) k →
      netJob s (.packet (some p) k 0) = none → k.payload ≠ [] → k.type = 0xD ∨ (k.type = 8 ∧ fenceWaits s (some p) k = false ∧ canRespond s k = true) →
      ∃ t, (k.type = 8 → exec (.write (some p) k) s = .next t) ∧ (k.type = 0xD → exec (.msg (some p) k) s = .next t)
        ∧ Sys2Proof.Claims.WriteAsked s t (.packet (some p) k 0) k k.payload ∧ t.regs = s.regs ∧ t.ports = s.ports)
    ∧ (∀ (p r : PortId) (k : Packet) (j : NetJob) (s : State), s.Inv → Sys2Proof.Claims.NoneReleased s → Sys2Proof.Claims.Deliverable s (some p) k →
        k.type = 8 → fenceWaits s (some p) k = false → netJob s (.packet (some p) k 0) = some j → netDone s j = true →
        routeTo s 1 (devOf k.src) = .out r → 0 < slotsFree s r → ∃ t d, exec (.write (some p) k) s = .next t
        ∧ vget (pod t (podOf k.dst)).inq (queueOf k.dst)
            = vget (pod s (podOf k.dst)).inq (queueOf k.dst) ++ [⟨twineEntry k, s.stake.frames, tick s, none⟩]
        ∧ (none, d) ∈ (port t r).txRsp ∧ d.type = 0xC ∧ d.dst = k.src ∧ d.src = k.dst ∧ numAt d.payload 0 2 = 0
        ∧ netJob t (.packet (some p) k 0) = none ∧ MemSame s t)
    ∧ (∀ (p : PortId) (k : Packet) (j : NetJob) (s : State), s.Inv → Sys2Proof.Claims.NoneReleased s → Sys2Proof.Claims.Deliverable s (some p) k →
        k.type = 0xD → netJob s (.packet (some p) k 0) = some j → netDone s j = true → ∃ t, exec (.msg (some p) k) s = .next t
          ∧ vget (pod t (podOf k.dst)).inq (queueOf k.dst)
              = vget (pod s (podOf k.dst)).inq (queueOf k.dst) ++ [⟨twineEntry k, s.stake.frames, tick s, none⟩]
          ∧ netJob t (.packet (some p) k 0) = none ∧ MemSame s t)
    ∧ (∀ (p : PortId) (k : Packet) (j : NetJob) (s : State), Sys2Proof.Claims.NoneReleased s → Sys2Proof.Claims.Deliverable s (some p) k →
        netJob s (.packet (some p) k 0) = some j → netDone s j = false → (k.type = 0xD → exec (.msg (some p) k) s = .next s)
          ∧ (k.type = 8 → exec (.write (some p) k) s = .next s))
    ∧ (∀ (p : PortId) (k : Packet) (s : State), Sys2Proof.Claims.NoneReleased s → forHere s k = true → isWaiting s k (some p) = false →
        inqRoom s (podOf k.dst) (queueOf k.dst) = false → ∃ t, exec (.msg (some p) k) s = .next t ∧ MemSame s t
          ∧ (pod t (podOf k.dst)).waiting = (pod s (podOf k.dst)).waiting ++ [⟨queueOf k.dst, twineEntry k, none, some (some p, k)⟩]
          ∧ RegsBut [rPod (podOf k.dst).val 0x880] s t)
    ∧ (∀ (p r : PortId) (k : Packet) (s : State), s.Inv → forHere s k = true → routeTo s 1 (devOf k.src) = .out r → 0 < slotsFree s r →
        Sys2Proof.Claims.NoneReleased s → targetOf k + k.payload.length ≤ podSize → flag s (rPod (podOf k.dst).val 0x500) 0 = false →
        k.payload.length % 64 = 0 → k.payload ≠ [] → faddOpen s (some p) k = false →
        (netJob s (.packet (some p) k 0) = none → netJob s (.packet (some p) k 1) = none → ∃ t j, exec (.fadd (some p) k) s = .next t
            ∧ netJob t (.packet (some p) k 0) = some j ∧ netGranted t j.pod j.op = false ∧ MemSame s t
            ∧ j.data = memRead s (podAddr (podOf k.dst) (targetOf k)) k.payload.length)
          ∧ (∀ j, netJob s (.packet (some p) k 1) = none → netJob s (.packet (some p) k 0) = some j → netDone s j = true →
            j.data.length = k.payload.length → ∃ t, exec (.fadd (some p) k) s = .next t ∧ netJob t (.packet (some p) k 0) = none
              ∧ Sys2Proof.Claims.WriteAsked s t (.packet (some p) k 1) k
                ((List.zip (payloadLanes j.data) (payloadLanes k.payload)).flatMap (fun e => leBytes 4 (addRne32 e.1 e.2))))
          ∧ ∀ j, netJob s (.packet (some p) k 1) = some j → netDone s j = true → ∃ t d, exec (.fadd (some p) k) s = .next t
            ∧ netJob t (.packet (some p) k 1) = none ∧ MemSame s t ∧ (none, d) ∈ (port t r).txRsp ∧ d.type = 0xC ∧ d.dst = k.src
            ∧ numAt d.payload 0 2 = 0)
    ∧ (∀ (p r : PortId) (k : Packet) (s : State), s.Inv → forHere s k = true → routeTo s 1 (devOf k.src) = .out r → 0 < slotsFree s r →
        Sys2Proof.Claims.NoneReleased s → targetOf k + k.payload.length ≤ podSize → flag s (rPod (podOf k.dst).val 0x500) 0 = false →
        commitBytes s (numAt k.payload 0 8) + 4 * (payloadLanes (k.payload.drop 64)).length ≤ 0x200000 →
        ∃ t, exec (.ocommit (some p) k) s = .next t ∧ MemSame s t ∧ t.misc.commits = s.misc.commits
          ++ [(numAt k.payload 0 8, podOf k.dst, targetOf k, (payloadLanes (k.payload.drop 64)).map (BitVec.ofNat 32))])
    ∧ ∀ (p : Option PortId) (k : Packet) (s : State), forHere s k = false → exec (.write p k) s = .next s ∧ exec (.msg p k) s = .next s
        ∧ exec (.fadd p k) s = .next s ∧ exec (.ocommit p k) s = .next s ∧ exec (.done p k) s = .next s

/-- DONE completes the one open request of its queue to the device it comes from, and where a FENCE packet waited for that request alone, the
packet goes to the transmit list of its port. A BYP with room is placed in its queue. Keeper packets for
this device go to the Keeper. A twine packet with the expected number enters its receive buffer, an older number is dropped and counted,
a newer one makes the port ask for a replay. A request served does what its packet's row does, one whose FENCE holds it stays where it is, and
an entry that waited is accepted once there is room.
For what the spec leaves open it follows the model's choices of log 46 and 55. -/
def Obligations.TwinePacketsAreTakenAndServed : Prop :=
  (∀ (p : Option PortId) (k : Packet) (tk : Token) (s : State), Sys2Proof.Claims.NoneReleased s → s.misc.fenced = [] → forHere s k = true →
      (outQ (pod s (podOf k.dst)) (queueOf k.dst)).tokens = [tk] → tk.transferDone = false → tk.dstDev = devOf k.src →
      (tk.kind = .twSend ∨ tk.kind = .twFadd ∨ tk.kind = .twOcommit) → ∃ t, exec (.done p k) s = .next t
      ∧ (outQ (pod t (podOf k.dst)) (queueOf k.dst)).tokens = [] ∧ MemSame s t ∧ t.regs = s.regs)
    ∧ (∀ (p : Option PortId) (k f : Packet) (tk : Token) (r : PortId) (s : State), Sys2Proof.Claims.NoneReleased s → forHere s k = true →
        s.misc.fenced = [⟨f, [((podOf k.dst).val, (queueOf k.dst).val, tk.seq)]⟩] → (outQ (pod s (podOf k.dst)) (queueOf k.dst)).tokens = [tk] →
        tk.transferDone = false → tk.dstDev = devOf k.src → (tk.kind = .twSend ∨ tk.kind = .twFadd ∨ tk.kind = .twOcommit) → channelOf f = 0 →
        routeTo s 0 (devOf f.dst) = .out r → ∃ t, exec (.done p k) s = .next t ∧ t.misc.fenced = [] ∧ (none, f) ∈ (port t r).txReq
        ∧ (outQ (pod t (podOf k.dst)) (queueOf k.dst)).tokens = [] ∧ MemSame s t ∧ t.regs = s.regs)
    ∧ (∀ (p : PortId) (k : Packet) (s : State), k.offset ≠ 0xFFFFFF → forHere s k = true → inqRoom s (podOf k.dst) (queueOf k.dst) = true →
        ∃ t, exec (.byp p k) s = .next t ∧ MemSame s t ∧ vget (pod t (podOf k.dst)).inq (queueOf k.dst)
          = vget (pod s (podOf k.dst)).inq (queueOf k.dst) ++ [⟨twineEntry k, s.stake.frames, tick s, none⟩])
    ∧ (∀ (p : PortId) (k : Packet) (s : State), Sys2Proof.Claims.NoneReleased s → forHere s k = true → ∃ t, exec (.mgmtReq p k) s = .next t
        ∧ t.out = s.out ++ [.keeperPacket k] ∧ t.regs = s.regs ∧ MemSame s t ∧ t.pods = s.pods)
    ∧ (∀ (p : PortId) (k : Packet) (s : State), Sys2Proof.Claims.NoneReleased s → forHere s k = true → (port s p).rxRsp = [] → ∃ t, exec (.mgmtRsp p k) s = .next t
        ∧ t.out = s.out ++ [.keeperPacket k] ∧ t.regs = s.regs ∧ MemSame s t ∧ t.pods = s.pods)
    ∧ (∀ (p : PortId) (k : Packet) (s : State), portUp s p = false → exec (.twinePacketRx p k) s = .next s)
    ∧ (∀ (p : PortId) (k : Packet) (s : State), s.Inv → portUp s p = true → k.seq = (port s p).rxTwineSeq → 8 ≤ k.type.toNat →
        channelOf k = 0 → forHere s k = true → unitsIn (port s p).rxReq + unitsOf k ≤ 384 → ∃ t, exec (.twinePacketRx p k) s = .next t
        ∧ (port t p).rxTwineSeq = k.seq + 1 ∧ (port t p).rxReq = (port s p).rxReq ++ [k] ∧ MemSame s t ∧ t.pods = s.pods
        ∧ RegsBut [rPort p.val 0x34] s t)
    ∧ (∀ (p : PortId) (k : Packet) (s : State), s.Inv → portUp s p = true → k.seq ≠ (port s p).rxTwineSeq → 8 ≤ k.type.toNat →
        newer k.seq (port s p).rxTwineSeq = false → newer (port s p).rxTwineSeq k.seq = true → ∃ t, exec (.twinePacketRx p k) s = .next t
        ∧ reg64 t (rPort p.val 0x88) = (reg64 s (rPort p.val 0x88) + 1) % 2 ^ 64 ∧ OnlyRegs [rPort p.val 0x88, rPort p.val 0x8C] s t)
    ∧ (∀ (p : PortId) (k : Packet) (s : State), portUp s p = true → k.seq ≠ (port s p).rxTwineSeq → 8 ≤ k.type.toNat →
        newer k.seq (port s p).rxTwineSeq = true → (port s p).nakTSent ≠ some (port s p).rxTwineSeq → ∃ t, exec (.twinePacketRx p k) s = .next t
        ∧ (port t p).sendNakT = true ∧ (port t p).nakTSent = some (port s p).rxTwineSeq ∧ t = { s with ports := t.ports })
    ∧ (∀ (p : PortId) (k : Packet) (l : List Packet) (s : State), (port s p).rxReq = k :: l → forHere s k = true →
        fenceWaits s (some p) k = false → (k.type = 8 ∨ k.type = 9 ∨ k.type = 0xA) → ∃ t, exec (.twineRequestServed p) s = .next t
        ∧ (k.type = 8 → exec (.write (some p) k) s = .next t) ∧ (k.type = 9 → exec (.fadd (some p) k) s = .next t)
        ∧ (k.type = 0xA → exec (.ocommit (some p) k) s = .next t))
    ∧ (∀ (p : PortId) (s : State), (port s p).rxReq = [] → exec (.twineRequestServed p) s = .next s)
    ∧ (∀ (p : PortId) (k : Packet) (l : List Packet) (s : State), (port s p).rxReq = k :: l → fenceWaits s (some p) k = true →
        exec (.twineRequestServed p) s = .next s)
    ∧ ∀ (p : PodId) (q : Fin 8) (w : WaitingEntry) (s : State), (pod s p).waiting.find? (fun w => w.queue = q) = some w → w.held = none →
        inqRoom s p q = true → (∀ i, (port s i).rxRsp = []) → ∃ t, exec (.queuedEntryAccept p q) s = .next t
        ∧ vget (pod t p).inq q = vget (pod s p).inq q ++ [⟨w.bytes, s.stake.frames, tick s, w.stream⟩]
        ∧ (pod t p).waiting = (pod s p).waiting.erase w ∧ MemSame s t

/-! ## Alignment, training, recovery -/

/-- An ALIGN counts on an UP port with STATE aligned. On an aligned device an offset above 32 ticks, or another stake, faults the machine, and
an agreeing one changes nothing; an unaligned device collects it, unless its depth would pass 5. After the window the best candidate is
adopted, with the stake of 36,864 ticks that its STAKE and STAKE_START put the present tick in; the tick roots align themselves at stake 0; and a
device unaligned after 15 s records ERR_PLACE bit 7.
For what the spec leaves open it follows the model's choices of log 66. -/
def Obligations.DevicesAlignTheirTicks : Prop :=
  (∀ (p : PortId) (b : List Byte) (s : State), portUp s p = false ∨ numAt b 1 1 ≠ 1 → exec (.alignRx p b) s = .next s)
    ∧ (∀ (p : PortId) (b : List Byte) (s : State), portUp s p = true → numAt b 1 1 = 1 → aligned s = true → (alignOffset s p b).natAbs ≤ 32 →
        numAt b 8 8 = stakeNo s → numAt b 0x10 8 = reg64 s rStakeStart → exec (.alignRx p b) s = .next s)
    ∧ (∀ (p : PortId) (b : List Byte) (s : State), s.Inv → portUp s p = true → numAt b 1 1 = 1 → aligned s = true → 32 < (alignOffset s p b).natAbs →
        ∃ t, exec (.alignRx p b) s = .next t ∧ flag t rErrPlace 4 = true ∧ flag t rFaultState 31 = true ∧ MemSame s t)
    ∧ (∀ (p : PortId) (b : List Byte) (s : State), s.Inv → portUp s p = true → numAt b 1 1 = 1 → aligned s = true →
        numAt b 8 8 ≠ stakeNo s ∨ numAt b 0x10 8 ≠ reg64 s rStakeStart →
        ∃ t, exec (.alignRx p b) s = .next t ∧ flag t rErrPlace 5 = true ∧ flag t rFaultState 31 = true ∧ MemSame s t)
    ∧ (∀ (p : PortId) (b : List Byte) (s : State), portUp s p = true → numAt b 1 1 = 1 → aligned s = false → numAt b 2 1 < 5 →
        s.align.candidates = [] ∨ tick s < s.align.firstTick + 36864 → ∃ t, exec (.alignRx p b) s = .next t
        ∧ t.align.candidates = s.align.candidates ++ [(numAt b 2 1, (logicalOf s p).val, alignOffset s p b, numAt b 8 8, numAt b 0x10 8)]
        ∧ t.align.firstTick = (if s.align.candidates = [] then tick s else s.align.firstTick) ∧ t = { s with align := t.align })
    ∧ (∀ (c : Nat × Nat × Int × Nat × Nat) (s : State), s.Inv → aligned s = false → bestCandidate s.align.candidates = some c → c.1 < 5 → c.2.1 < 16 →
        c.2.2.2.1 < 2 ^ 64 → c.2.2.2.2 < 2 ^ 64 → s.align.firstTick + 36864 ≤ tick s → ∃ t, exec .alignAdopt s = .next t
        ∧ tick t = wrap 64 ((tick s : Int) + c.2.2.1) ∧ aligned t = true
        ∧ stakeNo t = (c.2.2.2.1 + (tick t + 2 ^ 64 - c.2.2.2.2) % 2 ^ 64 / 36864) % 2 ^ 64
        ∧ reg64 t rStakeStart = (c.2.2.2.2 + (tick t + 2 ^ 64 - c.2.2.2.2) % 2 ^ 64 / 36864 * 36864) % 2 ^ 64
        ∧ field t rAlign 24 3 = c.1 + 1 ∧ flag t rAlign 30 = false ∧ t.align.candidates = [] ∧ MemSame s t ∧ t.pods = s.pods)
    ∧ (∀ s : State, s.Inv → aligned s = false → flag s rManifest 31 = true → flag s rPlace 29 = true → s.align.candidates = [] →
        cabledDecided s = true ∨ 5 * secondTicks ≤ tick s → ∃ t, exec .tickRootAlign s = .next t ∧ tick t = 0 ∧ stakeNo t = 0
        ∧ reg64 t rStakeStart = 0 ∧ aligned t = true ∧ flag t rAlign 30 = true ∧ field t rAlign 24 3 = 0 ∧ MemSame s t ∧ t.pods = s.pods)
    ∧ (∀ s : State, s.Inv → aligned s = false → flag s rPlace 28 = true → 10 * secondTicks ≤ tick s → ∃ t, exec .altRootAlign s = .next t
        ∧ tick t = 0 ∧ stakeNo t = 0 ∧ aligned t = true ∧ flag t rAlign 30 = true ∧ field t rAlign 24 3 = 0 ∧ MemSame s t ∧ t.pods = s.pods)
    ∧ (∀ s : State, s.Inv → aligned s = false → 15 * secondTicks ≤ tick s → ∃ t, exec .alignTimeout s = .next t
        ∧ flag t rErrPlace 7 = true ∧ Notified (rErrPlace :: capRegs 11) s t)
    ∧ ∀ s : State, aligned s = true → exec .alignAdopt s = .next s ∧ exec .tickRootAlign s = .next s ∧ exec .altRootAlign s = .next s
        ∧ exec .alignTimeout s = .next s

/-- Signal takes a port from DETECT to TRAIN with fresh counters and numbers, and so a port in DOWN whose outcome is DARK_EXPECTED; FEC_LOCK starts its flit mode; a missed deadline before the
eighth attempt returns it to DETECT. In flit mode an ANNOUNCE records the peer, a DELAY_REQ waits for its answer, the answer of an own
request is one delay measured, and READY records the peer's outcome.
For what the spec leaves open it follows the model's choices of log 16. -/
def Obligations.PortsTrain : Prop :=
  (∀ (p : PortId) (s : State), s.Inv → lstate s p = 1 → ∃ t, exec (.laneSignalDetect p) s = .next t ∧ lstate t p = 2
      ∧ (∀ o, 0x40 ≤ o → o < 0xC0 → reg t (rPort p.val o) = 0) ∧ reg t (rPort p.val 0x08) = 0 ∧ (port t p).train.step = 0
      ∧ (port t p).txWarpSeq = 0 ∧ (port t p).rxWarpSeq = 0 ∧ (port t p).txTwineSeq = 0 ∧ (port t p).rxTwineSeq = 0 ∧ (port t p).copies = []
      ∧ (port t p).replay = [] ∧ (∀ q, q ≠ p → port t q = port s q) ∧ MemSame s t ∧ t.pods = s.pods)
    ∧ (∀ (p : PortId) (s : State), s.Inv → lstate s p = 7 → outcome s p = 2 → ∃ t, exec (.laneSignalDetect p) s = .next t ∧ lstate t p = 2
        ∧ outcome t p = 0 ∧ (port t p).train.step = 0 ∧ MemSame s t ∧ t.pods = s.pods)
    ∧ (∀ (p : PortId) (s : State), lstate s p ≠ 1 → lstate s p ≠ 7 ∨ outcome s p ≠ 2 → exec (.laneSignalDetect p) s = .next s)
    ∧ (∀ (p : PortId) (ph : BitVec 12) (s : State), s.Inv → (port s p).train.step = 0 → lstate s p = 2 → ∃ t, exec (.fecLock p ph) s = .next t
        ∧ (port t p).train.step = 1 ∧ inFlitMode t p = true ∧ (port t p).nakF = true ∧ (port t p).hunt = true
        ∧ reg t (rPort p.val 0x3C) = (if 12 ≤ p.val then ph.setWidth 32 else 0)
        ∧ t = { s with regs := t.regs, ports := t.ports } ∧ RegsBut [rPort p.val 0x3C] s t)
    ∧ (∀ (p : PortId) (s : State), s.Inv → lstate s p = 2 → (port s p).train.attempts + 1 < 8 → enabled s p = true → func s (fLink p.val) ≠ 4 →
        ∃ t, exec (.trainDeadline p) s = .next t ∧ lstate t p = 1 ∧ (port t p).train.attempts = (port s p).train.attempts + 1
          ∧ Notified [rPort p.val 0x04, rFunc (fLink p.val)] { s with ports := t.ports } t)
    ∧ (∀ (p : PortId) (s : State), lstate s p ≠ 2 → exec (.trainDeadline p) s = .next s)
    ∧ (∀ (p : PortId) (b : List Byte) (s : State), s.Inv → inFlitMode s p = true → ∃ t, exec (.announce p b) s = .next t
        ∧ flag t (rPort p.val 0x08) 31 = true ∧ field t (rPort p.val 0x08) 16 15 = numAt b 8 2 % 0x8000
        ∧ field t (rPort p.val 0x08) 0 4 = numAt b 1 1 % 16 ∧ (port t p).train.peer = some b ∧ MemSame s t ∧ t.pods = s.pods)
    ∧ (∀ (p : PortId) (b : List Byte) (s : State), inFlitMode s p = true → ∃ t, exec (.delayReq p b) s = .next t
        ∧ (port t p).train.replies = (port s p).train.replies ++ [(b, tick s)] ∧ t = { s with ports := t.ports })
    ∧ (∀ (p : PortId) (b : List Byte) (s : State), inFlitMode s p = true → (port s p).train.asked = true → (port s p).train.delays.length < 63 →
        ∃ t, exec (.delayRsp p b) s = .next t ∧ (port t p).train.asked = false
          ∧ (port t p).train.delays = (port s p).train.delays ++ [tick s - numAt b 0x20 8 - numAt b 0x28 8] ∧ t = { s with ports := t.ports })
    ∧ (∀ (p : PortId) (b : List Byte) (s : State), s.Inv → inFlitMode s p = true → ∃ t, exec (.ready p b) s = .next t
        ∧ field t (rPort p.val 0x38) 28 4 = numAt b 0x0D 1 % 16 ∧ (port t p).train.peerReady = some (BitVec.ofNat 8 (numAt b 0x0D 1))
        ∧ MemSame s t ∧ t.pods = s.pods)
    ∧ ∀ (p : PortId) (b : List Byte) (s : State), inFlitMode s p = false → exec (.announce p b) s = .next s
        ∧ exec (.delayReq p b) s = .next s ∧ exec (.delayRsp p b) s = .next s ∧ exec (.ready p b) s = .next s

/-- A port in PACKET whose lanes lose lock, or that receives a RECOVER, enters RECOVER; the ninth entry within 1,024 stakes puts it DOWN. A
recovery that exceeds RECOVER_LIMIT and, on a port in PACKET, a warp packet undecided for 80 picks put the port DOWN with their bits of ERR_LINK. A replay timeout
replays the twine plane from its oldest packet where the sender's ticks have passed, and lets the receiver ask again where its own have.
A slip beyond the elastic buffer's limit puts the port DOWN and faults the machine. -/
def Obligations.PortsRecoverOrGoDown : Prop :=
  (∀ (p : PortId) (s : State), s.Inv → lstate s p = 5 → ((port s p).recoverStakes.filter (fun n => decide (stakeNo s < n + 1024))).length < 8 →
      ∃ t, exec (.laneLockLoss p) s = .next t ∧ lstate t p = 6 ∧ stakeNo s ∈ (port t p).recoverStakes
        ∧ reg64 t (rPort p.val 0x98) = (reg64 s (rPort p.val 0x98) + 1) % 2 ^ 64 ∧ (port t p).replay = (port s p).replay
        ∧ Notified [rPort p.val 0x04, rPort p.val 0x98, rPort p.val 0x9C, rFunc (fLink p.val)] { s with ports := t.ports } t)
    ∧ (∀ (p : PortId) (s : State), s.Inv → lstate s p = 5 → 8 ≤ ((port s p).recoverStakes.filter (fun n => decide (stakeNo s < n + 1024))).length →
        ∃ t, exec (.laneLockLoss p) s = .next t ∧ lstate t p = 7 ∧ flag t (rErrLink p.val) 9 = true ∧ flag t (rErrLink p.val) 11 = true ∧ MemSame s t)
    ∧ (∀ (p : PortId) (s : State), lstate s p ≠ 5 → exec (.laneLockLoss p) s = .next s)
    ∧ (∀ (p : PortId) (b : List Byte) (s : State), s.Inv → numAt b 0 1 = 4 → lstate s p = 5 →
        ((port s p).recoverStakes.filter (fun n => decide (stakeNo s < n + 1024))).length < 8 → ∃ t, exec (.recover p b) s = .next t
        ∧ lstate t p = 6 ∧ (port t p).train.peerRecover = true ∧ (port t p).train.step = 1)
    ∧ (∀ (p : PortId) (s : State), s.Inv → lstate s p = 6 → field s rLinkCfg 0 16 < ticksSince s (port s p).recoverTick → ∃ t, exec (.recoverFail p) s = .next t ∧ lstate t p = 7
        ∧ flag t (rErrLink p.val) 8 = true ∧ (port t p).replay = [] ∧ MemSame s t)
    ∧ (∀ (p : PortId) (s : State), lstate s p ≠ 6 ∨ ticksSince s (port s p).recoverTick ≤ field s rLinkCfg 0 16 → exec (.recoverFail p) s = .next s)
    ∧ (∀ (p : PortId) (c : WarpCopy) (s : State), s.Inv → portUp s p = true → c ∈ (port s p).copies → c.decided = false → c.sentPick + 80 ≤ absPick s →
        ∃ t, exec (.ackTimeout p) s = .next t ∧ lstate t p = 7 ∧ flag t (rErrLink p.val) 5 = true ∧ (port t p).copies = [] ∧ MemSame s t)
    ∧ (∀ (p : PortId) (s : State), portUp s p = false ∨ (∀ c ∈ (port s p).copies, c.decided = true ∨ absPick s < c.sentPick + 80) → exec (.ackTimeout p) s = .next s)
    ∧ (∀ (p : PortId) (s : State), s.Inv → portUp s p = true → (port s p).replay ≠ [] → (port s p).replaysNoProgress + 1 < 16 →
        replayOver s (port s p).replaySince = true →
        ∃ t, exec (.twineReplayTimeout p) s = .next t ∧ (port t p).replayLeft = (port s p).replay.length ∧ (port t p).replay = (port s p).replay
          ∧ (port t p).nakTSent = (if replayOver s (port s p).nakTTick = true then none else (port s p).nakTSent) ∧ reg64 t (rPort p.val 0x80) = (reg64 s (rPort p.val 0x80) + 1) % 2 ^ 64
          ∧ t = { s with regs := t.regs, ports := t.ports } ∧ RegsBut [rPort p.val 0x80, rPort p.val 0x84] s t)
    ∧ (∀ (p : PortId) (s : State), portUp s p = true → replayOver s (port s p).replaySince = false → ∃ t, exec (.twineReplayTimeout p) s = .next t
          ∧ (port t p).nakTSent = (if replayOver s (port s p).nakTTick = true then none else (port s p).nakTSent)
          ∧ (port t p).replayLeft = (port s p).replayLeft ∧ t = { s with ports := t.ports })
    ∧ (∀ (p : PortId) (s : State), portUp s p = false → exec (.twineReplayTimeout p) s = .next s)
    ∧ (∀ (p : PortId) (x : Int) (s : State), s.Inv → receives s p = true → (if 12 ≤ p.val then 48 else 6) < x.natAbs →
        ∃ t, exec (.elasticSlip p x) s = .next t ∧ lstate t p = 7 ∧ flag t rErrPlace 3 = true ∧ flag t rFaultState 31 = true ∧ MemSame s t)
    ∧ ∀ (p : PortId) (x : Int) (s : State), s.Inv → x.natAbs ≤ (if 12 ≤ p.val then 48 else 6) → receives s p = true →
        ∃ t, exec (.elasticSlip p x) s = .next t ∧ field t (rPort p.val 0x3C) 24 8 = wrap 8 x
          ∧ field t (rPort p.val 0x3C) 16 8 = max (field s (rPort p.val 0x3C) 16 8) (min 255 x.natAbs) ∧ OnlyRegs [rPort p.val 0x3C] s t

/-- RETRAIN of an enabled port that is DOWN or in FLIT_HELD returns it to DETECT; ENABLE = 0 takes a port to OFF; a cabled port still in
DETECT at its deadline is DARK_EXPECTED and its LINK function FAILED with DETAIL 2. A port-map write is refused while a weave is active
or pending, where it is no permutation, or where it moves a port outside a remappable group that holds both ports; any other is stored, and
every port whose mapping changes goes to DETECT, the others staying as they are. -/
def Obligations.PortsAreControlled : Prop :=
  (∀ (p : PortId) (v : Word) (s : State), s.Inv → enabled s p = true → getB v 0 = true → lstate s p = 7 ∨ lstate s p = 3 → func s (fLink p.val) ≠ 4 →
      ∃ t, exec (.retrain p v) s = .next t ∧ lstate t p = 1
        ∧ Notified [rPort p.val 0, rPort p.val 0x04, rFunc (fLink p.val)] s t)
    ∧ (∀ (p : PortId) (v : Word) (s : State), s.Inv → enabled s p = true → ∃ t, exec (.enable p v) s = .next t ∧ lstate t p = 0
        ∧ enabled t p = false ∧ MemSame s t)
    ∧ (∀ (p : PortId) (s : State), s.Inv → lstate s p = 1 → cabled s p = true → outcome s p ≠ 2 → func s (fLink p.val) ≠ 4 →
        ∃ t, exec (.darkExpected p) s = .next t ∧ outcome t p = 2 ∧ flag t rErrDisc p.val = true ∧ flag t rErrDisc 16 = true
          ∧ reg t (rFunc (fLink p.val)) = 0x203 ∧ lstate t p = 1 ∧ MemSame s t ∧ t.pods = s.pods)
    ∧ (∀ (p : PortId) (s : State), lstate s p ≠ 1 ∨ cabled s p = false ∨ outcome s p = 2 → exec (.darkExpected p) s = .next s)
    ∧ (∀ (hi : Bool) (v : Word) (s : State), s.Inv → weaveActive s = true ∨ weavePending s = true
          ∨ (∃ i, i < 8 ∧ (if hi then 8 else 0) + i ∉ mapPorts v)
          ∨ (∃ i, i < 8 ∧ getF v (4 * i) 4 ≠ (if hi then 8 else 0) + i
            ∧ groupHolds s ((if hi then 8 else 0) + i) (getF v (4 * i) 4) = false) → ∃ t, exec (.prtPortMapWrite hi v) s = .next t
        ∧ flag t rMapStatus 1 = true ∧ OnlyRegs [rMapStatus] s t)
    ∧ (∀ (hi : Bool) (v : Word) (s : State), s.Inv → weaveActive s = false → weavePending s = false →
        (∀ i, i < 8 → (if hi then 8 else 0) + i ∈ mapPorts v
          ∧ (getF v (4 * i) 4 = (if hi then 8 else 0) + i ∨ groupHolds s ((if hi then 8 else 0) + i) (getF v (4 * i) 4) = true)) →
        ∃ t, exec (.prtPortMapWrite hi v) s = .next t ∧ reg t (if hi then rPortMapHi else rPortMapLo) = v
          ∧ (flag t rMapStatus 0 = true ↔ ¬ (reg t rPortMapLo = 0x76543210 ∧ reg t rPortMapHi = 0xFEDCBA98))
          ∧ flag t rMapStatus 1 = flag s rMapStatus 1 ∧ MemSame s t ∧ t.pods = s.pods
          ∧ (∀ i, i < 8 → getF (reg s (if hi then rPortMapHi else rPortMapLo)) (4 * i) 4 ≠ getF v (4 * i) 4 →
              field t (rPort (getF v (4 * i) 4) 0x38) 20 4 = (if hi then 8 else 0) + i
              ∧ lstate t (toPort (getF v (4 * i) 4))
                = if enabled s (toPort (getF v (4 * i) 4)) = true ∧ func s (fLink (getF v (4 * i) 4)) ≠ 4 then 1 else 0)
          ∧ (∀ i, i < 8 → getF (reg s (if hi then rPortMapHi else rPortMapLo)) (4 * i) 4 = getF v (4 * i) 4 →
              lstate t (toPort (getF v (4 * i) 4)) = lstate s (toPort (getF v (4 * i) 4)))
          ∧ ∀ p : PortId, p.val / 8 ≠ (if hi then 1 else 0) → lstate t p = lstate s p)
    ∧ ∀ s : State, s.Inv → weaveActive s = false → weavePending s = false → reg s rPortMapLo = 0x76543210 → reg s rPortMapHi = 0xFEDCBA98 →
        ∃ t, exec (.prtPortMapWrite false 0x76543210) s = .next t ∧ reg t rPortMapLo = 0x76543210 ∧ flag t rMapStatus 0 = false
          ∧ flag t rMapStatus 1 = flag s rMapStatus 1 ∧ OnlyRegs [rPortMapLo, rMapStatus] s t

/-- The outcome of port `p` in `t`, DARK_EXPECTED (2), SURPLUS (3) or MISWIRED (4), is recorded: the port's bit and the outcome's of ERR_DISC are set,
and where stream 0 was ENABLED a discovery event that names them is the first record new on the admin ring. -/
def Sys2Proof.Claims.OutcomeRecorded (s t : State) (p : PortId) : Prop :=
  flag t rErrDisc p.val = true ∧ flag t rErrDisc (14 + outcome t p) = true
    ∧ (strmState s 0 = 1 → ∃ r l, (strm t 0).records = (strm s 0).records ++ (r, false) :: l
        ∧ numAt r 0x3A 1 = 2 ∧ numAt r 0x20 8 = p.val ∧ numAt r 0x28 8 = outcome t p)

/-- DARK_EXPECTED, and an ANNOUNCE or a DELAY_RSP by which a port in TRAIN decides for SURPLUS or MISWIRED, set the port's bit and the outcome's bit
of ERR_DISC and post a discovery event on the admin ring, where stream 0 is ENABLED (the model's reading, log 34); a RETRAIN written to a port
in FLIT_HELD makes it train again: it leaves FLIT_HELD for DETECT, and the TRAIN it then enters clears its outcome, which is decided afresh. -/
def Obligations.DiscoveryOutcomesAreRecorded : Prop :=
  (∀ (p : PortId) (s : State), s.Inv → lstate s p = 1 → cabled s p = true → outcome s p ≠ 2 →
      ∃ t, exec (.darkExpected p) s = .next t ∧ outcome t p = 2 ∧ Sys2Proof.Claims.OutcomeRecorded s t p)
    ∧ (∀ (p : PortId) (b : List Byte) (s : State), s.Inv → lstate s p = 2 → 1 ≤ (port s p).train.step → (port s p).train.step < 4 →
        64 ≤ (port s p).train.delays.length → ∃ t, exec (.announce p b) s = .next t ∧ (flag s rPlace 31 = true → 1 ≤ outcome t p) ∧ outcome t p ≤ 5
          ∧ (port t p).train.step = 4 ∧ (outcome t p = 2 ∨ outcome t p = 3 ∨ outcome t p = 4 → Sys2Proof.Claims.OutcomeRecorded s t p))
    ∧ (∀ (p : PortId) (b peer : List Byte) (s : State), s.Inv → lstate s p = 2 → 1 ≤ (port s p).train.step → (port s p).train.step < 4 →
        (port s p).train.asked = true → (port s p).train.delays.length = 63 → (port s p).train.peer = some peer →
        ∃ t, exec (.delayRsp p b) s = .next t ∧ (flag s rPlace 31 = true → 1 ≤ outcome t p) ∧ outcome t p ≤ 5 ∧ (port t p).train.step = 4
          ∧ (outcome t p = 2 ∨ outcome t p = 3 ∨ outcome t p = 4 → Sys2Proof.Claims.OutcomeRecorded s t p))
    ∧ ∀ (p : PortId) (v : Word) (s : State), s.Inv → enabled s p = true → getB v 0 = true → lstate s p = 3 → func s (fLink p.val) ≠ 4 →
        ∃ t u, exec (.retrain p v) s = .next t ∧ lstate t p = 1 ∧ exec (.laneSignalDetect p) t = .next u ∧ lstate u p = 2 ∧ outcome u p = 0
/-! ## Pod operations -/

/-- A Pod's operation comes up and issues: the Pod is neither trapped nor halted, its clock runs (R354), no rule is breached (R131, R158), and nothing is left to
wait for (R160, R164) once what earlier operations still owe its registers and ranges is done. -/
def Sys2Proof.Claims.Issues (s : State) (p : PodId) (o : SlotOp) : Prop :=
  podTrapped s p = false ∧ podHalted s p = false ∧ podClockRuns s p = true ∧ opTraps (withPending s p) p o = [] ∧ opWaits (settleFor s p o) p o = false

/-- The device after an operation that leaves nothing but results: each is readable `n` Pod cycles after issue (R159, R162). -/
def Sys2Proof.Claims.result (u : State) (p : PodId) (o : SlotOp) (l : List (Dest × Nat)) (n : Nat) : State :=
  modPod (markVClass u p o) p (fun x => { x with
    pend := x.pend ++ l.map (fun e => ⟨x.core.nextOp, slotNo o, e.1, BitVec.ofNat 8192 e.2, x.core.cycle + n⟩)
    core := { x.core with nextOp := x.core.nextOp + 1 } })

/-- The device after operation `o` has given the results `l` of the Pod's registers, readable `n` cycles later, and nothing else. -/
def Sys2Proof.Claims.gives (s : State) (p : PodId) (o : SlotOp) (l : Pod → List (Dest × Nat)) (n : Nat) : State :=
  Sys2Proof.Claims.result (settleFor s p o) p o (l (pod (settleFor s p o) p)) n

/-- The Pod and the operation that a command stands for, where it is a Pod operation. -/
def Sys2Proof.Claims.operation : Instr → Option (PodId × SlotOp)
  | .meMma p f => some (p, .me 1 f) | .meDrain p f => some (p, .me 2 f) | .meBload p f => some (p, .me 3 f)
  | .teNload p f => some (p, .te 1 f) | .teFload p f => some (p, .te 2 f) | .teWin p f => some (p, .te 3 f)
  | .vuAdd p f => some (p, .vu 1 f) | .vuSub p f => some (p, .vu 2 f) | .vuMul p f => some (p, .vu 3 f)
  | .vuMin p f => some (p, .vu 4 f) | .vuMax p f => some (p, .vu 5 f) | .vuAbs p f => some (p, .vu 6 f)
  | .vuNeg p f => some (p, .vu 7 f) | .vuCmp p f => some (p, .vu 8 f) | .vuSel p f => some (p, .vu 9 f)
  | .vuAnd p f => some (p, .vu 0xA f) | .vuOr p f => some (p, .vu 0xB f) | .vuXor p f => some (p, .vu 0xC f)
  | .vuShl p f => some (p, .vu 0xD f) | .vuShr p f => some (p, .vu 0xE f) | .vuFma p f => some (p, .vu 0x10 f)
  | .vuCvt p f => some (p, .vu 0x11 f) | .vuXadd p f => some (p, .vu 0x12 f) | .vuXcvti p f => some (p, .vu 0x13 f)
  | .vuXcvto p f => some (p, .vu 0x14 f) | .vuMxq p f => some (p, .vu 0x15 f) | .vuRsum p f => some (p, .vu 0x18 f)
  | .vuRmax p f => some (p, .vu 0x19 f) | .vuRmin p f => some (p, .vu 0x1A f) | .vuRargmax p f => some (p, .vu 0x1B f)
  | .vuSamov p f => some (p, .vu 0x1C f) | .vuSort p f => some (p, .vu 0x20 f) | .vuMerge p f => some (p, .vu 0x21 f)
  | .vuTrans p f => some (p, .vu 0x24 f) | .vuBcast p f => some (p, .vu 0x28 f) | .vuMovs p f => some (p, .vu 0x29 f)
  | .mLdv p f => some (p, .mem 1 f) | .mStv p f => some (p, .mem 2 f) | .mLds p f => some (p, .mem 3 f)
  | .mSts p f => some (p, .mem 4 f) | .mMdld p f => some (p, .mem 5 f) | .mCopy p f => some (p, .mem 6 f)
  | .qFetch p f => some (p, .mem 8 f) | .qStore p f => some (p, .mem 9 f) | .qWait p f => some (p, .mem 0xA f)
  | .qPop p f => some (p, .mem 0xB f) | .qSel p f => some (p, .mem 0xC f) | .qSelord p f => some (p, .mem 0xD f)
  | .twSend p f => some (p, .mem 0x10 f) | .twFadd p f => some (p, .mem 0x11 f) | .twOcommit p f => some (p, .mem 0x12 f)
  | .geReq p f => some (p, .mem 0x14 f)
  | .cAdd p f => some (p, .ctl 1 f) | .cSub p f => some (p, .ctl 2 f) | .cAnd p f => some (p, .ctl 3 f)
  | .cOr p f => some (p, .ctl 4 f) | .cXor p f => some (p, .ctl 5 f) | .cShl p f => some (p, .ctl 6 f)
  | .cShr p f => some (p, .ctl 7 f) | .cMul p f => some (p, .ctl 8 f) | .cAddi p f => some (p, .ctl 9 f)
  | .cSlt p f => some (p, .ctl 0xA f) | .cLi p f => some (p, .ctl 0xB f) | .cLih p f => some (p, .ctl 0xC f)
  | .cBr p f => some (p, .ctl 0x10 f) | .cBz p f => some (p, .ctl 0x11 f) | .cJmp p f => some (p, .ctl 0x12 f)
  | .cCall p f => some (p, .ctl 0x13 f) | .cRet p f => some (p, .ctl 0x14 f) | .cLoop p f => some (p, .ctl 0x15 f)
  | .cIdle p f => some (p, .ctl 0x16 f) | .cFend p f => some (p, .ctl 0x18 f) | .cSync p f => some (p, .ctl 0x19 f)
  | .cStep p f => some (p, .ctl 0x1A f) | .cRds p f => some (p, .ctl 0x1B f) | .cCsrw p f => some (p, .ctl 0x1E f)
  | .cCsrr p f => some (p, .ctl 0x1F f)
  | _ => none

/-- Every Pod operation: a trapped or halted Pod issues none, nor one whose clock is stopped (log 29, log 2); a breach stops the Pod as TRAPPED, no longer RUNNING, records slot, bundle and one of
the causes in POD_TRAP_INFO, and faults the machine; an operation that has to wait changes nothing. A trap leaves memory and every other Pod
as they are. Which of several causes is recorded is open (Config.trapChoice).
For what the spec leaves open it follows the model's choices of log 25 and 47. -/
def Obligations.OperationsWaitOrTrap : Prop :=
  ∀ (i : Instr) (p : PodId) (o : SlotOp) (s : State), Sys2Proof.Claims.operation i = some (p, o) →
    (podTrapped s p = true ∨ podHalted s p = true ∨ podClockRuns s p = false → exec i s = .next s)
      ∧ (podTrapped s p = false → podHalted s p = false → podClockRuns s p = true → opTraps (withPending s p) p o = [] → opWaits (settleFor s p o) p o = true →
          exec i s = .next s)
      ∧ (s.Inv → podTrapped s p = false → podHalted s p = false → podClockRuns s p = true → opTraps (withPending s p) p o ≠ [] → ∃ t, exec i s = .next t
          ∧ podTrapped t p = true ∧ podRunning t p = false ∧ flag t (rPod p.val 0x104) 31 = true ∧ field t (rPod p.val 0x104) 24 4 = slotNo o
          ∧ field t (rPod p.val 0x104) 16 8 ∈ opTraps (withPending s p) p o ∧ field t (rPod p.val 0x104) 0 14 = pcOf s p
          ∧ flag t rFaultState 31 = true ∧ MemSame s t ∧ (∀ q, q ≠ p → pod t q = pod s q))

/-- Control arithmetic modulo 2^64 into S[RD], readable one cycle later, with nothing else changed: sums, differences, bitwise operations,
shifts by S[RB] mod 64, products, signed comparison, immediates, and the items of C.RDS. -/
def Obligations.ControlArithmeticGivesItsResult : Prop :=
  ∀ (p : PodId) (f : CtlFields) (s : State), s.Inv →
    (Sys2Proof.Claims.Issues s p (.ctl 1 f) → exec (.cAdd p f) s = .next
          (Sys2Proof.Claims.gives s p (.ctl 1 f) (fun x => [(destS f.rd, (sReg x f.ra + sReg x f.rb).toNat)]) 1))
    ∧ (Sys2Proof.Claims.Issues s p (.ctl 2 f) → exec (.cSub p f) s = .next
          (Sys2Proof.Claims.gives s p (.ctl 2 f) (fun x => [(destS f.rd, (sReg x f.ra - sReg x f.rb).toNat)]) 1))
    ∧ (Sys2Proof.Claims.Issues s p (.ctl 3 f) → exec (.cAnd p f) s = .next
          (Sys2Proof.Claims.gives s p (.ctl 3 f) (fun x => [(destS f.rd, (sReg x f.ra &&& sReg x f.rb).toNat)]) 1))
    ∧ (Sys2Proof.Claims.Issues s p (.ctl 4 f) → exec (.cOr p f) s = .next
          (Sys2Proof.Claims.gives s p (.ctl 4 f) (fun x => [(destS f.rd, (sReg x f.ra ||| sReg x f.rb).toNat)]) 1))
    ∧ (Sys2Proof.Claims.Issues s p (.ctl 5 f) → exec (.cXor p f) s = .next
          (Sys2Proof.Claims.gives s p (.ctl 5 f) (fun x => [(destS f.rd, (sReg x f.ra ^^^ sReg x f.rb).toNat)]) 1))
    ∧ (Sys2Proof.Claims.Issues s p (.ctl 6 f) → exec (.cShl p f) s = .next
          (Sys2Proof.Claims.gives s p (.ctl 6 f) (fun x => [(destS f.rd, sNum x f.ra * 2 ^ (sNum x f.rb % 64) % 2 ^ 64)]) 1))
    ∧ (Sys2Proof.Claims.Issues s p (.ctl 7 f) → exec (.cShr p f) s = .next
          (Sys2Proof.Claims.gives s p (.ctl 7 f) (fun x => [(destS f.rd, sNum x f.ra / 2 ^ (sNum x f.rb % 64))]) 1))
    ∧ (Sys2Proof.Claims.Issues s p (.ctl 8 f) → exec (.cMul p f) s = .next
          (Sys2Proof.Claims.gives s p (.ctl 8 f) (fun x => [(destS f.rd, sNum x f.ra * sNum x f.rb % 2 ^ 64)]) 1))
    ∧ (Sys2Proof.Claims.Issues s p (.ctl 9 f) → exec (.cAddi p f) s = .next
          (Sys2Proof.Claims.gives s p (.ctl 9 f) (fun x => [(destS f.rd, wrap 64 ((sNum x f.ra : Int) + f.imm.toInt))]) 1))
    ∧ (Sys2Proof.Claims.Issues s p (.ctl 0xA f) → exec (.cSlt p f) s = .next
          (Sys2Proof.Claims.gives s p (.ctl 0xA f) (fun x => [(destS f.rd, if (sReg x f.ra).toInt < (sReg x f.rb).toInt then 1 else 0)]) 1))
    ∧ (Sys2Proof.Claims.Issues s p (.ctl 0xB f) → exec (.cLi p f) s = .next
          (Sys2Proof.Claims.gives s p (.ctl 0xB f) (fun _ => [(destS f.rd, wrap 64 f.imm.toInt)]) 1))
    ∧ (Sys2Proof.Claims.Issues s p (.ctl 0xC f) → exec (.cLih p f) s = .next
          (Sys2Proof.Claims.gives s p (.ctl 0xC f) (fun x => [(destS f.rd, Nat.lor (sNum x f.ra) (f.imm.toNat * 2 ^ 27))]) 1))
    ∧ (f.imm = 0 → (Sys2Proof.Claims.Issues s p (.ctl 0x1B f) → exec (.cRds p f) s = .next
          (Sys2Proof.Claims.gives s p (.ctl 0x1B f) (fun _ => [(destS f.rd, s.stake.frame)]) 1)))
    ∧ (f.imm = 1 → (Sys2Proof.Claims.Issues s p (.ctl 0x1B f) → exec (.cRds p f) s = .next
          (Sys2Proof.Claims.gives s p (.ctl 0x1B f) (fun _ => [(destS f.rd, reg64 s (rPod p.val 0x900))]) 1)))
    ∧ (f.imm = 2 → (Sys2Proof.Claims.Issues s p (.ctl 0x1B f) → exec (.cRds p f) s = .next
          (Sys2Proof.Claims.gives s p (.ctl 0x1B f) (fun _ => [(destS f.rd, p.val)]) 1)))
    ∧ (f.imm = 3 → (Sys2Proof.Claims.Issues s p (.ctl 0x1B f) → exec (.cRds p f) s = .next
          (Sys2Proof.Claims.gives s p (.ctl 0x1B f) (fun x => [(destS f.rd, x.core.cycle - x.core.resumeCycle)]) 1)))
    ∧ (f.imm = 4 → (Sys2Proof.Claims.Issues s p (.ctl 0x1B f) → exec (.cRds p f) s = .next
          (Sys2Proof.Claims.gives s p (.ctl 0x1B f) (fun _ => [(destS f.rd, tick s)]) 1)))

/-- `t` is `u` with the control core of `p` sent to bundle `n` at the branch cost, with the open loops and the call stack given. -/
def Sys2Proof.Claims.Branched (u t : State) (p : PodId) (n : Nat) (loops : List Loop) (stack : List (BitVec 14)) : Prop :=
  pcOf t p = n % 16384 ∧ (∀ b, 14 ≤ b → flag t (rPod p.val 0x100) b = flag u (rPod p.val 0x100) b)
    ∧ t = { u with regs := t.regs, pods := t.pods } ∧ RegsBut [rPod p.val 0x100] u t ∧ (∀ q, q ≠ p → pod t q = pod u q)
    ∧ pod t p = { pod u p with
        loops := loops
        stack := stack
        core := { (pod u p).core with
          beyond := decide (16384 ≤ n), holdUntil := (pod u p).core.cycle + (if isA1 u then 3 else 2 + getF (pReg u p 0x914) 4 4)
          holdIdle := false } }

/-- Branches: C.BR and C.BZ test S[RA]; a taken branch and C.JMP close the loops that do not hold the target; C.CALL stacks the next bundle,
C.RET goes to the stacked one; C.LOOP opens a loop from the next bundle with S[RA] in its counter, or passes it by where S[RA] is 0; C.IDLE
holds the core for IMM cycles. A branch not taken leaves the next bundle to the bundle's own advance. -/
def Obligations.BranchesMoveTheCore : Prop :=
  ∀ (p : PodId) (f : CtlFields) (s : State), s.Inv →
    (Sys2Proof.Claims.Issues s p (.ctl 0x10 f) →
      (sNum (pod (settleFor s p (.ctl 0x10 f)) p) f.ra ≠ 0 → ∃ t, exec (.cBr p f) s = .next t
        ∧ Sys2Proof.Claims.Branched (settleFor s p (.ctl 0x10 f)) t p (ctlTarget f)
            (closeLoops (ctlTarget f) (pod s p).loops) (pod s p).stack)
      ∧ (sNum (pod (settleFor s p (.ctl 0x10 f)) p) f.ra = 0 → exec (.cBr p f) s = .next (settleFor s p (.ctl 0x10 f))))
    ∧ (Sys2Proof.Claims.Issues s p (.ctl 0x11 f) →
      (sNum (pod (settleFor s p (.ctl 0x11 f)) p) f.ra = 0 → ∃ t, exec (.cBz p f) s = .next t
        ∧ Sys2Proof.Claims.Branched (settleFor s p (.ctl 0x11 f)) t p (ctlTarget f)
            (closeLoops (ctlTarget f) (pod s p).loops) (pod s p).stack)
      ∧ (sNum (pod (settleFor s p (.ctl 0x11 f)) p) f.ra ≠ 0 → exec (.cBz p f) s = .next (settleFor s p (.ctl 0x11 f))))
    ∧ (Sys2Proof.Claims.Issues s p (.ctl 0x12 f) → ∃ t, exec (.cJmp p f) s = .next t
        ∧ Sys2Proof.Claims.Branched (settleFor s p (.ctl 0x12 f)) t p (ctlTarget f)
            (closeLoops (ctlTarget f) (pod s p).loops) (pod s p).stack)
    ∧ (Sys2Proof.Claims.Issues s p (.ctl 0x13 f) → ∃ t, exec (.cCall p f) s = .next t
        ∧ Sys2Proof.Claims.Branched (settleFor s p (.ctl 0x13 f)) t p (ctlTarget f) (pod s p).loops
            (BitVec.ofNat 14 (pcOf s p + 1) :: (pod s p).stack))
    ∧ (∀ (b : BitVec 14) (l : List (BitVec 14)), (pod s p).stack = b :: l → Sys2Proof.Claims.Issues s p (.ctl 0x14 f) →
        ∃ t, exec (.cRet p f) s = .next t
          ∧ Sys2Proof.Claims.Branched (settleFor s p (.ctl 0x14 f)) t p b.toNat (pod s p).loops l)
    ∧ (Sys2Proof.Claims.Issues s p (.ctl 0x15 f) →
      (sNum (pod (settleFor s p (.ctl 0x15 f)) p) f.ra = 0 → ∃ t, exec (.cLoop p f) s = .next t
        ∧ Sys2Proof.Claims.Branched (settleFor s p (.ctl 0x15 f)) t p (ctlTarget f + 1) (pod s p).loops (pod s p).stack)
      ∧ (sNum (pod (settleFor s p (.ctl 0x15 f)) p) f.ra ≠ 0 → exec (.cLoop p f) s = .next
          (modPod (settleFor s p (.ctl 0x15 f)) p (fun x => { x with
            lc := vput x.lc (loopLc f) ((sReg x f.ra).setWidth 32), loops := ⟨pcOf s p + 1, ctlTarget f, loopLc f⟩ :: x.loops }))))
    ∧ (Sys2Proof.Claims.Issues s p (.ctl 0x16 f) → exec (.cIdle p f) s = .next
        (modCore (settleFor s p (.ctl 0x16 f)) p (fun k => { k with holdUntil := k.cycle + f.imm.toNat, holdIdle := true })))

/-- The work of class `i` of C.SYNC's mask has completed (R155): 0 the Matrix Engines, 1 the Vector Unit's results, 2 the Tree Engine's windows and
loads, 3 stores and copies, 4 the queues' tokens, 5 gather requests. -/
def Sys2Proof.Claims.ClassDone (t : State) (p : PodId) (i : Nat) : Prop :=
  (i = 0 → (pod t p).mmas = [] ∧ (∀ e ∈ (pod t p).me.toList, e.forming = [] ∧ e.drains = [])
      ∧ ∀ r ∈ (pod t p).ranges, r.cls = 0 → r.due = none)
    ∧ (i = 1 → ∀ w ∈ (pod t p).pend, w.slot ≠ 1)
    ∧ (i = 2 → (pod t p).te.windows = [] ∧ (pod t p).te.nloads = [] ∧ ∀ h ∈ (pod t p).te.halves.toList, h.loads = [])
    ∧ (i = 3 → ∀ r ∈ (pod t p).ranges, r.cls = 3 → r.due = none)
    ∧ (i = 4 → ∀ q : Fin 8, (outQ (pod t p) q).tokens = [])
    ∧ (i = 5 → gathersOut (pod t p) = 0)

/-- C.FEND marks the Pod AT_FEND with the tick and the step, once the Matrix Engines, the Vector Unit, the Tree Engine and the stores have completed,
empties the call stack and the loops, and sets the next bundle. C.SYNC issues when the classes that IMM[5:0] names have completed, and one that
names none of the first four changes nothing. C.STEP advances the step counter and clears the draws. C.CSRW writes
the writable bits of the Pod's own block, POD_TE_CFG once the Tree Engine is idle, and drops the rest; C.CSRR reads one, in four cycles. -/
def Obligations.FrameEndBarriersAndOwnRegisters : Prop :=
  ∀ (p : PodId) (f : CtlFields) (s : State), s.Inv →
    (Sys2Proof.Claims.Issues s p (.ctl 0x18 f) → ∃ t, exec (.cFend p f) s = .next t ∧ podAtFend t p = true ∧ pcOf t p = ctlTarget f
        ∧ (pod t p).stack = [] ∧ (pod t p).loops = [] ∧ (pod t p).core.fendTick = some (tick s)
        ∧ (pod t p).core.fendStep = BitVec.ofNat 64 (stepCount s p) ∧ (∀ i, i < 4 → Sys2Proof.Claims.ClassDone t p i))
    ∧ (Sys2Proof.Claims.Issues s p (.ctl 0x19 f) → ∃ t, exec (.cSync p f) s = .next t
        ∧ (∀ i, i < 6 → getB f.imm i = true → Sys2Proof.Claims.ClassDone t p i) ∧ (getF f.imm 0 4 = 0 → t = s)
        ∧ (∀ q, q ≠ p → pod t q = pod s q)
        ∧ ((∀ r ∈ (pod s p).ranges, r.digest = false) → RegsBut [rPod p.val 0x404, rPod p.val 0x408, rPod p.val 0x40C, rPod p.val 0x500,
            rPod p.val 0x508, rPod p.val 0x510, rPod p.val 0x514] s t))
    ∧ (Sys2Proof.Claims.Issues s p (.ctl 0x1A f) → ∃ t, exec (.cStep p f) s = .next t
        ∧ reg64 t (rPod p.val 0x900) = (reg64 s (rPod p.val 0x900) + 1) % 2 ^ 64 ∧ reg64 t (rPod p.val 0x608) = 0
        ∧ OnlyRegs [rPod p.val 0x900, rPod p.val 0x904, rPod p.val 0x608, rPod p.val 0x60C] (settleFor s p (.ctl 0x1A f)) t)
    ∧ (∀ v : Word, v = (sReg (pod (settleFor s p (.ctl 0x1E f)) p) f.ra).setWidth 32 → Sys2Proof.Claims.Issues s p (.ctl 0x1E f) →
        (∀ o, getF f.imm 0 16 = o → o = 0x400 ∨ o = 0x600 → ∃ t, exec (.cCsrw p f) s = .next t ∧ field t (rPod p.val o) 0 3 = getF v 0 3
          ∧ (∀ b, 3 ≤ b → flag t (rPod p.val o) b = flag s (rPod p.val o) b) ∧ OnlyRegs [rPod p.val o] (settleFor s p (.ctl 0x1E f)) t)
        ∧ (∀ o m, getF f.imm 0 16 = o → (o, m) ∈ [(0x404, 0x00FFFFFF), (0x508, 0x0000000F), (0x604, 0x0000003F)] →
            ∃ t, exec (.cCsrw p f) s = .next t ∧ reg t (rPod p.val o) = reg s (rPod p.val o) &&& ~~~(v &&& BitVec.ofNat 32 m)
              ∧ OnlyRegs [rPod p.val o] (settleFor s p (.ctl 0x1E f)) t)
        ∧ (getF f.imm 0 16 = 0xA00 → getF v 8 8 ≠ 0 → ∃ t, exec (.cCsrw p f) s = .next t ∧ (pod t p).posts = (pod s p).posts
            ++ [⟨toStream (getF v 0 6), getF v 8 8, BitVec.ofNat 64 (stepCount s p), s.misc.weightNow, false⟩] ∧ t.regs = s.regs
          ∧ MemSame (settleFor s p (.ctl 0x1E f)) t)
        ∧ (getF f.imm 0 16 = 0x500 → ∃ t, exec (.cCsrw p f) s = .next t ∧ reg t (rPod p.val 0x500) = v &&& 0x07FFFF01
          ∧ (pod t p).te.heldCfg = none ∧ (∀ q, q ≠ p → pod t q = pod s q) ∧ MemSame (settleFor s p (.ctl 0x1E f)) t
          ∧ RegsBut [rPod p.val 0x500] (settleFor s p (.ctl 0x1E f)) t)
        ∧ (getF f.imm 0 16 ∉ [0x400, 0x404, 0x500, 0x508, 0x600, 0x604, 0xA00] →
            exec (.cCsrw p f) s = .next (settleFor s p (.ctl 0x1E f))))
    ∧ (∀ o, getF f.imm 0 16 = o → o ∈ [0x100, 0x104, 0x108, 0x400, 0x404, 0x500, 0x508, 0x600, 0x604] →
        (Sys2Proof.Claims.Issues s p (.ctl 0x1F f) → exec (.cCsrr p f) s = .next
              (Sys2Proof.Claims.gives s p (.ctl 0x1F f) (fun _ => [(destS f.rd, (reg s (rPod p.val o)).toNat)]) 4)))

/-- `t` is `u` with Pod `p` changed and no other Pod. -/
def Sys2Proof.Claims.PodOnly (u t : State) (p : PodId) : Prop := t = { u with pods := t.pods } ∧ ∀ q, q ≠ p → pod t q = pod u q

/-- A result of slot `n` in flight for the operation about to issue. -/
def Sys2Proof.Claims.owed (x : Pod) (slot : Nat) (d : Dest) (v due : Nat) : PendWrite :=
  ⟨x.core.nextOp, slot, d, BitVec.ofNat 8192 v, x.core.cycle + due⟩

/-- No ECC event stands in [a, a + n) of the Pod's store. -/
def Sys2Proof.Claims.Sane (u : State) (p : PodId) (a n : Nat) : Prop := eccIn u 1 (podAddr p a) n = [] ∧ eccIn u 2 (podAddr p a) n = []

/-- A load asks the banks for its line with the bytes of the store in flight for its register, readable 4 cycles later from near store, 9 from
Husk store. A store holds its range and writes its bytes 3 or 8 cycles later, when they become visible; M.COPY reads its source over its cycles
and writes it later. The lines of each stand at the banks (LineStream), and the bytes follow the store until the banks grant them
(PodCyclesIssueOrCountAStall). -/
def Obligations.LoadsStoresAndCopiesMoveBytes : Prop :=
  ∀ (p : PodId) (f : MemFields) (s : State),
    (∀ (i : Instr) (c n : Nat) (d : Dest), (i, c, n, d) ∈ [(Instr.mLdv p f, 1, 1024, destV f.rd), (.mLds p f, 3, 8, destS f.rd),
          (.mMdld p f, 5, 64, .md (fin 16 (by decide) f.rd.toNat))] → Sys2Proof.Claims.Issues s p (.mem c f) →
        ∀ (u : State) (x : Pod) (a : Nat), u = settleFor s p (.mem c f) → x = pod u p →
        a = wrap 64 ((sNum x f.ra : Int) + f.imm.toInt * (if c = 3 then 8 else 64)) →
        ∃ t : State, exec i s = .next t ∧ (Sys2Proof.Claims.Sane u p a n → Sys2Proof.Claims.PodOnly u t p) ∧ MemSame u t
          ∧ (pod t p).pend = x.pend ++ [Sys2Proof.Claims.owed x 3 d (leNat (memRead u (podAddr p a) n)) (if 0x1000000 ≤ a then 9 else 4)]
          ∧ (pod t p).lines = x.lines ++ [oneStep x.core.nextOp 2 x.core.nextOp false a n x.core.cycle]
          ∧ (pod t p).reads = x.reads ++ [⟨x.core.nextOp, .result, [(a, n)]⟩]
          ∧ (pod t p).s = x.s ∧ (pod t p).v = x.v ∧ (pod t p).m = x.m ∧ (pod t p).md = x.md ∧ (pod t p).ranges = x.ranges)
    ∧ (∀ (i : Instr) (c n : Nat), (i, c, n) ∈ [(Instr.mStv p f, 2, 1024), (.mSts p f, 4, 8)] → Sys2Proof.Claims.Issues s p (.mem c f) →
        ∀ (u : State) (x : Pod) (a : Nat), u = settleFor s p (.mem c f) → x = pod u p →
        a = wrap 64 ((sNum x f.ra : Int) + f.imm.toInt * (if c = 4 then 8 else 64)) →
        ∃ t : State, exec i s = .next t ∧ (locating u p = false → Sys2Proof.Claims.PodOnly u t p) ∧ (pod t p).pend = x.pend ∧ (pod t p).s = x.s ∧ (pod t p).v = x.v
          ∧ (pod t p).ranges = x.ranges ++ [⟨x.core.nextOp, 3, true, a / 64 * 64, ceilTo 64 (a + n), false,
              some (x.core.cycle + (if 0x1000000 ≤ a then 8 else 3)),
              [(podAddr p a, leBytes n (if c = 2 then (vReg x f.rd).toNat else sNum x f.rd))], [], false⟩]
          ∧ (pod t p).lines = x.lines ++ [oneStep x.core.nextOp 2 x.core.nextOp true a n x.core.cycle])
    ∧ (Sys2Proof.Claims.Issues s p (.mem 6 f) → ∀ (u : State) (x : Pod) (src dst n : Nat), u = settleFor s p (.mem 6 f) → x = pod u p → src = sNum x f.ra →
        dst = sNum x f.rd → n = (f.imm.toNat + 1) * 64 →
        ∃ (t : State) (r w : StoreRange), exec (.mCopy p f) s = .next t ∧ (locating u p = false → Sys2Proof.Claims.Sane u p src n → Sys2Proof.Claims.PodOnly u t p) ∧ (pod t p).pend = x.pend
          ∧ (pod t p).ranges = x.ranges ++ [r, w] ∧ r.write = false ∧ r.lo = src ∧ r.hi = src + n ∧ r.writes = []
          ∧ r.due = some (x.core.cycle + ceilDiv n 128) ∧ w.write = true ∧ w.lo = dst ∧ w.hi = dst + n
          ∧ w.due = some (x.core.cycle + (if 0x1000000 ≤ src then 8 else 3) + ceilDiv n 128 + (if 0x1000000 ≤ dst then 8 else 3))
          ∧ w.digest = true ∧ w.writes = [(podAddr p dst, memRead u (podAddr p src) n)] ∧ (pod t p).reads = x.reads ++ [⟨x.core.nextOp, .copy dst, [(src, n)]⟩])

/-- The token that an operation puts on queue `q`. -/
def Sys2Proof.Claims.newToken (u : State) (p : PodId) (q : Fin 8) (k : TokenKind) (root store len : Nat) (data : List Byte) (dst : Nat) : Token :=
  ⟨(outQ (pod u p) q).nextSeq, k, (pod u p).core.nextOp, tick u, weaveFrame u, false, false, root, store, len, data, dst⟩

/-- `t` is `u` with one token more on queue `q`: the next number is taken, and S[RT] will hold the token in one cycle. -/
def Sys2Proof.Claims.Queued (u t : State) (p : PodId) (q : Fin 8) (rt : BitVec 5) (k : Token) : Prop :=
  outQ (pod t p) q = ⟨(outQ (pod u p) q).nextSeq + 1, (outQ (pod u p) q).tokens ++ [k]⟩
    ∧ (pod t p).pend = (pod u p).pend ++ [Sys2Proof.Claims.owed (pod u p) 3 (destS rt)
        (q.val * 2 ^ 32 + (outQ (pod u p) q).nextSeq.toNat) 1]
    ∧ MemSame u t ∧ (pod t p).s = (pod u p).s ∧ (pod t p).v = (pod u p).v

/-- Queue operations. Q.FETCH, Q.STORE and GE.REQ put a token on their queue and hold their ranges; a Q.STORE's source stands at the banks from the
next cycle on, its bytes those of the store until they grant it. Q.WAIT
answers 0 for a completed token; its timeout answers 1. Q.POP takes the oldest visible entry, or answers 0. Q.SEL and Q.SELORD answer with
the queue whose head has completed, or 16 where no queue of the mask holds an outstanding token. -/
def Obligations.QueueOperationsTakeTokens : Prop :=
  ∀ (p : PodId) (f : MemFields) (s : State), s.Inv →
    (Sys2Proof.Claims.Issues s p (.mem 8 f) → ∀ (u : State) (x : Pod), u = settleFor s p (.mem 8 f) → x = pod u p → ∃ t : State, exec (.qFetch p f) s = .next t
        ∧ Sys2Proof.Claims.Queued u t p (queueIx f.q.toNat) f.rt
            (Sys2Proof.Claims.newToken u p (queueIx f.q.toNat) .fetch (sNum x f.ra) (sNum x f.rd) ((f.imm.toNat + 1) * 64) [] 0)
        ∧ (pod t p).ranges = x.ranges ++ [⟨x.core.nextOp, 4, true, sNum x f.rd, sNum x f.rd + (f.imm.toNat + 1) * 64, false, none, [], [], false⟩]
        ∧ RegsBut [rPod p.val (0x800 + 4 * (f.q.toNat % 8))] u t ∧ t = { u with regs := t.regs, pods := t.pods })
    ∧ (Sys2Proof.Claims.Issues s p (.mem 9 f) → ∀ (u : State) (x : Pod), u = settleFor s p (.mem 9 f) → x = pod u p → ∃ t : State, exec (.qStore p f) s = .next t
        ∧ Sys2Proof.Claims.Queued u t p (queueIx f.q.toNat) f.rt (Sys2Proof.Claims.newToken u p (queueIx f.q.toNat) .store (sNum x f.rd)
            (sNum x f.ra) ((f.imm.toNat + 1) * 64) (memRead u (podAddr p (sNum x f.ra)) ((f.imm.toNat + 1) * 64)) 0)
        ∧ (pod t p).ranges = x.ranges ++ [⟨x.core.nextOp, 4, false, sNum x f.ra, sNum x f.ra + (f.imm.toNat + 1) * 64, false, none, [], [], false⟩]
        ∧ (Sys2Proof.Claims.Sane u p (sNum x f.ra) ((f.imm.toNat + 1) * 64) →
            RegsBut [rPod p.val (0x800 + 4 * (f.q.toNat % 8))] u t ∧ t = { u with regs := t.regs, pods := t.pods }))
    ∧ (Sys2Proof.Claims.Issues s p (.mem 0x14 f) → ∀ (u : State) (x : Pod), u = settleFor s p (.mem 0x14 f) → x = pod u p → ∃ t : State, exec (.geReq p f) s = .next t
        ∧ Sys2Proof.Claims.Queued u t p (queueIx f.q.toNat) f.rt (Sys2Proof.Claims.newToken u p (queueIx f.q.toNat) .gather 0 0 0 [] 0)
        ∧ (pod t p).gathers = x.gathers ++ [⟨x.core.nextOp, sNum x f.ra, queueIx f.q.toNat, (outQ x (queueIx f.q.toNat)).nextSeq,
            BitVec.ofNat 64 (stepCount s p)⟩]
        ∧ RegsBut [rPod p.val (0x800 + 4 * (f.q.toNat % 8))] u t ∧ t = { u with regs := t.regs, pods := t.pods })
    ∧ (tokenOut (pod (settleFor s p (.mem 0xA f)) p) (sReg (pod (settleFor s p (.mem 0xA f)) p) f.ra) = false →
        (Sys2Proof.Claims.Issues s p (.mem 0xA f) → exec (.qWait p f) s = .next
              (Sys2Proof.Claims.gives s p (.mem 0xA f) (fun _ => [(destS f.rd, 0)]) 1)) ∧ (podTrapped s p = false → podHalted s p = false → podClockRuns s p = true →
          opTraps (withPending s p) p (.mem 0xA f) = [] → exec (.qWaitTimeout p f) s = .next s))
    ∧ (podClockRuns s p = false → exec (.qWaitTimeout p f) s = .next s)
    ∧ (podTrapped s p = false → podHalted s p = false → podClockRuns s p = true → opTraps (withPending s p) p (.mem 0xA f) = [] → f.imm ≠ 0 →
        tokenOut (pod (settleFor s p (.mem 0xA f)) p) (sReg (pod (settleFor s p (.mem 0xA f)) p) f.ra) = true →
        exec (.qWaitTimeout p f) s
          = .next (Sys2Proof.Claims.result (settleFor s p (.mem 0xA f)) p (.mem 0xA f) [(destS f.rd, 1)] 1))
    ∧ (Sys2Proof.Claims.Issues s p (.mem 0xB f) → ∀ (u : State) (x : Pod), u = settleFor s p (.mem 0xB f) → x = pod u p →
        (visibleHead s p (queueIx f.q.toNat) = none → exec (.qPop p f) s
          = .next (Sys2Proof.Claims.result u p (.mem 0xB f) [(destS f.rt, 0)] (if 0x1000000 ≤ sNum x f.rd then 9 else 4)))
        ∧ ∀ e : Entry, visibleHead s p (queueIx f.q.toNat) = some e → ∃ t : State, exec (.qPop p f) s = .next t ∧ Sys2Proof.Claims.PodOnly u t p
          ∧ vget (pod t p).inq (queueIx f.q.toNat) = (vget x.inq (queueIx f.q.toNat)).tail
          ∧ (pod t p).pend = x.pend ++ [Sys2Proof.Claims.owed x 3 (destS f.rt) 1 (if 0x1000000 ≤ sNum x f.rd then 9 else 4)]
          ∧ (pod t p).ranges = x.ranges ++ [⟨x.core.nextOp, 6, true, sNum x f.rd, sNum x f.rd + 64, false,
              some (x.core.cycle + (if 0x1000000 ≤ sNum x f.rd then 9 else 4)), [(podAddr p (sNum x f.rd), sliceB e.bytes 0 64)], [], false⟩])
    ∧ (∀ (x : Pod) (n : Nat), x = pod (settleFor s p (.mem 0xC f)) p → Sys2Proof.Claims.Issues s p (.mem 0xC f) →
        (∃ l, maskSeen x f.imm.toNat = n :: l) ∨ (maskSeen x f.imm.toNat = [] ∧ n = 16) →
        exec (.qSel p f) s = .next (modCore (Sys2Proof.Claims.result (settleFor s p (.mem 0xC f)) p (.mem 0xC f) [(destS f.rd, n)] 1) p
          (fun k => { k with selSeen := [] })))
    ∧ (∀ x : Pod, x = pod (settleFor s p (.mem 0xD f)) p → Sys2Proof.Claims.Issues s p (.mem 0xD f) →
        ∃ n, ((maskOut x f.imm.toNat = [] ∧ maskSeen x f.imm.toNat = [] ∧ n = 16)
            ∨ (n ∈ maskSeen x f.imm.toNat ∧ ∀ q, q < n → q ∉ maskOut x f.imm.toNat ∧ q ∉ maskSeen x f.imm.toNat))
          ∧ exec (.qSelord p f) s = .next (modCore (Sys2Proof.Claims.result (settleFor s p (.mem 0xD f)) p (.mem 0xD f) [(destS f.rd, n)] 1) p
            (fun k => { k with selSeen := [] })))

/-- Nothing of Pod `p` is due, and none of its engines works: its clock runs, no result, range or landing write of it is due, no Tree Engine window
walks, and no Matrix Engine admits operands, rounds or waits for its operands. -/
def Sys2Proof.Claims.Resting (s : State) (p : PodId) : Prop :=
  podClockRuns s p = true ∧ s.dport.heldWrite = none ∧ (∀ e ∈ s.misc.netLines, e.1 ≠ p)
    ∧ (∀ w ∈ (pod s p).pend, (pod s p).core.cycle < w.due) ∧ (pod s p).mmas = [] ∧ (pod s p).te.windows = [] ∧ (pod s p).te.heldCfg = none
    ∧ (∀ r ∈ (pod s p).ranges, r.landing = [] ∧ ∀ d, r.due = some d → (pod s p).core.cycle < d)
    ∧ ∀ e : EngineId, (vget (pod s p).me e).drains = [] ∧ admitting (vget (pod s p).me e) (pod s p).core.cycle = []

/-- The last source line of the Pod's only TW operation `w` stands at the banks, which grant it in the present cycle: `data` are the bytes that `w`'s
token `tok` holds of its source [a, a + n). -/
def Sys2Proof.Claims.LastSourceLine (s : State) (p : PodId) (w : TwineSend) (l : LineStream) (tok : Token) (a n : Nat) : Prop :=
  (pod s p).sends = [w] ∧ (pod s p).reads = [⟨w.op, .token w.queue, [(a, n)]⟩] ∧ (pod s p).lines = [l] ∧ l.op = w.op ∧ l.rank = 4 ∧ l.write = false
    ∧ l.stepsLeft = 1 ∧ l.nextAt ≤ (pod s p).core.cycle ∧ l.width ≠ 0 ∧ a ≤ l.base ∧ l.base + l.width ≤ a + n
    ∧ (l.base < 0x1000000 → l.base + l.width ≤ 0x1000000)
    ∧ (grantLines (pod s p).core.cycle false [] (presented l)).2 = [] ∧ l.refused = []
    ∧ (outQ (pod s p) w.queue).tokens = [tok] ∧ tok.op = w.op ∧ tok.transferDone = false ∧ tok.data.length = n
    ∧ podRunning s p = false ∧ podHalted s p = false ∧ (∀ j ∈ s.misc.netJobs, j.pod ≠ p)

/-- `k` is the packet of `w` with the source bytes: those of the last line as the store holds them, the others as they have been read. -/
def Sys2Proof.Claims.Sent (s : State) (p : PodId) (w : TwineSend) (l : LineStream) (tok : Token) (a n : Nat) (k : Packet) : Prop :=
  ∃ data : List Byte, data.length = n ∧ k = twinePacket w.type w.src w.dst w.offset w.fence (w.pre ++ data)
    ∧ ∀ i, i < n → data.getD i 0 = (if l.base ≤ a + i ∧ a + i < l.base + l.width then (memRead s (podAddr p (a + i)) 1).getD 0 0 else tok.data.getD i 0)

/-- The twine packets of Pod operations. TW.SEND (WRITE, MSG or BYP by its channel), TW.FADD and TW.OCOMMIT, whose payload begins with its frame, put a
token on their queue and their source at the banks from the next cycle on. In the Pod cycle in which the banks grant the last source line, the
packet, with the bytes granted, goes onto the transmit list of its channel at the port of its route; a FENCE waits while earlier packets to the
same device are unconfirmed. Without a route the packet is discarded and counted, and its token completes. A WRITE or MSG to this device itself
asks the banks for its write, and once they have granted it the packet is delivered and its token completes.
For what the spec leaves open it follows the model's choices of log 20 and 57. -/
def Obligations.TwineOperationsSendPackets : Prop :=
  (∀ (p : PodId) (f : MemFields) (s : State), s.Inv →
    ∀ (i : Instr) (c : Nat) (k : TokenKind) (ty : Nat), (i, c, k, ty) ∈ [(Instr.twSend p f, 0x10, TokenKind.twSend, 8), (.twSend p f, 0x10, .twMsg, 0xD), (.twSend p f, 0x10, .twByp, 0xF),
          (.twFadd p f, 0x11, .twFadd, 9), (.twOcommit p f, 0x12, .twOcommit, 0xA)] → Sys2Proof.Claims.Issues s p (.mem c f) →
        (c = 0x10 → f.q.toNat % 4 = (if ty = 8 then 0 else if ty = 0xD then 1 else 2)) →
        ∀ (u : State) (x : Pod) (q : Fin 8) (a n : Nat), u = settleFor s p (.mem c f) → x = pod u p → q = queueIx f.q.toNat →
        a = sNum x f.ra → n = (f.imm.toNat + 1) * 64 →
        ∃ t : State, exec i s = .next t ∧ Sys2Proof.Claims.Queued u t p q f.rt (Sys2Proof.Claims.newToken u p q k 0 a n (memRead u (podAddr p a) n)
            (getF (sReg x f.rd) 0 24 / 512))
          ∧ (pod t p).ranges = x.ranges ++ [⟨x.core.nextOp, 4, false, a, a + n, false, none, [], [], false⟩]
          ∧ (pod t p).lines = x.lines ++ unitLines x.core.nextOp 2 false a n (x.core.cycle + 1)
          ∧ (pod t p).reads = x.reads ++ [⟨x.core.nextOp, .token q, [(a, n)]⟩]
          ∧ (pod t p).sends = x.sends ++ [⟨x.core.nextOp, q, ty, deviceCoord s * 512 + p.val * 8 + q.val, getF (sReg x f.rd) 0 24,
              getF (sReg x f.rd) 24 26 / 64, c = 0x10 && f.q.getLsbD 2, if c = 0x12 then leBytes 8 s.stake.frame ++ List.replicate 56 0 else [],
              unconfirmedTo u (getF (sReg x f.rd) 0 24 / 512)⟩]
          ∧ (Sys2Proof.Claims.Sane u p a n → t.ports = u.ports ∧ t.misc = u.misc ∧ RegsBut [rPod p.val (0x800 + 4 * q.val), rPod p.val 0x908] u t))
    ∧ (∀ (p : PodId) (s : State) (w : TwineSend) (l : LineStream) (tok : Token) (a n : Nat), s.Inv → Sys2Proof.Claims.Resting s p →
        Sys2Proof.Claims.LastSourceLine s p w l tok a n → ∃ (t : State) (k : Packet), exec (.podCycle p) s = .next t ∧ (pod t p).sends = []
        ∧ Sys2Proof.Claims.Sent s p w l tok a n k
        ∧ (∀ o : PortId, routeTo s (channelOf k) (devOf k.dst) = .out o → w.fence = false ∨ w.earlier = [] → t.misc.fenced = s.misc.fenced
          ∧ (k.type = 0xF → (port t o).txByp = (port s o).txByp ++ [(none, k)])
          ∧ (k.type = 0xD → (port t o).txRsp = (port s o).txRsp ++ [(none, k)])
          ∧ (k.type = 8 ∨ k.type = 9 ∨ k.type = 0xA → (port t o).txReq = (port s o).txReq ++ [(none, k)]))
        ∧ (routeTo s (channelOf k) (devOf k.dst) ≠ .none → w.fence = true → w.earlier ≠ [] → t.ports = s.ports
          ∧ t.misc.fenced = s.misc.fenced ++ [⟨k, w.earlier⟩])
        ∧ (routeTo s (channelOf k) (devOf k.dst) = .none → s.misc.fenced = [] → Sys2Proof.Claims.NoneReleased s →
          (outQ (pod t p) w.queue).tokens = [] ∧ flag t rErrTwine 0 = true
          ∧ reg64 t (rPort 0 0xB8) = (reg64 s (rPort 0 0xB8) + 1) % 2 ^ 64 ∧ MemSame s t)
        ∧ (k.type = 8 ∨ k.type = 0xD → devOf k.src = deviceCoord s → k.payload ≠ [] → s.misc.fenced = [] → Sys2Proof.Claims.NoneReleased s → Sys2Proof.Claims.Deliverable s none k →
          netJob s (.packet none k 0) = none → w.fence = false ∨ w.earlier = [] → Sys2Proof.Claims.WriteAsked s t (.packet none k 0) k k.payload))
    ∧ (∀ (p : PodId) (s : State) (w : TwineSend) (more : List TwineSend), s.Inv → Sys2Proof.Claims.Resting s p → (pod s p).sends = w :: more →
        podRunning s p = false → podHalted s p = false → (∀ j ∈ s.misc.netJobs, j.pod ≠ p) → sourceOpen (pod s p) w.op = true →
        (∀ l ∈ (pod s p).lines, (pod s p).core.cycle < l.nextAt) → ∃ t : State, exec (.podCycle p) s = .next t ∧ (pod t p).sends = w :: more
        ∧ t.ports = s.ports)
    ∧ ∀ (p : PodId) (s : State) (k : Packet) (j : NetJob) (tok : Token), s.Inv → Sys2Proof.Claims.Resting s p → podRunning s p = false → podHalted s p = false →
        (pod s p).sends = [] → (pod s p).lines = [] → s.misc.localReq = [k] → s.misc.fenced = [] → s.misc.netJobs = [j] → j.key = .packet none k 0 →
        j.pod = p → podOf k.dst = p → netDone s j = true → Sys2Proof.Claims.Deliverable s none k → k.type = 8 ∨ k.type = 0xD → devOf k.src = deviceCoord s →
        (outQ (pod s (podOf k.src)) (queueOf k.src)).tokens = [tok] → tok.kind = (if k.type = 8 then .twSend else .twMsg) →
        tok.dstDev = deviceCoord s → tok.transferDone = false → ∃ t : State, exec (.podCycle p) s = .next t
          ∧ vget (pod t p).inq (queueOf k.dst) = vget (pod s p).inq (queueOf k.dst) ++ [⟨twineEntry k, s.stake.frames, tick s, none⟩]
          ∧ (outQ (pod t (podOf k.src)) (queueOf k.src)).tokens = [] ∧ t.misc.localReq = [] ∧ MemSame s t
/-! ## Vector Unit, Matrix Engines, Tree Engine -/

/-- `t` follows a Vector Unit operation that has issued: results `r.1` in flight until its latency, flags `r.2` set in POD_VU_FLAGS, POD_VU_OPS
counted, and memory and the register files as they were. -/
def Sys2Proof.Claims.vector (s t : State) (p : PodId) (o : SlotOp) (r : State → Pod → List (Dest × Nat) × Nat) (n : State → Nat) : Prop :=
  ∀ (u : State) (x : Pod), u = settleFor s p o → x = pod u p →
    (pod t p).pend = x.pend ++ (r u x).1.map (fun e => Sys2Proof.Claims.owed x 1 e.1 e.2 (n u))
    ∧ reg t (rPod p.val 0x604) = reg u (rPod p.val 0x604) ||| BitVec.ofNat 32 (r u x).2
    ∧ reg64 t (rPod p.val 0x610) = (reg64 u (rPod p.val 0x610) + 1) % 2 ^ 64
    ∧ (pod t p).s = x.s ∧ (pod t p).v = x.v ∧ (pod t p).m = x.m ∧ (pod t p).md = x.md ∧ (∀ q, q ≠ p → pod t q = pod u q) ∧ MemSame u t
    ∧ RegsBut ([0x604, 0x608, 0x60C, 0x610, 0x614, 0x908].map (rPod p.val)) u t

/-- The latency of the basic operations: 4 cycles on A1, 3 and the pin on B0 (R138). -/
def Sys2Proof.Claims.basic (p : PodId) (a b : Nat) (u : State) : Nat := if isA1 u then a else b + getF (pReg u p 0x910) 12 4

/-- V[VD] with its active lanes replaced by what `g` gives of the lanes of V[VA] and V[VB], and the flags of the active lanes. -/
def Sys2Proof.Claims.lanesOf (f : VuFields) (x : Pod) (g : Nat → Nat → Nat × Nat) : List (Dest × Nat) × Nat :=
  let w := laneBits f.fmt.toNat
  let l := (pairLanes w (vReg x f.va) (vReg x f.vb)).map (fun e => g e.1 e.2)
  ([(destV f.vd, joinLanes w (mergeLanes (mReg x f.mask) (lanes w (vReg x f.vd)) (l.map (·.1))))], maskedFlags (mReg x f.mask) l)

/-- Lane arithmetic. An integer lane computes exactly, and a result outside its format is left open (Config.intOutOfRange); a float lane rounds
once in the mode named, with its flags. The bitwise operations, shifts by the lane of VB modulo the width, comparison into a mask, selection,
FMA with one rounding, broadcast and the move of one lane. Inactive lanes keep V[VD].
For what the spec leaves open it follows the model's choices of log 10. -/
def Obligations.VectorLanesAreComputed : Prop :=
  ∀ (p : PodId) (f : VuFields) (s : State), s.Inv →
    (∀ (i : Instr) (c : Nat), (i, c) ∈ [(Instr.vuAdd p f, 1), (.vuSub p f, 2), (.vuMul p f, 3), (.vuMin p f, 4), (.vuMax p f, 5), (.vuAbs p f, 6), (.vuNeg p f, 7)] →
        (Sys2Proof.Claims.Issues s p (.vu c f) → ∃ t, exec i s = .next t ∧
        Sys2Proof.Claims.vector s t p (.vu c f) (fun u x => Sys2Proof.Claims.lanesOf f x (fun a b =>
          if fmtIsInt f.fmt.toNat then
            let v := [intLane f.fmt.toNat a + intLane f.fmt.toNat b, intLane f.fmt.toNat a - intLane f.fmt.toNat b,
              intLane f.fmt.toNat a * intLane f.fmt.toNat b, min (intLane f.fmt.toNat a) (intLane f.fmt.toNat b),
              max (intLane f.fmt.toNat a) (intLane f.fmt.toNat b), ((intLane f.fmt.toNat a).natAbs : Int), -intLane f.fmt.toNat a].getD (c - 1) 0
            (if (intRange f.fmt.toNat).1 ≤ v ∧ v ≤ (intRange f.fmt.toNat).2 then wrap (laneBits f.fmt.toNat) v
              else (Config.intOutOfRange c f.fmt (BitVec.ofNat 32 a) (BitVec.ofNat 32 b)).toNat % 2 ^ laneBits f.fmt.toNat, 0)
          else
            let v := fpDecode f.fmt.toNat a
            let w := fpDecode f.fmt.toNat b
            if c = 1 then floatResult f.fmt.toNat (vuMode u p f 0) [v, w] (fpAdd (vuMode u p f 0) v w)
            else if c = 2 then floatResult f.fmt.toNat (vuMode u p f 0) [v, w] (fpAdd (vuMode u p f 0) v (fpNeg w))
            else if c = 3 then floatResult f.fmt.toNat (vuMode u p f 0) [v, w] (fpMul v w)
            else ((fpFinish f.fmt.toNat .rne ([fpMin v w, fpMax v w, fpAbs v, fpNeg v].getD (c - 4) v)).code, 0)))
          (Sys2Proof.Claims.basic p 4 3)))
    ∧ (∀ (i : Instr) (c : Nat) (g : Nat → Nat → Nat), (i, c, g) ∈ [(Instr.vuAnd p f, 0xA, Nat.land), (.vuOr p f, 0xB, Nat.lor), (.vuXor p f, 0xC, Nat.xor),
          (.vuShl p f, 0xD, fun a b => a * 2 ^ (b % laneBits f.fmt.toNat) % 2 ^ laneBits f.fmt.toNat),
          (.vuShr p f, 0xE, fun a b => if f.fmt = 0xB ∨ f.fmt = 0xD then
              wrap (laneBits f.fmt.toNat) (signed (laneBits f.fmt.toNat) a / (2 : Int) ^ (b % laneBits f.fmt.toNat))
            else a / 2 ^ (b % laneBits f.fmt.toNat))] →
        (Sys2Proof.Claims.Issues s p (.vu c f) → ∃ t, exec i s = .next t ∧
        Sys2Proof.Claims.vector s t p (.vu c f) (fun _ x => Sys2Proof.Claims.lanesOf f x (fun a b => (g a b, 0))) (Sys2Proof.Claims.basic p 4 3)))
    ∧ (Sys2Proof.Claims.Issues s p (.vu 8 f) → ∃ t, exec (.vuCmp p f) s = .next t ∧
        Sys2Proof.Claims.vector s t p (.vu 8 f) (fun _ x => ([(.m (fin 8 (by decide) f.vd.toNat),
        joinLanes 1 ((upTo (8192 / laneBits f.fmt.toNat)).map (fun j => b2n (if (mReg x f.mask).getLsbD j then
          vuCompare f.sub.toNat f.fmt.toNat (getF (vReg x f.va) (laneBits f.fmt.toNat * j) (laneBits f.fmt.toNat))
            (getF (vReg x f.vb) (laneBits f.fmt.toNat * j) (laneBits f.fmt.toNat))
          else (mReg x (f.vd.setWidth 3)).getLsbD j))))], 0)) (Sys2Proof.Claims.basic p 4 3))
    ∧ (Sys2Proof.Claims.Issues s p (.vu 9 f) → ∃ t, exec (.vuSel p f) s = .next t ∧
        Sys2Proof.Claims.vector s t p (.vu 9 f) (fun _ x => ([(destV f.vd,
        joinLanes (laneBits f.fmt.toNat) ((upTo (8192 / laneBits f.fmt.toNat)).map (fun j =>
          getF (if (mReg x f.mask).getLsbD j then vReg x f.va else vReg x f.vb) (laneBits f.fmt.toNat * j) (laneBits f.fmt.toNat))))], 0))
        (Sys2Proof.Claims.basic p 4 3))
    ∧ (Sys2Proof.Claims.Issues s p (.vu 0x10 f) → ∃ t, exec (.vuFma p f) s = .next t ∧
        Sys2Proof.Claims.vector s t p (.vu 0x10 f) (fun u x =>
        let w := laneBits f.fmt.toNat
        let r := (List.zip (pairLanes w (vReg x f.va) (vReg x f.vb)) (lanes w (vReg x f.vc))).map (fun e =>
          floatResult f.fmt.toNat (vuMode u p f 0) [fpDecode f.fmt.toNat e.1.1, fpDecode f.fmt.toNat e.1.2, fpDecode f.fmt.toNat e.2]
            (fpAdd (vuMode u p f 0) (fpMul (fpDecode f.fmt.toNat e.1.1) (fpDecode f.fmt.toNat e.1.2)) (fpDecode f.fmt.toNat e.2)))
        ([(destV f.vd, joinLanes w (mergeLanes (mReg x f.mask) (lanes w (vReg x f.vd)) (r.map (·.1))))], maskedFlags (mReg x f.mask) r))
        (Sys2Proof.Claims.basic p 5 4))
    ∧ (Sys2Proof.Claims.Issues s p (.vu 0x28 f) → ∃ t, exec (.vuBcast p f) s = .next t ∧
        Sys2Proof.Claims.vector s t p (.vu 0x28 f) (fun _ x => ([(destV f.vd,
        joinLanes (laneBits f.fmt.toNat) (List.replicate (8192 / laneBits f.fmt.toNat) (sNum x f.sreg)))], 0)) (fun _ => 2))
    ∧ (Sys2Proof.Claims.Issues s p (.vu 0x29 f) → ∃ t, exec (.vuMovs p f) s = .next t ∧
        Sys2Proof.Claims.vector s t p (.vu 0x29 f) (fun _ x => ([(destS f.vd,
        getF (vReg x f.va) (laneBits f.fmt.toNat * sNum x f.sreg) (laneBits f.fmt.toNat))], 0)) (Sys2Proof.Claims.basic p 4 3))

/-- Conversions, XPS and MX blocks, functions and sorting. VU.CVT converts each active element; XADD adds blocks; XCVTI and XCVTO convert into and
out of XPS; MXQ quantises blocks of 32; TRANS evaluates its function on each active lane. SORT gives the pairs of its source sorted by key,
and MERGE of two sorted sources gives both, sorted.
For what the spec leaves open it follows the model's choices of log 11 and 12. -/
def Obligations.VectorConversionsAndSorting : Prop :=
  ∀ (p : PodId) (f : VuFields) (s : State), s.Inv →
    (Sys2Proof.Claims.Issues s p (.vu 0x11 f) → ∃ t, exec (.vuCvt p f) s = .next t ∧
        Sys2Proof.Claims.vector s t p (.vu 0x11 f) (fun u x =>
        let r := cvtValue f.fmt.toNat f.fmt2.toNat (f.sub.toNat % 2) (flag u (rPod p.val 0x600) 2) (vuMode u p f) (mReg x f.mask) (vReg x f.va)
          (vReg x f.vd)
        ([(destV f.vd, r.1.toNat)], r.2)) (Sys2Proof.Claims.basic p 4 3))
    ∧ (Sys2Proof.Claims.Issues s p (.vu 0x12 f) → ∃ t, exec (.vuXadd p f) s = .next t ∧
        Sys2Proof.Claims.vector s t p (.vu 0x12 f) (fun _ x => ([(destV f.vd, masked32 (mReg x f.mask) (vReg x f.vd)
        (joinBlocks ((upTo 4).map (fun b => xpsAdd (regBlock (vReg x f.va) b) (regBlock (vReg x f.vb) b)))))], 0))
        (fun u => if isA1 u then 6 else 5 + getF (pReg u p 0x910) 8 4))
    ∧ (Sys2Proof.Claims.Issues s p (.vu 0x13 f) → ∃ t, exec (.vuXcvti p f) s = .next t ∧
        Sys2Proof.Claims.vector s t p (.vu 0x13 f) (fun u x =>
        let b := xcvtiBlocks (vuMode u p f 0) (vReg x f.va) (sReg x f.sreg)
        ([(destV f.vd, masked32 (mReg x f.mask) (vReg x f.vd) (joinBlocks b))], unionFlags (b.map xcvtiFlags)))
        (fun u => if isA1 u then 6 else 5 + getF (pReg u p 0x910) 8 4))
    ∧ (Sys2Proof.Claims.Issues s p (.vu 0x14 f) → ∃ t, exec (.vuXcvto p f) s = .next t ∧
        Sys2Proof.Claims.vector s t p (.vu 0x14 f) (fun u x =>
        let l := xcvtoLanes (vuMode u p f 0) (vReg x f.va) ++ ((lanes 32 (vReg x f.vd)).drop 144).map (fun v => (v, 0))
        ([(destV f.vd, joinLanes 32 (mergeLanes (mReg x f.mask) (lanes 32 (vReg x f.vd)) (l.map (·.1))))],
          Nat.lor (maskedFlags (mReg x f.mask) l) (unionFlags ((upTo 4).map (fun b => xcvtFlags (regBlock (vReg x f.va) b))))))
        (fun u => if isA1 u then 6 else 5 + getF (pReg u p 0x910) 8 4))
    ∧ (Sys2Proof.Claims.Issues s p (.vu 0x15 f) → ∃ t, exec (.vuMxq p f) s = .next t ∧
        Sys2Proof.Claims.vector s t p (.vu 0x15 f) (fun u x =>
        ([(destV f.vd, (mxqValue f.fmt2.toNat (vuMode u p f) (vReg x f.va)).1)], (mxqValue f.fmt2.toNat (vuMode u p f) (vReg x f.va)).2))
        (fun u => if isA1 u then 8 else 6 + getF (pReg u p 0x910) 4 4))
    ∧ (Sys2Proof.Claims.Issues s p (.vu 0x24 f) → ∃ t, exec (.vuTrans p f) s = .next t ∧
        Sys2Proof.Claims.vector s t p (.vu 0x24 f) (fun u x => Sys2Proof.Claims.lanesOf f x (fun a _ =>
        transLane (isA1 u || flag u (rPod p.val 0x600) 3) f.sub.toNat f.fmt.toNat (vuMode u p f 0) f.rmode.toNat a))
        (fun u => if isA1 u || flag u (rPod p.val 0x600) 3 then (if f.sub.toNat ≤ 3 then 24 else if f.sub.toNat ≤ 6 then 20 else 28)
          else (if f.sub.toNat ≤ 3 then 16 else if f.sub.toNat ≤ 6 then 14 else 18)))
    ∧ (∀ x : Pod, x = pod (settleFor s p (.vu 0x20 f)) p → ∃ l : List (Nat × Nat), l.Perm (keyPairs (vReg x f.va)
            (if f.sub.getLsbD 1 then vReg x f.vb else BitVec.ofNat 8192 (joinLanes 32 (upTo 256))))
        ∧ isSorted f.fmt.toNat (f.sub.getLsbD 0) l = true
        ∧ (Sys2Proof.Claims.Issues s p (.vu 0x20 f) → ∃ t, exec (.vuSort p f) s = .next t ∧
        Sys2Proof.Claims.vector s t p (.vu 0x20 f) (fun _ _ => ([(destV f.vd, (pairValues l).1),
            (destVn (f.vd.toNat + 1), (pairValues l).2)], 0)) (fun u => if isA1 u then 48 else 40 + getF (pReg u p 0x914) 12 4)))
    ∧ (∀ (x : Pod) (a b : List (Nat × Nat)), x = pod (settleFor s p (.vu 0x21 f)) p → a = keyPairs (vReg x f.va) (vReg x (f.va + 1)) →
        b = keyPairs (vReg x f.vb) (vReg x (f.vb + 1)) → isSorted f.fmt.toNat (f.sub.getLsbD 0) a = true →
        isSorted f.fmt.toNat (f.sub.getLsbD 0) b = true → ∃ l : List (Nat × Nat), l.Perm (a ++ b) ∧ isSorted f.fmt.toNat (f.sub.getLsbD 0) l = true
        ∧ (Sys2Proof.Claims.Issues s p (.vu 0x21 f) → ∃ t, exec (.vuMerge p f) s = .next t ∧
        Sys2Proof.Claims.vector s t p (.vu 0x21 f) (fun _ _ => ([(destV f.vd, (pairValues (l.take 256)).1),
            (destVn (f.vd.toNat + 1), (pairValues (l.take 256)).2), (destVn (f.vd.toNat + 2), (pairValues (l.drop 256)).1),
            (destVn (f.vd.toNat + 3), (pairValues (l.drop 256)).2)], 0)) (fun u => if isA1 u then 24 else 20 + getF (pReg u p 0x914) 8 4)))

/-- Reductions into a scalar accumulator: the fixed pairwise tree over the lanes, masked-off lanes as the identity, joined to the accumulator
unless START is ZERO; the largest lane and its index for RARGMAX. The value is readable at the RSUM latency; SAMOV moves value and index.
For what the spec leaves open it follows the model's choices of log 27. -/
def Obligations.ReductionsAccumulate : Prop :=
  ∀ (p : PodId) (f : VuFields) (s : State), s.Inv →
    (∀ (i : Instr) (c : Nat), (i, c) ∈ [(Instr.vuRsum p f, 0x18), (.vuRmax p f, 0x19), (.vuRmin p f, 0x1A)] → (Sys2Proof.Claims.Issues s p (.vu c f) → ∃ t, exec i s = .next t ∧
        Sys2Proof.Claims.vector s t p (.vu c f) (fun _ x =>
        let k := redKind f.fmt.toNat
        let t := redTree c k (if laneBits f.fmt.toNat = 32 then 8 else 9) (redLanes c f.fmt.toNat (mReg x f.mask) (vReg x f.va))
        let r := if f.start = 0 then (t.1, 0) else redOp c k (saNow x (saIx f)).val.toNat t.1
        ([(.sa (saIx f), r.1 % 2 ^ 32)], Nat.lor t.2 r.2)) (fun u => if isA1 u then 19 else 15 + getF (pReg u p 0x910) 0 4)))
    ∧ (Sys2Proof.Claims.Issues s p (.vu 0x1B f) → ∃ t, exec (.vuRargmax p f) s = .next t ∧
        Sys2Proof.Claims.vector s t p (.vu 0x1B f) (fun _ x =>
        let a := argmaxInto f.fmt.toNat (decide (f.start = 0)) (mReg x f.mask) (vReg x f.va) (saNow x (saIx f))
        ([(.sa (saIx f), a.val.toNat + 2 ^ 32 * a.idx.toNat)], 0)) (fun u => if isA1 u then 19 else 15 + getF (pReg u p 0x910) 0 4))
    ∧ (Sys2Proof.Claims.Issues s p (.vu 0x1C f) → ∃ t, exec (.vuSamov p f) s = .next t ∧
        Sys2Proof.Claims.vector s t p (.vu 0x1C f) (fun _ x =>
        ([(destS f.vd, (vget x.sa (saIx f)).val.toNat + 2 ^ 32 * (vget x.sa (saIx f)).idx.toNat)], 0)) (fun _ => 1))

/-- The first row and column of an operation's tile. -/
def Sys2Proof.Claims.tile (f : MeFields) (i j : Nat) : Nat × Nat :=
  if quadOf f < 4 then (quadRows (quadOf f) + i, quadCols (quadOf f) + j) else (i, j)

/-- ME.MMA of narrow formats gives each cell of its tile the start value and the products of every K block, of the operand bytes that stand in the
store at its issue, and the other accumulator none; a job holds those bytes until the banks have granted their lines (R167), which mends the
accumulators where a line then holds other bytes (finishMma; no clause of this statement); a
CONTINUE on another E_BASE marks its cells RANGE. Column mode adds the row's products to its 64 columns. The products are owed to POD_ME_PRODUCTS
until their operands enter. ME.DRAIN rounds each cell once and holds its range with the rows to write; POD_ME_FLAGS takes their bits as they are
written. ME.BLOAD takes 64 columns.
For what the spec leaves open it follows the model's choices of log 47 and 60. -/
def Obligations.MatrixEnginesAccumulateAndDrain : Prop :=
  ∀ (p : PodId) (f : MeFields) (s : State), s.Inv →
    (Sys2Proof.Claims.Issues s p (.me 1 f) → ∀ (u : State) (x : Pod) (d : MeDesc) (e : Engine), u = settleFor s p (.me 1 f) → x = pod u p → d = meDesc (mdReg x f.md) →
        e = vget x.me (engineOf f) → ∃ t : State, exec (.meMma p f) s = .next t ∧ MemSame u t ∧ (∀ q, q ≠ p → pod t q = pod u q)
        ∧ (∀ g : EngineId, g ≠ engineOf f → vget (pod t p).me g = vget x.me g)
        ∧ (isColFmt d.fmtA = false → baseMismatch f d e = false → ∀ i j : Nat, i < quadSize (quadOf f) → j < quadSize (quadOf f) →
            cellOf (vget (pod t p).me (engineOf f)) f.acc.toNat (Sys2Proof.Claims.tile f i j).1 (Sys2Proof.Claims.tile f i j).2
              = (upTo (kBlocks d.k)).foldl (fun a kb => accBlock d.eBase (rowScale u p (aScaled d) d.sa kb i) (rowScale u p (bScaled d) d.sb kb j)
                  (rowElems u p d.fmtA (d.a + sNum x f.areg) d.aStride d.k kb i) (rowElems u p d.fmtB (d.b + sNum x f.breg) d.bStride d.k kb j) a)
                (if f.start = 0 then Acc.zero
                  else if f.start = 2 then seedCell d.eBase (seedBlock u p (d.seed + sNum x f.breg + i * d.dstStride) (quadOf f) j).1
                    (seedBlock u p (d.seed + sNum x f.breg + i * d.dstStride) (quadOf f) j).2
                  else cellOf e f.acc.toNat (Sys2Proof.Claims.tile f i j).1 (Sys2Proof.Claims.tile f i j).2))
        ∧ (isColFmt d.fmtA = false → baseMismatch f d e = true → ∀ i j : Nat, i < quadSize (quadOf f) → j < quadSize (quadOf f) →
            cellOf (vget (pod t p).me (engineOf f)) f.acc.toNat (Sys2Proof.Claims.tile f i j).1 (Sys2Proof.Claims.tile f i j).2
              = { cellOf e f.acc.toNat (Sys2Proof.Claims.tile f i j).1 (Sys2Proof.Claims.tile f i j).2 with range := true })
        ∧ (isColFmt d.fmtA = false → ∀ b r c : Nat, b ≠ f.acc.toNat → r < 64 → c < 64 →
            cellOf (vget (pod t p).me (engineOf f)) b r c = cellOf e b r c)
        ∧ (isColFmt d.fmtA = true → ∀ j : Nat, j < 64 → colOf (vget (pod t p).me (engineOf f)) f.acc.toNat j
            = (List.zip ((upTo d.k).map (fun i => meElem d.fmtA (partA d) (numAt (memRead u (podAddr p (d.a + sNum x f.areg))
                  (d.k * colBytes d.fmtA)) (i * colBytes d.fmtA) (colBytes d.fmtA))))
                (bufElems (vget e.bufs (fin 2 (by decide) f.buf.toNat)) d j)).foldl (fun a y => colProduct a y.1 y.2)
                (if f.start = 0 then Col.zero
                  else if f.start = 2 then seedCol (seedBlock u p (d.seed + sNum x f.breg) 4 j).1 (seedBlock u p (d.seed + sNum x f.breg) 4 j).2
                  else colOf e f.acc.toNat j))
        ∧ reg64 t (rPod p.val 0x408) = reg64 u (rPod p.val 0x408)
        ∧ ∃ g : Forming, (vget (pod t p).me (engineOf f)).forming = e.forming ++ [g] ∧ g.op = x.core.nextOp
            ∧ g.left = (if isColFmt d.fmtA then 64 * d.k else quadSize (quadOf f) * quadSize (quadOf f) * d.k)
            ∧ ∃ j : MmaJob, (pod t p).mmas = x.mmas ++ [j] ∧ j.op = x.core.nextOp ∧ j.engine = engineOf f ∧ j.prior = e ∧ j.changed = false
              ∧ j.data = j.pieces.flatMap (fun y => memRead u (podAddr p y.1) y.2))
    ∧ (Sys2Proof.Claims.Issues s p (.me 2 f) → ∀ (u : State) (x : Pod) (d : MeDesc) (e : Engine), u = settleFor s p (.me 2 f) → x = pod u p → d = meDesc (mdReg x f.md) →
        e = vget x.me (engineOf f) → ∃ (t : State) (r : StoreRange), exec (.meDrain p f) s = .next t ∧ (locating u p = false → MemSame u t)
        ∧ (∀ q, q ≠ p → pod t q = pod u q)
        ∧ (vget (pod t p).me (engineOf f)).cells = e.cells ∧ (vget (pod t p).me (engineOf f)).cols = e.cols
        ∧ (pod t p).ranges = x.ranges ++ [r] ∧ r.write = true ∧ r.due.isSome = true ∧ r.landing = []
        ∧ reg t (rPod p.val 0x404) = reg u (rPod p.val 0x404)
        ∧ (d.target < 4 → r.writes = (upTo (opRows f d)).map (fun i => (podAddr p (d.dst + sNum x f.dreg + i * d.dstStride),
            (upTo (quadSize (quadOf f))).flatMap (fun j => leBytes (if d.target = 0 then 4 else if d.target = 1 then 2 else 1)
              (drainFloat d.target (flag u (rPod p.val 0x400) 2) (drainMode u p d) (drainAt f d e i j))))))
        ∧ (d.target = 4 → r.writes.map (·.1) = (upTo (opRows f d)).flatMap (fun i =>
              (upTo (if quadOf f < 4 then 1 else 2)).map (fun b => podAddr p (d.dst + sNum x f.dreg + i * d.dstStride + 256 * b)))
            ∧ r.writes.map (·.2) = (upTo (opRows f d)).flatMap (fun i => (drainBlocks f d (drainMode u p d) e i).map xpsBytes)))
    ∧ (Sys2Proof.Claims.Issues s p (.me 3 f) → ∀ (u : State) (x : Pod) (d : MeDesc) (e : Engine), u = settleFor s p (.me 3 f) → x = pod u p → d = meDesc (mdReg x f.md) →
        e = vget x.me (engineOf f) → ∃ (t : State) (b : BBuf), exec (.meBload p f) s = .next t ∧ MemSame u t ∧ (∀ q, q ≠ p → pod t q = pod u q)
        ∧ b = vget (vget (pod t p).me (engineOf f)).bufs (fin 2 (by decide) f.buf.toNat) ∧ b.fmt = BitVec.ofNat 4 d.fmtB ∧ b.k = d.k
        ∧ b.data = (upTo 64).flatMap (fun j => memRead u (podAddr p (d.b + sNum x f.breg + j * d.bStride)) (d.k * colBytes d.fmtB))
        ∧ b.ready.cyc = x.core.cycle + (if 0x1000000 ≤ d.b + sNum x f.breg then 7 + ceilDiv (64 * (d.k * colBytes d.fmtB)) 128
            else 2 + ceilDiv (64 * (d.k * colBytes d.fmtB)) 256)
        ∧ (vget (pod t p).me (engineOf f)).cells = e.cells)

/-- TE.NLOAD writes its slots into the node region, none past slot 4,095; TE.FLOAD takes F features of 64 samples into its half. TE.WIN counts a
window, records its walk length, and holds the range of a 640-byte record: the lanes' scores, the mask, the error mask and the window number,
written when TE_WINDOW_DONE releases it.
For what the spec leaves open it follows the model's choices of log 48. -/
def Obligations.TreeEngineLoadsAndWalks : Prop :=
  ∀ (p : PodId) (f : TeFields) (s : State), s.Inv →
    (Sys2Proof.Claims.Issues s p (.te 1 f) → ∀ (u : State) (x : Pod) (b : Word64), u = settleFor s p (.te 1 f) → x = pod u p → b = sReg x f.xb →
        ∃ t : State, exec (.teNload p f) s = .next t ∧ Sys2Proof.Claims.Stored u t (podAddr p (0xC00000 + getF b 0 6 * 0x10000 + 16 * getF b 6 12))
          ((memRead u (podAddr p (sNum x f.xa)) (16 * getF b 18 13)).take (16 * min (getF b 18 13) (4096 - getF b 6 12)))
        ∧ x.te.halves = (pod t p).te.halves ∧ (pod t p).pend = x.pend ∧ (∀ q, q ≠ p → pod t q = pod u q))
    ∧ (Sys2Proof.Claims.Issues s p (.te 2 f) → ∀ (u : State) (x : Pod) (n : Nat), u = settleFor s p (.te 2 f) → x = pod u p → n = getF (reg u (rPod p.val 0x500)) 16 11 + 1 →
        ∃ t : State, exec (.teFload p f) s = .next t ∧ MemSame u t ∧ (∀ q, q ≠ p → pod t q = pod u q)
        ∧ (vget (pod t p).te.halves (fin 2 (by decide) f.half.toNat)).features = n
        ∧ (∀ i, i < 64 * n → (vget (pod t p).te.halves (fin 2 (by decide) f.half.toNat)).words.getD i 0
            = BitVec.ofNat 32 (memNum u (podAddr p (sNum x f.xa + 4 * i)) 4))
        ∧ (∀ h : Fin 2, h ≠ fin 2 (by decide) f.half.toNat → vget (pod t p).te.halves h = vget x.te.halves h))
    ∧ (Sys2Proof.Claims.Issues s p (.te 3 f) → ∀ (u : State) (x : Pod), u = settleFor s p (.te 3 f) → x = pod u p → ∃ (t : State) (r : StoreRange) (w : Window) (b : List Byte), exec (.teWin p f) s = .next t
        ∧ (locating u p = false → MemSame u t) ∧ (pod t p).ranges = x.ranges ++ [r] ∧ (pod t p).te.windows = x.te.windows ++ [w]
        ∧ r.write = true ∧ r.due = some w.due ∧ w.length = walkLength u p
        ∧ w.due = x.core.cycle + walkLength u p + (if isA1 u then 17 else 16 + getF (pReg u p 0x914) 0 4)
        ∧ r.writes = [(podAddr p (sNum x f.xb), b)] ∧ b.length = 640
        ∧ (f.fmt = 0 → ∀ j : Nat, j < 64 → sliceB b (8 * j) 8 = leBytes 8 (if (sReg x f.xa).getLsbD j then
            wrap 64 (walkLane u p (vget x.te.halves (fin 2 (by decide) f.half.toNat)) j).1 else 0))
        ∧ sliceB b 512 8 = leBytes 8 (sNum x f.xa) ∧ sliceB b 528 8 = leBytes 8 (reg64 u (rPod p.val 0x518))
        ∧ (u.ecc = [] → ∀ j : Nat, j < 64 → (numAt b 520 8 / 2 ^ j % 2 = 1 ↔ (sReg x f.xa).getLsbD j = true
            ∧ (walkLane u p (vget x.te.halves (fin 2 (by decide) f.half.toNat)) j).2.1 ≠ 0))
        ∧ reg64 t (rPod p.val 0x518) = (reg64 u (rPod p.val 0x518) + 1) % 2 ^ 64 ∧ field t (rPod p.val 0x504) 0 17 = walkLength u p % 2 ^ 17)

/-! ## Pod cycles and what becomes due -/

/-- No twine packet is about to leave Pod `p`, and no transfer of the on-die network is open at its banks. -/
def Sys2Proof.Claims.NoTwine (s : State) (p : PodId) : Prop := (pod s p).sends = [] ∧ ∀ j ∈ s.misc.netJobs, j.pod ≠ p

/-- The bundle of the operations `ops` comes up for issue in Pod `p`, and no breakpoint stands on it. -/
def Sys2Proof.Claims.ComesUp (s : State) (p : PodId) (ops : List SlotOp) : Prop :=
  hasCode s p = true ∧ podHalted s p = false ∧ podRunning s p = true ∧ podAtFend s p = false ∧ (pod s p).core.resumeCycle ≤ (pod s p).core.cycle
    ∧ ((pod s p).core.frameBundles ≠ 0 ∨ (pod s p).core.cycle % 2 = 0) ∧ (pod s p).core.holdUntil ≤ (pod s p).core.cycle
    ∧ (pod s p).core.beyond = false ∧ (pod s p).core.upSince = none ∧ pcOf s p < (reg s (rPod p.val 0x108)).toNat
    ∧ (∀ n, vget (pod s p).breaks n ≠ some (BitVec.ofNat 14 (pcOf s p))) ∧ ops = bundleSlots ((pod s p).code.getD (pcOf s p) 0)

/-- The device as a bundle of Pod `p` has come up in it. -/
def Sys2Proof.Claims.up (s : State) (p : PodId) : State := modCore s p (fun k => { k with upSince := some k.cycle, selSeen := [] })

/-- As the bundle issues: the first of a frame is its resume bundle (R155). -/
def Sys2Proof.Claims.resumed (s : State) (p : PodId) : State :=
  modCore (Sys2Proof.Claims.up s p) p (fun k => if k.frameBundles = 0 then { k with resumeCycle := k.cycle } else k)

/-- A Pod cycle passes only while the Pod's clock runs (log 29, and log 2 for changing nothing). A halted Pod counts HALTED, one at its frame end
FRAME_END, and so does one whose frame has issued no bundle yet in a cycle of odd number; a bundle of no-operations that comes up issues, is counted,
and the next bundle follows. A bundle with operations that comes up traps on a breach, under no count (log 65); stalls under the lowest cause
present; or issues its operations in slot order, is counted, and goes to the next bundle unless an operation has set it: a C.ADDI leaves its sum
in flight, a C.JMP its target. The banks give a load the bytes that stand in the store in the cycle of their grant, and write a store's three
cycles later in near store; a refused line moves its operation one cycle on and counts BANK. -/
def Obligations.PodCyclesIssueOrCountAStall : Prop :=
  (∀ (p : PodId) (s : State), podClockRuns s p = false → exec (.podCycle p) s = .next s)
    ∧ (∀ (p : PodId) (s : State), s.Inv → podClockRuns s p = true → hasCode s p = false → s.dport.heldWrite = none → ∃ t : State, exec (.podCycle p) s = .next t
        ∧ (pod t p).core.cycle = (pod s p).core.cycle + 1 ∧ pcOf t p = pcOf s p
        ∧ (Sys2Proof.Claims.NoTwine s p → ∀ q, q ≠ p → pod t q = pod s q))
    ∧ (∀ (p : PodId) (s : State), s.Inv → podClockRuns s p = true → podHalted s p = true → s.dport.heldWrite = none →
        ∃ t : State, exec (.podCycle p) s = .next t ∧ (pod t p).core.cycle = (pod s p).core.cycle + 1
          ∧ reg64 t (rPod p.val 0x200) = (reg64 s (rPod p.val 0x200) + 1) % 2 ^ 64
          ∧ reg64 t (rPod p.val 0x110) = (reg64 s (rPod p.val 0x110) + 1) % 2 ^ 64 ∧ reg64 t (rPod p.val 0x118) = reg64 s (rPod p.val 0x118)
          ∧ pcOf t p = pcOf s p ∧ (Sys2Proof.Claims.NoTwine s p → ∀ q, q ≠ p → pod t q = pod s q))
    ∧ (∀ (p : PodId) (s : State), s.Inv → podClockRuns s p = true → hasCode s p = true → podHalted s p = false → podRunning s p = true →
        podAtFend s p = true → s.dport.heldWrite = none → ∃ t : State, exec (.podCycle p) s = .next t
          ∧ reg64 t (rPod p.val 0x208) = (reg64 s (rPod p.val 0x208) + 1) % 2 ^ 64
          ∧ reg64 t (rPod p.val 0x110) = (reg64 s (rPod p.val 0x110) + 1) % 2 ^ 64 ∧ pcOf t p = pcOf s p
          ∧ (Sys2Proof.Claims.NoTwine s p → ∀ q, q ≠ p → pod t q = pod s q))
    ∧ (∀ (p : PodId) (s : State), s.Inv → podClockRuns s p = true → hasCode s p = true → podHalted s p = false → podRunning s p = true →
        (pod s p).core.frameBundles = 0 → (pod s p).core.cycle % 2 = 1 → s.dport.heldWrite = none → ∃ t : State, exec (.podCycle p) s = .next t
          ∧ reg64 t (rPod p.val 0x208) = (reg64 s (rPod p.val 0x208) + 1) % 2 ^ 64
          ∧ reg64 t (rPod p.val 0x118) = reg64 s (rPod p.val 0x118) ∧ pcOf t p = pcOf s p
          ∧ (Sys2Proof.Claims.NoTwine s p → ∀ q, q ≠ p → pod t q = pod s q))
    ∧ (∀ (p : PodId) (s : State), s.Inv → podClockRuns s p = true → hasCode s p = true → podHalted s p = false → podTrapped s p = false →
        podRunning s p = true → podAtFend s p = false → s.dport.heldWrite = none → (pod s p).core.resumeCycle ≤ (pod s p).core.cycle →
        (pod s p).core.frameBundles ≠ 0 ∨ (pod s p).core.cycle % 2 = 0 →
        (pod s p).core.holdUntil ≤ (pod s p).core.cycle → (pod s p).core.beyond = false → (pod s p).core.stepping = false →
        pcOf s p < (reg s (rPod p.val 0x108)).toNat → (pod s p).code.getD (pcOf s p) 0 = 0 → (pod s p).loops = [] →
        (∀ n, vget (pod s p).breaks n ≠ some (BitVec.ofNat 14 (pcOf s p))) → ∃ t : State, exec (.podCycle p) s = .next t
          ∧ reg64 t (rPod p.val 0x118) = (reg64 s (rPod p.val 0x118) + 1) % 2 ^ 64
          ∧ reg64 t (rPod p.val 0x110) = (reg64 s (rPod p.val 0x110) + 1) % 2 ^ 64 ∧ pcOf t p = (pcOf s p + 1) % 16384
          ∧ (pod t p).core.cycle = (pod s p).core.cycle + 1 ∧ (Sys2Proof.Claims.NoTwine s p → ∀ q, q ≠ p → pod t q = pod s q))
    ∧ (∀ (p : PodId) (ops : List SlotOp) (slot : Nat) (causes : List Nat) (s : State), s.Inv → Sys2Proof.Claims.Resting s p →
        Sys2Proof.Claims.NoTwine s p → Sys2Proof.Claims.ComesUp s p ops → bundleTraps (withPending s p) p [] ops = some (slot, causes) →
        ∃ t : State, exec (.podCycle p) s = .next t ∧ podTrapped t p = true ∧ podRunning t p = false ∧ flag t (rPod p.val 0x104) 31 = true
          ∧ field t (rPod p.val 0x104) 24 4 = slot ∧ field t (rPod p.val 0x104) 16 8 ∈ causes ∧ field t (rPod p.val 0x104) 0 14 = pcOf s p
          ∧ reg64 t (rPod p.val 0x118) = reg64 s (rPod p.val 0x118) ∧ reg64 t (rPod p.val 0x110) = reg64 s (rPod p.val 0x110))
    ∧ (∀ (p : PodId) (ops : List SlotOp) (c : Nat) (l : List Nat) (s : State), s.Inv → Sys2Proof.Claims.Resting s p → Sys2Proof.Claims.NoTwine s p →
        (pod s p).lines = [] → Sys2Proof.Claims.ComesUp s p ops → bundleTraps (withPending s p) p [] ops = none →
        bundleStalls (Sys2Proof.Claims.up s p) p ops = c :: l → ∃ (t : State) (n : Nat), exec (.podCycle p) s = .next t
          ∧ n ∈ c :: l ∧ (∀ m ∈ c :: l, n ≤ m)
          ∧ reg64 t (rPod p.val (0x200 + 8 * n)) = (reg64 s (rPod p.val (0x200 + 8 * n)) + 1) % 2 ^ 64
          ∧ reg64 t (rPod p.val 0x110) = (reg64 s (rPod p.val 0x110) + 1) % 2 ^ 64 ∧ reg64 t (rPod p.val 0x118) = reg64 s (rPod p.val 0x118)
          ∧ pcOf t p = pcOf s p ∧ (pod t p).pend = (pod s p).pend ∧ (∀ q, q ≠ p → pod t q = pod s q))
    ∧ (∀ (p : PodId) (ops : List SlotOp) (u : State) (jumps : Bool) (s : State), s.Inv → Sys2Proof.Claims.Resting s p → Sys2Proof.Claims.NoTwine s p →
        (pod s p).lines = [] → Sys2Proof.Claims.ComesUp s p ops → bundleTraps (withPending s p) p [] ops = none →
        bundleStalls (Sys2Proof.Claims.up s p) p ops = [] → (pod s p).core.stepping = false →
        (∀ n, vget (pod s p).watches n = none) → (u, jumps) = issueSlots (Sys2Proof.Claims.resumed s p) p ops → (pod u p).lines = [] →
        (pod u p).mmas = [] → (pod u p).loops = [] → ∃ t : State, exec (.podCycle p) s = .next t
          ∧ reg64 t (rPod p.val 0x118) = (reg64 u (rPod p.val 0x118) + 1) % 2 ^ 64
          ∧ reg64 t (rPod p.val 0x110) = (reg64 u (rPod p.val 0x110) + 1) % 2 ^ 64
          ∧ pcOf t p = (if jumps then pcOf u p else (pcOf s p + 1) % 16384) ∧ (pod t p).pend = (pod u p).pend
          ∧ (pod t p).s = (pod u p).s ∧ (pod t p).v = (pod u p).v ∧ (pod t p).m = (pod u p).m ∧ (pod t p).outq = (pod u p).outq
          ∧ (pod t p).core.frameBundles = (pod u p).core.frameBundles + 1
          ∧ (∀ f : CtlFields, ops.filter (fun o => decide (opcode o ≠ 0)) = [.ctl 9 f] → jumps = false
            ∧ (pod u p).pend = (pod s p).pend ++ [⟨(pod s p).core.nextOp, 4, destS f.rd,
                BitVec.ofNat 8192 (wrap 64 ((sNum (pod s p) f.ra : Int) + f.imm.toInt)), (pod s p).core.cycle + 1⟩])
          ∧ (∀ f : CtlFields, ops.filter (fun o => decide (opcode o ≠ 0)) = [.ctl 0x12 f] → jumps = true
            ∧ pcOf u p = ctlTarget f % 16384 ∧ (pod u p).pend = (pod s p).pend))
    ∧ (∀ (p : PodId) (l : LineStream) (w : PendWrite) (a n c : Nat) (s : State), s.Inv → Sys2Proof.Claims.Resting s p → Sys2Proof.Claims.NoTwine s p →
        podRunning s p = false → podHalted s p = false → l = oneStep w.op 2 w.op false a n c → c ≤ (pod s p).core.cycle → 0 < n → n ≤ 1024 →
        (a < 0x1000000 → a + n ≤ 0x1000000) → (pod s p).lines = [l] → (pod s p).reads = [⟨w.op, .result, [(a, n)]⟩] → (pod s p).pend = [w] → ∃ t : State, exec (.podCycle p) s = .next t
          ∧ ((grantLines (pod s p).core.cycle false [] (presented l)).2 = [] → (pod t p).lines = [] ∧ (pod t p).reads = []
            ∧ (pod t p).pend = [{ w with value := BitVec.ofNat 8192 (leNat (memRead s (podAddr p a) n)) }]
            ∧ reg64 t (rPod p.val 0x2D0) = reg64 s (rPod p.val 0x2D0))
          ∧ ((grantLines (pod s p).core.cycle false [] (presented l)).2 ≠ [] → (∃ v, (pod t p).pend = [{ w with value := v, due := w.due + 1 }])
            ∧ reg64 t (rPod p.val 0x2D0) = (reg64 s (rPod p.val 0x2D0) + 1) % 2 ^ 64))
    ∧ ∀ (p : PodId) (l : LineStream) (r : StoreRange) (a n c : Nat) (b : List Byte) (s : State), s.Inv → Sys2Proof.Claims.Resting s p →
        Sys2Proof.Claims.NoTwine s p → podRunning s p = false → podHalted s p = false → l = oneStep r.op 2 r.op true a n c → c ≤ (pod s p).core.cycle →
        0 < n → b.length = n → a + n ≤ 0x1000000 → (pod s p).lines = [l] → (pod s p).ranges = [r] → r.write = true → r.cls = 3 → r.digest = false →
        r.writes = [(podAddr p a, b)] → r.landing = [] → (grantLines (pod s p).core.cycle true [] (presented l)).2 = [] →
        (∀ e : EngineId, (vget (pod s p).me e).results = []) →
        ∃ (t : State) (y : StoreRange), exec (.podCycle p) s = .next t ∧ (pod t p).ranges = [y] ∧ y.writes = [] ∧ y.due = r.due
          ∧ (∀ w ∈ y.landing, w.1 = (pod s p).core.cycle + 3) ∧ y.landing.flatMap (fun w => w.2.2) = b
          ∧ (∀ w ∈ y.landing.head?, w.2.1 = podAddr p a) ∧ MemSame s t

/-- A register takes the last of its results that are due, and no other register changes. RANGE_RELEASE writes what a due range holds and releases
it, with the read source of its operation, and a drain's rows then set their bits of POD_ME_FLAGS; BUFFER_COMPLETE releases a load's ranges;
ACCUMULATOR_FREE drops figures reached; TE_WINDOW_DONE ends the windows that are due, writes their records and sets their flags.
ENTROPY_HEALTH_FAIL sets the Pod's error bit. -/
def Obligations.WhatIsDueTakesEffect : Prop :=
  (∀ (p : PodId) (i : Fin 32) (l : List PendWrite) (w : PendWrite) (s : State), i ≠ 0 →
      (pod s p).pend.filter (fun w => decide (w.dest = .s i) && decide (w.due ≤ (pod s p).core.cycle)) = l ++ [w] →
      ∃ t : State, exec (.resultReadable p (.s i)) s = .next t ∧ vget (pod t p).s i = w.value.setWidth 64 ∧ (∀ j, j ≠ i → vget (pod t p).s j = vget (pod s p).s j)
        ∧ (pod t p).pend = (pod s p).pend.filter (fun w => !(decide (w.dest = .s i) && decide (w.due ≤ (pod s p).core.cycle)))
        ∧ (pod t p).v = (pod s p).v ∧ (pod t p).m = (pod s p).m ∧ (pod t p).md = (pod s p).md ∧ (pod t p).sa = (pod s p).sa
        ∧ Sys2Proof.Claims.PodOnly s t p)
    ∧ (∀ (p : PodId) (i : Fin 32) (l : List PendWrite) (w : PendWrite) (s : State),
      (pod s p).pend.filter (fun w => decide (w.dest = .v i) && decide (w.due ≤ (pod s p).core.cycle)) = l ++ [w] →
      ∃ t : State, exec (.resultReadable p (.v i)) s = .next t ∧ vget (pod t p).v i = w.value ∧ (∀ j, j ≠ i → vget (pod t p).v j = vget (pod s p).v j)
        ∧ (pod t p).s = (pod s p).s ∧ (pod t p).m = (pod s p).m ∧ (pod t p).md = (pod s p).md ∧ Sys2Proof.Claims.PodOnly s t p)
    ∧ (∀ (p : PodId) (d : Dest) (s : State), (∀ w ∈ (pod s p).pend, w.dest = d → (pod s p).core.cycle < w.due) →
        exec (.resultReadable p d) s = .next s)
    ∧ (∀ (p : PodId) (op a : Nat) (b : List Byte) (r : StoreRange) (s : State),
        (pod s p).ranges.filter (fun r => decide (r.op = op) && r.due.any (fun d => decide (d ≤ (pod s p).core.cycle))) = [r] →
        r.writes = [(podAddr p a, b)] → r.landing = [] → r.digest = false → a + b.length ≤ podSize → (∀ e : EngineId, ∀ w ∈ (vget (pod s p).me e).results, w.1 ≠ op) →
        ∃ t : State, exec (.rangeRelease p op) s = .next t
        ∧ Sys2Proof.Claims.Stored s t (podAddr p a) b ∧ t = { s with mem := t.mem, ecc := t.ecc, pods := t.pods }
        ∧ (∀ y ∈ (pod t p).ranges, y.op = op → y.due.any (fun d => decide (d ≤ (pod s p).core.cycle)) = false)
        ∧ (∀ y ∈ (pod s p).ranges, y.op ≠ op → y ∈ (pod t p).ranges) ∧ (∀ q, q ≠ p → pod t q = pod s q))
    ∧ (∀ (p : PodId) (op o n : Nat) (e : EngineId) (r : StoreRange) (s : State), s.Inv →
        (pod s p).ranges.filter (fun r => decide (r.op = op) && r.due.any (fun d => decide (d ≤ (pod s p).core.cycle))) = [r] →
        r.writes = [] → r.landing = [] → (vget (pod s p).me e).results = [(op, o, n)] →
        (∀ g : EngineId, g ≠ e → ∀ w ∈ (vget (pod s p).me g).results, w.1 ≠ op) → ∃ t : State, exec (.rangeRelease p op) s = .next t
        ∧ reg t (rPod p.val 0x404) = reg s (rPod p.val 0x404) ||| BitVec.ofNat 32 n ∧ (vget (pod t p).me e).results = []
        ∧ RegsBut [rPod p.val 0x404] s t ∧ MemSame s t ∧ (∀ q, q ≠ p → pod t q = pod s q))
    ∧ (∀ (p : PodId) (b : BufferName) (s : State), (∀ r ∈ (pod s p).ranges, r.op ∈ bufferOps (pod s p) b → r.writes = [] ∧ r.landing = []) →
        (∀ e : EngineId, ∀ w ∈ (vget (pod s p).me e).results, w.1 ∉ bufferOps (pod s p) b) →
        ∃ t : State, exec (.bufferComplete p b) s = .next t ∧ MemSame s t ∧ t.regs = s.regs ∧ (pod t p).ranges = (pod s p).ranges.filter
          (fun r => !(decide (r.op ∈ bufferOps (pod s p) b) && r.due.any (fun d => decide (d ≤ (pod s p).core.cycle)))))
    ∧ (∀ (p : PodId) (e : EngineId) (s : State), ∃ t : State, exec (.accumulatorFree p e) s = .next t ∧ Sys2Proof.Claims.PodOnly s t p
        ∧ (∀ i : Fin 10, vget (vget (pod t p).me e).accFree i = (if (vget (vget (pod s p).me e).accFree i).cyc ≤ (pod s p).core.cycle then Due.zero
            else vget (vget (pod s p).me e).accFree i))
        ∧ (∀ g, g ≠ e → vget (pod t p).me g = vget (pod s p).me g) ∧ (vget (pod t p).me e).cells = (vget (pod s p).me e).cells)
    ∧ (∀ (p : PodId) (w : Window) (s : State), s.Inv → (pod s p).te.windows = [w] → w.due ≤ (pod s p).core.cycle → (pod s p).te.heldCfg = none →
        (∀ e : EngineId, ∀ v ∈ (vget (pod s p).me e).results, v.1 ≠ w.op) → (∀ r ∈ (pod s p).ranges, r.digest = false) →
        ∃ t : State, exec (.teWindowDone p) s = .next t ∧ (pod t p).te.windows = []
        ∧ reg t (rPod p.val 0x508) = reg s (rPod p.val 0x508) ||| w.flags.setWidth 32
        ∧ reg64 t (rPod p.val 0x510) = (reg64 s (rPod p.val 0x510) + w.steps.sum) % 2 ^ 64
        ∧ RegsBut [rPod p.val 0x508, rPod p.val 0x510, rPod p.val 0x514] s t
        ∧ ((∀ r ∈ (pod s p).ranges, r.op = w.op → r.writes = [] ∧ r.landing = []) → MemSame s t)
        ∧ ∀ (r : StoreRange) (a : Nat) (b : List Byte),
          (pod s p).ranges.filter (fun r => decide (r.op = w.op) && r.due.any (fun d => decide (d ≤ (pod s p).core.cycle))) = [r] →
          r.writes = [(podAddr p a, b)] → r.landing = [] → a + b.length ≤ podSize → Sys2Proof.Claims.Stored s t (podAddr p a) b)
    ∧ ∀ (p : PodId) (s : State), s.Inv → ∃ t : State, exec (.entropyHealthFail p) s = .next t
        ∧ flag t (rErrEntropy + 4 * (p.val / 32)) (p.val % 32) = true ∧ Notified ((rErrEntropy + 4 * (p.val / 32)) :: capRegs 3) s t

/-- The lane list of a request's seeds, as the banks have given it: bytes of the node region read as zero (R79, R120). -/
def Sys2Proof.Claims.seedsOf (s : State) (p : PodId) (r : GeReq) (data : List Byte) : List Nat := payloadLanes (maskNodes s p r.seeds (data.drop 64))

/-- Candidate `a` stands before `b`: by the key of R122, then by number. -/
def Sys2Proof.Claims.Before (seed : Word64) (r : GeReq) (v a b : Nat) : Prop :=
  let key := fun (n : Nat) =>
    (mix64 (ctrDraw seed r.step (BitVec.ofNat 64 (2 ^ 63 + r.draw)) ^^^ BitVec.ofNat 64 (v * 2 ^ 32 + n))).toNat
  key a < key b ∨ (key a = key b ∧ a < b)

/-- What the seed `v` gives of the graph `g` in Root memory (R122): a seed past the nodes, a malformed row, or the K first of its distinct candidates
in their order, with entries scanned and whether one names no node. -/
def Sys2Proof.Claims.SlotOf (s : State) (seed : Word64) (r : GeReq) (g : Graph) (v : Nat) (y : GeSlot) : Prop :=
  ∀ (lo hi : Nat) (entry : Nat → Nat), lo = memNum s (g.rowptr + 8 * v) 8 → hi = memNum s (g.rowptr + 8 * v + 8) 8 →
    (∀ e, entry e = memNum s (g.colidx + 4 * e) 4) → y.ue = none
    ∧ (y.seedRange = true ↔ g.nodes ≤ v) ∧ (y.malformed = true ↔ v < g.nodes ∧ (hi < lo ∨ g.edges < hi))
    ∧ (y.seedRange = true ∨ y.malformed = true → y.chosen = [] ∧ y.scanned = 0 ∧ y.nbrRange = false)
    ∧ (y.seedRange = false → y.malformed = false → y.scanned = hi - lo
      ∧ (y.nbrRange = true ↔ ∃ e, lo ≤ e ∧ e < hi ∧ g.nodes ≤ entry e)
      ∧ y.chosen.length ≤ r.k ∧ y.chosen.Pairwise (Sys2Proof.Claims.Before seed r v)
      ∧ (∀ n ∈ y.chosen, n < g.nodes ∧ ∃ e, lo ≤ e ∧ e < hi ∧ entry e = n)
      ∧ ∀ e, lo ≤ e → e < hi → entry e < g.nodes → entry e ∉ y.chosen →
          y.chosen.length = r.k ∧ ∀ m ∈ y.chosen, Sys2Proof.Claims.Before seed r v m (entry e))

/-- The bytes `parts` are on their way into the store of `p` for operation `op`: its write range holds them in whole 64-bit words, its lines ask the
banks, its token `k` has begun, and memory is as it was (R167, R169, R172, R176). -/
def Sys2Proof.Claims.DataArrives (s t : State) (p : PodId) (q : Fin 8) (k : Token) (parts : List (Nat × List Byte)) : Prop :=
  MemSame s t ∧ (outQ (pod t p) q).tokens = [{ k with begun := true }]
    ∧ (∀ y ∈ (pod s p).ranges, y.op = k.op → y.write = true → { y with
        writes := y.writes ++ (parts.filter (fun e => !e.2.isEmpty)).map (fun e => (podAddr p e.1, wholeWords e.1 e.2)) } ∈ (pod t p).ranges)
    ∧ (∀ e ∈ parts, e.2 ≠ [] → ∃ l ∈ (pod t p).lines, l.op = k.op ∧ l.write = true ∧ l.base = e.1)

/-- A request of the Pod whose turn it is has been served: it leaves the queue, the counter advances, the engine turns to the next Pod (R120, R128). -/
def Sys2Proof.Claims.Served (s t : State) (d : DieId) (p : PodId) (l : List GatherReq) : Prop :=
  (pod t p).gathers = l ∧ reg64 t (rGe d.val 0x18) = (reg64 s (rGe d.val 0x18) + 1) % 2 ^ 64 ∧ vget t.misc.geNext d = (p.val % 16 + 1) % 16
    ∧ ∀ i, i ≠ p → pod t i = pod s i

/-- The output of a request (R123): header, index rows, list and rows, for the slots, the unique list and the row indices given. -/
def Sys2Proof.Claims.gatherParts (s : State) (r : GeReq) (g : Graph) (seeds : List Nat) (slots : List GeSlot) (index unique : List Nat) :
    List (Nat × List Byte) :=
  let listAt := r.dst + 64 + ceilTo 64 (2 * r.count * r.k)
  let row := fun (i v : Nat) => if geSelf r && decide (i < seeds.length)
      && (slots[i]?).any (fun y => y.seedRange || y.malformed) then List.replicate r.featBytes 0
    else memRead s (g.feat + v * g.stride + r.featOffset) r.featBytes
  [(r.dst, geHeader 0 unique.length (geMask (·.seedRange) slots) (geMask (·.malformed) slots) (geMask (·.nbrRange) slots)),
    (r.dst + 64, index.flatMap (leBytes 2)), (listAt, unique.flatMap (leBytes 4))]
    ++ (if geFetch r then [(listAt + ceilTo 64 (4 * unique.length), (List.zip (upTo unique.length) unique).flatMap (fun e => row e.1 e.2))] else [])

/-- TOKEN_COMPLETE. The data of a Q.FETCH arrives: its lines ask the banks, and once every byte of it is visible the token completes, as that of a
gather does; a Q.STORE whose source has been read is written into Root memory and completes. During a refresh of its pseudo-channel, while the
network or the controllers stand still, or before the source is read or the data visible, it waits (log 29, and log 2 for changing nothing).
GE_REQUEST_SERVE of a die without requests, or whose engine must wait, does nothing. Else the engine reads the request and its seeds over the
on-die network; once the banks have granted them, a request that breaks one rule of its operands or its graph is answered with a header of that
status, and a well-formed one with its header, its index rows, its list and its feature rows: each seed's first K candidates in the order of their
keys. The output is on its way into the store, and the token completes once it is visible.
For what the spec leaves open it follows the model's choices of log 25, 54, 57 and 61. -/
def Obligations.TransfersAndGathersComplete : Prop :=
  (∀ (p : PodId) (q : Fin 8) (k : Token) (s : State), (outQ (pod s p) q).tokens = [k] → k.kind = .fetch → k.transferDone = false → k.begun = false →
      inRefresh s (k.root + k.len - 1) = false → transferRuns s p k.root = true → 0 < k.len → k.len % 64 = 0 →
      ∃ t : State, exec (.tokenComplete p q) s = .next t
      ∧ Sys2Proof.Claims.DataArrives s t p q k [(k.store, memRead s k.root k.len)] ∧ (∀ i, i ≠ p → pod t i = pod s i))
    ∧ (∀ (p : PodId) (q : Fin 8) (k : Token) (s : State), (outQ (pod s p) q).tokens = [k] → k.kind = .fetch ∨ k.kind = .gather →
        k.transferDone = false → k.begun = true →
        (allVisible (pod s p) k.op = true → weaveActive s = false ∨ ranOver s k = false → ∃ t : State, exec (.tokenComplete p q) s = .next t
          ∧ (outQ (pod t p) q).tokens = [] ∧ q.val ∈ (pod t p).core.selSeen ∧ (∀ y ∈ (pod t p).ranges, y.op = k.op → y.due ≠ none)
          ∧ MemSame s t ∧ t.regs = s.regs ∧ (∀ i, i ≠ p → pod t i = pod s i))
        ∧ (allVisible (pod s p) k.op = false → exec (.tokenComplete p q) s = .next s))
    ∧ (∀ (p : PodId) (q : Fin 8) (k : Token) (s : State), (outQ (pod s p) q).tokens = [k] → k.kind = .gather → k.transferDone = false → k.begun = false →
        exec (.tokenComplete p q) s = .next s)
    ∧ (∀ (p : PodId) (q : Fin 8) (k : Token) (s : State), (outQ (pod s p) q).tokens = [k] → k.kind = .store → k.transferDone = false →
        (sourceOpen (pod s p) k.op = false → inRefresh s (k.root + k.len - 1) = false → transferRuns s p k.root = true → k.root + k.data.length ≤ rootEnd →
          weaveActive s = false ∨ ranOver s k = false →
          ∃ t : State, exec (.tokenComplete p q) s = .next t
          ∧ Sys2Proof.Claims.Stored s t k.root k.data ∧ (outQ (pod t p) q).tokens = [] ∧ t.regs = s.regs ∧ (∀ i, i ≠ p → pod t i = pod s i))
        ∧ (sourceOpen (pod s p) k.op = true → exec (.tokenComplete p q) s = .next s))
    ∧ (∀ (p : PodId) (q : Fin 8) (k : Token) (l : List Token) (s : State), (outQ (pod s p) q).tokens = k :: l →
        (k.kind = .fetch ∧ k.begun = false) ∨ k.kind = .store →
        k.transferDone = false → inRefresh s (k.root + k.len - 1) = true ∨ transferRuns s p k.root = false → exec (.tokenComplete p q) s = .next s)
    ∧ (∀ (d : DieId) (s : State), geNextPod s d = none ∨ (∀ p g, geNextPod s d = some p → (pod s p).gathers.head? = some g → geReady s d p g = false) →
        exec (.geRequestServe d) s = .next s)
    ∧ (∀ (d : DieId) (p : PodId) (g : GatherReq) (l : List GatherReq) (s : State), s.Inv → geNextPod s d = some p →
        (pod s p).gathers = g :: l → geReady s d p g = true →
        (netJob s (.gather d g.op) = none → ∃ (t : State) (j : NetJob), exec (.geRequestServe d) s = .next t ∧ netJob t (.gather d g.op) = some j
          ∧ j.pod = p ∧ j.pieces = [(g.addr, 64), (reqField s p g.addr 0x10 4, 4 * reqField s p g.addr 0x1C 1)]
          ∧ j.data = j.pieces.flatMap (fun e => memRead s (podAddr p e.1) e.2) ∧ netGranted t p j.op = false ∧ t.pods = s.pods ∧ MemSame s t)
        ∧ (∀ j : NetJob, netJob s (.gather d g.op) = some j → netDone s j = false → exec (.geRequestServe d) s = .next s))
    ∧ (∀ (d : DieId) (p : PodId) (g : GatherReq) (l : List GatherReq) (j : NetJob) (r : GeReq) (gr : Graph) (k : Token) (c : Nat) (s : State), s.Inv →
        s.ecc = [] → geNextPod s d = some p → (pod s p).gathers = g :: l → geReady s d p g = true → netJob s (.gather d g.op) = some j → netDone s j = true →
        r = geReqOf (maskNodes s p g.addr (j.data.take 64)) g.step → gr = graphOf (memRead s r.graph 64) →
        (outQ (pod s p) g.queue).tokens = [k] → k.op = g.op → k.transferDone = false →
        (geBadDst s p r = true ∧ geBadGraph r = false ∧ geBadRequest r = false ∧ c = 1)
          ∨ (geBadDst s p r = false ∧ geBadGraph r = true ∧ geBadRequest r = false ∧ c = 2)
          ∨ (geBadDst s p r = false ∧ geBadGraph r = false ∧ geBadRequest r = true ∧ c = 3)
          ∨ (geBadDst s p r = false ∧ geBadGraph r = false ∧ geBadRequest r = false
            ∧ ((geBadArrays r gr = true ∧ geBadDescriptor r gr = false ∧ c = 2) ∨ (geBadArrays r gr = false ∧ geBadDescriptor r gr = true ∧ c = 3))) →
        ∃ t : State, exec (.geRequestServe d) s = .next t ∧ Sys2Proof.Claims.Served s t d p l ∧ netJob t (.gather d g.op) = none
          ∧ Sys2Proof.Claims.DataArrives s t p g.queue k (if r.dst + 64 ≤ podSize ∧ touchesNodes s p r.dst 64 = false then
              [(r.dst, leBytes 2 c ++ List.replicate 62 0)] else []))
    ∧ ∀ (d : DieId) (p : PodId) (g : GatherReq) (l : List GatherReq) (j : NetJob) (r : GeReq) (gr : Graph) (k : Token) (seeds : List Nat) (s : State), s.Inv →
        s.ecc = [] → geNextPod s d = some p → (pod s p).gathers = g :: l → geReady s d p g = true → netJob s (.gather d g.op) = some j → netDone s j = true →
        r = geReqOf (maskNodes s p g.addr (j.data.take 64)) g.step → gr = graphOf (memRead s r.graph 64) → j.data.length = 64 + 4 * r.count →
        seeds = Sys2Proof.Claims.seedsOf s p r j.data → geBadDst s p r = false → geBadGraph r = false → geBadRequest r = false → geBadArrays r gr = false →
        geBadDescriptor r gr = false → (outQ (pod s p) g.queue).tokens = [k] → k.op = g.op → k.transferDone = false →
        ∃ (t : State) (slots : List GeSlot) (unique index : List Nat), exec (.geRequestServe d) s = .next t ∧ Sys2Proof.Claims.Served s t d p l
          ∧ netJob t (.gather d g.op) = none ∧ seeds.length = r.count
          ∧ slots.length = r.count ∧ (∀ i, i < r.count → ∃ y, slots[i]? = some y
            ∧ Sys2Proof.Claims.SlotOf s (seedEntry s r.seedIndex) r gr (seeds.getD i 0) y
            ∧ ∀ m, m < r.k → index[i * r.k + m]? = some (if m < y.chosen.length then index.getD (i * r.k + m) 0 else 0xFFFF)
              ∧ (m < y.chosen.length → unique[index.getD (i * r.k + m) 0]? = y.chosen[m]?))
          ∧ index.length = r.count * r.k ∧ (if geSelf r then seeds else []) <+: unique
          ∧ (geDedup r = false → unique = (if geSelf r then seeds else []) ++ slots.flatMap (·.chosen))
          ∧ (geDedup r = true → geSelf r = false → unique.Nodup)
          ∧ Sys2Proof.Claims.DataArrives s t p g.queue k (Sys2Proof.Claims.gatherParts s r gr seeds slots index unique)
          ∧ reg64 t (rGe d.val 0x10) = (reg64 s (rGe d.val 0x10) + (slots.map (·.scanned)).sum) % 2 ^ 64

/-! ## Registers -/

/-- Register writes. A naturally aligned write of four bytes changes the writable bits of its register, an eight-byte write is two of them, and
every other write is dropped, as are writes of reserved offsets, the host's writes while the PCIe clock stands still, the Keeper's while its own does,
and all of a device in reset (log 29, and log 2 for changing nothing). An RWL register takes what the Keeper and the debug port write before the
commit only. DEV_SNAP_CTRL arms the stake that DEV_SNAP_AT then names, two or more ahead, else sets LATE, and RELEASE clears HELD; ERR_CAP_CTRL written with VALID clears its record. A write of POD_EGRESS
queues its post, and one of POD_TE_CFG waits for the engine to be idle.
For what the spec leaves open it follows the model's choices of log 45. -/
def Obligations.RegistersAreWrittenByTheirRules : Prop :=
  (∀ (a : Agent) (o : BitVec 26) (n : Nat) (v : Word64) (s : State), (n = 4 ∧ o.toNat % 4 = 0) ∨ (n = 8 ∧ o.toNat % 8 = 0) ∨
      exec (.registerWrite a o n v) s = .next s)
    ∧ (∀ (o : BitVec 26) (n : Nat) (v : Word64) (s : State), (pcieRuns s = false → exec (.registerWrite .host o n v) s = .next s)
        ∧ (keeperRuns s = false → exec (.registerWrite .keeper o n v) s = .next s)
        ∧ (inReset s = true → ∀ p, exec (.registerWrite .debug o n v) s = .next s ∧ exec (.registerWrite (.pod p) o n v) s = .next s))
    ∧ (∀ (a : Agent) (o : BitVec 26) (v : Word64) (s t : State), o.toNat % 8 = 0 → o.toNat + 4 < 2 ^ 26 →
        exec (.registerWrite a o 4 v) s = .next t → agentReaches t a = agentReaches s a → exec (.registerWrite a o 8 v) s = exec (.registerWrite a (o + 4) 4 (v >>> 32)) t)
    ∧ (∀ (v : Word64) (s : State), s.Inv → ∀ o ∈ [rSnapAtLo, rSnapAtLo + 4, rSetNs, rTimOffset, rPtpLat, rPairCap, rRestart], gatedOff s o = false →
        pcieRuns s = true →
        ∃ t : State, exec (.registerWrite .host (BitVec.ofNat 26 o) 4 v) s = .next t ∧ reg t o = v.setWidth 32 ∧ OnlyRegs [o] s t)
    ∧ (∀ (v : Word64) (s : State), ∀ o ∈ [rDevId, rTick, rStake, rReady, rWeaveState, rFaultStake, rCfgStatus, 0xBFFFFC],
        ∃ t : State, exec (.registerWrite .host (BitVec.ofNat 26 o) 4 v) s = .next t ∧ OnlyRegs [] s t)
    ∧ (∀ (a : Agent) (v : Word64) (s : State), a = .host ∨ (∃ p, a = .pod p) ∨ committed s = true → ∀ o ∈ [rHoldCtrl, rRootCtrl, rLinkCfg, rClkNoc, rDroop, rRepro],
        exec (.registerWrite a (BitVec.ofNat 26 o) 4 v) s = .next s)
    ∧ (∀ (a : Agent) (v : Word64) (s : State), s.Inv → a = .keeper ∨ a = .debug → agentReaches s a = true → committed s = false →
        ∃ t : State, exec (.registerWrite a (BitVec.ofNat 26 rRootCtrl) 4 v) s = .next t
        ∧ reg t rRootCtrl = BitVec.ofNat 32 (max 9216 (getF v 0 24)) ∧ OnlyRegs [rRootCtrl] s t)
    ∧ (∀ (v : Word64) (s : State), s.Inv → pcieRuns s = true → ∃ t : State, exec (.registerWrite .host (BitVec.ofNat 26 rHoldCause) 4 v) s = .next t
        ∧ reg t rHoldCause = reg s rHoldCause &&& ~~~(v.setWidth 32 &&& 0xF) ∧ OnlyRegs [rHoldCause] s t)
    ∧ (∀ (v : Word) (s : State), s.Inv → getB v 30 = false → stakeNo s + 2 ≤ reg64 s rSnapAtLo → ∃ t : State, exec (.devSnapArm v) s = .next t
        ∧ flag t rSnapCtrl 29 = true ∧ flag t rSnapCtrl 28 = flag s rSnapCtrl 28 ∧ t.misc = { s.misc with snapStake := reg64 s rSnapAtLo }
        ∧ OnlyRegs [rSnapCtrl] { s with misc := t.misc } t)
    ∧ (∀ (v : Word) (s : State), s.Inv → reg64 s rSnapAtLo < stakeNo s + 2 → ∃ t : State, exec (.devSnapArm v) s = .next t ∧ flag t rSnapCtrl 27 = true
        ∧ OnlyRegs [rSnapCtrl] s t)
    ∧ (∀ (v : Word) (s : State), s.Inv → getB v 31 = false → ∃ t : State, exec (.release v) s = .next t ∧ flag t rSnapCtrl 28 = false
        ∧ OnlyRegs [rSnapCtrl] s t)
    ∧ (∀ (g : Fin 19) (v : Word) (s : State), s.Inv → ∃ t : State, exec (.errCapRearm g v) s = .next t ∧ (∀ o ∈ capRegs g.val, reg t o = 0)
        ∧ OnlyRegs (capRegs g.val) s t)
    ∧ (∀ (p : PodId) (v : Word) (s : State), ∃ t : State, exec (.podEgress p v) s = .next t ∧ (pod t p).posts = (pod s p).posts ++ (if getF v 8 8 = 0 then []
          else [⟨toStream (getF v 0 6), getF v 8 8, BitVec.ofNat 64 (stepCount s p), s.misc.weightNow, false⟩]) ∧ Sys2Proof.Claims.PodOnly s t p)
    ∧ (∀ (p : PodId) (v : Word) (s : State), s.Inv → teBusy (pod s p) = false → ∃ t : State, exec (.podTeCfgWrite p v) s = .next t
        ∧ reg t (rPod p.val 0x500) = v &&& 0x07FFFF01 ∧ (pod t p).te.heldCfg = none ∧ RegsBut [rPod p.val 0x500] s t ∧ MemSame s t)
    ∧ ∀ (p : PodId) (v : Word) (s : State), teBusy (pod s p) = true → ∃ t : State, exec (.podTeCfgWrite p v) s = .next t
        ∧ (pod t p).te.heldCfg = some v ∧ t.regs = s.regs ∧ Sys2Proof.Claims.PodOnly s t p

/-! ## Host streams -/

/-- While the PCIe clock runs, doorbells of an ENABLED stream take their value; one out of its ring, or a CQ head that passes the tail, is dropped and sets ERR_HOST bit 2. A
failed descriptor fetch takes the stream to ERROR with ERR_HOST bit 1. HST_S_CTRL enables a DISABLED stream of valid configuration and resets
another, whose waiting posts will then be discarded; a reset ends when nothing of the stream is left. A doorbell while the PCIe clock is stopped (log 29), and a
row of a stream that is not in the state it needs, change nothing (log 2).
For what the spec leaves open it follows the model's choices of log 37 and 45. -/
def Obligations.StreamsFollowTheirStates : Prop :=
  (∀ (i : StreamId) (v : Word) (s : State), (strmState s i ≠ 1 ∨ pcieRuns s = false → exec (.hstSqTail i v) s = .next s ∧ exec (.hstCqHead i v) s = .next s)
      ∧ (strmState s i ≠ 1 → ∀ a, exec (.descriptorFetchFail i a) s = .next s))
    ∧ (∀ (i : StreamId) (v : Word) (s : State), pcieRuns s = true → strmState s i = 1 → getF v 0 16 < 2 ^ field s (rStream i.val 0x10) 0 5 →
        ∃ t : State, exec (.hstSqTail i v) s = .next t ∧ (strm t i).sqTail = getF v 0 16 ∧ t = { s with streams := t.streams }
          ∧ ∀ j, j ≠ i → strm t j = strm s j)
    ∧ (∀ (i : StreamId) (v : Word) (s : State), s.Inv → pcieRuns s = true → strmState s i = 1 → 2 ^ field s (rStream i.val 0x10) 0 5 ≤ getF v 0 16 →
        ∃ t : State, exec (.hstSqTail i v) s = .next t ∧ flag t rErrHost 2 = true ∧ (strm t i).sqTail = (strm s i).sqTail
          ∧ Notified (rErrHost :: capRegs 14) s t)
    ∧ (∀ (i : StreamId) (v : Word) (n : Nat) (s : State), pcieRuns s = true → strmState s i = 1 → n = 2 ^ field s (rStream i.val 0x10) 16 5 → getF v 0 16 < n →
        (getF v 0 16 + n - (strm s i).cqHead) % n ≤ (field s (rStream i.val 0x38) 16 16 + n - (strm s i).cqHead) % n →
        ∃ t : State, exec (.hstCqHead i v) s = .next t ∧ (strm t i).cqHead = getF v 0 16 ∧ t = { s with streams := t.streams })
    ∧ (∀ (i : StreamId) (v : Word) (n : Nat) (s : State), s.Inv → pcieRuns s = true → strmState s i = 1 → n = 2 ^ field s (rStream i.val 0x10) 16 5 →
        n ≤ getF v 0 16 ∨ (field s (rStream i.val 0x38) 16 16 + n - (strm s i).cqHead) % n < (getF v 0 16 + n - (strm s i).cqHead) % n →
        ∃ t : State, exec (.hstCqHead i v) s = .next t ∧ flag t rErrHost 2 = true ∧ (strm t i).cqHead = (strm s i).cqHead
          ∧ Notified (rErrHost :: capRegs 14) s t)
    ∧ (∀ (i : StreamId) (a : Word64) (s : State), s.Inv → strmState s i = 1 → ∃ t : State, exec (.descriptorFetchFail i a) s = .next t
        ∧ strmState t i = 4 ∧ flag t rErrHost 1 = true ∧ Notified (rStream i.val 0x34 :: rErrHost :: capRegs 14) s t)
    ∧ (∀ (i : StreamId) (v : Word) (s : State), s.Inv → strmState s i = 0 → getB v 0 = true →
        (i.val ≠ 0 → func s fPcie = 2 ∧ func s fKeeper = 2) → configValid s i = true → ∃ t : State, exec (.hstSCtrlEnable i v) s = .next t
          ∧ strmState t i = 1 ∧ flag t (rStream i.val 0x30) 0 = true ∧ reg t (rStream i.val 0x38) = 0 ∧ reg t (rStream i.val 0x3C) = 0
          ∧ (i.val ≠ 0 → strm t i = { Stream.reset with orphans := (strm s i).orphans }) ∧ MemSame s t ∧ t.pods = s.pods
          ∧ RegsBut ([0x30, 0x34, 0x38, 0x3C].map (rStream i.val) ++ pbaRegs) s t)
    ∧ (∀ (i : StreamId) (v : Word) (s : State), s.Inv → i.val ≠ 0 → strmState s i = 0 → getB v 0 = true → func s fPcie = 2 → func s fKeeper = 2 →
        configValid s i = false → ∃ t : State, exec (.hstSCtrlEnable i v) s = .next t ∧ strmState t i = 0 ∧ flag t (rStream i.val 0x34) 28 = true
          ∧ OnlyRegs [rStream i.val 0x30, rStream i.val 0x34] s t)
    ∧ (∀ (i : StreamId) (v : Word) (s : State), s.Inv → strmState s i = 1 ∨ strmState s i = 2 ∨ strmState s i = 4 →
        ∃ t : State, exec (.hstSCtrlReset i v) s = .next t ∧ strmState t i = 3 ∧ flag t (rStream i.val 0x30) 0 = false
          ∧ (strm t i).digest = List.replicate 32 0 ∧ (strm t i).subs = (strm s i).subs.filter (fun u => !isEntering u)
          ∧ (∀ p, pod t p = { pod s p with posts := voidPosts (pod s p).posts i }) ∧ MemSame s t ∧ RegsBut [rStream i.val 0x30, rStream i.val 0x34] s t)
    ∧ ∀ (i : StreamId) (s : State), s.Inv → strmState s i = 3 → (strm s i).subs.any isQueued = false → inInbound s i = false →
        ∃ t : State, exec (.streamResetDone i) s = .next t ∧ strmState t i = 0
          ∧ strm t i = { Stream.reset with orphans := (strm s i).orphans } ∧ MemSame s t ∧ t.pods = s.pods
          ∧ RegsBut [rStream i.val 0x34] s t

/-- A write of host DMA into Pod `p`'s store has been asked of the banks: a transfer of the on-die network stands for it with the bytes in units of
64, and no byte of memory has changed (R167, R169, R192). -/
def Sys2Proof.Claims.PutAsked (s t : State) (key : NetKey) (p : PodId) (o : Nat) (bytes : List Byte) : Prop :=
  ∃ j r, netJob t key = some j ∧ j.pod = p ∧ netGranted t p j.op = false ∧ r ∈ (pod t p).ranges ∧ r.op = j.op ∧ r.write = true
    ∧ r.writes = (upTo (ceilDiv bytes.length 64)).map (fun i => (podAddr p (o + 64 * i), (bytes.drop (64 * i)).take 64)) ∧ MemSame s t

/-- SUBMIT numbers the descriptor at the head: a bad one completes BAD_DESCRIPTOR, without a weave NO_WEAVE, with a failed read DMA_ERROR and
ERR_HOST bit 0, else its input is staged. INPUT_STAGED asks the banks of a Pod store for the input's write; once it stands there, it advances I(s)
and offers the entry: with room it enters its inbound queue. Records of
a stream are written in order into its completion ring, each once the output of its submission has been copied to the host, as long as it has room, the stream is not in ERROR and the PCIe clock runs; the
stream's vector is signalled only when no further record is ready. Without their conditions, a stopped PCIe clock among them (log 29), the rows change nothing (log 2).
For what the spec leaves open it follows the model's choices of log 37 and 57. -/
def Obligations.SubmissionsAreStagedAndCompleted : Prop :=
  (∀ (i : StreamId) (d segs : List Byte) (b : Bool) (s : State), i.val = 0 ∨ mayTake s i (sliceB d 0 64) = false →
      exec (.submit i d segs b) s = .next s)
    ∧ (∀ (i : StreamId) (d segs : List Byte) (b : Bool) (st : BitVec 7) (s : State), s.Inv → i.val ≠ 0 → d.length = 64 → mayTake s i d = true →
        (descOk s i d = false ∧ st = 0x40) ∨ (descOk s i d = true ∧ weaveActive s = false ∧ st = 0x45)
          ∨ (descOk s i d = true ∧ weaveActive s = true ∧ b = true ∧ st = 0x41) → ∃ (t : State) (u : Submission), exec (.submit i d segs b) s = .next t
        ∧ (strm t i).subs = (strm s i).subs ++ [u] ∧ u.seq = reg s (rStream i.val 0x3C) ∧ u.desc = d
        ∧ (∃ (a : List Byte) (m c : Word64) (e : Byte), u.status = .complete st a m c e) ∧ reg t (rStream i.val 0x3C) = reg s (rStream i.val 0x3C) + 1
        ∧ field t (rStream i.val 0x38) 0 16 = (field s (rStream i.val 0x38) 0 16 + 1) % 2 ^ field s (rStream i.val 0x10) 0 5 % 2 ^ 16
        ∧ (st = 0x41 → flag t rErrHost 0 = true) ∧ MemSame s t ∧ t.pods = s.pods)
    ∧ (∀ (i : StreamId) (d segs : List Byte) (s : State), s.Inv → i.val ≠ 0 → d.length = 64 → mayTake s i d = true → descOk s i d = true →
        weaveActive s = true → numAt d 1 1 / 2 % 2 = 0 → ∃ (t : State) (u : Submission), exec (.submit i d segs false) s = .next t
        ∧ (strm t i).subs = (strm s i).subs ++ [u] ∧ u.status = .staging ∧ u.inLen = numAt d 0x10 4 ∧ u.samples = numAt d 2 1
        ∧ reg t (rStream i.val 0x3C) = reg s (rStream i.val 0x3C) + 1 ∧ RegsBut [rStream i.val 0x3C] s t
        ∧ t = { s with regs := t.regs, streams := t.streams })
    ∧ (∀ (i : StreamId) (b : List Byte) (s : State), pcieRuns s = false ∨ (∀ u ∈ (strm s i).subs, u.status ≠ .staging) → exec (.inputStaged i b) s = .next s)
    ∧ (∀ (i : StreamId) (b : List Byte) (l : List Submission) (u : Submission) (a : Nat) (s : State), s.Inv → pcieRuns s = true →
        (strm s i).subs = l ++ [u] → (∀ v ∈ l, isEntering v = false) → u.status = .staging → 0 < u.inLen →
        a = stageBase s i + u.slot * slotSize s i → inPodStore a = true →
        (netJob s (.input i u.seq) = none → touchesNodes s (podOfAddr a) (offsetOf a) (ceilTo 64 u.inLen) = false → ∃ t : State,
          exec (.inputStaged i b) s = .next t ∧ t.streams = s.streams ∧ Sys2Proof.Claims.PutAsked s t (.input i u.seq) (podOfAddr a) (offsetOf a)
            (sliceB (sliceB b 0 u.inLen) 0 (ceilTo 64 u.inLen)))
        ∧ (∀ j : NetJob, netJob s (.input i u.seq) = some j → netDone s j = false → exec (.inputStaged i b) s = .next s))
    ∧ (∀ (i : StreamId) (b : List Byte) (l : List Submission) (u : Submission) (p : PodId) (q : Fin 8) (a : Nat) (s : State), s.Inv → pcieRuns s = true → strmState s i = 1 →
        (strm s i).subs = l ++ [u] → (∀ v ∈ l, isEntering v = false) → u.status = .staging → a = stageBase s i + u.slot * slotSize s i →
        u.inLen = 0 ∨ inPodStore a = false ∨ (∃ j : NetJob, netJob s (.input i u.seq) = some j ∧ netDone s j = true) → p = toPod (field s (rStream i.val 0x14) 0 6) →
        q = queueIx (field s (rStream i.val 0x14) 8 3) → inqRoom s p q = true → ∃ (t : State) (v : Submission), exec (.inputStaged i b) s = .next t
        ∧ (strm t i).subs = l ++ [v] ∧ v.status = .queued ∧ v.seq = u.seq ∧ v.input = (strm t i).digest
        ∧ (strm t i).digest = sha256 ((strm s i).digest ++ sha256 (sliceB u.desc 4 4 ++ sliceB u.desc 0x20 32 ++ sliceB b 0 u.inLen))
        ∧ (strm t i).accepted = (strm s i).accepted + 1 ∧ (u.inLen = 0 ∨ inPodStore a = true → MemSame s t)
        ∧ (0 < u.inLen → a + ceilTo 64 u.inLen ≤ rootEnd → Sys2Proof.Claims.Stored s t a (sliceB (sliceB b 0 u.inLen) 0 (ceilTo 64 u.inLen)))
        ∧ (∃ e : Entry, vget (pod t p).inq q = vget (pod s p).inq q ++ [e] ∧ e.stream = some (i, u.seq.toNat) ∧ e.bytes.length = 64
            ∧ numAt e.bytes 2 1 = i.val ∧ numAt e.bytes 4 4 = u.seq.toNat))
    ∧ (∀ (i : StreamId) (s : State), strmState s i = 0 ∨ strmState s i = 4 ∨ cqFull s i = true ∨ pcieRuns s = false ∨ nextRecord s i = none →
         exec (.completionRecord i) s = .next s)
    ∧ (∀ (i : StreamId) (r : List Byte) (irq : Bool) (u : Submission) (l : List Submission) (j : NetJob) (s : State), s.Inv → strmState s i ≠ 0 →
        strmState s i ≠ 4 → pcieRuns s = true → cqFull s i = false → nextRecord s i = some (r, irq) → (strm s i).subs = u :: l →
        netJob s (.output i u.seq) = some j →
        (netDone s j = false → exec (.completionRecord i) s = .next s)
        ∧ (netDone s j = true → ∃ (t : State) (post : List Output), exec (.completionRecord i) s = .next t ∧ netJob t (.output i u.seq) = none
          ∧ t.out = s.out ++ [.hostWrite (BitVec.ofNat 64 (numAt u.desc 0x18 8)) j.data,
              .hostWrite (BitVec.ofNat 64 (reg64 s (rStream i.val 0x08) + 64 * field s (rStream i.val 0x38) 16 16)) (stampRecord s i r)] ++ post
          ∧ (∀ o ∈ post, o = .msix i.val)))
    ∧ ∀ (i : StreamId) (r : List Byte) (irq : Bool) (s : State), s.Inv → strmState s i ≠ 0 → strmState s i ≠ 4 → pcieRuns s = true → cqFull s i = false → nextRecord s i = some (r, irq) →
        (∀ u, (strm s i).subs.head? = some u → netJob s (.output i u.seq) = none) →
        ∃ (t : State) (post : List Output), exec (.completionRecord i) s = .next t
          ∧ t.out = s.out ++ [.hostWrite (BitVec.ofNat 64 (reg64 s (rStream i.val 0x08) + 64 * field s (rStream i.val 0x38) 16 16)) (stampRecord s i r)]
              ++ post ∧ (∀ o ∈ post, o = .msix i.val) ∧ (nextRecord t i ≠ none → post = [])
          ∧ field t (rStream i.val 0x38) 16 16 = (field s (rStream i.val 0x38) 16 16 + 1) % 2 ^ field s (rStream i.val 0x10) 16 5 % 2 ^ 16
          ∧ (i.val ≠ 0 → (strm t i).subs = (strm s i).subs.drop 1) ∧ (i.val = 0 → (strm t i).records = (strm s i).records.drop 1)
          ∧ MemSame s t ∧ t.pods = s.pods

/-! ## The admin stream -/

/-- `t` is `s` once the admin command `d` has been taken: numbered, its descriptor passed. -/
def Sys2Proof.Claims.Taken (s : State) : State := takeAdmin s

/-- The record that the command last taken leaves on the admin ring. -/
def Sys2Proof.Claims.Answered (s t : State) (d : List Byte) (status : Nat) (data : List Byte) (a0 a1 : Nat) : Prop :=
  (strm t 0).records = (strm s 0).records ++ [(adminRecord data a0 a1 0 status (reg s (rStream 0 0x3C)).toNat, decide (numAt d 1 1 % 2 = 1))]
    ∧ reg t (rStream 0 0x3C) = reg s (rStream 0 0x3C) + 1

/-- Admin commands, when the device may take one: NOP answers 0; LOAD writes its bytes into Root memory, or asks the banks of a Pod store for their
write, and completes with LOAD_COMPLETE, once they stand there, which answers with their digest and, for a weight load, advances W and posts it;
READ copies device memory to the host, that of a Pod store once the banks have granted it; LOAD_WEAVE with a pending load, a range
outside Root memory, a function not READY, or a refused image, answers with that code; an accepted image is pending.
For what the spec leaves open it follows the model's choices of log 25, 38, 40 and 57. -/
def Obligations.AdminCommandsAnswer : Prop :=
  (∀ (d b b2 : List Byte) (r : Bool) (s : State), mayTakeAdmin s = false → exec (.nop d) s = .next s ∧ exec (.load d b r) s = .next s
      ∧ exec (.read d) s = .next s ∧ exec (.loadWeave d b b2 r) s = .next s)
    ∧ (∀ (d : List Byte) (s : State), s.Inv → d.length = 64 → mayTakeAdmin s = true → numAt d 0 1 = 0 → ∃ t : State, exec (.nop d) s = .next t
        ∧ Sys2Proof.Claims.Answered s t d 0 [] 0 0 ∧ MemSame s t ∧ t.pods = s.pods ∧ RegsBut [rStream 0 0x38, rStream 0 0x3C] s t)
    ∧ (∀ (d b : List Byte) (s : State), s.Inv → d.length = 64 → mayTakeAdmin s = true → limited s = false → numAt d 0 1 = 0x11 →
        numAt d 2 1 = 1 ∨ numAt d 2 1 = 2 → transferOk (numAt d 0x18 8) (numAt d 0x10 8) = true →
        memoryReady s (numAt d 0x18 8) (numAt d 0x10 8) = true → netJob s .load = none → ∃ t : State, exec (.load d b false) s = .next t
        ∧ (numAt d 0x18 8 < rootEnd → Sys2Proof.Claims.Stored s t (numAt d 0x18 8) (sliceB b 0 (numAt d 0x10 8)) ∧ loadLanded t = true)
        ∧ (inPodStore (numAt d 0x18 8) = true → touchesNodes s (podOfAddr (numAt d 0x18 8)) (offsetOf (numAt d 0x18 8)) (numAt d 0x10 8) = false →
          Sys2Proof.Claims.PutAsked s t .load (podOfAddr (numAt d 0x18 8)) (offsetOf (numAt d 0x18 8)) (sliceB b 0 (numAt d 0x10 8))
            ∧ loadLanded t = false)
        ∧ (strm t 0).records = (strm s 0).records
        ∧ t.misc.loading = some (BitVec.ofNat 8 (numAt d 2 1), decide (numAt d 1 1 % 2 = 1), sha256 (sliceB b 0 (numAt d 0x10 8))))
    ∧ (∀ (k : Byte) (irq : Bool) (h : List Byte) (s : State), s.misc.loading = some (k, irq, h) → loadLanded s = true → k ≠ 1 → ∃ t : State, exec .loadComplete s = .next t
        ∧ t.misc.loading = none ∧ (strm t 0).records = (strm s 0).records ++ [(adminRecord h 0 0 0 0 s.misc.adminSeq.toNat, irq)]
        ∧ t.misc.weightNext = s.misc.weightNext ∧ t.regs = s.regs ∧ MemSame s t)
    ∧ (∀ (irq : Bool) (h : List Byte) (s : State), s.misc.loading = some (1, irq, h) → loadLanded s = true → strmState s 0 = 1 → ∃ (t : State) (r : List Byte), exec .loadComplete s = .next t
        ∧ t.misc.loading = none ∧ t.misc.weightNext = sha256 (s.misc.weightNext ++ h) ∧ (strm t 0).records = (strm s 0).records
          ++ [(adminRecord h 0 0 0 0 s.misc.adminSeq.toNat, irq), (r, false)] ∧ sliceB r 0 32 = sliceB t.misc.weightNext 0 32 ∧ numAt r 0x3A 1 = 3
        ∧ t.regs = s.regs ∧ MemSame s t)
    ∧ (∀ s : State, s.misc.loading = none ∨ loadLanded s = false → exec .loadComplete s = .next s)
    ∧ (∀ (d : List Byte) (a n : Nat) (s : State), s.Inv → d.length = 64 → mayTakeAdmin s = true → limited s = false → numAt d 0 1 = 0x12 →
        a = numAt d 0x18 8 → n = numAt d 0x10 8 → transferOk a n = true → memoryReady s a n = true → inPodStore a = true → s.ecc = [] →
        (netJob s (.read a n) = none → ∃ (t : State) (j : NetJob), exec (.read d) s = .next t ∧ netJob t (.read a n) = some j ∧ j.pod = podOfAddr a
          ∧ j.pieces = [(offsetOf a, n)] ∧ j.data = memRead s a n ∧ netGranted t j.pod j.op = false ∧ t.out = s.out ∧ t.streams = s.streams
          ∧ t.pods = s.pods ∧ MemSame s t)
        ∧ (∀ j : NetJob, netJob s (.read a n) = some j → netDone s j = false → exec (.read d) s = .next s)
        ∧ (∀ j : NetJob, netJob s (.read a n) = some j → netDone s j = true → ∃ t : State, exec (.read d) s = .next t
          ∧ t.out = s.out ++ [.hostWrite (BitVec.ofNat 64 (numAt d 8 8)) j.data] ∧ netJob t (.read a n) = none
          ∧ Sys2Proof.Claims.Answered s t d 0 [] 0 0 ∧ MemSame s t ∧ t.pods = s.pods ∧ RegsBut [rStream 0 0x38, rStream 0 0x3C] s t))
    ∧ (∀ (d : List Byte) (s : State), s.Inv → d.length = 64 → mayTakeAdmin s = true → limited s = false → numAt d 0 1 = 0x12 →
        transferOk (numAt d 0x18 8) (numAt d 0x10 8) = true → memoryReady s (numAt d 0x18 8) (numAt d 0x10 8) = true → s.ecc = [] →
        numAt d 0x18 8 < rootEnd →
        ∃ t : State, exec (.read d) s = .next t ∧ t.out = s.out ++ [.hostWrite (BitVec.ofNat 64 (numAt d 8 8)) (memRead s (numAt d 0x18 8) (numAt d 0x10 8))]
        ∧ Sys2Proof.Claims.Answered s t d 0 [] 0 0 ∧ MemSame s t ∧ t.pods = s.pods ∧ RegsBut [rStream 0 0x38, rStream 0 0x3C] s t)
    ∧ (∀ (d b b2 : List Byte) (r : Bool) (c : Nat) (s : State), s.Inv → d.length = 64 → mayTakeAdmin s = true → limited s = false →
        numAt d 0 1 = 0x10 → (weavePending s = true ∧ c = 0x47)
          ∨ (weavePending s = false ∧ rootEnd < numAt d 0x18 8 + numAt d 0x10 8 ∧ c = 0x42)
          ∨ (weavePending s = false ∧ numAt d 0x18 8 + numAt d 0x10 8 ≤ rootEnd ∧ loaderReady s = false ∧ c = 0x43) →
        ∃ t : State, exec (.loadWeave d b b2 r) s = .next t ∧ Sys2Proof.Claims.Answered s t d c [] 0 0 ∧ MemSame s t ∧ t.pods = s.pods
          ∧ weavePending t = weavePending s ∧ RegsBut [rStream 0 0x38, rStream 0 0x3C] s t)
    ∧ ∀ (d b b2 : List Byte) (u : State) (s : State), s.Inv → d.length = 64 → mayTakeAdmin s = true → limited s = false → numAt d 0 1 = 0x10 →
        weavePending s = false → numAt d 0x18 8 + numAt d 0x10 8 ≤ rootEnd → loaderReady s = true →
        u = memWrite (countRoot (Sys2Proof.Claims.Taken s) (sliceB b 0 (numAt d 0x10 8)).length) (numAt d 0x18 8) (sliceB b 0 (numAt d 0x10 8)) →
        ∃ t : State, exec (.loadWeave d b b2 false) s = .next t ∧ Sys2Proof.Claims.Stored s t (numAt d 0x18 8) (sliceB b 0 (numAt d 0x10 8))
          ∧ (refusalCodes u (sliceB b 0 (numAt d 0x10 8)) (numAt d 0x20 8) ≠ [] → ∃ c ∈ refusalCodes u (sliceB b 0 (numAt d 0x10 8)) (numAt d 0x20 8),
              Sys2Proof.Claims.Answered s t d c (sha256 (sliceB b 0 (numAt d 0x10 8))) 0 0 ∧ weavePending t = false ∧ t.loaded = s.loaded)
          ∧ (refusalCodes u (sliceB b 0 (numAt d 0x10 8)) (numAt d 0x20 8) = [] → weavePending t = true
              ∧ (∃ w, t.loaded = some w ∧ w.program = sha256 (sliceB b 0 (numAt d 0x10 8)) ∧ w.startStake = numAt d 0x20 8)
              ∧ reg64 t rStartStake = numAt d 0x20 8 ∧ flag t rFaultState 31 = false ∧ t.misc.weightNext = List.replicate 32 0
              ∧ ∀ i : StreamId, i.val ≠ 0 → strmState s i = 1 → strmState t i = 2)


/-! ## Weaves, manifests and bundles -/

/-- The registers in which the two slots show. -/
def Sys2Proof.Claims.slotRegs : List Nat := [rCfgSlot 0, rCfgSlot 1, rCfgSlotVer 0, rCfgSlotVer 1, rCfgSelect, rStream 0 0x38, rStream 0 0x3C]

/-- What the device installs. QUIET_STAKE_DONE in the quiet stake, with no token outstanding, puts the loaded weave in place: every Pod has its
code, its registers as at the start of a weave and its windows zero, every FSQ its records, and the seed identity and the envelope are the
weave's. SPLICE_RELOAD_DONE replaces the code of a Pod that reloads. Without their conditions both change nothing. MANIFEST: with the Keeper
not READY, a failed read or a manifest that the Keeper refuses, the command answers with that code and raises its error; an accepted one is
stored and answers with its digest. The bundle commands: a KIND above 1 answers 0x40, a Keeper not READY 0x43, a range outside the slot 0x42
and a protected slot 0x50, with the flash as it was. A write puts its bytes in the range and leaves the rest of both slots; the slot is then
WRITING (1) and not selected. A verification answers 0, or 0x51 for a failed check 1 to 3. A commit of the running TRIAL slot makes it
COMMITTED (4); else it answers 0x52. A read sends the range to the host. All of them wait while the Keeper's clock stands still (log 29, and log 2 for changing nothing), and a gated
SPI block writes nothing and reads zeros.
For what the spec leaves open it follows the model's choices of log 19, 26, 39, 40, 63 and 64. -/
def Obligations.WeavesManifestsAndBundlesAreInstalled : Prop :=
  ((∀ s : State, s.loaded = none ∨ quiet s = false ∨ s.active.isSome = true ∨ noTokens s = false → exec .quietStakeDone s = .next s)
    ∧ (∀ (w : Weave) (s : State), s.loaded = some w → quiet s = true → s.active = none → noTokens s = true →
        ∃ t : State, exec .quietStakeDone s = .next t ∧ t.active = some w ∧ t.loaded = some w
        ∧ (∀ f : FsqId, (fsq t f).records = w.records.getD f.val [] ∧ (fsq t f).staged = (fsq s f).staged)
        ∧ (∀ p : PodId, (pod t p).code = (tabGet [] w.code p.val).take 16384 ∧ (pod t p).s = Pod.reset.s ∧ (pod t p).v = Pod.reset.v
            ∧ (pod t p).m = Pod.reset.m ∧ (pod t p).md = Pod.reset.md ∧ (pod t p).sa = Pod.reset.sa ∧ (pod t p).lc = Pod.reset.lc
            ∧ (pod t p).stack = Pod.reset.stack ∧ (pod t p).inq = (pod s p).inq ∧ (pod t p).core.cycle = (pod s p).core.cycle
            ∧ (pod t p).core.loading = false)
        ∧ (∀ (p : PodId) (x : Nat), (x < 2 * (w.windows.getD p.val ⟨0, 0, 0, 0⟩).depHalf →
              memByte t (podAddr p ((w.windows.getD p.val ⟨0, 0, 0, 0⟩).depBase + x)) = 0)
            ∧ (x < 2 * (w.windows.getD p.val ⟨0, 0, 0, 0⟩).arrHalf → memByte t (podAddr p ((w.windows.getD p.val ⟨0, 0, 0, 0⟩).arrBase + x)) = 0))
        ∧ (∀ a : Nat, (∀ (p : PodId) (x : Nat), a = podAddr p ((w.windows.getD p.val ⟨0, 0, 0, 0⟩).depBase + x) →
              2 * (w.windows.getD p.val ⟨0, 0, 0, 0⟩).depHalf ≤ x) →
            (∀ (p : PodId) (x : Nat), a = podAddr p ((w.windows.getD p.val ⟨0, 0, 0, 0⟩).arrBase + x) →
              2 * (w.windows.getD p.val ⟨0, 0, 0, 0⟩).arrHalf ≤ x) → memByte t a = memByte s a)
        ∧ reg64 t rSeedId = w.seedId.toNat ∧ reg t rPwrEnvelope = BitVec.ofNat 32 w.envelope ∧ t.misc.commits = []
        ∧ t.streams = s.streams ∧ t.ports = s.ports ∧ t.out = s.out ∧ t.flash = s.flash)
    ∧ (∀ (p : PodId) (w : Weave) (n : Nat) (c : List (BitVec 256)) (s : State), s.active = some w → activeSplice s = some n →
        newCode s w n p = some c → (pod s p).core.loading = true → weaveActive s = true → ∃ t : State, exec (.spliceReloadDone p) s = .next t
        ∧ (pod t p).code = c.take 16384 ∧ (pod t p).core.loading = false ∧ field t (rPod p.val 0x108) 0 15 = (c.take 16384).length
        ∧ (pod t p).s = (pod s p).s ∧ (pod t p).v = (pod s p).v ∧ (∀ q, q ≠ p → pod t q = pod s q)
        ∧ t = { s with regs := t.regs, pods := t.pods } ∧ RegsBut [rPod p.val 0x108] s t)
    ∧ ∀ (p : PodId) (s : State), (pod s p).core.loading = false ∨ activeSplice s = none ∨ weaveActive s = false →
        exec (.spliceReloadDone p) s = .next s)
    ∧ ((∀ (d b : List Byte) (r : Bool) (c : Nat) (s : State), d.length = 64 → mayTakeAdmin s = true → keeperRuns s = true → limited s = false →
      numAt d 0 1 = 0x13 → (func s fKeeper ≠ 2 ∧ c = 0x43) ∨ (func s fKeeper = 2 ∧ r = true ∧ c = 0x41)
        ∨ (func s fKeeper = 2 ∧ r = false ∧ c = 0x48 ∧ (0x400000 < numAt d 0x10 8 ∨ manifestOk (sliceB b 0 (min (numAt d 0x10 8) 0x400000)) = false)) →
      ∃ t : State, exec (.manifest d b r) s = .next t ∧ Sys2Proof.Claims.Answered s t d c [] 0 0 ∧ t.flash = s.flash
        ∧ (c = 0x41 → flag t rErrHost 0 = true) ∧ (c = 0x48 → flag t rErrPlace 1 = true) ∧ MemSame s t ∧ t.pods = s.pods)
    ∧ ∀ (d b : List Byte) (s : State), d.length = 64 → mayTakeAdmin s = true → keeperRuns s = true → limited s = false →
        numAt d 0 1 = 0x13 → func s fKeeper = 2 → spiOn s = true → numAt d 0x10 8 ≤ 0x400000 → manifestOk (sliceB b 0 (numAt d 0x10 8)) = true → ∃ t : State, exec (.manifest d b false) s = .next t
        ∧ t.flash = { s.flash with manifest := (sliceB b 0 (numAt d 0x10 8)).take (numAt (sliceB b 0 (numAt d 0x10 8)) 0x28 8), manifestNew := true }
        ∧ Sys2Proof.Claims.Answered s t d 0 (sha256 t.flash.manifest) 0 0 ∧ t.manifest = s.manifest ∧ MemSame s t ∧ t.pods = s.pods
        ∧ RegsBut [rStream 0 0x38, rStream 0 0x3C] s t)
    ∧ ((∀ (d b : List Byte) (r : Bool) (s : State), mayTakeAdmin s = false ∨ keeperRuns s = false → exec (.manifest d b r) s = .next s
      ∧ exec (.bundleWrite d b r) s = .next s ∧ exec (.bundleVerify d) s = .next s ∧ exec (.bundleCommit d) s = .next s ∧ exec (.bundleRead d) s = .next s)
    ∧ (∀ (d b : List Byte) (r : Bool) (c : Nat) (s : State), d.length = 64 → mayTakeAdmin s = true → keeperRuns s = true → (2 ≤ numAt d 2 1 ∧ c = 0x40)
        ∨ (numAt d 2 1 < 2 ∧ func s fKeeper ≠ 2 ∧ c = 0x43) →
      (numAt d 0 1 = 0x18 → ∃ t : State, exec (.bundleWrite d b r) s = .next t ∧ Sys2Proof.Claims.Answered s t d c [] 0 0 ∧ t.flash = s.flash)
        ∧ (numAt d 0 1 = 0x19 → ∃ t : State, exec (.bundleVerify d) s = .next t ∧ Sys2Proof.Claims.Answered s t d c [] 0 0 ∧ t.flash = s.flash)
        ∧ (numAt d 0 1 = 0x1B → ∃ t : State, exec (.bundleRead d) s = .next t ∧ Sys2Proof.Claims.Answered s t d c [] 0 0 ∧ t.flash = s.flash))
    ∧ (∀ (d b : List Byte) (i : Fin 2) (r : Bool) (c : Nat) (s : State), d.length = 64 → mayTakeAdmin s = true → keeperRuns s = true →
        numAt d 2 1 = i.val → func s fKeeper = 2 →
        numAt d 0 1 = 0x18 → (slotRangeOk (numAt d 0x20 8) (numAt d 0x10 8) = false ∧ c = 0x42)
          ∨ (slotRangeOk (numAt d 0x20 8) (numAt d 0x10 8) = true ∧ slotProtected s i = true ∧ c = 0x50) →
        ∃ t : State, exec (.bundleWrite d b r) s = .next t ∧ Sys2Proof.Claims.Answered s t d c [] 0 0 ∧ t.flash = s.flash)
    ∧ (∀ (d b : List Byte) (i : Fin 2) (s : State), d.length = 64 → mayTakeAdmin s = true → keeperRuns s = true → numAt d 2 1 = i.val →
        func s fKeeper = 2 → spiOn s = true → numAt d 0 1 = 0x18 → slotRangeOk (numAt d 0x20 8) (numAt d 0x10 8) = true → slotProtected s i = false →
        ∃ t : State, exec (.bundleWrite d b false) s = .next t ∧ Sys2Proof.Claims.Answered s t d 0 [] 0 0 ∧ slotState t.flash i = 1
        ∧ (slotState s.flash i ≠ 1 → t.flash.selected ≠ i ∧ t.flash.selecting ≠ some i)
        ∧ (∀ x : Nat, tabGet 0xFF (vget t.flash.slots i).bytes x = if numAt d 0x20 8 ≤ x ∧ x < numAt d 0x20 8 + numAt d 0x10 8 then
            (sliceB b 0 (numAt d 0x10 8)).getD (x - numAt d 0x20 8) 0 else tabGet 0xFF (vget s.flash.slots i).bytes x)
        ∧ (∀ j, j ≠ i → vget t.flash.slots j = vget s.flash.slots j) ∧ MemSame s t ∧ t.pods = s.pods ∧ RegsBut Sys2Proof.Claims.slotRegs s t)
    ∧ (∀ (d : List Byte) (i : Fin 2) (k : Nat) (m : SlotImage) (s : State), d.length = 64 → mayTakeAdmin s = true → keeperRuns s = true →
        numAt d 2 1 = i.val → func s fKeeper = 2 → spiOn s = true → numAt d 0 1 = 0x19 → m = vget s.flash.slots i → k = failingCheck s m → ∃ t : State, exec (.bundleVerify d) s = .next t
        ∧ Sys2Proof.Claims.Answered s t d (if 1 ≤ k ∧ k ≤ 3 then 0x51 else 0) (sha256 (compatOf m (slotBytes m 0 256))) k (slotVersion m)
        ∧ (slotState s.flash i = 1 → slotState t.flash i = if 1 ≤ k ∧ k ≤ 3 then 6 else 2) ∧ (vget t.flash.slots i).bytes = m.bytes
        ∧ (∀ j, j ≠ i → vget t.flash.slots j = vget s.flash.slots j) ∧ MemSame s t ∧ t.pods = s.pods ∧ RegsBut Sys2Proof.Claims.slotRegs s t)
    ∧ (∀ (d : List Byte) (i : Fin 2) (s : State), d.length = 64 → mayTakeAdmin s = true → keeperRuns s = true →
        numAt d 0 1 = 0x1A → func s fKeeper = 2 → spiOn s = true → runSlot s = i.val →
        limited s = false → ∃ t : State, exec (.bundleCommit d) s = .next t
        ∧ Sys2Proof.Claims.Answered s t d (if slotState s.flash i = 3 then 0 else 0x52) [] 0 0
        ∧ (slotState s.flash i = 3 → slotState t.flash i = 4) ∧ (slotState s.flash i ≠ 3 → t.flash = s.flash)
        ∧ (∀ j, (vget t.flash.slots j).bytes = (vget s.flash.slots j).bytes) ∧ MemSame s t ∧ t.pods = s.pods ∧ RegsBut Sys2Proof.Claims.slotRegs s t)
    ∧ (∀ (d : List Byte) (s : State), d.length = 64 → mayTakeAdmin s = true → keeperRuns s = true →
        numAt d 0 1 = 0x1A → func s fKeeper = 2 → runSlot s = 2 ∨ limited s = true →
        ∃ t : State, exec (.bundleCommit d) s = .next t ∧ Sys2Proof.Claims.Answered s t d 0x52 [] 0 0 ∧ t.flash = s.flash)
    ∧ ∀ (d : List Byte) (i : Fin 2) (s : State), d.length = 64 → mayTakeAdmin s = true → keeperRuns s = true → numAt d 2 1 = i.val →
        func s fKeeper = 2 → numAt d 0 1 = 0x1B → slotRangeOk (numAt d 0x20 8) (numAt d 0x10 8) = true → ∃ t : State, exec (.bundleRead d) s = .next t
        ∧ t.out = s.out ++ [.hostWrite (BitVec.ofNat 64 (numAt d 8 8)) (if spiOn s then
            slotBytes (vget s.flash.slots i) (numAt d 0x20 8) (numAt d 0x10 8) else List.replicate (numAt d 0x10 8) 0)]
        ∧ Sys2Proof.Claims.Answered s t d 0 [] 0 0 ∧ t.flash = s.flash ∧ MemSame s t ∧ t.pods = s.pods ∧ RegsBut [rStream 0 0x38, rStream 0 0x3C] s t)

/-! ## Device time -/

/-- The three rows that write TIM_CTRL: SET and ADD_OFFSET wait for the next stake; SYNCED shows at once, and the TIME function is READY with it
and INIT without. TIM_INCR is stored within its bounds. A departing or received event message that the port times sends its stamps to the
Keeper, or into a one-step Sync: originTimestamp takes S and NS, FRAC is added to correctionField, the UDP checksum over IPv4 is zero, and the
rest of the frame but its check sequence stays; any other message passes untimed, as does every one while the port is gated or the reference is
absent (log 29, and log 2 for changing nothing).
For what the spec leaves open it follows the model's choices of log 24 and 45. -/
def Obligations.TimeIsWrittenAndStamped : Prop :=
  (∀ (c : Instr) (v n : Word) (s : State), (c = .timCtrlSet v ∧ n = v ||| 1) ∨ (c = .timCtrlAddOffset v ∧ n = v ||| 2)
        ∨ (c = .timCtrlSynced v ∧ n = v ||| 4) → ∃ t : State, exec c s = .next t
      ∧ t.time = { s.time with setPending := s.time.setPending || getB n 0, offsetPending := s.time.offsetPending || getB n 1 }
      ∧ flag t rTimCtrl 2 = getB n 2 ∧ (getB n 2 = true → func s fTime = 1 → func t fTime = 2)
      ∧ (getB n 2 = false → func s fTime = 2 → func t fTime = 1) ∧ Notified [rTimCtrl, rFunc fTime] { s with time := t.time } t)
    ∧ (∀ (v : Word) (s : State), ∃ t : State, exec (.timIncrWrite v) s = .next t
        ∧ (reg t rTimIncr).toNat = (if v.toNat < 0x7FFC0000 then 0x7FFC0000 else if 0x80040000 < v.toNat then 0x80040000 else v.toNat)
        ∧ OnlyRegs [rTimIncr] s t)
    ∧ (∀ (f : PtpFrame) (s : State), flag s rClkGate 0 = false ∨ refRuns s = false ∨ (∀ e, ptpPlace f.bytes = some e → 4 ≤ ptpType f.bytes e.1) →
        exec (.ptpEventTx f) s = .next s ∧ exec (.ptpEventRx f) s = .next s)
    ∧ (∀ (f : PtpFrame) (m v : Nat) (u : TimeState) (s : State), flag s rClkGate 0 = true → refRuns s = true → ptpPlace f.bytes = some (m, v) → ptpType f.bytes m < 4 →
        u = latTime s.time (field s rPtpLat 16 16) → exec (.ptpEventTx f) s = .next { s with out := s.out
          ++ (if flag s rPtpCtrl 31 = true ∧ ptpType f.bytes m = 0 ∧ ptpTwoStep f.bytes m = false then [.ptpOneStep (oneStepFrame f.bytes (m, v) u)] else [])
          ++ (if flag s rPtpCtrl 30 = true ∧ ptpTwoStep f.bytes m = true then
                [.ptpTxTime u.secs (BitVec.ofNat 32 (timeNs u)) (BitVec.ofNat 16 (timeFrac u))] else []) })
    ∧ (∀ (b c : List Byte) (m v : Nat) (u : TimeState), ptpPlace b = some (m, v) → m + 48 ≤ b.length → timeNs u < 2 ^ 32 → c = oneStepFrame b (m, v) u →
        c.length = b.length ∧ beAt c (m + 34) 6 = u.secs.toNat ∧ beAt c (m + 40) 4 = timeNs u
          ∧ beAt c (m + 8) 8 = (beAt b (m + 8) 8 + timeFrac u) % 2 ^ 64 ∧ (v = 4 → beAt c (m - 2) 2 = 0)
          ∧ ∀ x, (x < m - 2 ∨ (m ≤ x ∧ x < m + 8) ∨ (m + 16 ≤ x ∧ x < m + 34) ∨ (m + 44 ≤ x ∧ x + 4 < b.length)) → c.getD x 0 = b.getD x 0)
    ∧ ∀ (f : PtpFrame) (m v : Nat) (u : TimeState) (s : State), flag s rClkGate 0 = true → refRuns s = true → ptpPlace f.bytes = some (m, v) → ptpType f.bytes m < 4 →
        u = latTime s.time (-(field s rPtpLat 0 16 : Int)) →
        exec (.ptpEventRx f) s = .next { s with out := s.out ++ [.ptpRxTime u.secs (BitVec.ofNat 32 (timeNs u)) (BitVec.ofNat 16 (timeFrac u))] }

/-! ## The mailbox, the TAP and the board buses -/

/-- The mailbox takes one request of at most 64 KiB at a time, while the PCIe clock runs and the Keeper is READY, and DOE_ABORT discards it; a
step on an empty queue answers it while the Keeper's clock runs (log 29, and log 2 for changing nothing without). A locked port takes EXTEST, CLAMP and HIGHZ
as BYPASS, but while SYS_RST_N is low; IDCODE gives the stepping's word; under power-on reset the TAP is inactive. A Block Read of a bus whose block
runs, on a device out of reset and without boundary scan, returns its register, and an unlisted command byte four zeros; a write that carries data is
acknowledged and dropped; the alert response answers with the address and releases the alert; ENTDAA and SETDASA give an address to a target without
one. In reset, gated or under boundary scan no bus answers.
For what the spec leaves open it follows the model's choices of log 1, 35, 36, 43 and 66. -/
def Obligations.MailboxTapAndBoardBusesAnswer : Prop :=
  (∀ (req : List Byte) (c : Instr) (k : DoeKind) (s : State), (c, k) ∈ [(.getVersion req, .version), (.getCapabilities req, .capabilities),
      (.negotiateAlgorithms req, .algorithms), (.getDigests req, .digests), (.getCertificate req, .certificate), (.challenge req, .challenge),
      (.getMeasurements req, .measurements), (.doeDiscovery req, .discovery)] →
      (pcieRuns s = true → func s fKeeper = 2 → s.doe.request = none → req.length ≤ 65536 →
          exec c s = .next { s with doe := { s.doe with request := some (k, req) } })
        ∧ (pcieRuns s = false ∨ func s fKeeper ≠ 2 ∨ s.doe.request ≠ none ∨ 65536 < req.length → exec c s = .next s))
    ∧ (∀ s : State, exec .doeAbort s = .next { s with doe := { s.doe with request := none } })
    ∧ (∀ (k : DoeKind) (req : List Byte) (s : State), s.pending = [] → s.doe.request = some (k, req) → keeperRuns s = true → ∃ (t : State) (b : List Byte) (post : List Output),
        step s = .next t ∧ t.doe.request = none ∧ t.out = s.out ++ [.doe b] ++ post ∧ (∀ o ∈ post, o = .msix 67) ∧ t.pods = s.pods ∧ MemSame s t
        ∧ (k = .version → t.doe.spdm = 1 ∧ ∃ x, b = leBytes 2 0x1200 ++ x)
        ∧ (k = .digests → s.doe.spdm = 3 → ∃ x, b = sha384 s.fuses.leafCert ++ x) ∧ (k = .measurements → s.doe.spdm = 3 → numAt req 3 1 = 8 → ∃ x, b = s.misc.weightNow ++ x))
    ∧ (∀ s : State, s.pending = [] → keeperRuns s = false → ∃ t : State, step s = .next t ∧ t.doe = s.doe ∧ t.out = s.out ∧ t.pods = s.pods)
    ∧ (∀ s : State, s.misc.porAsserted = true → ∀ c ∈ [Instr.extest, .clamp, .highz, .samplePreload, .bypass, .dbgTrstN, .idcode], exec c s = .next s)
    ∧ (∀ s : State, s.misc.porAsserted = false →
        exec .extest s = .next { s with dport := { s.dport with tap := if s.dport.locked && !s.misc.sysRstLow then 0xFF else 0x00 } }
        ∧ exec .clamp s = .next { s with dport := { s.dport with tap := if s.dport.locked && !s.misc.sysRstLow then 0xFF else 0x05 } }
        ∧ exec .highz s = .next { s with dport := { s.dport with tap := if s.dport.locked && !s.misc.sysRstLow then 0xFF else 0x06 } }
        ∧ exec .samplePreload s = .next { s with dport := { s.dport with tap := 0x02 } }
        ∧ exec .bypass s = .next { s with dport := { s.dport with tap := 0xFF } }
        ∧ exec .dbgTrstN s = .next { s with dport := { s.dport with tap := 0x01 } }
        ∧ exec .idcode s = .next { s with dport := { s.dport with tap := 0x01 }, out := s.out ++ [.idcode (if isA1 s then 0x18240C5D else 0x28240C5D)] })
    ∧ (∀ (i3c : Bool) (c : Byte) (b : List Byte) (s : State), flag s rClkGate (if i3c then 4 else 5) = true → s.dport.tap ∉ [0x00, 0x05, 0x06] →
        inReset s = false →
        (c = 0 ∧ b = leBytes 4 (reg s rDevId).toNat) ∨ (c = 2 ∧ b = leBytes 4 (reg s rPlace).toNat) ∨ (c = 3 ∧ b = leBytes 4 (reg s rCfgStatus).toNat)
          ∨ (c = 9 ∧ b = leBytes 4 (reg s rRefresh).toNat) ∨ (c = 0x0B ∧ b = leBytes 4 (reg s rFaultState).toNat) ∨ (0x0C ≤ c.toNat ∧ b = [0, 0, 0, 0]) →
        exec (.blockRead i3c c) s = .next { s with out := s.out ++ [.busRead i3c b] })
    ∧ (∀ (i3c : Bool) (c : Byte) (b : List Byte) (a : BitVec 7) (s : State),
        flag s rClkGate (if i3c then 4 else 5) = false ∨ inReset s = true ∨ s.dport.tap ∈ [0x00, 0x05, 0x06] →
        exec (.blockRead i3c c) s = .next s ∧ exec (.targetWrite i3c b) s = .next s
          ∧ (i3c = false → exec .alertResponse s = .next s) ∧ (i3c = true → exec (.entdaa a) s = .next s ∧ exec (.setdasa a) s = .next s))
    ∧ (∀ (i3c : Bool) (b : List Byte) (s : State), flag s rClkGate (if i3c then 4 else 5) = true → s.dport.tap ∉ [0x00, 0x05, 0x06] →
        inReset s = false → exec (.targetWrite i3c b) s = .next { s with out := s.out ++ (if b = [] then [] else [.busAck i3c]) })
    ∧ (∀ s : State, flag s rClkGate 5 = true → s.dport.tap ∉ [0x00, 0x05, 0x06] → inReset s = false → s.misc.alertLow = true → exec .alertResponse s
        = .next { s with misc := { s.misc with alertLow := false }, out := s.out ++ [.arpAddress (BitVec.ofNat 8 (0x5C + field s rPlace 0 2)), .alert false] })
    ∧ (∀ s : State, s.misc.alertLow = false → exec .alertResponse s = .next s)
    ∧ (∀ (a : BitVec 7) (s : State), flag s rClkGate 4 = true → s.dport.tap ∉ [0x00, 0x05, 0x06] → inReset s = false → s.misc.i3cAddr = none →
        exec (.entdaa a) s = .next { s with misc := { s.misc with i3cAddr := some a } }
          ∧ exec (.setdasa a) s = .next { s with misc := { s.misc with i3cAddr := some a } })
    ∧ ∀ (a : BitVec 7) (s : State), s.misc.i3cAddr ≠ none → exec (.entdaa a) s = .next s ∧ exec (.setdasa a) s = .next s

/-! ## The debug port -/

/-- The commands that a locked port refuses. -/
def Sys2Proof.Claims.lockable (f : DbgFields) : List Instr :=
  [.dbgHalt f, .dbgResume f, .dbgStep f, .dbgBreak f, .dbgWatch f, .dbgRead f, .dbgWrite f, .readCore f, .writeCore f, .config f]

/-- The commands that a locked port still runs. -/
def Sys2Proof.Claims.lockFree (f : DbgFields) : List Instr := [.dbgStatusCmd f, .dbgChallenge f, .response f, .unlock f, .lock f]

/-- The port answers a command with its data and status, and it has been used. -/
def Sys2Proof.Claims.Replied (s t : State) (f : DbgFields) (data status : Nat) : Prop :=
  t.dport.tap = 0x20 ∧ t.dport.rspData = BitVec.ofNat 64 data ∧ t.dport.rspAddr = f.addr ∧ t.dport.rspStatus = BitVec.ofNat 8 status
    ∧ t.out = s.out ++ [.debugRsp (BitVec.ofNat 64 data) f.addr (BitVec.ofNat 8 status)] ∧ flag t rDbgStatus 29 = true

/-- The port takes a command: the Keeper clock runs, fast enough for DBG_TCK, and no command is in progress. -/
def Sys2Proof.Claims.PortTakes (s : State) (f : DbgFields) : Prop := keeperRuns s = true ∧ ratioKept s f = true ∧ debugBusy s = false

/-- The port can run a command that a locked port refuses. -/
def Sys2Proof.Claims.PortRuns (s : State) (f : DbgFields) : Prop := Sys2Proof.Claims.PortTakes s f ∧ s.dport.locked = false

/-- Only registers of `l`, the port and what it has sent may have changed. -/
def Sys2Proof.Claims.PortOnly (l : List Nat) (s t : State) : Prop :=
  t = { s with regs := t.regs, dport := t.dport, out := t.out } ∧ RegsBut (rDbgStatus :: l) s t

/-- The debug port. Commands show BUSY while the Keeper clock is stopped (SYS_RST_N low included) or too slow for DBG_TCK, and while a command is in
progress that they may not join; under power-on reset the port is inactive and changes nothing (R447, log 2); while the port is locked those outside R433's list answer LOCKED; a POD value that names no Pod answers BAD_ADDR, and 0xFF for
one Pod's commands BAD_OP. HALT stops a Pod with cause 1 and aborts a STEP in progress; RESUME and STEP take a halted Pod up again, and answer
NOT_HALTED for one that is not; a STEP at the frame end answers FRAME_END, any other answers once its bundle issues. BREAK and WATCH set or
clear their comparator and leave the rest. READ and WRITE move eight aligned bytes: those of a Pod store ask its banks, and the Pod cycle that
finds them granted answers; a WRITE while a weave is active sets DBG_WRITE, and one into the nodes of a walking Tree Engine waits before that. READ_CORE and WRITE_CORE move a word of a halted Pod's registers; a write of
S0 is dropped. STATUS gives the mask of halted Pods; CHALLENGE the words of the nonce, drawn anew at word 0; RESPONSE stores a word of the
signature; UNLOCK unlocks for a good signature, counts a bad one with UNLOCK_FAIL, and after three fails without trying; LOCK locks a part
whose fuse is not open; CONFIG sets HALT_GROUP.
For what the spec leaves open it follows the model's choices of log 33, 42, 43 and 57. -/
def Obligations.DebugCommandsAreAnswered : Prop :=
  ((∀ (f : DbgFields) (c : Instr) (s : State), c ∈ Sys2Proof.Claims.lockable f ++ Sys2Proof.Claims.lockFree f →
      s.misc.porAsserted = false → keeperRuns s = false ∨ ratioKept s f = false ∨ (debugBusy s = true ∧ c ≠ .dbgHalt f) →
      exec c s = .next { s with dport := { s.dport with tap := 0x20 }, out := s.out ++ [.debugRsp 0 0 1] })
    ∧ (∀ (f : DbgFields) (c : Instr) (s : State), c ∈ Sys2Proof.Claims.lockable f ++ Sys2Proof.Claims.lockFree f → s.misc.porAsserted = true →
        exec c s = .next s)
    ∧ (∀ (f : DbgFields) (c : Instr) (s : State), c ∈ Sys2Proof.Claims.lockable f → Sys2Proof.Claims.PortTakes s f → s.dport.locked = true → exec c s = .next { s with
          dport := { s.dport with tap := 0x20, rspData := 0, rspAddr := f.addr, rspStatus := 2 }, out := s.out ++ [.debugRsp 0 f.addr 2] })
    ∧ ∀ (f : DbgFields) (c : Instr) (k : Nat) (s : State), Sys2Proof.Claims.PortRuns s f →
        (64 ≤ f.pod.toNat ∧ f.pod ≠ 0xFF ∧ k = 4 ∧ c ∈ [.dbgHalt f, .dbgResume f, .dbgStep f, .dbgBreak f, .dbgWatch f, .readCore f, .writeCore f])
          ∨ (f.pod = 0xFF ∧ k = 3 ∧ c ∈ [.dbgStep f, .readCore f, .writeCore f]) →
        ∃ t : State, exec c s = .next t ∧ Sys2Proof.Claims.Replied s t f 0 k ∧ Sys2Proof.Claims.PortOnly [] s t)
    ∧ ((∀ (f : DbgFields) (p : PodId) (s : State), Sys2Proof.Claims.PortRuns s f → f.pod.toNat = p.val → podHalted s p = false →
      ∃ t : State, exec (.dbgHalt f) s = .next t ∧ podHalted t p = true ∧ flag t (rPod p.val 0x100) 31 = false ∧ (pod t p).core.haltCause = 1
        ∧ Sys2Proof.Claims.Replied s t f 0 0 ∧ (∀ q, q ≠ p → pod t q = pod s q)
        ∧ t.stake = (if hasCode s p && weaveActive s then causeArises s 8 else s).stake
        ∧ Sys2Proof.Claims.PortOnly [rPod p.val 0x100] { s with pods := t.pods, stake := t.stake } t)
    ∧ (∀ (f : DbgFields) (p q : PodId) (s : State), keeperRuns s = true → ratioKept s f = true → s.dport.locked = false →
        f.pod.toNat = p.val → s.dport.stepPod = some q →
        ∃ t : State, exec (.dbgHalt f) s = .next t ∧ t.dport.stepPod = none ∧ podHalted t q = true ∧ podHalted t p = true
          ∧ Sys2Proof.Claims.Replied s t f 0 0)
    ∧ (∀ (f : DbgFields) (p : PodId) (s : State), Sys2Proof.Claims.PortRuns s f → f.pod.toNat = p.val → podHalted s p = true → podTrapped s p = false →
        ∃ t : State, exec (.dbgResume f) s = .next t ∧ podHalted t p = false
          ∧ flag t (rPod p.val 0x100) 31 = (hasCode s p && !flag s rFaultState 31 && s.active.isSome) ∧ Sys2Proof.Claims.Replied s t f 0 0
          ∧ (∀ q, q ≠ p → pod t q = pod s q) ∧ (pod t p).s = (pod s p).s ∧ (pod t p).v = (pod s p).v
          ∧ Sys2Proof.Claims.PortOnly [rPod p.val 0x100] { s with pods := t.pods } t)
    ∧ (∀ (f : DbgFields) (p : PodId) (s : State), Sys2Proof.Claims.PortRuns s f → f.pod.toNat = p.val → podHalted s p = true → podTrapped s p = false →
        podAtFend s p = false → ∃ t : State, exec (.dbgStep f) s = .next t ∧ podHalted t p = false ∧ t.dport.stepPod = some p
          ∧ t.dport.rspAddr = f.addr ∧ (pod t p).core.stepping = true ∧ t.out = s.out ∧ (∀ q, q ≠ p → pod t q = pod s q)
          ∧ Sys2Proof.Claims.PortOnly [rPod p.val 0x100] { s with pods := t.pods } t)
    ∧ (∀ (f : DbgFields) (c : Instr) (k : Nat) (p : PodId) (s : State), Sys2Proof.Claims.PortRuns s f → f.pod.toNat = p.val →
        (c = .dbgResume f ∧ podHalted s p = false ∧ k = 6) ∨ (c = .dbgStep f ∧ podHalted s p = false ∧ k = 6)
          ∨ (c = .dbgStep f ∧ podHalted s p = true ∧ podTrapped s p = false ∧ podAtFend s p = true ∧ k = 7) →
        ∃ t : State, exec c s = .next t ∧ Sys2Proof.Claims.Replied s t f 0 k ∧ Sys2Proof.Claims.PortOnly [] s t)
    ∧ (∀ (f : DbgFields) (p : PodId) (n : Fin 4) (s : State), Sys2Proof.Claims.PortRuns s f → f.pod.toNat = p.val → n.val = f.addr.toNat % 4 →
        ∃ t : State, exec (.dbgBreak f) s = .next t ∧ vget (pod t p).breaks n = (if getB f.data 63 then some (f.data.setWidth 14) else none)
          ∧ (∀ m, m ≠ n → vget (pod t p).breaks m = vget (pod s p).breaks m) ∧ (∀ q, q ≠ p → pod t q = pod s q)
          ∧ Sys2Proof.Claims.Replied s t f 0 0 ∧ Sys2Proof.Claims.PortOnly [] { s with pods := t.pods } t)
    ∧ (∀ (f : DbgFields) (p : PodId) (n : Fin 2) (s : State), Sys2Proof.Claims.PortRuns s f → f.pod.toNat = p.val → n.val = getF f.data 40 1 →
        getB f.data 63 = false ∨ (f.addr.toNat % 64 = 0 ∧ getF f.data 0 32 ≠ 0 ∧ getF f.data 0 32 % 64 = 0) →
        ∃ t : State, exec (.dbgWatch f) s = .next t
          ∧ vget (pod t p).watches n = (if getB f.data 63 then some ⟨f.addr.toNat, getF f.data 0 32, getB f.data 61, getB f.data 62⟩ else none)
          ∧ (∀ m, m ≠ n → vget (pod t p).watches m = vget (pod s p).watches m) ∧ (∀ q, q ≠ p → pod t q = pod s q)
          ∧ Sys2Proof.Claims.Replied s t f 0 0 ∧ Sys2Proof.Claims.PortOnly [] { s with pods := t.pods } t)
    ∧ ∀ (f : DbgFields) (p : PodId) (s : State), Sys2Proof.Claims.PortRuns s f → f.pod.toNat = p.val → getB f.data 63 = true →
        f.addr.toNat % 64 ≠ 0 ∨ getF f.data 0 32 % 64 ≠ 0 → ∃ t : State, exec (.dbgWatch f) s = .next t
          ∧ Sys2Proof.Claims.Replied s t f 0 4 ∧ Sys2Proof.Claims.PortOnly [] s t)
    ∧ ((∀ (f : DbgFields) (s : State), Sys2Proof.Claims.PortRuns s f → podBase ≤ f.addr.toNat → f.addr.toNat < podEnd → f.addr.toNat % 8 = 0 → s.ecc = [] →
      ∃ (t : State) (j : NetJob), exec (.dbgRead f) s = .next t ∧ netJob t (.debug false f.addr) = some j ∧ j.pod = podOfAddr f.addr.toNat
        ∧ j.data = memRead s f.addr.toNat 8 ∧ netGranted t j.pod j.op = false ∧ t.dport.tap = 0x20 ∧ debugBusy t = true
        ∧ Sys2Proof.Claims.PortOnly [] { s with misc := t.misc } t ∧ t.out = s.out)
    ∧ (∀ (f : DbgFields) (s : State), Sys2Proof.Claims.PortRuns s f → f.addr.toNat < rootEnd → f.addr.toNat % 8 = 0 → s.ecc = [] →
      ∃ t : State, exec (.dbgRead f) s = .next t ∧ Sys2Proof.Claims.Replied s t f (leNat (memRead s f.addr.toNat 8)) 0
        ∧ Sys2Proof.Claims.PortOnly [] { s with power := t.power } t)
    ∧ (∀ (p : PodId) (a : BitVec 48) (j : NetJob) (write : Bool) (s : State), Sys2Proof.Claims.Resting s p → podRunning s p = false → (pod s p).sends = [] →
        (pod s p).lines = [] → s.misc.netJobs = [j] → j.key = .debug write a → j.pod = p → netDone s j = true → s.ecc = [] → ∃ t : State,
          exec (.podCycle p) s = .next t ∧ t.misc.netJobs = [] ∧ t.dport.rspAddr = a ∧ t.dport.rspStatus = 0
          ∧ t.dport.rspData = (if write then 0 else BitVec.ofNat 64 (leNat j.data))
          ∧ t.out = s.out ++ [.debugRsp t.dport.rspData a 0] ∧ MemSame s t)
    ∧ (∀ (p : PodId) (a : BitVec 48) (v : Word64) (s : State), podClockRuns s p = true → s.dport.heldWrite = some (a, v) → podOfAddr a.toNat = p →
        (pod s p).te.windows = [] → debugOpen s = false → ∃ t : State, exec (.podCycle p) s = .next t ∧ t.dport.heldWrite = none
          ∧ (netJob t (.debug true a)).isSome = true)
    ∧ (∀ (f : DbgFields) (s : State), Sys2Proof.Claims.PortRuns s f → f.addr.toNat = regWindow + rDevId → ∃ t : State, exec (.dbgRead f) s = .next t
        ∧ Sys2Proof.Claims.Replied s t f (reg s rDevId).toNat 0 ∧ Sys2Proof.Claims.PortOnly [] s t)
    ∧ (∀ (f : DbgFields) (c : Instr) (s : State), Sys2Proof.Claims.PortRuns s f → c ∈ [.dbgRead f, .dbgWrite f] → f.addr.toNat < regWindow →
        f.addr.toNat % 8 ≠ 0 → ∃ t : State, exec c s = .next t ∧ Sys2Proof.Claims.Replied s t f 0 4 ∧ Sys2Proof.Claims.PortOnly [] s t)
    ∧ (∀ (f : DbgFields) (p : PodId) (o : Nat) (s : State), Sys2Proof.Claims.PortRuns s f → o < podSize → f.addr.toNat = podAddr p o → o % 8 = 0 →
        touchesNodes s p o 8 = false → ∃ (t : State) (j : NetJob) (r : StoreRange), exec (.dbgWrite f) s = .next t
          ∧ netJob t (.debug true f.addr) = some j ∧ j.pod = p ∧ netGranted t p j.op = false ∧ debugBusy t = true ∧ MemSame s t
          ∧ (pod t p).ranges = (pod s p).ranges ++ [r] ∧ r.op = j.op ∧ r.write = true
          ∧ r.writes = [(f.addr.toNat, leBytes 8 f.data.toNat)] ∧ t.dport.heldWrite = none
          ∧ (weaveActive s = true → flag t rErrDbg 1 = true)
          ∧ (weaveActive s = false → t.out = s.out ∧ Sys2Proof.Claims.PortOnly [] { s with misc := t.misc, pods := t.pods } t))
    ∧ (∀ (f : DbgFields) (s : State), Sys2Proof.Claims.PortRuns s f → f.addr.toNat + 8 ≤ rootEnd → f.addr.toNat % 8 = 0 → ∃ t : State, exec (.dbgWrite f) s = .next t
          ∧ Sys2Proof.Claims.Stored s t f.addr.toNat (leBytes 8 f.data.toNat) ∧ t.pods = s.pods ∧ t.dport.rspStatus = 0 ∧ t.dport.rspAddr = f.addr
          ∧ (weaveActive s = true → flag t rErrDbg 1 = true)
          ∧ (weaveActive s = false → Sys2Proof.Claims.Replied s t f 0 0
            ∧ Sys2Proof.Claims.PortOnly [] { s with mem := t.mem, ecc := t.ecc, power := t.power } t))
    ∧ (∀ (f : DbgFields) (p : PodId) (o : Nat) (s : State), Sys2Proof.Claims.PortRuns s f → o < podSize → f.addr.toNat = podAddr p o → o % 8 = 0 →
        touchesNodes s p o 8 = true → (pod s p).te.windows.any (winWalking (pod s p).core.cycle) = true → weaveActive s = false →
        ∃ t : State, exec (.dbgWrite f) s = .next t ∧ t.dport.heldWrite = some (f.addr, f.data) ∧ t.out = s.out ∧ Sys2Proof.Claims.PortOnly [] s t)
    ∧ (∀ (f : DbgFields) (p : PodId) (i : Fin 32) (s : State), Sys2Proof.Claims.PortRuns s f → f.pod.toNat = p.val → podHalted s p = true →
        getF f.addr 40 8 = 0 → getF f.addr 32 8 = i.val → getF f.addr 0 16 = 0 →
        (∃ t : State, exec (.readCore f) s = .next t ∧ Sys2Proof.Claims.Replied s t f (vget (pod s p).s i).toNat 0 ∧ Sys2Proof.Claims.PortOnly [] s t)
          ∧ (weaveActive s = false → ∃ t : State, exec (.writeCore f) s = .next t ∧ vget (pod t p).s i = (if i.val = 0 then vget (pod s p).s i else f.data)
            ∧ (∀ j, j ≠ i → vget (pod t p).s j = vget (pod s p).s j) ∧ (pod t p).v = (pod s p).v ∧ (∀ q, q ≠ p → pod t q = pod s q)
            ∧ Sys2Proof.Claims.Replied s t f 0 0 ∧ Sys2Proof.Claims.PortOnly [] { s with pods := t.pods } t)
          ∧ (weaveActive s = true → ∃ t : State, exec (.writeCore f) s = .next t ∧ flag t rErrDbg 1 = true
            ∧ vget (pod t p).s i = (if i.val = 0 then vget (pod s p).s i else f.data) ∧ MemSame s t))
    ∧ ∀ (f : DbgFields) (c : Instr) (k : Nat) (p : PodId) (s : State), Sys2Proof.Claims.PortRuns s f → f.pod.toNat = p.val → c ∈ [.readCore f, .writeCore f] →
        (podHalted s p = false ∧ k = 6) ∨ (podHalted s p = true ∧ 8 ≤ getF f.addr 40 8 ∧ k = 4) →
        ∃ t : State, exec c s = .next t ∧ Sys2Proof.Claims.Replied s t f 0 k ∧ Sys2Proof.Claims.PortOnly [] s t)
    ∧ ((∀ (f : DbgFields) (s : State), Sys2Proof.Claims.PortTakes s f → ∃ (t : State) (m : Nat), exec (.dbgStatusCmd f) s = .next t
      ∧ Sys2Proof.Claims.Replied s t f m 0 ∧ (∀ p : PodId, m.testBit p.val = podHalted s p) ∧ m < 2 ^ 64 ∧ Sys2Proof.Claims.PortOnly [] s t)
    ∧ (∀ (f : DbgFields) (s : State), Sys2Proof.Claims.PortTakes s f → ∃ t : State, exec (.dbgChallenge f) s = .next t
        ∧ (getF f.addr 0 2 ≠ 0 → t.dport.nonce = s.dport.nonce ∧ t.fresh = s.fresh) ∧ (getF f.addr 0 2 = 0 → t.dport.nonce.length = 32)
        ∧ Sys2Proof.Claims.Replied s t f (numAt t.dport.nonce (8 * getF f.addr 0 2) 8) 0 ∧ Sys2Proof.Claims.PortOnly [] { s with fresh := t.fresh } t)
    ∧ (∀ (f : DbgFields) (n : Fin 12) (s : State), Sys2Proof.Claims.PortTakes s f → getF f.addr 0 4 = n.val →
        ∃ t : State, exec (.response f) s = .next t ∧ t.dport.signature = vput s.dport.signature n f.data ∧ t.dport.locked = s.dport.locked
          ∧ Sys2Proof.Claims.Replied s t f 0 0 ∧ Sys2Proof.Claims.PortOnly [] s t)
    ∧ (∀ (f : DbgFields) (s : State), Sys2Proof.Claims.PortTakes s f → 12 ≤ getF f.addr 0 4 →
        ∃ t : State, exec (.response f) s = .next t ∧ t.dport.signature = s.dport.signature ∧ Sys2Proof.Claims.Replied s t f 0 4
          ∧ Sys2Proof.Claims.PortOnly [] s t)
    ∧ (∀ (f : DbgFields) (s : State), Sys2Proof.Claims.PortTakes s f → 3 ≤ s.dport.fails → ∃ t : State, exec (.unlock f) s = .next t
        ∧ t.dport.locked = s.dport.locked ∧ t.dport.fails = s.dport.fails ∧ Sys2Proof.Claims.Replied s t f 0 2 ∧ Sys2Proof.Claims.PortOnly [] s t)
    ∧ (∀ (f : DbgFields) (s : State), Sys2Proof.Claims.PortTakes s f → s.dport.fails < 3 →
        ecdsaVerify Config.debugKey (s.dport.nonce ++ sha256 s.fuses.publicKey ++ leBytes 4 (reg s rDevId).toNat)
          (s.dport.signature.toList.flatMap (fun (w : Word64) => leBytes 8 w.toNat)) = true → ∃ t : State, exec (.unlock f) s = .next t
        ∧ t.dport.locked = false ∧ t.dport.fails = s.dport.fails ∧ Sys2Proof.Claims.Replied s t f 0 0 ∧ Sys2Proof.Claims.PortOnly [] s t)
    ∧ (∀ (f : DbgFields) (s : State), Sys2Proof.Claims.PortTakes s f → s.dport.fails < 3 →
        ecdsaVerify Config.debugKey (s.dport.nonce ++ sha256 s.fuses.publicKey ++ leBytes 4 (reg s rDevId).toNat)
          (s.dport.signature.toList.flatMap (fun (w : Word64) => leBytes 8 w.toNat)) = false → ∃ t : State, exec (.unlock f) s = .next t
        ∧ t.dport.locked = s.dport.locked ∧ t.dport.fails = s.dport.fails + 1 ∧ t.dport.nonce.length = 32 ∧ flag t rErrDbg 0 = true
        ∧ t.dport.rspStatus = 2 ∧ t.pods = s.pods ∧ MemSame s t)
    ∧ (∀ (f : DbgFields) (s : State), Sys2Proof.Claims.PortTakes s f → ∃ t : State, exec (.lock f) s = .next t
        ∧ t.dport.locked = !s.fuses.debugOpen ∧ Sys2Proof.Claims.Replied s t f 0 0 ∧ Sys2Proof.Claims.PortOnly [] s t)
    ∧ ∀ (f : DbgFields) (s : State), Sys2Proof.Claims.PortRuns s f → ∃ t : State, exec (.config f) s = .next t
        ∧ flag t rDbgStatus 28 = getB f.data 0 ∧ Sys2Proof.Claims.Replied s t f 0 0 ∧ Sys2Proof.Claims.PortOnly [] s t)
end

