-- ==== Sys2Proof/Laws/Fec.lean ====
section
/-! SUPPORT. The code of the flits (R235): a flit that no error has touched is received as it was sent. The parity symbols make every root of the
generator a root of the word, so that the syndromes are zero. -/

namespace Sys2Proof.Machine

/-! ## The field -/

theorem nat_xor_eq (a b : Nat) : Nat.xor a b = a ^^^ b := rfl

theorem xor_cancel (a b x : Nat) : (a ^^^ x) ^^^ (b ^^^ x) = a ^^^ b := by
  rw [Nat.xor_assoc, Nat.xor_comm x, Nat.xor_assoc, Nat.xor_self, Nat.xor_zero]

theorem symbol_xor_lt {a b : Nat} (ha : a < 1024) (hb : b < 1024) : a ^^^ b < 1024 := Nat.xor_lt_two_pow (n := 10) ha hb

theorem gfDouble_lt {a : Nat} (h : a < 1024) : gfDouble a < 1024 := by
  have : ∀ a : Fin 1024, gfDouble a.val < 1024 := by decide +kernel
  exact this ⟨a, h⟩

/-- Reduction depends on the top bit alone. -/
theorem gfDouble_eq {a : Nat} (h : a < 1024) : gfDouble a = 2 * a ^^^ (if a.testBit 9 then 0x409 else 0) := by
  have : ∀ a : Fin 1024, gfDouble a.val = 2 * a.val ^^^ (if a.val.testBit 9 then 0x409 else 0) := by decide +kernel
  exact this ⟨a, h⟩

theorem two_mul_xor (a b : Nat) : 2 * (a ^^^ b) = 2 * a ^^^ 2 * b := by
  have h : ∀ x : Nat, 2 * x = x <<< 1 := fun x => by rw [Nat.shiftLeft_eq]; omega
  rw [h, h, h, Nat.shiftLeft_xor_distrib]

theorem gfDouble_xor {a b : Nat} (ha : a < 1024) (hb : b < 1024) : gfDouble (a ^^^ b) = gfDouble a ^^^ gfDouble b := by
  rw [gfDouble_eq ha, gfDouble_eq hb, gfDouble_eq (symbol_xor_lt ha hb), two_mul_xor, Nat.testBit_xor]
  cases a.testBit 9 <;> cases b.testBit 9
  · simp
  · simp only [Bool.false_bne, Bool.false_eq_true, if_true, if_false, Nat.xor_zero, Nat.xor_assoc]
  · simp only [Bool.bne_false, Bool.false_eq_true, if_true, if_false, Nat.xor_zero]; ac_rfl
  · simp only [bne_self_eq_false, Bool.false_eq_true, if_true, if_false, Nat.xor_zero, xor_cancel]

theorem gfMulBits_lt (n : Nat) {a : Nat} (b : Nat) (h : a < 1024) : gfMulBits n a b < 1024 := by
  induction n generalizing a b with
  | zero => exact Nat.zero_lt_of_lt h
  | succ n ih =>
    simp only [gfMulBits, nat_xor_eq]
    refine symbol_xor_lt ?_ (ih _ (gfDouble_lt h))
    split <;> omega

theorem gfMulBits_xor (n : Nat) {a b : Nat} (c : Nat) (ha : a < 1024) (hb : b < 1024) :
    gfMulBits n (a ^^^ b) c = gfMulBits n a c ^^^ gfMulBits n b c := by
  induction n generalizing a b c with
  | zero => simp [gfMulBits]
  | succ n ih =>
    simp only [gfMulBits, nat_xor_eq, gfDouble_xor ha hb, ih _ (gfDouble_lt ha) (gfDouble_lt hb)]
    split <;> ac_rfl

theorem gfMulBits_xor_right (n a b c : Nat) : gfMulBits n a (b ^^^ c) = gfMulBits n a b ^^^ gfMulBits n a c := by
  induction n generalizing a b c with
  | zero => simp [gfMulBits]
  | succ n ih =>
    have hd : (b ^^^ c) / 2 = b / 2 ^^^ c / 2 := by
      have h : ∀ x : Nat, x / 2 = x >>> 1 := fun x => by rw [Nat.shiftRight_eq_div_pow]
      rw [h, h, h, Nat.shiftRight_xor_distrib]
    have hm : (b ^^^ c) % 2 = (b % 2 + c % 2) % 2 := by rw [Nat.xor_mod_two_eq, Nat.add_mod]
    simp only [gfMulBits, nat_xor_eq, hd, ih, hm]
    rcases Nat.mod_two_eq_zero_or_one b with h1 | h1 <;> rcases Nat.mod_two_eq_zero_or_one c with h2 | h2 <;> rw [h1, h2]
    · simp
    · simp only [Nat.zero_add, Nat.one_mod, if_true, Nat.zero_ne_one, if_false, Nat.zero_xor]; ac_rfl
    · simp only [Nat.add_zero, Nat.one_mod, if_true, Nat.zero_ne_one, if_false, Nat.zero_xor, Nat.xor_assoc]
    · simp only [show (1 + 1) % 2 = 0 from rfl, if_true, Nat.zero_ne_one, if_false, Nat.zero_xor]
      rw [Nat.xor_comm a, Nat.xor_comm a, xor_cancel]

theorem gfMulBits_double (n : Nat) {a : Nat} (b : Nat) (h : a < 1024) : gfMulBits n (gfDouble a) b = gfDouble (gfMulBits n a b) := by
  induction n generalizing a b with
  | zero => rfl
  | succ n ih =>
    have hl : (if b % 2 = 1 then a else 0) < 1024 := by split <;> omega
    simp only [gfMulBits, nat_xor_eq]
    rw [ih _ (gfDouble_lt h), gfDouble_xor hl (gfMulBits_lt n _ (gfDouble_lt h)), ih _ h]
    congr 1
    split <;> rfl

theorem gfMulBits_zero (n b : Nat) : gfMulBits n 0 b = 0 := by
  induction n generalizing b with
  | zero => rfl
  | succ n ih => simp only [gfMulBits, nat_xor_eq, show gfDouble 0 = 0 from rfl, ih]; split <;> rfl

theorem gfMulBits_of_zero (n a : Nat) : gfMulBits n a 0 = 0 := by
  induction n generalizing a with
  | zero => rfl
  | succ n ih => simp [gfMulBits, ih]

/-- α^10 = α^3 + 1. -/
theorem double_ten {k : Nat} (h : k < 1024) : gfMul k 9 = gfDouble (gfMul k 512) := by
  have : ∀ k : Fin 1024, gfMul k.val 9 = gfDouble (gfMul k.val 512) := by decide +kernel
  exact this ⟨k, h⟩

/-- The product with α times a symbol is α times the product. -/
theorem gfMul_double {k a : Nat} (hk : k < 1024) (ha : a < 1024) : gfMul k (gfDouble a) = gfDouble (gfMul k a) := by
  have low : ∀ b, b < 512 → gfMul k (2 * b) = gfDouble (gfMul k b) := by
    intro b hb
    have e : ∀ (n x b : Nat), b < 2 ^ n → gfMulBits (n + 1) x b = gfMulBits n x b := by
      intro n
      induction n with
      | zero => intro x b h; have : b = 0 := by omega
                subst this; simp [gfMulBits]
      | succ n ih =>
        intro x b h
        rw [show gfMulBits (n + 1 + 1) x b = Nat.xor (if b % 2 = 1 then x else 0) (gfMulBits (n + 1) (gfDouble x) (b / 2)) from rfl,
          ih _ _ (by omega)]
        rfl
    have h9 : gfMul k (2 * b) = gfMulBits 9 (gfDouble k) b := by
      simp only [gfMul, gfMulBits, nat_xor_eq]
      have : 2 * b % 2 = 0 := by omega
      have h2 : 2 * b / 2 = b := by omega
      simp only [this, h2]
      simp
    rw [h9, gfMulBits_double 9 b hk, gfMul, e 9 k b hb]
  by_cases h : a < 512
  · rw [gfDouble, if_pos h]; exact low a h
  · have hs : a = (a - 512) ^^^ 512 := by
      have : ∀ x : Fin 512, (x.val + 512) = x.val ^^^ 512 := by decide +kernel
      have := this ⟨a - 512, by omega⟩
      simpa [Nat.sub_add_cancel (Nat.le_of_not_lt h)] using this
    have hb : a - 512 < 512 := by omega
    have hd : gfDouble a = 2 * (a - 512) ^^^ 9 := by
      conv_lhs => rw [hs]
      rw [gfDouble_xor (by omega) (by omega), show gfDouble 512 = 9 from rfl, gfDouble, if_pos hb]
    rw [hd]
    conv_rhs => rw [hs]
    simp only [gfMul, gfMulBits_xor_right]
    rw [gfDouble_xor (gfMulBits_lt _ _ hk) (gfMulBits_lt _ _ hk)]
    exact congrArg₂ (· ^^^ ·) (low _ hb) (double_ten hk)

/-! ## Evaluation at a power of α -/

/-- A symbol that may be multiplied last: every root of the generator is one. -/
def Power (x : Nat) : Prop := x < 1024 ∧ ∀ k a, k < 1024 → a < 1024 → gfMul (gfMul k a) x = gfMul k (gfMul a x)

theorem gfMul_one (a : Nat) : gfMul a 1 = a := by
  simp [gfMul, gfMulBits]

theorem gfMul_two (a : Nat) : gfMul a 2 = gfDouble a := by
  simp [gfMul, gfMulBits]

theorem powers_of_alpha (n x : Nat) (h : Power x) : ∀ y ∈ gfPowers n 2 x, Power y := by
  induction n generalizing x with
  | zero => intro y hy; cases hy
  | succ n ih =>
    intro y hy
    simp only [gfPowers, List.mem_cons] at hy
    rcases hy with rfl | hy
    · exact h
    · refine ih _ ⟨?_, ?_⟩ y hy
      · rw [gfMul_two]; exact gfDouble_lt h.1
      · intro k a hk ha
        rw [gfMul_two, gfMul_double (show gfMul k a < 1024 from gfMulBits_lt _ _ hk) h.1, h.2 k a hk ha, ← gfMul_double hk (show gfMul a x < 1024 from gfMulBits_lt _ _ ha), gfMul_double ha h.1]

theorem root_power {x : Nat} (h : x ∈ fecRoots) : Power x :=
  powers_of_alpha 19 1 ⟨by decide, fun k a _ _ => by rw [gfMul_one, gfMul_one]⟩ x h

/-- Every root of the generator is one. -/
theorem generator_root : ∀ x ∈ fecRoots, gfEvalHigh fecGenerator x = 0 := by decide +kernel

/-- Horner's scheme from a value of the higher coefficients. -/
def gfHorner (x acc : Nat) (l : List Nat) : Nat := l.foldl (fun acc c => Nat.xor (gfMul acc x) c) acc

theorem gfHorner_lt {x acc : Nat} {l : List Nat} (ha : acc < 1024) (hl : ∀ c ∈ l, c < 1024) : gfHorner x acc l < 1024 := by
  induction l generalizing acc with
  | nil => exact ha
  | cons c l ih =>
    exact ih (symbol_xor_lt (gfMulBits_lt _ _ ha) (hl c (by simp))) (fun d hd => hl d (by simp [hd]))

theorem gfHorner_append (x acc : Nat) (l m : List Nat) : gfHorner x acc (l ++ m) = gfHorner x (gfHorner x acc l) m := List.foldl_append ..

/-- The sum of two polynomials of one length. -/
def xorZip (l m : List Nat) : List Nat := (List.zip l m).map (fun p => Nat.xor p.1 p.2)

theorem gfHorner_xor (x : Nat) {l m : List Nat} {a b : Nat} (hlen : l.length = m.length) (ha : a < 1024) (hb : b < 1024)
    (hl : ∀ c ∈ l, c < 1024) (hm : ∀ c ∈ m, c < 1024) : gfHorner x (a ^^^ b) (xorZip l m) = gfHorner x a l ^^^ gfHorner x b m := by
  induction l generalizing m a b with
  | nil => cases m with
    | nil => rfl
    | cons => simp at hlen
  | cons c l ih => cases m with
    | nil => simp at hlen
    | cons d m =>
      have e : Nat.xor (gfMul (a ^^^ b) x) (Nat.xor c d) = Nat.xor (gfMul a x) c ^^^ Nat.xor (gfMul b x) d := by
        simp only [nat_xor_eq, gfMul, gfMulBits_xor 10 x ha hb]; ac_rfl
      have h1 := ih (m := m) (a := Nat.xor (gfMul a x) c) (b := Nat.xor (gfMul b x) d) (by simpa using hlen)
        (symbol_xor_lt (gfMulBits_lt _ _ ha) (hl c (by simp))) (symbol_xor_lt (gfMulBits_lt _ _ hb) (hm d (by simp)))
        (fun y hy => hl y (by simp [hy])) (fun y hy => hm y (by simp [hy]))
      rw [← e] at h1
      exact h1

/-- A value times x^n. -/
def gfLift (x n a : Nat) : Nat := gfHorner x a (List.replicate n 0)

theorem gfLift_succ (x n a : Nat) : gfLift x (n + 1) a = gfLift x n (gfMul a x) := by
  simp only [gfLift, gfHorner, List.replicate_succ, List.foldl_cons, nat_xor_eq, Nat.xor_zero]

theorem gfLift_succ' (x n a : Nat) : gfLift x (n + 1) a = gfMul (gfLift x n a) x := by
  induction n generalizing a with
  | zero => rw [gfLift_succ]; rfl
  | succ n ih => rw [gfLift_succ, ih, ← gfLift_succ]

theorem xorZip_zero (l : List Nat) : xorZip (List.replicate l.length 0) l = l := by
  induction l with
  | nil => rfl
  | cons c l ih =>
    show Nat.xor 0 c :: xorZip (List.replicate l.length 0) l = c :: l
    rw [ih, nat_xor_eq, Nat.zero_xor]

/-- A value before a polynomial counts as its highest coefficient. -/
theorem gfHorner_split (x : Nat) {a : Nat} {l : List Nat} (ha : a < 1024) (hl : ∀ c ∈ l, c < 1024) :
    gfHorner x a l = gfLift x l.length a ^^^ gfHorner x 0 l := by
  have h := gfHorner_xor x (l := List.replicate l.length 0) (m := l) (a := a) (b := 0) (by simp) ha (by decide)
    (fun c hc => by rw [(List.mem_replicate.1 hc).2]; decide) hl
  rw [xorZip_zero, Nat.xor_zero] at h
  exact h

theorem gfLift_xor (x n : Nat) {a b : Nat} (ha : a < 1024) (hb : b < 1024) : gfLift x n (a ^^^ b) = gfLift x n a ^^^ gfLift x n b := by
  have z : ∀ c ∈ List.replicate n (0 : Nat), c < 1024 := fun c hc => by rw [(List.mem_replicate.1 hc).2]; decide
  have h := gfHorner_xor x (l := List.replicate n 0) (m := List.replicate n 0) rfl ha hb z z
  rw [show xorZip (List.replicate n 0) (List.replicate n 0) = List.replicate n 0 by
    have := xorZip_zero (List.replicate n 0); rwa [List.length_replicate] at this] at h
  exact h

theorem gfLift_lt (x n : Nat) {a : Nat} (ha : a < 1024) : gfLift x n a < 1024 :=
  gfHorner_lt ha (fun c hc => by rw [(List.mem_replicate.1 hc).2]; decide)

/-- A polynomial times a symbol. -/
theorem gfHorner_scale {x k acc : Nat} {l : List Nat} (hx : Power x) (hk : k < 1024) (ha : acc < 1024) (hl : ∀ c ∈ l, c < 1024) :
    gfHorner x (gfMul k acc) (polyScale k l) = gfMul k (gfHorner x acc l) := by
  induction l generalizing acc with
  | nil => rfl
  | cons c l ih =>
    have e : Nat.xor (gfMul (gfMul k acc) x) (gfMul k c) = gfMul k (Nat.xor (gfMul acc x) c) := by
      rw [hx.2 k acc hk ha]; simp only [nat_xor_eq, gfMul, gfMulBits_xor_right]
    have h := ih (acc := Nat.xor (gfMul acc x) c) (symbol_xor_lt (gfMulBits_lt _ _ ha) (hl c (by simp))) (fun y hy => hl y (by simp [hy]))
    rw [← e] at h
    exact h

/-! ## The parity symbols -/

theorem generator_tail : fecGenerator = 1 :: fecGenerator.tail ∧ fecGenerator.tail.length = 19 ∧ ∀ c ∈ fecGenerator.tail, c < 1024 := by decide +kernel

theorem fecShift_length {rest : List Nat} (d : Nat) (h : rest.length = 19) : (fecShift rest d).length = 19 := by
  have := generator_tail.2.1
  simp only [List.length_tail] at this
  simp [fecShift, polyScale, h, this]

theorem fecShift_lt {rest : List Nat} {d : Nat} (hr : ∀ c ∈ rest, c < 1024) (hd : d < 1024) : ∀ c ∈ fecShift rest d, c < 1024 := by
  intro c hc
  simp only [fecShift, List.mem_map] at hc
  obtain ⟨p, hp, rfl⟩ := hc
  have h1 := List.of_mem_zip hp
  have hk : Nat.xor (rest.headD 0) d < 1024 := by
    cases rest with
    | nil => exact symbol_xor_lt (by decide : (0 : Nat) < 1024) hd
    | cons r rest => exact symbol_xor_lt (hr r (by simp)) hd
  refine symbol_xor_lt ?_ ?_
  · rcases List.mem_append.1 h1.1 with h | h
    · exact hr _ (List.mem_of_mem_tail h)
    · simp only [List.mem_singleton] at h; rw [h]; decide
  · simp only [polyScale, List.mem_map] at h1
    obtain ⟨_, g, _, hg⟩ := h1
    rw [← hg]; exact gfMulBits_lt _ _ hk

/-- The division step: its rest times x, and the symbol that has entered times x^19. -/
theorem fecShift_eval {x d : Nat} {rest : List Nat} (hx : x ∈ fecRoots) (hlen : rest.length = 19) (hr : ∀ c ∈ rest, c < 1024) (hd : d < 1024) :
    gfHorner x 0 (fecShift rest d) = gfMul (gfHorner x 0 rest) x ^^^ gfLift x 19 d := by
  obtain ⟨h, t, rfl⟩ : ∃ h t, rest = h :: t := by cases rest with
    | nil => simp at hlen
    | cons h t => exact ⟨h, t, rfl⟩
  have hp := root_power hx
  have hh : h < 1024 := hr h (by simp)
  have ht : ∀ c ∈ t, c < 1024 := fun c hc => hr c (by simp [hc])
  have hk : h ^^^ d < 1024 := symbol_xor_lt hh hd
  have htl : t.length = 18 := by simpa using hlen
  have hz : ∀ c ∈ t ++ [0], c < 1024 := by
    intro c hc; rcases List.mem_append.1 hc with h | h
    · exact ht c h
    · simp only [List.mem_singleton] at h; rw [h]; decide
  have hs : ∀ c ∈ polyScale (h ^^^ d) fecGenerator.tail, c < 1024 := by
    intro c hc; simp only [polyScale, List.mem_map] at hc
    obtain ⟨g, _, rfl⟩ := hc; exact gfMulBits_lt _ _ hk
  have e1 : gfHorner x 0 (fecShift (h :: t) d) = gfHorner x 0 (t ++ [0]) ^^^ gfHorner x 0 (polyScale (h ^^^ d) fecGenerator.tail) :=
    gfHorner_xor x (a := 0) (b := 0) (by
      have := generator_tail.2.1
      simp only [List.length_tail] at this
      simp [polyScale, htl, this]) (by decide) (by decide) hz hs
  have hg : gfHorner x 0 fecGenerator.tail = gfLift x 19 1 := by
    have h0 := generator_root x hx
    rw [show gfEvalHigh fecGenerator x = gfHorner x 0 fecGenerator from rfl, generator_tail.1] at h0
    have h1 : gfHorner x 1 fecGenerator.tail = 0 := by
      have : gfHorner x 0 (1 :: fecGenerator.tail) = gfHorner x (Nat.xor (gfMul 0 x) 1) fecGenerator.tail := rfl
      rw [this, gfMul, gfMulBits_zero] at h0
      simpa using h0
    rw [gfHorner_split x (by decide) generator_tail.2.2, generator_tail.2.1] at h1
    exact (Nat.xor_eq_zero_iff.1 h1).symm
  have e2 : gfHorner x 0 (polyScale (h ^^^ d) fecGenerator.tail) = gfLift x 19 (h ^^^ d) := by
    have s0 := gfHorner_scale (l := fecGenerator.tail) hp hk (by decide : (0 : Nat) < 1024) generator_tail.2.2
    rw [show gfMul (h ^^^ d) 0 = 0 from gfMulBits_of_zero _ _] at s0
    have s1 := gfHorner_scale (l := List.replicate 19 0) hp hk (by decide : (1 : Nat) < 1024)
      (fun c hc => by rw [(List.mem_replicate.1 hc).2]; decide)
    rw [gfMul_one] at s1
    rw [s0, hg]
    have : polyScale (h ^^^ d) (List.replicate 19 0) = List.replicate 19 0 := by
      rw [polyScale, List.map_replicate, show gfMul (h ^^^ d) 0 = 0 from gfMulBits_of_zero _ _]
    rw [this] at s1
    exact s1.symm
  have e3 : gfHorner x 0 (t ++ [0]) = gfMul (gfHorner x 0 t) x := by
    rw [gfHorner_append]
    show Nat.xor (gfMul (gfHorner x 0 t) x) 0 = _
    rw [nat_xor_eq, Nat.xor_zero]
  have e4 : gfMul (gfHorner x 0 (h :: t)) x = gfLift x 19 h ^^^ gfMul (gfHorner x 0 t) x := by
    have : gfHorner x 0 (h :: t) = gfHorner x h t := by
      show gfHorner x (Nat.xor (gfMul 0 x) h) t = _
      rw [gfMul, gfMulBits_zero, nat_xor_eq, Nat.zero_xor]
    rw [this, gfHorner_split x hh ht, htl, gfMul, gfMulBits_xor 10 x (gfLift_lt x 18 hh) (gfHorner_lt (by decide) ht), ← gfMul, ← gfLift_succ', ← gfMul]
  rw [e1, e2, e3, e4, gfLift_xor x 19 hh hd]
  ac_rfl

/-- The rest of the division has, at every root of the generator, the value of the data times x^19. -/
theorem fecParity_eval {x : Nat} {data : List Nat} (hx : x ∈ fecRoots) (hd : ∀ c ∈ data, c < 1024) :
    (fecParity data).length = 19 ∧ (∀ c ∈ fecParity data, c < 1024) ∧ gfHorner x 0 (fecParity data) = gfLift x 19 (gfHorner x 0 data) := by
  induction data using List.reverseRecOn with
  | nil =>
    refine ⟨by decide, by decide, ?_⟩
    rfl
  | append_singleton l d ih =>
    have hl : ∀ c ∈ l, c < 1024 := fun c hc => hd c (by simp [hc])
    have hd' : d < 1024 := hd d (by simp)
    obtain ⟨i1, i2, i3⟩ := ih hl
    rw [show fecParity (l ++ [d]) = fecShift (fecParity l) d by simp [fecParity, List.foldl_append]]
    refine ⟨fecShift_length d i1, fecShift_lt i2 hd', ?_⟩
    rw [fecShift_eval hx i1 i2 hd', i3, gfHorner_append]
    show _ = gfLift x 19 (Nat.xor (gfMul (gfHorner x 0 l) x) d)
    have hm : gfMul (gfHorner x 0 l) x < 1024 := gfMulBits_lt _ _ (gfHorner_lt (by decide) hl)
    rw [nat_xor_eq, gfLift_xor x 19 hm hd', ← gfLift_succ', gfLift_succ]

/-- Data followed by its parity is a code word. -/
theorem codeword_syndromes {data : List Nat} (hd : ∀ c ∈ data, c < 1024) : (fecSyndromes (data ++ fecParity data)).all (· = 0) = true := by
  simp only [fecSyndromes, List.all_eq_true, List.mem_map, decide_eq_true_eq]
  rintro s ⟨x, hx, rfl⟩
  obtain ⟨h1, h2, h3⟩ := fecParity_eval hx hd
  rw [show gfEvalHigh (data ++ fecParity data) x = gfHorner x 0 (data ++ fecParity data) from rfl, gfHorner_append,
    gfHorner_split x (gfHorner_lt (by decide) hd) h2, h1, h3, Nat.xor_self]

/-! ## Bytes and symbols -/

theorem leNat_leBytes (n x : Nat) : leNat (leBytes n x) = x % 256 ^ n := by
  induction n generalizing x with
  | zero => simp [leBytes, leNat, Nat.mod_one]
  | succ n ih =>
    rw [leBytes, leNat, ih, BitVec.toNat_ofNat, show 256 ^ (n + 1) = 256 * 256 ^ n by rw [Nat.pow_succ, Nat.mul_comm], Nat.mod_mul]

theorem leBytes_length (n x : Nat) : (leBytes n x).length = n := by
  induction n generalizing x with
  | zero => rfl
  | succ n ih => simp [leBytes, ih]

theorem leBytes_leNat (l : List Byte) : leBytes l.length (leNat l) = l := by
  induction l with
  | nil => rfl
  | cons b l ih =>
    have hb := b.isLt
    simp only [List.length_cons, leBytes, leNat, List.cons.injEq]
    refine ⟨?_, ?_⟩
    · apply BitVec.eq_of_toNat_eq; simp; omega
    · rw [show (b.toNat + 256 * leNat l) / 256 = leNat l by omega, ih]

theorem leNat_lt (l : List Byte) : leNat l < 256 ^ l.length := by
  induction l with
  | nil => simp [leNat]
  | cons b l ih => have := b.isLt; simp only [leNat, List.length_cons, Nat.pow_succ]; omega

theorem symbolsOf_succ (n x : Nat) : symbolsOf (n + 1) x = x % 1024 :: symbolsOf n (x / 1024) := by
  simp only [symbolsOf, upTo, List.range_succ_eq_map, List.map_cons, List.map_map, Nat.mul_zero, Nat.pow_zero, Nat.div_one]
  congr 1
  apply List.map_congr_left
  intro i _
  simp only [Function.comp, Nat.mul_add, Nat.mul_one, Nat.pow_add, Nat.succ_eq_add_one]
  rw [Nat.mul_comm (2 ^ (10 * i)), ← Nat.div_div_eq_div_mul]

theorem symbolsNat_of (n x : Nat) : symbolsNat (symbolsOf n x) = x % 1024 ^ n := by
  induction n generalizing x with
  | zero => simp [symbolsOf, upTo, symbolsNat, Nat.mod_one]
  | succ n ih =>
    rw [symbolsOf_succ]
    simp only [symbolsNat, ih, Nat.mod_mod, Nat.pow_succ, Nat.mul_comm (1024 ^ n) 1024, Nat.mod_mul]

theorem symbolsNat_lt (l : List Nat) : symbolsNat l < 1024 ^ l.length := by
  induction l with
  | nil => simp [symbolsNat]
  | cons a l ih => have := Nat.mod_lt a (by decide : 0 < 1024); simp only [symbolsNat, List.length_cons, Nat.pow_succ]; omega

theorem symbolsOf_nat {l : List Nat} (h : ∀ c ∈ l, c < 1024) : symbolsOf l.length (symbolsNat l) = l := by
  induction l with
  | nil => rfl
  | cons a l ih =>
    have ha := h a (by simp)
    rw [List.length_cons, symbolsOf_succ]
    simp only [symbolsNat, List.cons.injEq]
    refine ⟨by omega, ?_⟩
    rw [show (a % 1024 + 1024 * symbolsNat l) / 1024 = symbolsNat l by omega, ih (fun c hc => h c (by simp [hc]))]

theorem symbolsOf_lt (n x : Nat) : ∀ c ∈ symbolsOf n x, c < 1024 := by
  intro c hc
  simp only [symbolsOf, List.mem_map] at hc
  obtain ⟨i, _, rfl⟩ := hc
  exact Nat.mod_lt _ (by decide)

theorem symbolsOf_length (n x : Nat) : (symbolsOf n x).length = n := by simp [symbolsOf, upTo]

/-! ## The flit -/

/-- R235: a flit that no error has touched is received as it was sent, with no symbol corrected. -/
theorem flitCorrect_sent (b : List Byte) (h : b.length = 264) : flitCorrect (b ++ flitParity b) = some (b, 0) := by
  have hd := symbolsOf_lt 212 (256 * leNat b)
  have hx : (1 : Nat) ∈ fecRoots := by decide
  obtain ⟨h1, h2, _⟩ := fecParity_eval hx hd
  have ep : leNat (flitParity b) = symbolsNat (fecParity (symbolsOf 212 (256 * leNat b))) := by
    have hlt := symbolsNat_lt (fecParity (symbolsOf 212 (256 * leNat b)))
    rw [h1] at hlt
    rw [flitParity, leNat_leBytes, Nat.mod_eq_of_lt (Nat.lt_trans hlt (by norm_num))]
  have hpl : (flitParity b).length = 24 := leBytes_length _ _
  have hlow : sliceB (b ++ flitParity b) 0 264 = b := by simp [sliceB, h]
  have hhigh : sliceB (b ++ flitParity b) 264 24 = flitParity b := by
    simp [sliceB, h, hpl, List.take_of_length_le]
  have hsym : symbolsOf 19 (symbolsNat (fecParity (symbolsOf 212 (256 * leNat b)))) = fecParity (symbolsOf 212 (256 * leNat b)) := by
    have := symbolsOf_nat h2; rwa [h1] at this
  have hback : symbolsNat (symbolsOf 212 (256 * leNat b)) = 256 * leNat b := by
    have hl := leNat_lt b
    rw [h] at hl
    rw [symbolsNat_of, Nat.mod_eq_of_lt]
    calc 256 * leNat b < 256 * 256 ^ 264 := by omega
      _ ≤ 1024 ^ 212 := by
        have e : ∀ a b c : Nat, (2 ^ a) ^ c * 2 ^ b = 2 ^ (a * c + b) := fun a b c => by rw [← Nat.pow_mul, ← Nat.pow_add]
        have h1 := e 8 8 264
        have h2 := e 10 0 212
        rw [Nat.pow_zero, Nat.mul_one, Nat.add_zero] at h2
        rw [Nat.mul_comm, show (1024 : Nat) = 2 ^ 10 by norm_num, show (256 : Nat) = 2 ^ 8 by norm_num, h1, h2]
  have htake : (symbolsOf 212 (256 * leNat b) ++ fecParity (symbolsOf 212 (256 * leNat b))).take 212 = symbolsOf 212 (256 * leNat b) := by
    rw [List.take_append_of_le_length (by rw [symbolsOf_length]), List.take_of_length_le (by rw [symbolsOf_length])]
  unfold flitCorrect
  simp only [hlow, hhigh, ep, hsym, fecCorrect, codeword_syndromes hd, if_true, htake, hback]
  rw [if_pos (by omega), show 256 * leNat b / 256 = leNat b by omega]
  have := leBytes_leNat b
  rw [h] at this
  rw [this]

end Sys2Proof.Machine
end

