-- ==== Sys2Proof/Laws/State.lean ====
section
/-! SUPPORT. One lemma per field per update of the state, so that no proof unfolds a record update. -/

namespace Sys2Proof.Machine

variable (s : State)

@[simp] theorem setReg_pending (o : Nat) (v : Word) : (setReg s o v).pending = s.pending := rfl
@[simp] theorem setReg_mem (o : Nat) (v : Word) : (setReg s o v).mem = s.mem := rfl
@[simp] theorem setReg_ecc (o : Nat) (v : Word) : (setReg s o v).ecc = s.ecc := rfl
@[simp] theorem setReg_fuses (o : Nat) (v : Word) : (setReg s o v).fuses = s.fuses := rfl
@[simp] theorem setReg_pods (o : Nat) (v : Word) : (setReg s o v).pods = s.pods := rfl
@[simp] theorem setReg_fsqs (o : Nat) (v : Word) : (setReg s o v).fsqs = s.fsqs := rfl
@[simp] theorem setReg_ports (o : Nat) (v : Word) : (setReg s o v).ports = s.ports := rfl
@[simp] theorem setReg_streams (o : Nat) (v : Word) : (setReg s o v).streams = s.streams := rfl
@[simp] theorem setReg_stake (o : Nat) (v : Word) : (setReg s o v).stake = s.stake := rfl
@[simp] theorem setReg_active (o : Nat) (v : Word) : (setReg s o v).active = s.active := rfl
@[simp] theorem setReg_loaded (o : Nat) (v : Word) : (setReg s o v).loaded = s.loaded := rfl
@[simp] theorem setReg_flash (o : Nat) (v : Word) : (setReg s o v).flash = s.flash := rfl
@[simp] theorem setReg_manifest (o : Nat) (v : Word) : (setReg s o v).manifest = s.manifest := rfl
@[simp] theorem setReg_align (o : Nat) (v : Word) : (setReg s o v).align = s.align := rfl
@[simp] theorem setReg_dport (o : Nat) (v : Word) : (setReg s o v).dport = s.dport := rfl
@[simp] theorem setReg_time (o : Nat) (v : Word) : (setReg s o v).time = s.time := rfl
@[simp] theorem setReg_power (o : Nat) (v : Word) : (setReg s o v).power = s.power := rfl
@[simp] theorem setReg_clock (o : Nat) (v : Word) : (setReg s o v).clock = s.clock := rfl
@[simp] theorem setReg_doe (o : Nat) (v : Word) : (setReg s o v).doe = s.doe := rfl
@[simp] theorem setReg_misc (o : Nat) (v : Word) : (setReg s o v).misc = s.misc := rfl
@[simp] theorem setReg_txItems (o : Nat) (v : Word) : (setReg s o v).txItems = s.txItems := rfl
@[simp] theorem setReg_latches (o : Nat) (v : Word) : (setReg s o v).latches = s.latches := rfl
@[simp] theorem setReg_shadow (o : Nat) (v : Word) : (setReg s o v).shadow = s.shadow := rfl
@[simp] theorem setReg_out (o : Nat) (v : Word) : (setReg s o v).out = s.out := rfl
@[simp] theorem setReg_fresh (o : Nat) (v : Word) : (setReg s o v).fresh = s.fresh := rfl

@[simp] theorem setPod_pending (p : PodId) (x : Pod) : (setPod s p x).pending = s.pending := rfl
@[simp] theorem setPod_regs (p : PodId) (x : Pod) : (setPod s p x).regs = s.regs := rfl
@[simp] theorem setPod_mem (p : PodId) (x : Pod) : (setPod s p x).mem = s.mem := rfl
@[simp] theorem setPod_ecc (p : PodId) (x : Pod) : (setPod s p x).ecc = s.ecc := rfl
@[simp] theorem setPod_fuses (p : PodId) (x : Pod) : (setPod s p x).fuses = s.fuses := rfl
@[simp] theorem setPod_fsqs (p : PodId) (x : Pod) : (setPod s p x).fsqs = s.fsqs := rfl
@[simp] theorem setPod_ports (p : PodId) (x : Pod) : (setPod s p x).ports = s.ports := rfl
@[simp] theorem setPod_streams (p : PodId) (x : Pod) : (setPod s p x).streams = s.streams := rfl
@[simp] theorem setPod_stake (p : PodId) (x : Pod) : (setPod s p x).stake = s.stake := rfl
@[simp] theorem setPod_active (p : PodId) (x : Pod) : (setPod s p x).active = s.active := rfl
@[simp] theorem setPod_loaded (p : PodId) (x : Pod) : (setPod s p x).loaded = s.loaded := rfl
@[simp] theorem setPod_flash (p : PodId) (x : Pod) : (setPod s p x).flash = s.flash := rfl
@[simp] theorem setPod_manifest (p : PodId) (x : Pod) : (setPod s p x).manifest = s.manifest := rfl
@[simp] theorem setPod_align (p : PodId) (x : Pod) : (setPod s p x).align = s.align := rfl
@[simp] theorem setPod_dport (p : PodId) (x : Pod) : (setPod s p x).dport = s.dport := rfl
@[simp] theorem setPod_time (p : PodId) (x : Pod) : (setPod s p x).time = s.time := rfl
@[simp] theorem setPod_power (p : PodId) (x : Pod) : (setPod s p x).power = s.power := rfl
@[simp] theorem setPod_clock (p : PodId) (x : Pod) : (setPod s p x).clock = s.clock := rfl
@[simp] theorem setPod_doe (p : PodId) (x : Pod) : (setPod s p x).doe = s.doe := rfl
@[simp] theorem setPod_misc (p : PodId) (x : Pod) : (setPod s p x).misc = s.misc := rfl
@[simp] theorem setPod_txItems (p : PodId) (x : Pod) : (setPod s p x).txItems = s.txItems := rfl
@[simp] theorem setPod_latches (p : PodId) (x : Pod) : (setPod s p x).latches = s.latches := rfl
@[simp] theorem setPod_shadow (p : PodId) (x : Pod) : (setPod s p x).shadow = s.shadow := rfl
@[simp] theorem setPod_out (p : PodId) (x : Pod) : (setPod s p x).out = s.out := rfl
@[simp] theorem setPod_fresh (p : PodId) (x : Pod) : (setPod s p x).fresh = s.fresh := rfl

@[simp] theorem modPod_pending (p : PodId) (f : Pod → Pod) : (modPod s p f).pending = s.pending := rfl
@[simp] theorem modPod_regs (p : PodId) (f : Pod → Pod) : (modPod s p f).regs = s.regs := rfl
@[simp] theorem modPod_mem (p : PodId) (f : Pod → Pod) : (modPod s p f).mem = s.mem := rfl
@[simp] theorem modPod_ecc (p : PodId) (f : Pod → Pod) : (modPod s p f).ecc = s.ecc := rfl
@[simp] theorem modPod_fuses (p : PodId) (f : Pod → Pod) : (modPod s p f).fuses = s.fuses := rfl
@[simp] theorem modPod_fsqs (p : PodId) (f : Pod → Pod) : (modPod s p f).fsqs = s.fsqs := rfl
@[simp] theorem modPod_ports (p : PodId) (f : Pod → Pod) : (modPod s p f).ports = s.ports := rfl
@[simp] theorem modPod_streams (p : PodId) (f : Pod → Pod) : (modPod s p f).streams = s.streams := rfl
@[simp] theorem modPod_stake (p : PodId) (f : Pod → Pod) : (modPod s p f).stake = s.stake := rfl
@[simp] theorem modPod_active (p : PodId) (f : Pod → Pod) : (modPod s p f).active = s.active := rfl
@[simp] theorem modPod_loaded (p : PodId) (f : Pod → Pod) : (modPod s p f).loaded = s.loaded := rfl
@[simp] theorem modPod_flash (p : PodId) (f : Pod → Pod) : (modPod s p f).flash = s.flash := rfl
@[simp] theorem modPod_manifest (p : PodId) (f : Pod → Pod) : (modPod s p f).manifest = s.manifest := rfl
@[simp] theorem modPod_align (p : PodId) (f : Pod → Pod) : (modPod s p f).align = s.align := rfl
@[simp] theorem modPod_dport (p : PodId) (f : Pod → Pod) : (modPod s p f).dport = s.dport := rfl
@[simp] theorem modPod_time (p : PodId) (f : Pod → Pod) : (modPod s p f).time = s.time := rfl
@[simp] theorem modPod_power (p : PodId) (f : Pod → Pod) : (modPod s p f).power = s.power := rfl
@[simp] theorem modPod_clock (p : PodId) (f : Pod → Pod) : (modPod s p f).clock = s.clock := rfl
@[simp] theorem modPod_doe (p : PodId) (f : Pod → Pod) : (modPod s p f).doe = s.doe := rfl
@[simp] theorem modPod_misc (p : PodId) (f : Pod → Pod) : (modPod s p f).misc = s.misc := rfl
@[simp] theorem modPod_txItems (p : PodId) (f : Pod → Pod) : (modPod s p f).txItems = s.txItems := rfl
@[simp] theorem modPod_latches (p : PodId) (f : Pod → Pod) : (modPod s p f).latches = s.latches := rfl
@[simp] theorem modPod_shadow (p : PodId) (f : Pod → Pod) : (modPod s p f).shadow = s.shadow := rfl
@[simp] theorem modPod_out (p : PodId) (f : Pod → Pod) : (modPod s p f).out = s.out := rfl
@[simp] theorem modPod_fresh (p : PodId) (f : Pod → Pod) : (modPod s p f).fresh = s.fresh := rfl

@[simp] theorem modPort_pending (p : PortId) (f : Port → Port) : (modPort s p f).pending = s.pending := rfl
@[simp] theorem modPort_regs (p : PortId) (f : Port → Port) : (modPort s p f).regs = s.regs := rfl
@[simp] theorem modPort_mem (p : PortId) (f : Port → Port) : (modPort s p f).mem = s.mem := rfl
@[simp] theorem modPort_ecc (p : PortId) (f : Port → Port) : (modPort s p f).ecc = s.ecc := rfl
@[simp] theorem modPort_fuses (p : PortId) (f : Port → Port) : (modPort s p f).fuses = s.fuses := rfl
@[simp] theorem modPort_pods (p : PortId) (f : Port → Port) : (modPort s p f).pods = s.pods := rfl
@[simp] theorem modPort_fsqs (p : PortId) (f : Port → Port) : (modPort s p f).fsqs = s.fsqs := rfl
@[simp] theorem modPort_streams (p : PortId) (f : Port → Port) : (modPort s p f).streams = s.streams := rfl
@[simp] theorem modPort_stake (p : PortId) (f : Port → Port) : (modPort s p f).stake = s.stake := rfl
@[simp] theorem modPort_active (p : PortId) (f : Port → Port) : (modPort s p f).active = s.active := rfl
@[simp] theorem modPort_loaded (p : PortId) (f : Port → Port) : (modPort s p f).loaded = s.loaded := rfl
@[simp] theorem modPort_flash (p : PortId) (f : Port → Port) : (modPort s p f).flash = s.flash := rfl
@[simp] theorem modPort_manifest (p : PortId) (f : Port → Port) : (modPort s p f).manifest = s.manifest := rfl
@[simp] theorem modPort_align (p : PortId) (f : Port → Port) : (modPort s p f).align = s.align := rfl
@[simp] theorem modPort_dport (p : PortId) (f : Port → Port) : (modPort s p f).dport = s.dport := rfl
@[simp] theorem modPort_time (p : PortId) (f : Port → Port) : (modPort s p f).time = s.time := rfl
@[simp] theorem modPort_power (p : PortId) (f : Port → Port) : (modPort s p f).power = s.power := rfl
@[simp] theorem modPort_clock (p : PortId) (f : Port → Port) : (modPort s p f).clock = s.clock := rfl
@[simp] theorem modPort_doe (p : PortId) (f : Port → Port) : (modPort s p f).doe = s.doe := rfl
@[simp] theorem modPort_misc (p : PortId) (f : Port → Port) : (modPort s p f).misc = s.misc := rfl
@[simp] theorem modPort_txItems (p : PortId) (f : Port → Port) : (modPort s p f).txItems = s.txItems := rfl
@[simp] theorem modPort_latches (p : PortId) (f : Port → Port) : (modPort s p f).latches = s.latches := rfl
@[simp] theorem modPort_shadow (p : PortId) (f : Port → Port) : (modPort s p f).shadow = s.shadow := rfl
@[simp] theorem modPort_out (p : PortId) (f : Port → Port) : (modPort s p f).out = s.out := rfl
@[simp] theorem modPort_fresh (p : PortId) (f : Port → Port) : (modPort s p f).fresh = s.fresh := rfl

@[simp] theorem modStrm_pending (i : StreamId) (f : Stream → Stream) : (modStrm s i f).pending = s.pending := rfl
@[simp] theorem modStrm_regs (i : StreamId) (f : Stream → Stream) : (modStrm s i f).regs = s.regs := rfl
@[simp] theorem modStrm_mem (i : StreamId) (f : Stream → Stream) : (modStrm s i f).mem = s.mem := rfl
@[simp] theorem modStrm_ecc (i : StreamId) (f : Stream → Stream) : (modStrm s i f).ecc = s.ecc := rfl
@[simp] theorem modStrm_fuses (i : StreamId) (f : Stream → Stream) : (modStrm s i f).fuses = s.fuses := rfl
@[simp] theorem modStrm_pods (i : StreamId) (f : Stream → Stream) : (modStrm s i f).pods = s.pods := rfl
@[simp] theorem modStrm_fsqs (i : StreamId) (f : Stream → Stream) : (modStrm s i f).fsqs = s.fsqs := rfl
@[simp] theorem modStrm_ports (i : StreamId) (f : Stream → Stream) : (modStrm s i f).ports = s.ports := rfl
@[simp] theorem modStrm_stake (i : StreamId) (f : Stream → Stream) : (modStrm s i f).stake = s.stake := rfl
@[simp] theorem modStrm_active (i : StreamId) (f : Stream → Stream) : (modStrm s i f).active = s.active := rfl
@[simp] theorem modStrm_loaded (i : StreamId) (f : Stream → Stream) : (modStrm s i f).loaded = s.loaded := rfl
@[simp] theorem modStrm_flash (i : StreamId) (f : Stream → Stream) : (modStrm s i f).flash = s.flash := rfl
@[simp] theorem modStrm_manifest (i : StreamId) (f : Stream → Stream) : (modStrm s i f).manifest = s.manifest := rfl
@[simp] theorem modStrm_align (i : StreamId) (f : Stream → Stream) : (modStrm s i f).align = s.align := rfl
@[simp] theorem modStrm_dport (i : StreamId) (f : Stream → Stream) : (modStrm s i f).dport = s.dport := rfl
@[simp] theorem modStrm_time (i : StreamId) (f : Stream → Stream) : (modStrm s i f).time = s.time := rfl
@[simp] theorem modStrm_power (i : StreamId) (f : Stream → Stream) : (modStrm s i f).power = s.power := rfl
@[simp] theorem modStrm_clock (i : StreamId) (f : Stream → Stream) : (modStrm s i f).clock = s.clock := rfl
@[simp] theorem modStrm_doe (i : StreamId) (f : Stream → Stream) : (modStrm s i f).doe = s.doe := rfl
@[simp] theorem modStrm_misc (i : StreamId) (f : Stream → Stream) : (modStrm s i f).misc = s.misc := rfl
@[simp] theorem modStrm_txItems (i : StreamId) (f : Stream → Stream) : (modStrm s i f).txItems = s.txItems := rfl
@[simp] theorem modStrm_latches (i : StreamId) (f : Stream → Stream) : (modStrm s i f).latches = s.latches := rfl
@[simp] theorem modStrm_shadow (i : StreamId) (f : Stream → Stream) : (modStrm s i f).shadow = s.shadow := rfl
@[simp] theorem modStrm_out (i : StreamId) (f : Stream → Stream) : (modStrm s i f).out = s.out := rfl
@[simp] theorem modStrm_fresh (i : StreamId) (f : Stream → Stream) : (modStrm s i f).fresh = s.fresh := rfl

@[simp] theorem modFsq_pending (i : FsqId) (g : Fsq → Fsq) : (modFsq s i g).pending = s.pending := rfl
@[simp] theorem modFsq_regs (i : FsqId) (g : Fsq → Fsq) : (modFsq s i g).regs = s.regs := rfl
@[simp] theorem modFsq_mem (i : FsqId) (g : Fsq → Fsq) : (modFsq s i g).mem = s.mem := rfl
@[simp] theorem modFsq_ecc (i : FsqId) (g : Fsq → Fsq) : (modFsq s i g).ecc = s.ecc := rfl
@[simp] theorem modFsq_fuses (i : FsqId) (g : Fsq → Fsq) : (modFsq s i g).fuses = s.fuses := rfl
@[simp] theorem modFsq_pods (i : FsqId) (g : Fsq → Fsq) : (modFsq s i g).pods = s.pods := rfl
@[simp] theorem modFsq_ports (i : FsqId) (g : Fsq → Fsq) : (modFsq s i g).ports = s.ports := rfl
@[simp] theorem modFsq_streams (i : FsqId) (g : Fsq → Fsq) : (modFsq s i g).streams = s.streams := rfl
@[simp] theorem modFsq_stake (i : FsqId) (g : Fsq → Fsq) : (modFsq s i g).stake = s.stake := rfl
@[simp] theorem modFsq_active (i : FsqId) (g : Fsq → Fsq) : (modFsq s i g).active = s.active := rfl
@[simp] theorem modFsq_loaded (i : FsqId) (g : Fsq → Fsq) : (modFsq s i g).loaded = s.loaded := rfl
@[simp] theorem modFsq_flash (i : FsqId) (g : Fsq → Fsq) : (modFsq s i g).flash = s.flash := rfl
@[simp] theorem modFsq_manifest (i : FsqId) (g : Fsq → Fsq) : (modFsq s i g).manifest = s.manifest := rfl
@[simp] theorem modFsq_align (i : FsqId) (g : Fsq → Fsq) : (modFsq s i g).align = s.align := rfl
@[simp] theorem modFsq_dport (i : FsqId) (g : Fsq → Fsq) : (modFsq s i g).dport = s.dport := rfl
@[simp] theorem modFsq_time (i : FsqId) (g : Fsq → Fsq) : (modFsq s i g).time = s.time := rfl
@[simp] theorem modFsq_power (i : FsqId) (g : Fsq → Fsq) : (modFsq s i g).power = s.power := rfl
@[simp] theorem modFsq_clock (i : FsqId) (g : Fsq → Fsq) : (modFsq s i g).clock = s.clock := rfl
@[simp] theorem modFsq_doe (i : FsqId) (g : Fsq → Fsq) : (modFsq s i g).doe = s.doe := rfl
@[simp] theorem modFsq_misc (i : FsqId) (g : Fsq → Fsq) : (modFsq s i g).misc = s.misc := rfl
@[simp] theorem modFsq_txItems (i : FsqId) (g : Fsq → Fsq) : (modFsq s i g).txItems = s.txItems := rfl
@[simp] theorem modFsq_latches (i : FsqId) (g : Fsq → Fsq) : (modFsq s i g).latches = s.latches := rfl
@[simp] theorem modFsq_shadow (i : FsqId) (g : Fsq → Fsq) : (modFsq s i g).shadow = s.shadow := rfl
@[simp] theorem modFsq_out (i : FsqId) (g : Fsq → Fsq) : (modFsq s i g).out = s.out := rfl
@[simp] theorem modFsq_fresh (i : FsqId) (g : Fsq → Fsq) : (modFsq s i g).fresh = s.fresh := rfl

@[simp] theorem modMisc_pending (f : Misc → Misc) : (modMisc s f).pending = s.pending := rfl
@[simp] theorem modMisc_regs (f : Misc → Misc) : (modMisc s f).regs = s.regs := rfl
@[simp] theorem modMisc_mem (f : Misc → Misc) : (modMisc s f).mem = s.mem := rfl
@[simp] theorem modMisc_ecc (f : Misc → Misc) : (modMisc s f).ecc = s.ecc := rfl
@[simp] theorem modMisc_fuses (f : Misc → Misc) : (modMisc s f).fuses = s.fuses := rfl
@[simp] theorem modMisc_pods (f : Misc → Misc) : (modMisc s f).pods = s.pods := rfl
@[simp] theorem modMisc_fsqs (f : Misc → Misc) : (modMisc s f).fsqs = s.fsqs := rfl
@[simp] theorem modMisc_ports (f : Misc → Misc) : (modMisc s f).ports = s.ports := rfl
@[simp] theorem modMisc_streams (f : Misc → Misc) : (modMisc s f).streams = s.streams := rfl
@[simp] theorem modMisc_stake (f : Misc → Misc) : (modMisc s f).stake = s.stake := rfl
@[simp] theorem modMisc_active (f : Misc → Misc) : (modMisc s f).active = s.active := rfl
@[simp] theorem modMisc_loaded (f : Misc → Misc) : (modMisc s f).loaded = s.loaded := rfl
@[simp] theorem modMisc_flash (f : Misc → Misc) : (modMisc s f).flash = s.flash := rfl
@[simp] theorem modMisc_manifest (f : Misc → Misc) : (modMisc s f).manifest = s.manifest := rfl
@[simp] theorem modMisc_align (f : Misc → Misc) : (modMisc s f).align = s.align := rfl
@[simp] theorem modMisc_dport (f : Misc → Misc) : (modMisc s f).dport = s.dport := rfl
@[simp] theorem modMisc_time (f : Misc → Misc) : (modMisc s f).time = s.time := rfl
@[simp] theorem modMisc_power (f : Misc → Misc) : (modMisc s f).power = s.power := rfl
@[simp] theorem modMisc_clock (f : Misc → Misc) : (modMisc s f).clock = s.clock := rfl
@[simp] theorem modMisc_doe (f : Misc → Misc) : (modMisc s f).doe = s.doe := rfl
@[simp] theorem modMisc_txItems (f : Misc → Misc) : (modMisc s f).txItems = s.txItems := rfl
@[simp] theorem modMisc_latches (f : Misc → Misc) : (modMisc s f).latches = s.latches := rfl
@[simp] theorem modMisc_shadow (f : Misc → Misc) : (modMisc s f).shadow = s.shadow := rfl
@[simp] theorem modMisc_out (f : Misc → Misc) : (modMisc s f).out = s.out := rfl
@[simp] theorem modMisc_fresh (f : Misc → Misc) : (modMisc s f).fresh = s.fresh := rfl

@[simp] theorem emit_pending (o : Output) : (emit s o).pending = s.pending := rfl
@[simp] theorem emit_regs (o : Output) : (emit s o).regs = s.regs := rfl
@[simp] theorem emit_mem (o : Output) : (emit s o).mem = s.mem := rfl
@[simp] theorem emit_ecc (o : Output) : (emit s o).ecc = s.ecc := rfl
@[simp] theorem emit_fuses (o : Output) : (emit s o).fuses = s.fuses := rfl
@[simp] theorem emit_pods (o : Output) : (emit s o).pods = s.pods := rfl
@[simp] theorem emit_fsqs (o : Output) : (emit s o).fsqs = s.fsqs := rfl
@[simp] theorem emit_ports (o : Output) : (emit s o).ports = s.ports := rfl
@[simp] theorem emit_streams (o : Output) : (emit s o).streams = s.streams := rfl
@[simp] theorem emit_stake (o : Output) : (emit s o).stake = s.stake := rfl
@[simp] theorem emit_active (o : Output) : (emit s o).active = s.active := rfl
@[simp] theorem emit_loaded (o : Output) : (emit s o).loaded = s.loaded := rfl
@[simp] theorem emit_flash (o : Output) : (emit s o).flash = s.flash := rfl
@[simp] theorem emit_manifest (o : Output) : (emit s o).manifest = s.manifest := rfl
@[simp] theorem emit_align (o : Output) : (emit s o).align = s.align := rfl
@[simp] theorem emit_dport (o : Output) : (emit s o).dport = s.dport := rfl
@[simp] theorem emit_time (o : Output) : (emit s o).time = s.time := rfl
@[simp] theorem emit_power (o : Output) : (emit s o).power = s.power := rfl
@[simp] theorem emit_clock (o : Output) : (emit s o).clock = s.clock := rfl
@[simp] theorem emit_doe (o : Output) : (emit s o).doe = s.doe := rfl
@[simp] theorem emit_misc (o : Output) : (emit s o).misc = s.misc := rfl
@[simp] theorem emit_txItems (o : Output) : (emit s o).txItems = s.txItems := rfl
@[simp] theorem emit_latches (o : Output) : (emit s o).latches = s.latches := rfl
@[simp] theorem emit_shadow (o : Output) : (emit s o).shadow = s.shadow := rfl
@[simp] theorem emit_fresh (o : Output) : (emit s o).fresh = s.fresh := rfl

@[simp] theorem memWrite_pending (a : Nat) (b : List Byte) : (memWrite s a b).pending = s.pending := rfl
@[simp] theorem memWrite_regs (a : Nat) (b : List Byte) : (memWrite s a b).regs = s.regs := rfl
@[simp] theorem memWrite_fuses (a : Nat) (b : List Byte) : (memWrite s a b).fuses = s.fuses := rfl
@[simp] theorem memWrite_pods (a : Nat) (b : List Byte) : (memWrite s a b).pods = s.pods := rfl
@[simp] theorem memWrite_fsqs (a : Nat) (b : List Byte) : (memWrite s a b).fsqs = s.fsqs := rfl
@[simp] theorem memWrite_ports (a : Nat) (b : List Byte) : (memWrite s a b).ports = s.ports := rfl
@[simp] theorem memWrite_streams (a : Nat) (b : List Byte) : (memWrite s a b).streams = s.streams := rfl
@[simp] theorem memWrite_stake (a : Nat) (b : List Byte) : (memWrite s a b).stake = s.stake := rfl
@[simp] theorem memWrite_active (a : Nat) (b : List Byte) : (memWrite s a b).active = s.active := rfl
@[simp] theorem memWrite_loaded (a : Nat) (b : List Byte) : (memWrite s a b).loaded = s.loaded := rfl
@[simp] theorem memWrite_flash (a : Nat) (b : List Byte) : (memWrite s a b).flash = s.flash := rfl
@[simp] theorem memWrite_manifest (a : Nat) (b : List Byte) : (memWrite s a b).manifest = s.manifest := rfl
@[simp] theorem memWrite_align (a : Nat) (b : List Byte) : (memWrite s a b).align = s.align := rfl
@[simp] theorem memWrite_dport (a : Nat) (b : List Byte) : (memWrite s a b).dport = s.dport := rfl
@[simp] theorem memWrite_time (a : Nat) (b : List Byte) : (memWrite s a b).time = s.time := rfl
@[simp] theorem memWrite_power (a : Nat) (b : List Byte) : (memWrite s a b).power = s.power := rfl
@[simp] theorem memWrite_clock (a : Nat) (b : List Byte) : (memWrite s a b).clock = s.clock := rfl
@[simp] theorem memWrite_doe (a : Nat) (b : List Byte) : (memWrite s a b).doe = s.doe := rfl
@[simp] theorem memWrite_misc (a : Nat) (b : List Byte) : (memWrite s a b).misc = s.misc := rfl
@[simp] theorem memWrite_txItems (a : Nat) (b : List Byte) : (memWrite s a b).txItems = s.txItems := rfl
@[simp] theorem memWrite_latches (a : Nat) (b : List Byte) : (memWrite s a b).latches = s.latches := rfl
@[simp] theorem memWrite_shadow (a : Nat) (b : List Byte) : (memWrite s a b).shadow = s.shadow := rfl
@[simp] theorem memWrite_out (a : Nat) (b : List Byte) : (memWrite s a b).out = s.out := rfl
@[simp] theorem memWrite_fresh (a : Nat) (b : List Byte) : (memWrite s a b).fresh = s.fresh := rfl

@[simp] theorem resetRange_pending (lo hi : Nat) : (resetRange s lo hi).pending = s.pending := rfl
@[simp] theorem resetRange_mem (lo hi : Nat) : (resetRange s lo hi).mem = s.mem := rfl
@[simp] theorem resetRange_ecc (lo hi : Nat) : (resetRange s lo hi).ecc = s.ecc := rfl
@[simp] theorem resetRange_fuses (lo hi : Nat) : (resetRange s lo hi).fuses = s.fuses := rfl
@[simp] theorem resetRange_pods (lo hi : Nat) : (resetRange s lo hi).pods = s.pods := rfl
@[simp] theorem resetRange_fsqs (lo hi : Nat) : (resetRange s lo hi).fsqs = s.fsqs := rfl
@[simp] theorem resetRange_ports (lo hi : Nat) : (resetRange s lo hi).ports = s.ports := rfl
@[simp] theorem resetRange_streams (lo hi : Nat) : (resetRange s lo hi).streams = s.streams := rfl
@[simp] theorem resetRange_stake (lo hi : Nat) : (resetRange s lo hi).stake = s.stake := rfl
@[simp] theorem resetRange_active (lo hi : Nat) : (resetRange s lo hi).active = s.active := rfl
@[simp] theorem resetRange_loaded (lo hi : Nat) : (resetRange s lo hi).loaded = s.loaded := rfl
@[simp] theorem resetRange_flash (lo hi : Nat) : (resetRange s lo hi).flash = s.flash := rfl
@[simp] theorem resetRange_manifest (lo hi : Nat) : (resetRange s lo hi).manifest = s.manifest := rfl
@[simp] theorem resetRange_align (lo hi : Nat) : (resetRange s lo hi).align = s.align := rfl
@[simp] theorem resetRange_dport (lo hi : Nat) : (resetRange s lo hi).dport = s.dport := rfl
@[simp] theorem resetRange_time (lo hi : Nat) : (resetRange s lo hi).time = s.time := rfl
@[simp] theorem resetRange_power (lo hi : Nat) : (resetRange s lo hi).power = s.power := rfl
@[simp] theorem resetRange_clock (lo hi : Nat) : (resetRange s lo hi).clock = s.clock := rfl
@[simp] theorem resetRange_doe (lo hi : Nat) : (resetRange s lo hi).doe = s.doe := rfl
@[simp] theorem resetRange_misc (lo hi : Nat) : (resetRange s lo hi).misc = s.misc := rfl
@[simp] theorem resetRange_txItems (lo hi : Nat) : (resetRange s lo hi).txItems = s.txItems := rfl
@[simp] theorem resetRange_latches (lo hi : Nat) : (resetRange s lo hi).latches = s.latches := rfl
@[simp] theorem resetRange_shadow (lo hi : Nat) : (resetRange s lo hi).shadow = s.shadow := rfl
@[simp] theorem resetRange_out (lo hi : Nat) : (resetRange s lo hi).out = s.out := rfl
@[simp] theorem resetRange_fresh (lo hi : Nat) : (resetRange s lo hi).fresh = s.fresh := rfl

end Sys2Proof.Machine
end

