-- ==== Sys2Proof/Laws/Table.lean ====
section
/-! SUPPORT. Sparse tables: what a read gives after a write, and that every write keeps the canonical form. -/

namespace Sys2Proof.Machine

variable {α : Type}

theorem tabGet_insert (e : α) (t : Tab α) (k j : Nat) (v : α) :
    tabGet e (tabInsert t k v) j = if k = j then v else tabGet e t j := by
  induction t with
  | nil => simp [tabInsert, tabGet]
  | cons x t ih =>
    obtain ⟨i, w⟩ := x
    simp only [tabInsert]
    split
    · simp only [tabGet, ih]; split <;> split <;> first | rfl | omega
    · split
      · subst i
        by_cases hkj : k = j <;> simp [tabGet, hkj]
      · simp [tabGet]

/-- What a key reads as in a table from which entries of other keys are dropped. -/
theorem tabGet_filter {e : α} (t : Tab α) (f : Nat × α → Bool) (k : Nat) (hk : ∀ v, f (k, v) = true) :
    tabGet e (t.filter f) k = tabGet e t k := by
  induction t with
  | nil => rfl
  | cons x t ih =>
    obtain ⟨i, w⟩ := x
    simp only [List.filter]
    by_cases hi : i = k
    · subst i; rw [hk w]; simp [tabGet]
    · cases f (i, w) <;> simp [tabGet, hi, ih]

/-- A key whose entries are dropped reads as its default. -/
theorem tabGet_dropped {e : α} (t : Tab α) (f : Nat × α → Bool) (k : Nat) (hk : ∀ v, f (k, v) = false) :
    tabGet e (t.filter f) k = e := by
  induction t with
  | nil => rfl
  | cons x t ih =>
    obtain ⟨i, w⟩ := x
    simp only [List.filter]
    by_cases hi : i = k
    · subst i; rw [hk w]; exact ih
    · cases f (i, w) <;> simp [tabGet, hi, ih]

variable [DecidableEq α] {d : Nat → α}

theorem tabRising_weaken {lo hi : Option Nat} {t : Tab α} (h : tabRising d hi t = true)
    (hl : ∀ l, lo = some l → ∃ m, hi = some m ∧ l ≤ m) : tabRising d lo t = true := by
  cases t with
  | nil => rfl
  | cons x t =>
    obtain ⟨i, w⟩ := x
    cases lo with
    | none => cases hi <;> simp_all [tabRising]
    | some l =>
      obtain ⟨m, rfl, hm⟩ := hl l rfl
      simp only [tabRising, Bool.and_eq_true, decide_eq_true_eq] at h ⊢
      exact ⟨⟨by omega, h.1.2⟩, h.2⟩

theorem tabGet_below {e : α} {lo k : Nat} {t : Tab α} (h : tabRising d (some lo) t = true) (hk : k ≤ lo) : tabGet e t k = e := by
  induction t generalizing lo with
  | nil => rfl
  | cons x t ih =>
    obtain ⟨i, w⟩ := x
    simp only [tabRising, Bool.and_eq_true, decide_eq_true_eq] at h
    simp only [tabGet]
    rw [if_neg (by omega)]
    exact ih h.2 (by omega)

theorem tabGet_erase {α : Type} {e : α} (t : Tab α) (k j : Nat) : tabGet e (tabErase t k) j = if k = j then e else tabGet e t j := by
  induction t with
  | nil => simp [tabErase, tabGet]
  | cons x t ih =>
    obtain ⟨i, w⟩ := x
    simp only [tabErase]
    split
    · subst i; rw [ih]; split
      · rfl
      · simp only [tabGet]; rw [if_neg (by assumption)]
    · simp only [tabGet, ih]; split <;> split <;> first | rfl | omega

/-- A read after a write to the same key gives the value written, and every other key reads as before. -/
theorem tabGet_set {t : Tab α} (k j : Nat) (v : α) :
    tabGet (d j) (tabSet (d k) t k v) j = if k = j then v else tabGet (d j) t j := by
  unfold tabSet
  split
  · rw [tabGet_erase]
    split
    · subst j; exact (‹v = d k›).symm
    · rfl
  · exact tabGet_insert _ _ _ _ _

theorem tabGet_set_ne (t : Tab α) {k j : Nat} (hkj : k ≠ j) (e : α) (v w : α) : tabGet e (tabSet w t k v) j = tabGet e t j := by
  unfold tabSet
  split
  · rw [tabGet_erase, if_neg hkj]
  · rw [tabGet_insert, if_neg hkj]

theorem tabRising_insert {lo : Option Nat} {t : Tab α} {k : Nat} {v : α} (h : tabRising d lo t = true)
    (hk : ∀ l, lo = some l → l < k) (hv : v ≠ d k) : tabRising d lo (tabInsert t k v) = true := by
  induction t generalizing lo with
  | nil => cases lo <;> simp_all [tabInsert, tabRising]
  | cons x t ih =>
    obtain ⟨i, w⟩ := x
    simp only [tabRising, Bool.and_eq_true] at h
    simp only [tabInsert]
    split
    · simp only [tabRising, Bool.and_eq_true]
      exact ⟨h.1, ih h.2 (by intro l hl; cases hl; assumption)⟩
    · split
      · subst i
        simp only [tabRising, Bool.and_eq_true]
        exact ⟨⟨h.1.1, by simpa using hv⟩, h.2⟩
      · have hki : k < i := by omega
        simp only [tabRising, Bool.and_eq_true]
        refine ⟨⟨?_, by simpa using hv⟩, ⟨by simpa using hki, h.1.2⟩, h.2⟩
        cases lo with
        | none => rfl
        | some l => simpa using hk l rfl

theorem tabRising_erase {lo : Option Nat} {t : Tab α} {k : Nat} (h : tabRising d lo t = true) :
    tabRising d lo (tabErase t k) = true := by
  induction t generalizing lo with
  | nil => rfl
  | cons x t ih =>
    obtain ⟨i, w⟩ := x
    simp only [tabRising, Bool.and_eq_true] at h
    simp only [tabErase]
    split
    · refine tabRising_weaken (ih h.2) ?_
      intro l hl
      subst hl
      exact ⟨i, rfl, by have := h.1.1; simp at this; omega⟩
    · simp only [tabRising, Bool.and_eq_true]; exact ⟨h.1, ih h.2⟩

/-- Every write keeps the canonical form. -/
theorem tabWf_set {t : Tab α} (h : tabWf d t = true) (k : Nat) (v : α) : tabWf d (tabSet (d k) t k v) = true := by
  unfold tabSet
  split
  · exact tabRising_erase h
  · exact tabRising_insert h (by intro l hl; cases hl) (by assumption)

/-- Dropping entries keeps the canonical form. -/
theorem tabWf_filter {t : Tab α} (h : tabWf d t = true) (f : Nat × α → Bool) : tabWf d (t.filter f) = true := by
  unfold tabWf at *
  generalize none = lo at *
  induction t generalizing lo with
  | nil => rfl
  | cons x t ih =>
    obtain ⟨i, w⟩ := x
    have h2 := h
    simp only [tabRising, Bool.and_eq_true] at h
    simp only [List.filter]
    split
    · simp only [tabRising, Bool.and_eq_true]; exact ⟨h.1, ih _ h.2⟩
    · refine tabRising_weaken (ih _ h.2) ?_
      intro l hl
      subst hl
      exact ⟨i, rfl, by have := h.1.1; simp at this; omega⟩

end Sys2Proof.Machine
end

