-- ==== Sys2Proof/Laws/Registers.lean ====
section
/-! SUPPORT. The registers: what a read gives after each kind of write, bit fields, and the canonical form of registers and
memory. -/

namespace Sys2Proof.Machine

/-! ## Bit fields -/

theorem getF_lt {n : Nat} (x : BitVec n) (lo len : Nat) : getF x lo len < 2 ^ len := Nat.mod_lt _ (Nat.two_pow_pos _)

theorem getLsbD_setF (x : Word) (lo len v i : Nat) (hi : i < 32) : (setF x lo len v).getLsbD i =
    ((x.getLsbD i && !((2 ^ len - 1) * 2 ^ lo).testBit i) || (v % 2 ^ len * 2 ^ lo).testBit i) := by
  unfold setF maskF
  simp only [BitVec.getLsbD_or, BitVec.getLsbD_and, BitVec.getLsbD_not, BitVec.getLsbD_ofNat, hi, decide_true, Bool.true_and]

/-- Reading the field just written. -/
theorem getF_setF (x : Word) (lo len v : Nat) (h : lo + len ≤ 32) : getF (setF x lo len v) lo len = v % 2 ^ len := by
  apply Nat.eq_of_testBit_eq
  intro i
  unfold getF
  rw [Nat.testBit_mod_two_pow, Nat.testBit_div_two_pow]
  by_cases hi : i < len
  · have e := getLsbD_setF x lo len v (i + lo) (by omega)
    rw [BitVec.getLsbD] at e
    rw [e, Nat.testBit_mul_two_pow, Nat.testBit_mul_two_pow, Nat.add_sub_cancel, Nat.testBit_two_pow_sub_one]
    simp [hi]
  · have hlt : v % 2 ^ len < 2 ^ i := Nat.lt_of_lt_of_le (Nat.mod_lt _ (Nat.two_pow_pos _)) (Nat.pow_le_pow_right (by omega) (by omega))
    rw [Nat.testBit_lt_two_pow hlt]
    simp [hi]

/-- A bit outside the field written stays. -/
theorem getLsbD_setF_ne (x : Word) (lo len v i : Nat) (h : i < lo ∨ lo + len ≤ i) : (setF x lo len v).getLsbD i = x.getLsbD i := by
  by_cases hi : i < 32
  · have a : ((2 ^ len - 1) * 2 ^ lo).testBit i = false := by
      rw [Nat.testBit_mul_two_pow]
      rcases h with h | h
      · simp [Nat.not_le.mpr h]
      · rw [Nat.testBit_two_pow_sub_one]; simp; omega
    have b : (v % 2 ^ len * 2 ^ lo).testBit i = false := by
      rw [Nat.testBit_mul_two_pow]
      rcases h with h | h
      · simp [Nat.not_le.mpr h]
      · have hlt : v % 2 ^ len < 2 ^ (i - lo) :=
          Nat.lt_of_lt_of_le (Nat.mod_lt _ (Nat.two_pow_pos _)) (Nat.pow_le_pow_right (by omega) (by omega))
        rw [Nat.testBit_lt_two_pow hlt]; simp
    rw [getLsbD_setF _ _ _ _ _ hi, a, b]; simp
  · rw [BitVec.getLsbD_of_ge _ _ (by omega), BitVec.getLsbD_of_ge _ _ (by omega)]

/-- A field apart from the one written stays. -/
theorem getF_setF_ne (x : Word) (lo len v lo' len' : Nat) (h : lo' + len' ≤ lo ∨ lo + len ≤ lo') :
    getF (setF x lo len v) lo' len' = getF x lo' len' := by
  apply Nat.eq_of_testBit_eq
  intro i
  unfold getF
  rw [Nat.testBit_mod_two_pow, Nat.testBit_div_two_pow, Nat.testBit_mod_two_pow, Nat.testBit_div_two_pow]
  by_cases hi : i < len'
  · have := getLsbD_setF_ne x lo len v (i + lo') (by omega)
    rw [BitVec.getLsbD, BitVec.getLsbD] at this
    simp [hi, this]
  · simp [hi]

/-- The bit just written. -/
theorem getB_setB (x : Word) (i : Nat) (b : Bool) (h : i < 32) : getB (setB x i b) i = b := by
  unfold getB setB
  rw [getLsbD_setF _ _ _ _ _ h, Nat.testBit_mul_two_pow, Nat.testBit_mul_two_pow]
  cases b <;> simp

/-! ## Reads after writes -/

@[simp] theorem reg_setPod (s : State) (p : PodId) (x : Pod) (o : Nat) : reg (setPod s p x) o = reg s o := rfl
@[simp] theorem reg_modPod (s : State) (p : PodId) (f : Pod → Pod) (o : Nat) : reg (modPod s p f) o = reg s o := rfl
@[simp] theorem reg_modPort (s : State) (p : PortId) (f : Port → Port) (o : Nat) : reg (modPort s p f) o = reg s o := rfl
@[simp] theorem reg_modStrm (s : State) (i : StreamId) (f : Stream → Stream) (o : Nat) : reg (modStrm s i f) o = reg s o := rfl
@[simp] theorem reg_modFsq (s : State) (i : FsqId) (g : Fsq → Fsq) (o : Nat) : reg (modFsq s i g) o = reg s o := rfl
@[simp] theorem reg_modMisc (s : State) (f : Misc → Misc) (o : Nat) : reg (modMisc s f) o = reg s o := rfl
@[simp] theorem reg_emit (s : State) (x : Output) (o : Nat) : reg (emit s x) o = reg s o := rfl
@[simp] theorem reg_memWrite (s : State) (a : Nat) (b : List Byte) (o : Nat) : reg (memWrite s a b) o = reg s o := rfl

/-- Every register but the one written reads as before. -/
theorem reg_setReg_ne (s : State) {o o' : Nat} (v : Word) (h : o ≠ o') : reg (setReg s o v) o' = reg s o' :=
  tabGet_set_ne _ h _ _ _

/-- A register reads as it was written. -/
theorem reg_setReg (s : State) (o : Nat) (v : Word) : reg (setReg s o v) o = v := by
  have := tabGet_set (d := regDefault) (t := s.regs) o o v
  simpa [reg, setReg] using this

/-- Both cases at once. -/
theorem reg_setReg_if (s : State) (o o' : Nat) (v : Word) : reg (setReg s o v) o' = if o = o' then v else reg s o' := by
  split
  · subst o'; exact reg_setReg s o v
  · exact reg_setReg_ne s v (by assumption)

theorem reg_setField (s : State) (o lo len v : Nat) : reg (setField s o lo len v) o = setF (reg s o) lo len v :=
  reg_setReg s _ _

theorem reg_setField_ne (s : State) {o o' : Nat} (lo len v : Nat) (h : o ≠ o') : reg (setField s o lo len v) o' = reg s o' :=
  reg_setReg_ne _ _ h

theorem reg_setFlag_ne (s : State) {o o' : Nat} (i : Nat) (b : Bool) (h : o ≠ o') : reg (setFlag s o i b) o' = reg s o' :=
  reg_setReg_ne _ _ h

/-- A field reads as it was written. -/
theorem field_setField (s : State) (o lo len v : Nat) (hl : lo + len ≤ 32) :
    field (setField s o lo len v) o lo len = v % 2 ^ len := by
  unfold field
  rw [reg_setField]
  exact getF_setF _ _ _ _ hl

/-- A bit reads as it was written. -/
theorem flag_setFlag (s : State) (o i : Nat) (b : Bool) (hi : i < 32) : flag (setFlag s o i b) o i = b := by
  unfold flag setFlag
  rw [reg_setField]
  exact getB_setB _ _ _ hi

theorem reg64_congr {s t : State} {o : Nat} (h0 : reg t o = reg s o) (h4 : reg t (o + 4) = reg s (o + 4)) : reg64 t o = reg64 s o := by
  simp only [reg64, h0, h4]

/-! ## The canonical forms -/

theorem setReg_inv {s : State} (h : s.Inv) (o : Nat) (v : Word) : (setReg s o v).Inv := ⟨h.1, tabWf_set h.2 o v⟩

theorem resetRange_inv {s : State} (h : s.Inv) (lo hi : Nat) : (resetRange s lo hi).Inv := ⟨h.1, tabWf_filter h.2 _⟩

theorem setReg64_inv {s : State} (h : s.Inv) (o v : Nat) : (setReg64 s o v).Inv := setReg_inv (setReg_inv h _ _) _ _

/-- A 64-bit pair reads as it was written. -/
theorem reg64_setReg64 (s : State) (o v : Nat) : reg64 (setReg64 s o v) o = v % 2 ^ 64 := by
  unfold reg64 setReg64
  rw [reg_setReg_ne _ _ (by omega), reg_setReg, reg_setReg]
  simp only [BitVec.toNat_ofNat]
  omega

theorem reg_setReg64_ne (s : State) {o o' : Nat} (v : Nat) (h : o ≠ o') (h4 : o + 4 ≠ o') : reg (setReg64 s o v) o' = reg s o' := by
  unfold setReg64
  rw [reg_setReg_ne _ _ h4, reg_setReg_ne _ _ h]

/-- A counter advances modulo 2^64. -/
theorem reg64_add64 (s : State) (o n : Nat) : reg64 (add64 s o n) o = (reg64 s o + n) % 2 ^ 64 := reg64_setReg64 _ _ _

theorem add64_inv {s : State} (h : s.Inv) (o n : Nat) : (add64 s o n).Inv := setReg64_inv h _ _

/-- A register reads its reset value after its range is reset. -/
theorem reg_resetRange (s : State) {lo hi o : Nat} (h : lo ≤ o ∧ o < hi) : reg (resetRange s lo hi) o = regDefault o :=
  tabGet_dropped _ _ _ (by intro v; simp; omega)

theorem reg_resetRange_ne (s : State) {lo hi o : Nat} (h : o < lo ∨ hi ≤ o) : reg (resetRange s lo hi) o = reg s o :=
  tabGet_filter _ _ _ (by intro v; simp; omega)

/-! ## Memory -/

theorem memPut_wf {m : List Host.Cell} (h : Memory.wf m = true) (a : Nat) (b : List Byte) : Memory.wf (memPut m a b) = true := by
  induction b generalizing m a with
  | nil => exact h
  | cons x b ih =>
    simp only [memPut]
    split
    · exact ih (tabWf_set (d := fun _ => (0 : Byte)) h a x) _
    · exact ih h _

theorem memWrite_inv {s : State} (h : s.Inv) (a : Nat) (b : List Byte) : (memWrite s a b).Inv := ⟨memPut_wf h.1 a b, h.2⟩

theorem memZero_inv {s : State} (h : s.Inv) (lo hi : Nat) : (memZero s lo hi).Inv := ⟨tabWf_filter h.1 _, h.2⟩

theorem memPut_get (m : List Host.Cell) (a : Nat) (b : List Byte) (x : Nat) :
    tabGet (0 : Byte) (memPut m a b) x =
      if a ≤ x ∧ x < a + b.length ∧ isMem x = true then b.getD (x - a) 0 else tabGet 0 m x := by
  induction b generalizing m a with
  | nil => rw [if_neg (by simp only [List.length_nil]; omega)]; rfl
  | cons y b ih =>
    have hg : tabGet (0 : Byte) (if isMem a = true then tabSet 0 m a y else m) x =
        if a = x ∧ isMem x = true then y else tabGet 0 m x := by
      have hs := tabGet_set (d := fun _ => (0 : Byte)) (t := m) a x y
      by_cases hx : a = x
      · subst x; split <;> simp_all
      · rw [if_neg hx] at hs
        rw [if_neg (c := a = x ∧ isMem x = true) (by simp [hx])]
        split
        · exact hs
        · rfl
    simp only [memPut]
    rw [ih, hg]
    by_cases hm : isMem x = true
    · simp only [hm, and_true]
      by_cases hx : a = x
      · subst x
        rw [if_neg (by omega), if_pos rfl, if_pos (by simp)]
        simp
      · rw [if_neg hx]
        by_cases h2 : a + 1 ≤ x ∧ x < a + 1 + b.length
        · rw [if_pos h2, if_pos (by simp only [List.length_cons]; omega)]
          obtain ⟨k, rfl⟩ : ∃ k, x = a + 1 + k := ⟨x - (a + 1), by omega⟩
          have e1 : a + 1 + k - (a + 1) = k := by omega
          have e2 : a + 1 + k - a = k + 1 := by omega
          rw [e1, e2]; simp
        · rw [if_neg h2, if_neg (by simp only [List.length_cons]; omega)]
    · simp [hm]

/-- A byte of memory after a write: the byte written where memory exists, else as before. -/
theorem memByte_memWrite (s : State) (a : Nat) (b : List Byte) (x : Nat) :
    memByte (memWrite s a b) x = if a ≤ x ∧ x < a + b.length ∧ isMem x = true then b.getD (x - a) 0 else memByte s x :=
  memPut_get _ a b x

theorem memByte_congr {s t : State} (h : t.mem = s.mem) (x : Nat) : memByte t x = memByte s x := by
  unfold memByte; rw [h]

/-! ## Pods, ports, streams and the rest as vectors -/

@[simp] theorem vget_vmod {α : Type} {n : Nat} (v : Vector α n) (i : Fin n) (f : α → α) : vget (vmod v i f) i = f (vget v i) := by
  simp [vget, vmod]

theorem vget_vmod_ne {α : Type} {n : Nat} (v : Vector α n) {i j : Fin n} (f : α → α) (h : i ≠ j) : vget (vmod v i f) j = vget v j := by
  have : i.val ≠ j.val := fun e => h (Fin.ext e)
  simp [vget, vmod, this]

@[simp] theorem vget_vput {α : Type} {n : Nat} (v : Vector α n) (i : Fin n) (a : α) : vget (vput v i a) i = a := by
  simp [vget, vput]

@[simp] theorem pod_modPod (s : State) (p : PodId) (f : Pod → Pod) : pod (modPod s p f) p = f (pod s p) := vget_vmod _ _ _
theorem pod_modPod_ne (s : State) {p q : PodId} (f : Pod → Pod) (h : p ≠ q) : pod (modPod s p f) q = pod s q := vget_vmod_ne _ _ h
@[simp] theorem pod_setReg (s : State) (o : Nat) (v : Word) (p : PodId) : pod (setReg s o v) p = pod s p := rfl
@[simp] theorem pod_setReg64 (s : State) (o v : Nat) (p : PodId) : pod (setReg64 s o v) p = pod s p := rfl
@[simp] theorem pod_add64 (s : State) (o n : Nat) (p : PodId) : pod (add64 s o n) p = pod s p := rfl
@[simp] theorem port_modPort (s : State) (p : PortId) (f : Port → Port) : port (modPort s p f) p = f (port s p) := vget_vmod _ _ _
theorem port_modPort_ne (s : State) {p q : PortId} (f : Port → Port) (h : p ≠ q) : port (modPort s p f) q = port s q := vget_vmod_ne _ _ h
@[simp] theorem port_setReg (s : State) (o : Nat) (v : Word) (p : PortId) : port (setReg s o v) p = port s p := rfl
@[simp] theorem strm_modStrm (s : State) (i : StreamId) (f : Stream → Stream) : strm (modStrm s i f) i = f (strm s i) := vget_vmod _ _ _
@[simp] theorem strm_setReg (s : State) (o : Nat) (v : Word) (i : StreamId) : strm (setReg s o v) i = strm s i := rfl

end Sys2Proof.Machine
end

