-- ==== Sys2Proof/Laws/Frames.lean ====
section
/-! SUPPORT. The frames of the shared operations: what an event, an interrupt, a readiness state or an error bit may change. -/

namespace Sys2Proof.Machine

/-! ## Frames in general -/

theorem RegsBut.refl (l : List Nat) (s : State) : RegsBut l s s := fun _ _ _ => rfl

theorem RegsBut.trans {l : List Nat} {s t u : State} (h : RegsBut l s t) (g : RegsBut l t u) : RegsBut l s u :=
  fun o h4 ho => (g o h4 ho).trans (h o h4 ho)

theorem RegsBut.mono {l m : List Nat} {s t : State} (h : RegsBut l s t) (hl : ∀ o ∈ l, o ∈ m) : RegsBut m s t :=
  fun o h4 ho => h o h4 (fun h' => ho (hl o h'))

theorem RegsBut.setReg {l : List Nat} {s t : State} (h : RegsBut l s t) {o : Nat} (v : Word) (ho : o ∈ l) :
    RegsBut l s (Machine.setReg t o v) :=
  fun x h4 hx => (reg_setReg_ne t v (by intro e; subst e; exact hx ho)).trans (h x h4 hx)

theorem OnlyRegs.refl (l : List Nat) (s : State) : OnlyRegs l s s := ⟨rfl, RegsBut.refl l s⟩

theorem OnlyRegs.trans {l : List Nat} {s t u : State} (h : OnlyRegs l s t) (g : OnlyRegs l t u) : OnlyRegs l s u := by
  refine ⟨?_, h.2.trans g.2⟩
  rw [g.1, h.1]

theorem OnlyRegs.setReg {l : List Nat} {s t : State} (h : OnlyRegs l s t) {o : Nat} (v : Word) (ho : o ∈ l) :
    OnlyRegs l s (Machine.setReg t o v) := by
  refine ⟨?_, h.2.setReg v ho⟩
  unfold Machine.setReg
  dsimp only
  rw [h.1]

theorem Notified.refl (l : List Nat) (s : State) : Notified l s s := ⟨rfl, RegsBut.refl _ s, fun _ _ => rfl⟩

theorem Notified.trans {l : List Nat} {s t u : State} (h : Notified l s t) (g : Notified l t u) : Notified l s u := by
  refine ⟨?_, h.2.1.trans g.2.1, fun i hi => (g.2.2 i hi).trans (h.2.2 i hi)⟩
  rw [g.1, h.1]

theorem Notified.mono {l m : List Nat} {s t : State} (h : Notified l s t) (hl : ∀ o ∈ l, o ∈ m) : Notified m s t :=
  ⟨h.1, h.2.1.mono (by simp only [List.mem_append]; intro o ho; rcases ho with ho | ho
                       · exact Or.inl (hl o ho)
                       · exact Or.inr ho), h.2.2⟩

theorem OnlyRegs.notified {l : List Nat} {s t : State} (h : OnlyRegs l s t) : Notified l s t := by
  refine ⟨?_, h.2.mono (fun o ho => List.mem_append_left _ ho), ?_⟩
  · rw [h.1]
  · intro i _; rw [h.1]; rfl

/-- The memory of the two states is one. -/
theorem Notified.mem {l : List Nat} {s t : State} (h : Notified l s t) : t.mem = s.mem := by rw [h.1]
theorem Notified.pods {l : List Nat} {s t : State} (h : Notified l s t) : t.pods = s.pods := by rw [h.1]
theorem Notified.reg {l : List Nat} {s t : State} (h : Notified l s t) {o : Nat} (h4 : o % 4 = 0) (ho : o ∉ l ++ pbaRegs) : Machine.reg t o = Machine.reg s o :=
  h.2.1 o h4 ho

theorem setReg_only {l : List Nat} (s : State) {o : Nat} (v : Word) (ho : o ∈ l) : OnlyRegs l s (setReg s o v) :=
  (OnlyRegs.refl l s).setReg v ho

theorem setReg_notified {l : List Nat} (s : State) {o : Nat} (v : Word) (ho : o ∈ l) : Notified l s (setReg s o v) :=
  (setReg_only s v ho).notified

theorem emit_notified (l : List Nat) (s : State) (x : Output) : Notified l s (emit s x) :=
  ⟨rfl, RegsBut.refl _ s, fun _ _ => rfl⟩

/-! ## Interrupts and events (R347, R348) -/

theorem msix_notified (l : List Nat) (s : State) {v : Nat} (hv : v < 96) : Notified l s (msix s v) := by
  unfold msix
  split
  · have h : rMsixPba + 4 * (v / 32) ∈ l ++ pbaRegs := by
      apply List.mem_append_right
      have : v / 32 = 0 ∨ v / 32 = 1 ∨ v / 32 = 2 := by omega
      rcases this with e | e | e <;> rw [e] <;> simp [pbaRegs]
    exact ⟨rfl, (RegsBut.refl _ s).setReg _ h, fun _ _ => rfl⟩
  · exact emit_notified l s _

theorem queueAdmin_strm (s : State) (r : List Byte) (irq : Bool) {i : StreamId} (hi : i.val ≠ 0) :
    strm (queueAdmin s r irq) i = strm s i :=
  vget_vmod_ne _ _ (by intro e; subst e; exact hi rfl)

theorem postEvent_notified (l : List Nat) (s : State) (k a b : Nat) (d : List Byte) : Notified l s (postEvent s k a b d) := by
  unfold postEvent
  split
  · exact ⟨rfl, RegsBut.refl _ s, fun i hi => queueAdmin_strm s _ _ hi⟩
  · exact Notified.refl l s

theorem postState_notified (l : List Nat) (s : State) (k a b : Nat) : Notified l s (postState s k a b) := by
  unfold postState
  split
  · exact (postEvent_notified l s k a b []).trans (msix_notified l _ (by decide))
  · exact Notified.refl l s

/-- Writing a readiness state changes its register and posts an event (R386, R388). -/
theorem setFunc_notified {l : List Nat} (s : State) (f st d : Nat) (hl : rFunc f ∈ l) : Notified l s (setFunc s f st d) := by
  unfold setFunc
  dsimp only
  split
  · exact setReg_notified s _ hl
  · exact (setReg_notified s _ hl).trans (postState_notified l _ _ _ _)

theorem pba_ne_func (f : Nat) (h : f < 0x100) : rFunc f ∉ pbaRegs := by
  simp only [pbaRegs, rFunc, rMsixPba, List.mem_cons, List.not_mem_nil, or_false]
  omega

/-- The readiness register reads as it was written. -/
theorem reg_setFunc (s : State) (f st d : Nat) (hf : f < 0x100) :
    reg (setFunc s f st d) (rFunc f) = BitVec.ofNat 32 (d % 256 * 256 + st) := by
  unfold setFunc
  dsimp only
  split
  · exact reg_setReg _ _ _
  · rw [(postState_notified [] _ _ _ _).reg (by unfold rFunc; omega) (by simpa using pba_ne_func f hf)]
    exact reg_setReg _ _ _

/-! ## Errors (R413 to R415) -/

theorem cap_mem (b i : Nat) (h : i < 8) : rCap b + 4 * i ∈ capRegs b := by
  simp only [capRegs, upTo, List.mem_map, List.mem_range]
  exact ⟨i, h, rfl⟩

theorem fillCapture_only {l : List Nat} (s : State) (b off bit unit addr : Nat) (hl : ∀ o ∈ capRegs b, o ∈ l) :
    OnlyRegs l s (fillCapture s b off bit unit addr) := by
  have m : ∀ i, i < 8 → rCap b + 4 * i ∈ l := fun i hi => hl _ (cap_mem b i hi)
  unfold fillCapture setReg64
  exact (((((((OnlyRegs.refl l s).setReg _ (m 0 (by decide))).setReg _ (m 1 (by decide))).setReg _ (m 2 (by decide))).setReg _
    (m 3 (by decide))).setReg _ (m 4 (by decide))).setReg _ (m 5 (by decide))).setReg _ (m 6 (by decide))

theorem capture_only {l : List Nat} (s : State) (b off bit unit addr : Nat) (hl : ∀ o ∈ capRegs b, o ∈ l) :
    OnlyRegs l s (capture s b off bit unit addr) := by
  have m : ∀ i, i < 8 → rCap b + 4 * i ∈ l := fun i hi => hl _ (cap_mem b i hi)
  unfold capture addSat
  split
  · dsimp only
    split
    · exact (setReg_only s _ (m 7 (by decide))).trans (fillCapture_only _ _ _ _ _ _ hl)
    · exact setReg_only s _ (m 7 (by decide))
  · exact fillCapture_only s b off bit unit addr hl

/-- Raising an error changes its register, its group's capture, and signals vector 65. -/
theorem raiseErr_notified {l : List Nat} (s : State) (b off bit unit addr : Nat) (ho : off ∈ l) (hl : ∀ o ∈ capRegs b, o ∈ l) :
    Notified l s (raiseErr s b off bit unit addr) := by
  have h : Notified l s (capture (setFlag s off bit true) b off bit unit addr) :=
    (setReg_only s _ ho).notified.trans (capture_only _ b off bit unit addr hl).notified
  unfold raiseErr
  dsimp only
  split
  · exact h.trans (msix_notified l _ (by decide))
  · exact h

/-- The error bit reads 1 after it is raised. -/
theorem flag_raiseErr (s : State) (b off bit unit addr : Nat) (hb : bit < 32) (h4 : off % 4 = 0) (h1 : off ∉ capRegs b) (h2 : off ∉ pbaRegs) :
    flag (raiseErr s b off bit unit addr) off bit = true := by
  have e : reg (raiseErr s b off bit unit addr) off = reg (setFlag s off bit true) off := by
    have c : reg (capture (setFlag s off bit true) b off bit unit addr) off = reg (setFlag s off bit true) off :=
      (capture_only (l := capRegs b) _ b off bit unit addr (fun _ h => h)).2 _ h4 h1
    unfold raiseErr
    dsimp only
    split
    · rw [(msix_notified [] _ (by decide)).reg h4 (by simpa using h2), c]
    · exact c
  have f := flag_setFlag s off bit true hb
  unfold flag at f ⊢
  rw [e]
  exact f

end Sys2Proof.Machine
end

