-- ==== Sys2Proof/Laws/Sound.lean ====
section
/-! SUPPORT. What every operation of the model keeps: the queue of commands and the fuses stay, the canonical forms stay, what has
been sent stays sent, and free values are only ever drawn. -/

namespace Sys2Proof.Machine

/-- `t` follows from `s` by operations of the device. -/
structure Sound (s t : State) : Prop where
  pending : t.pending = s.pending
  fuses : t.fuses = s.fuses
  inv : s.Inv → t.Inv
  out : s.out <+: t.out
  fresh : s.fresh ≤ t.fresh

theorem Sound.refl (s : State) : Sound s s := ⟨rfl, rfl, id, List.prefix_rfl, Nat.le_refl _⟩

theorem Sound.trans {s t u : State} (h : Sound s t) (g : Sound t u) : Sound s u :=
  ⟨g.pending.trans h.pending, g.fuses.trans h.fuses, fun i => g.inv (h.inv i), h.out.trans g.out, Nat.le_trans h.fresh g.fresh⟩

/-- A change of other fields. -/
theorem Sound.other {s t : State} (hp : t.pending = s.pending) (hr : t.regs = s.regs) (hm : t.mem = s.mem)
    (hf : t.fuses = s.fuses) (ho : t.out = s.out) (hn : t.fresh = s.fresh) : Sound s t :=
  ⟨hp, hf, fun i => ⟨by rw [hm]; exact i.1, by rw [hr]; exact i.2⟩, by rw [ho], by rw [hn]⟩

/-- The same for a state written out field by field. -/
theorem Sound.upd {s x : State} {x0 x1 x2 x3 x4 x5 x6 x7 x8 x9 x10 x11 x12 x13 x14 x15 x16 x17 x18 x19 x20 x21 x22 x23 x24 x25} (hp : x0 = x.pending) (h : Sound s x) (hr : x1 = x.regs) (hm : x2 = x.mem) (hf : x4 = x.fuses)
    (ho : x24 = x.out) (hn : x25 = x.fresh) :
    Sound s (State.mk x0 x1 x2 x3 x4 x5 x6 x7 x8 x9 x10 x11 x12 x13 x14 x15 x16 x17 x18 x19 x20 x21 x22 x23 x24 x25) :=
  h.trans (Sound.other hp hr hm hf ho hn)

theorem ite_sound {c : Prop} [Decidable c] {s t u : State} (h : Sound s t) (g : Sound s u) : Sound s (if c then t else u) := by
  split
  · exact h
  · exact g

theorem forEach_sound {α : Type} {l : List α} {s u : State} {f : State → α → State} (h : Sound s u)
    (hf : ∀ t a, Sound t (f t a)) : Sound s (forEach l u f) := by
  unfold forEach
  induction l generalizing u with
  | nil => exact h
  | cons a l ih => exact ih (h.trans (hf u a))

theorem foldl_sound {α : Type} {l : List α} {s u : State} {f : State → α → State} (h : Sound s u)
    (hf : ∀ t a, Sound t (f t a)) : Sound s (l.foldl f u) := forEach_sound (l := l) h hf

/-- A fold whose accumulator carries a state. -/
theorem foldl_sound_fst {α β : Type} {l : List α} {s : State} {u : State × β} {f : State × β → α → State × β} (h : Sound s u.1)
    (hf : ∀ t a, Sound t.1 (f t a).1) : Sound s (l.foldl f u).1 := by
  induction l generalizing u with
  | nil => exact h
  | cons a l ih => exact ih (h.trans (hf u a))

theorem setReg_sound (s : State) (o : Nat) (v : Word) : Sound s (setReg s o v) :=
  ⟨rfl, rfl, fun h => setReg_inv h o v, List.prefix_rfl, Nat.le_refl _⟩

theorem resetRange_sound (s : State) (lo hi : Nat) : Sound s (resetRange s lo hi) :=
  ⟨rfl, rfl, fun h => resetRange_inv h lo hi, List.prefix_rfl, Nat.le_refl _⟩

theorem emit_sound (s : State) (o : Output) : Sound s (emit s o) :=
  ⟨rfl, rfl, id, List.prefix_append _ _, Nat.le_refl _⟩

theorem draw_sound (s : State) : Sound s (draw s).2 := ⟨rfl, rfl, id, List.prefix_rfl, Nat.le_succ _⟩

theorem memWrite_sound (s : State) (a : Nat) (b : List Byte) : Sound s (memWrite s a b) :=
  ⟨rfl, rfl, fun h => memWrite_inv h a b, List.prefix_rfl, Nat.le_refl _⟩

theorem memZero_sound (s : State) (lo hi : Nat) : Sound s (memZero s lo hi) :=
  ⟨rfl, rfl, fun h => memZero_inv h lo hi, List.prefix_rfl, Nat.le_refl _⟩

end Sys2Proof.Machine
end

