-- ==== Sys2Proof/Laws/SoundOps.lean ====
section
/-! SUPPORT. The shared operations are sound. -/

set_option linter.unusedTactic false
set_option linter.unreachableTactic false
set_option linter.unusedVariables false

namespace Sys2Proof.Machine

theorem modReg_sound (s : State) (o : Nat) (f : Word → Word) : Sound s (modReg s o f) := by
  unfold modReg
  repeat' first
    | with_reducible exact Sound.refl _
    | with_reducible (apply Sound.trans; on_goal 2 => apply setReg_sound)
    | dsimp only

theorem setField_sound (s : State) (o lo len v : Nat) : Sound s (setField s o lo len v) := by
  unfold setField
  repeat' first
    | with_reducible exact Sound.refl _
    | with_reducible (apply Sound.trans; on_goal 2 => apply setReg_sound)
    | dsimp only

theorem setFlag_sound (s : State) (o i : Nat) (b : Bool) : Sound s (setFlag s o i b) := by
  unfold setFlag
  repeat' first
    | with_reducible exact Sound.refl _
    | with_reducible (apply Sound.trans; on_goal 2 => apply setField_sound)
    | dsimp only

theorem orReg_sound (s : State) (o : Nat) (m : Nat) : Sound s (orReg s o m) := by
  unfold orReg
  repeat' first
    | with_reducible exact Sound.refl _
    | with_reducible (apply Sound.trans; on_goal 2 => apply modReg_sound)
    | dsimp only

theorem setReg64_sound (s : State) (o v : Nat) : Sound s (setReg64 s o v) := by
  unfold setReg64
  repeat' first
    | with_reducible exact Sound.refl _
    | with_reducible (apply Sound.trans; on_goal 2 => apply setReg_sound)
    | dsimp only

theorem add64_sound (s : State) (o n : Nat) : Sound s (add64 s o n) := by
  unfold add64
  repeat' first
    | with_reducible exact Sound.refl _
    | with_reducible (apply Sound.trans; on_goal 2 => apply setReg64_sound)
    | dsimp only

theorem addSat_sound (s : State) (o n : Nat) : Sound s (addSat s o n) := by
  unfold addSat
  repeat' first
    | with_reducible exact Sound.refl _
    | with_reducible (apply Sound.trans; on_goal 2 => apply setReg_sound)
    | dsimp only

theorem setDigest_sound (s : State) (o : Nat) (d : List Byte) : Sound s (setDigest s o d) := by
  unfold setDigest
  repeat' first
    | with_reducible exact Sound.refl _
    | with_reducible (apply Sound.trans; on_goal 2 => apply setReg_sound)
    | with_reducible (apply foldl_sound_fst; on_goal 2 => intro _ _)
    | with_reducible (apply foldl_sound; on_goal 2 => intro _ _)
    | dsimp only

theorem setPod_sound (s : State) (p : PodId) (x : Pod) : Sound s (setPod s p x) := by
  unfold setPod
  repeat' first
    | with_reducible exact Sound.refl _
    | dsimp only
    | refine Sound.upd rfl ?_ rfl rfl rfl rfl rfl

theorem modPod_sound (s : State) (p : PodId) (f : Pod → Pod) : Sound s (modPod s p f) := by
  unfold modPod
  repeat' first
    | with_reducible exact Sound.refl _
    | dsimp only
    | refine Sound.upd rfl ?_ rfl rfl rfl rfl rfl

theorem modCore_sound (s : State) (p : PodId) (f : Core → Core) : Sound s (modCore s p f) := by
  unfold modCore
  repeat' first
    | with_reducible exact Sound.refl _
    | with_reducible (apply Sound.trans; on_goal 2 => apply modPod_sound)
    | dsimp only
    | refine Sound.upd rfl ?_ rfl rfl rfl rfl rfl

theorem modPods_sound (s : State) (f : Nat → Pod → Pod) : Sound s (modPods s f) := by
  unfold modPods
  repeat' first
    | with_reducible exact Sound.refl _
    | dsimp only
    | refine Sound.upd rfl ?_ rfl rfl rfl rfl rfl

theorem modPort_sound (s : State) (p : PortId) (f : Port → Port) : Sound s (modPort s p f) := by
  unfold modPort
  repeat' first
    | with_reducible exact Sound.refl _
    | dsimp only
    | refine Sound.upd rfl ?_ rfl rfl rfl rfl rfl

theorem modStrm_sound (s : State) (i : StreamId) (f : Stream → Stream) : Sound s (modStrm s i f) := by
  unfold modStrm
  repeat' first
    | with_reducible exact Sound.refl _
    | dsimp only
    | refine Sound.upd rfl ?_ rfl rfl rfl rfl rfl

theorem modFsq_sound (s : State) (f : FsqId) (g : Fsq → Fsq) : Sound s (modFsq s f g) := by
  unfold modFsq
  repeat' first
    | with_reducible exact Sound.refl _
    | dsimp only
    | refine Sound.upd rfl ?_ rfl rfl rfl rfl rfl

theorem modMisc_sound (s : State) (f : Misc → Misc) : Sound s (modMisc s f) := by
  unfold modMisc
  repeat' first
    | with_reducible exact Sound.refl _
    | dsimp only
    | refine Sound.upd rfl ?_ rfl rfl rfl rfl rfl

theorem msix_sound (s : State) (v : Nat) : Sound s (msix s v) := by
  unfold msix
  repeat' first
    | with_reducible exact Sound.refl _
    | with_reducible (apply Sound.trans; on_goal 2 => first | apply orReg_sound | apply emit_sound)
    | with_reducible apply ite_sound
    | split
    | dsimp only

theorem queueAdmin_sound (s : State) (r : List Byte) (irq : Bool) : Sound s (queueAdmin s r irq) := by
  unfold queueAdmin
  repeat' first
    | with_reducible exact Sound.refl _
    | with_reducible (apply Sound.trans; on_goal 2 => apply modStrm_sound)
    | dsimp only
    | refine Sound.upd rfl ?_ rfl rfl rfl rfl rfl

theorem postEvent_sound (s : State) (kind arg0 arg1 : Nat) (data : List Byte) : Sound s (postEvent s kind arg0 arg1 data) := by
  unfold postEvent
  repeat' first
    | with_reducible exact Sound.refl _
    | with_reducible (apply Sound.trans; on_goal 2 => first | apply modMisc_sound | apply queueAdmin_sound)
    | with_reducible apply ite_sound
    | split
    | dsimp only
    | refine Sound.upd rfl ?_ rfl rfl rfl rfl rfl

theorem floodNotice_sound (s : State) (pkt : Packet) (except_ : Option PortId) : Sound s (floodNotice s pkt except_) := by
  unfold floodNotice
  repeat' first
    | with_reducible exact Sound.refl _
    | with_reducible (apply Sound.trans; on_goal 2 => apply modPort_sound)
    | with_reducible (apply forEach_sound; on_goal 2 => intro _ _)
    | with_reducible apply ite_sound
    | split
    | dsimp only
    | refine Sound.upd rfl ?_ rfl rfl rfl rfl rfl

theorem setStrmState_sound (s : State) (i : StreamId) (v : Nat) : Sound s (setStrmState s i v) := by
  unfold setStrmState
  repeat' first
    | with_reducible exact Sound.refl _
    | with_reducible (apply Sound.trans; on_goal 2 => apply setField_sound)
    | dsimp only

theorem passHead_sound (s : State) (i : StreamId) : Sound s (passHead s i) := by
  unfold passHead
  repeat' first
    | with_reducible exact Sound.refl _
    | with_reducible (apply Sound.trans; on_goal 2 => apply setField_sound)
    | dsimp only

theorem endStream_sound (s : State) (i : StreamId) (st : BitVec 7) : Sound s (endStream s i st) := by
  unfold endStream
  repeat' first
    | with_reducible exact Sound.refl _
    | with_reducible (apply Sound.trans; on_goal 2 => first | apply modStrm_sound | apply passHead_sound)
    | with_reducible apply ite_sound
    | split
    | dsimp only

theorem faultStreams_sound (s : State) : Sound s (faultStreams s) := by
  unfold faultStreams
  repeat' first
    | with_reducible exact Sound.refl _
    | with_reducible (apply Sound.trans; on_goal 2 => first | apply endStream_sound | apply setStrmState_sound)
    | with_reducible (apply forEach_sound; on_goal 2 => intro _ _)
    | with_reducible apply ite_sound
    | split
    | dsimp only

theorem raiseAlert_sound (s : State) : Sound s (raiseAlert s) := by
  unfold raiseAlert
  repeat' first
    | with_reducible exact Sound.refl _
    | with_reducible (apply Sound.trans; on_goal 2 => first | apply modMisc_sound | apply emit_sound)
    | with_reducible apply ite_sound
    | split
    | dsimp only
    | refine Sound.upd rfl ?_ rfl rfl rfl rfl rfl

theorem faultWeave_sound (s : State) : Sound s (faultWeave s) := by
  unfold faultWeave
  repeat' first
    | with_reducible exact Sound.refl _
    | with_reducible (apply Sound.trans; on_goal 2 => first | apply setFlag_sound | apply faultStreams_sound)
    | with_reducible (apply forEach_sound; on_goal 2 => intro _ _)
    | with_reducible apply ite_sound
    | split
    | dsimp only
    | refine Sound.upd rfl ?_ rfl rfl rfl rfl rfl

theorem enterFaulted_sound (s : State) (isLocal : Bool) (failStake reporter errOffset bit unit : Nat) : Sound s (enterFaulted s isLocal failStake reporter errOffset bit unit) := by
  unfold enterFaulted
  repeat' first
    | with_reducible exact Sound.refl _
    | with_reducible (apply Sound.trans; on_goal 2 => first | apply addSat_sound | apply setReg_sound | apply setReg64_sound | apply raiseAlert_sound | apply msix_sound | apply postEvent_sound | apply faultWeave_sound)
    | with_reducible apply ite_sound
    | split
    | dsimp only

theorem machineFault_sound (s : State) (errOffset bit unit : Nat) : Sound s (machineFault s errOffset bit unit) := by
  unfold machineFault
  repeat' first
    | with_reducible exact Sound.refl _
    | with_reducible (apply Sound.trans; on_goal 2 => first | apply modMisc_sound | apply floodNotice_sound | apply enterFaulted_sound)
    | dsimp only
    | refine Sound.upd rfl ?_ rfl rfl rfl rfl rfl

theorem fillCapture_sound (s : State) (b off bit unit addr : Nat) : Sound s (fillCapture s b off bit unit addr) := by
  unfold fillCapture
  repeat' first
    | with_reducible exact Sound.refl _
    | with_reducible (apply Sound.trans; on_goal 2 => first | apply setReg_sound | apply setReg64_sound)
    | dsimp only

theorem capture_sound (s : State) (b off bit unit addr : Nat) : Sound s (capture s b off bit unit addr) := by
  unfold capture
  repeat' first
    | with_reducible exact Sound.refl _
    | with_reducible (apply Sound.trans; on_goal 2 => first | apply addSat_sound | apply fillCapture_sound)
    | with_reducible apply ite_sound
    | split
    | dsimp only

theorem raiseErr_sound (s : State) (b off bit unit addr : Nat) : Sound s (raiseErr s b off bit unit addr) := by
  unfold raiseErr
  repeat' first
    | with_reducible exact Sound.refl _
    | with_reducible (apply Sound.trans; on_goal 2 => first | apply capture_sound | apply setFlag_sound | apply msix_sound)
    | with_reducible apply ite_sound
    | split
    | dsimp only

theorem raiseFault_sound (s : State) (b off bit unit addr : Nat) : Sound s (raiseFault s b off bit unit addr) := by
  unfold raiseFault
  repeat' first
    | with_reducible exact Sound.refl _
    | with_reducible (apply Sound.trans; on_goal 2 => first | apply machineFault_sound | apply raiseErr_sound)
    | dsimp only

theorem raisePodErr_sound (s : State) (b off : Nat) (p : PodId) (addr : Nat) (faults : Bool) : Sound s (raisePodErr s b off p addr faults) := by
  unfold raisePodErr
  repeat' first
    | with_reducible exact Sound.refl _
    | with_reducible (apply Sound.trans; on_goal 2 => first | apply raiseFault_sound | apply raiseErr_sound)
    | with_reducible apply ite_sound
    | split
    | dsimp only

theorem storeRead_sound (s : State) (p : PodId) (o n : Nat) : Sound s ((storeRead s p o n).1) := by
  unfold storeRead
  repeat' first
    | with_reducible exact Sound.refl _
    | with_reducible (apply Sound.trans; on_goal 2 => first | apply addSat_sound | apply raisePodErr_sound)
    | with_reducible (apply forEach_sound; on_goal 2 => intro _ _)
    | with_reducible apply ite_sound
    | split
    | dsimp only
    | refine Sound.upd rfl ?_ rfl rfl rfl rfl rfl

theorem storeRead_eq_sound {x} {t : State} {s : State} {p : PodId} {o n : Nat} (h : storeRead s p o n = (t, x)) : Sound s t := by
  have e := storeRead_sound s p o n
  rw [h] at e
  exact e

theorem countRoot_sound (s : State) (n : Nat) : Sound s (countRoot s n) := by
  unfold countRoot
  repeat' first
    | with_reducible exact Sound.refl _
    | dsimp only
    | refine Sound.upd rfl ?_ rfl rfl rfl rfl rfl

theorem rootRead_sound (s0 : State) (a n : Nat) : Sound s0 ((rootRead s0 a n).1) := by
  unfold rootRead
  repeat' first
    | with_reducible exact Sound.refl _
    | with_reducible (apply Sound.trans; on_goal 2 => first | apply countRoot_sound | apply addSat_sound | apply raiseFault_sound)
    | with_reducible (apply forEach_sound; on_goal 2 => intro _ _)
    | dsimp only

theorem rootRead_eq_sound {x} {t : State} {s0 : State} {a n : Nat} (h : rootRead s0 a n = (t, x)) : Sound s0 t := by
  have e := rootRead_sound s0 a n
  rw [h] at e
  exact e

theorem netStream_sound (s : State) (p : PodId) (op : Nat) (write : Bool) (o n : Nat) : Sound s (netStream s p op write o n) := by
  unfold netStream
  repeat' first
    | with_reducible exact Sound.refl _
    | with_reducible (apply Sound.trans; on_goal 2 => apply modMisc_sound)
    | dsimp only
    | refine Sound.upd rfl ?_ rfl rfl rfl rfl rfl

theorem netRequest_sound (s : State) (p : PodId) (write : Bool) (o n : Nat) : Sound s (netRequest s p write o n) := by
  unfold netRequest
  repeat' first
    | with_reducible exact Sound.refl _
    | with_reducible (apply Sound.trans; on_goal 2 => apply netStream_sound)
    | dsimp only

theorem closeJob_sound (s : State) (key : NetKey) : Sound s (closeJob s key) := by
  unfold closeJob
  repeat' first
    | with_reducible exact Sound.refl _
    | with_reducible (apply Sound.trans; on_goal 2 => apply modMisc_sound)
    | dsimp only
    | refine Sound.upd rfl ?_ rfl rfl rfl rfl rfl

theorem askRead_sound (s : State) (p : PodId) (key : NetKey) (pieces : List (Nat × Nat)) : Sound s (askRead s p key pieces) := by
  unfold askRead
  repeat' first
    | with_reducible exact Sound.refl _
    | with_reducible (apply Sound.trans; on_goal 2 => first | apply netStream_sound | apply modMisc_sound)
    | with_reducible (apply forEach_sound; on_goal 2 => intro _ _)
    | dsimp only
    | refine Sound.upd rfl ?_ rfl rfl rfl rfl rfl

theorem startWrite_sound (s : State) (p : PodId) (key : NetKey) (o n : Nat) (w : List (Nat × List Byte)) : Sound s (startWrite s p key o n w) := by
  unfold startWrite
  repeat' first
    | with_reducible exact Sound.refl _
    | with_reducible (apply Sound.trans; on_goal 2 => first | apply netStream_sound | apply modPod_sound | apply modMisc_sound)
    | dsimp only
    | refine Sound.upd rfl ?_ rfl rfl rfl rfl rfl

theorem askWrite_sound (s : State) (p : PodId) (key : NetKey) (o : Nat) (b : List Byte) : Sound s (askWrite s p key o b) := by
  unfold askWrite
  repeat' first
    | with_reducible exact Sound.refl _
    | with_reducible (apply Sound.trans; on_goal 2 => first | apply addSat_sound | apply startWrite_sound)
    | with_reducible apply ite_sound
    | split
    | dsimp only

theorem netRead_sound (s : State) (p : PodId) (key : NetKey) (pieces : List (Nat × Nat)) : Sound s ((netRead s p key pieces).1) := by
  unfold netRead
  repeat' first
    | with_reducible exact Sound.refl _
    | with_reducible (apply Sound.trans; on_goal 2 => first | apply askRead_sound | apply storeRead_sound | (apply storeRead_eq_sound; assumption) | apply closeJob_sound)
    | with_reducible (apply forEach_sound; on_goal 2 => intro _ _)
    | with_reducible apply ite_sound
    | split
    | dsimp only
    | refine Sound.upd rfl ?_ rfl rfl rfl rfl rfl

theorem netRead_eq_sound {x} {t : State} {s : State} {p : PodId} {key : NetKey} {pieces : List (Nat × Nat)} (h : netRead s p key pieces = (t, x)) : Sound s t := by
  have e := netRead_sound s p key pieces
  rw [h] at e
  exact e

theorem netPut_sound (s : State) (p : PodId) (key : NetKey) (o : Nat) (b : List Byte) : Sound s ((netPut s p key o b).1) := by
  unfold netPut
  repeat' first
    | with_reducible exact Sound.refl _
    | with_reducible (apply Sound.trans; on_goal 2 => first | apply askWrite_sound | apply closeJob_sound)
    | with_reducible apply ite_sound
    | split
    | dsimp only
    | refine Sound.upd rfl ?_ rfl rfl rfl rfl rfl

theorem netPut_eq_sound {x} {t : State} {s : State} {p : PodId} {key : NetKey} {o : Nat} {b : List Byte} (h : netPut s p key o b = (t, x)) : Sound s t := by
  have e := netPut_sound s p key o b
  rw [h] at e
  exact e

theorem externalWrite_sound (s : State) (p : PodId) (o : Nat) (b : List Byte) : Sound s (externalWrite s p o b) := by
  unfold externalWrite
  repeat' first
    | with_reducible exact Sound.refl _
    | with_reducible (apply Sound.trans; on_goal 2 => first | apply addSat_sound | apply memWrite_sound)
    | with_reducible (apply forEach_sound; on_goal 2 => intro _ _)
    | with_reducible apply ite_sound
    | split
    | dsimp only

theorem hostPut_sound (s : State) (key : NetKey) (a : Nat) (b : List Byte) : Sound s ((hostPut s key a b).1) := by
  unfold hostPut
  repeat' first
    | with_reducible exact Sound.refl _
    | with_reducible (apply Sound.trans; on_goal 2 => first | apply netPut_sound | (apply netPut_eq_sound; assumption) | apply memWrite_sound | apply countRoot_sound)
    | with_reducible apply ite_sound
    | split
    | dsimp only

theorem hostPut_eq_sound {x} {t : State} {s : State} {key : NetKey} {a : Nat} {b : List Byte} (h : hostPut s key a b = (t, x)) : Sound s t := by
  have e := hostPut_sound s key a b
  rw [h] at e
  exact e

theorem hostGet_sound (s : State) (key : NetKey) (a n : Nat) : Sound s ((hostGet s key a n).1) := by
  unfold hostGet
  repeat' first
    | with_reducible exact Sound.refl _
    | with_reducible (apply Sound.trans; on_goal 2 => first | apply netRead_sound | (apply netRead_eq_sound; assumption) | apply rootRead_sound | (apply rootRead_eq_sound; assumption))
    | with_reducible apply ite_sound
    | split
    | dsimp only

theorem hostGet_eq_sound {x} {t : State} {s : State} {key : NetKey} {a n : Nat} (h : hostGet s key a n = (t, x)) : Sound s t := by
  have e := hostGet_sound s key a n
  rw [h] at e
  exact e

theorem postState_sound (s : State) (kind arg0 arg1 : Nat) : Sound s (postState s kind arg0 arg1) := by
  unfold postState
  repeat' first
    | with_reducible exact Sound.refl _
    | with_reducible (apply Sound.trans; on_goal 2 => first | apply msix_sound | apply postEvent_sound)
    | with_reducible apply ite_sound
    | split
    | dsimp only

theorem setFunc_sound (s : State) (f st detail : Nat) : Sound s (setFunc s f st detail) := by
  unfold setFunc
  repeat' first
    | with_reducible exact Sound.refl _
    | with_reducible (apply Sound.trans; on_goal 2 => first | apply setReg_sound | apply postState_sound)
    | with_reducible apply ite_sound
    | split
    | dsimp only

theorem buildRoutes_sound (s : State) : Sound s (buildRoutes s) := by
  unfold buildRoutes
  repeat' first
    | with_reducible exact Sound.refl _
    | with_reducible (apply Sound.trans; on_goal 2 => apply modMisc_sound)
    | with_reducible apply ite_sound
    | with_reducible (apply foldl_sound_fst; on_goal 2 => intro _ _)
    | with_reducible (apply foldl_sound; on_goal 2 => intro _ _)
    | split
    | dsimp only
    | refine Sound.upd rfl ?_ rfl rfl rfl rfl rfl

theorem writeResults_sound (sel : Nat × Nat × Nat → Bool) (s : State) (p : PodId) : Sound s (writeResults sel s p) := by
  unfold writeResults
  repeat' first
    | with_reducible exact Sound.refl _
    | with_reducible (apply Sound.trans; on_goal 2 => first | apply orReg_sound | apply setPod_sound)
    | with_reducible apply ite_sound
    | with_reducible (apply foldl_sound_fst; on_goal 2 => intro _ _)
    | with_reducible (apply foldl_sound; on_goal 2 => intro _ _)
    | split
    | dsimp only
    | refine Sound.upd rfl ?_ rfl rfl rfl rfl rfl

theorem settleLandings_sound (s : State) (p : PodId) : Sound s (settleLandings s p) := by
  unfold settleLandings
  repeat' first
    | with_reducible exact Sound.refl _
    | with_reducible (apply Sound.trans; on_goal 2 => first | apply setPod_sound | apply memWrite_sound)
    | with_reducible (apply forEach_sound; on_goal 2 => intro _ _)
    | dsimp only
    | refine Sound.upd rfl ?_ rfl rfl rfl rfl rfl

theorem setPc_sound (s : State) (p : PodId) (v : Nat) : Sound s (setPc s p v) := by
  unfold setPc
  repeat' first
    | with_reducible exact Sound.refl _
    | with_reducible (apply Sound.trans; on_goal 2 => apply setField_sound)
    | dsimp only

theorem causeArises_sound (s : State) (bits : Nat) : Sound s (causeArises s bits) := by
  unfold causeArises
  repeat' first
    | with_reducible exact Sound.refl _
    | with_reducible apply ite_sound
    | split
    | dsimp only
    | refine Sound.upd rfl ?_ rfl rfl rfl rfl rfl

theorem nextSerial_sound (s : State) (p : PodId) : Sound s ((nextSerial s p).2) := by
  unfold nextSerial
  repeat' first
    | with_reducible exact Sound.refl _
    | with_reducible (apply Sound.trans; on_goal 2 => apply modCore_sound)
    | dsimp only
    | refine Sound.upd rfl ?_ rfl rfl rfl rfl rfl

theorem nextSerial_eq_sound {x} {t : State} {s : State} {p : PodId} (h : nextSerial s p = (x, t)) : Sound s t := by
  have e := nextSerial_sound s p
  rw [h] at e
  exact e

theorem captureUnit_sound (s : State) (p : PodId) (slot addr : Nat) (h : Word64) : Sound s (captureUnit s p slot addr h) := by
  unfold captureUnit
  repeat' first
    | with_reducible exact Sound.refl _
    | with_reducible (apply Sound.trans; on_goal 2 => first | apply modMisc_sound | apply memWrite_sound | apply raiseErr_sound)
    | with_reducible apply ite_sound
    | split
    | dsimp only
    | refine Sound.upd rfl ?_ rfl rfl rfl rfl rfl

theorem digestWrite_sound (s : State) (p : PodId) (slot : Nat) (a : Nat) (b : List Byte) : Sound s (digestWrite s p slot a b) := by
  unfold digestWrite
  repeat' first
    | with_reducible exact Sound.refl _
    | with_reducible (apply Sound.trans; on_goal 2 => first | apply modCore_sound | apply captureUnit_sound)
    | with_reducible (apply forEach_sound; on_goal 2 => intro _ _)
    | with_reducible apply ite_sound
    | split
    | dsimp only
    | refine Sound.upd rfl ?_ rfl rfl rfl rfl rfl

theorem digestRange_sound (s : State) (p : PodId) (r : StoreRange) : Sound s (digestRange s p r) := by
  unfold digestRange
  repeat' first
    | with_reducible exact Sound.refl _
    | with_reducible (apply Sound.trans; on_goal 2 => apply digestWrite_sound)
    | with_reducible (apply forEach_sound; on_goal 2 => intro _ _)
    | with_reducible apply ite_sound
    | split
    | dsimp only

theorem writeRange_sound (p : PodId) (s : State) (r : StoreRange) : Sound s (writeRange p s r) := by
  unfold writeRange
  repeat' first
    | with_reducible exact Sound.refl _
    | with_reducible (apply Sound.trans; on_goal 2 => first | apply digestRange_sound | apply memWrite_sound)
    | with_reducible (apply forEach_sound; on_goal 2 => intro _ _)
    | dsimp only

theorem settleRanges_sound (sel : StoreRange → Bool) (s : State) (p : PodId) : Sound s (settleRanges sel s p) := by
  unfold settleRanges
  repeat' first
    | with_reducible exact Sound.refl _
    | with_reducible (apply Sound.trans; on_goal 2 => first | apply setPod_sound | apply writeResults_sound | apply writeRange_sound)
    | with_reducible (apply forEach_sound; on_goal 2 => intro _ _)
    | split
    | dsimp only
    | refine Sound.upd rfl ?_ rfl rfl rfl rfl rfl

theorem applyTimeWrites_sound (s : State) : Sound s (applyTimeWrites s) := by
  unfold applyTimeWrites
  repeat' first
    | with_reducible exact Sound.refl _
    | with_reducible apply ite_sound
    | split
    | dsimp only
    | refine Sound.upd rfl ?_ rfl rfl rfl rfl rfl

theorem latchEpoch_sound (s : State) : Sound s (latchEpoch s) := by
  unfold latchEpoch
  repeat' first
    | with_reducible exact Sound.refl _
    | with_reducible (apply Sound.trans; on_goal 2 => first | apply setReg64_sound | apply setReg_sound)
    | dsimp only

theorem keeperTick_sound (s : State) : Sound s (keeperTick s) := by
  unfold keeperTick
  repeat' first
    | with_reducible exact Sound.refl _
    | with_reducible (apply Sound.trans; on_goal 2 => apply setReg_sound)
    | with_reducible apply ite_sound
    | split
    | dsimp only
    | refine Sound.upd rfl ?_ rfl rfl rfl rfl rfl

theorem passTick_sound (s : State) : Sound s (passTick s) := by
  unfold passTick
  repeat' first
    | with_reducible exact Sound.refl _
    | with_reducible (apply Sound.trans; on_goal 2 => first | apply keeperTick_sound | apply add64_sound)
    | with_reducible apply ite_sound
    | split
    | dsimp only
    | refine Sound.upd rfl ?_ rfl rfl rfl rfl rfl

theorem noteDepth_sound (s : State) (p : PodId) (q depth : Nat) : Sound s (noteDepth s p q depth) := by
  unfold noteDepth
  repeat' first
    | with_reducible exact Sound.refl _
    | with_reducible (apply Sound.trans; on_goal 2 => apply setField_sound)
    | with_reducible apply ite_sound
    | split
    | dsimp only

theorem addToken_sound (s : State) (p : PodId) (q : Fin 8) (kind : TokenKind) (op root store len : Nat) (data : List Byte) (dstDev : Nat) : Sound s ((addToken s p q kind op root store len data dstDev).2) := by
  unfold addToken
  repeat' first
    | with_reducible exact Sound.refl _
    | with_reducible (apply Sound.trans; on_goal 2 => first | apply modPod_sound | apply noteDepth_sound)
    | dsimp only
    | refine Sound.upd rfl ?_ rfl rfl rfl rfl rfl

theorem addToken_eq_sound {x} {t : State} {s : State} {p : PodId} {q : Fin 8} {kind : TokenKind} {op root store len : Nat} {data : List Byte} {dstDev : Nat} (h : addToken s p q kind op root store len data dstDev = (x, t)) : Sound s t := by
  have e := addToken_sound s p q kind op root store len data dstDev
  rw [h] at e
  exact e

theorem completeHeads_sound (s : State) (p : PodId) (q : Fin 8) : Sound s (completeHeads s p q) := by
  unfold completeHeads
  repeat' first
    | with_reducible exact Sound.refl _
    | with_reducible (apply Sound.trans; on_goal 2 => first | apply causeArises_sound | apply modPod_sound)
    | with_reducible apply ite_sound
    | split
    | dsimp only
    | refine Sound.upd rfl ?_ rfl rfl rfl rfl rfl

theorem finishTransfer_sound (s : State) (p : PodId) (q : Fin 8) (sel : Token → Bool) : Sound s (finishTransfer s p q sel) := by
  unfold finishTransfer
  repeat' first
    | with_reducible exact Sound.refl _
    | with_reducible (apply Sound.trans; on_goal 2 => first | apply completeHeads_sound | apply modPod_sound)
    | dsimp only
    | refine Sound.upd rfl ?_ rfl rfl rfl rfl rfl

theorem arriveData_sound (s : State) (p : PodId) (op : Nat) (w : List (Nat × List Byte)) : Sound s (arriveData s p op w) := by
  unfold arriveData
  repeat' first
    | with_reducible exact Sound.refl _
    | with_reducible (apply Sound.trans; on_goal 2 => first | apply nextSerial_sound | (apply nextSerial_eq_sound; assumption) | apply modPod_sound)
    | with_reducible apply ite_sound
    | split
    | dsimp only
    | refine Sound.upd rfl ?_ rfl rfl rfl rfl rfl

theorem beginFetch_sound (s : State) (p : PodId) (t : Token) : Sound s (beginFetch s p t) := by
  unfold beginFetch
  repeat' first
    | with_reducible exact Sound.refl _
    | with_reducible (apply Sound.trans; on_goal 2 => first | apply rootRead_sound | (apply rootRead_eq_sound; assumption) | apply arriveData_sound)
    | dsimp only

theorem completeToken_sound (s : State) (p : PodId) (q : Fin 8) : Sound s (completeToken s p q) := by
  unfold completeToken
  repeat' first
    | with_reducible exact Sound.refl _
    | with_reducible (apply Sound.trans; on_goal 2 => first | apply completeHeads_sound | apply finishTransfer_sound | apply memWrite_sound | apply countRoot_sound | apply beginFetch_sound)
    | with_reducible apply ite_sound
    | split
    | dsimp only
    | refine Sound.upd rfl ?_ rfl rfl rfl rfl rfl

theorem acceptEntry_sound (s : State) (p : PodId) (q : Fin 8) (bytes : List Byte) (stream : Option (StreamId × Nat)) : Sound s (acceptEntry s p q bytes stream) := by
  unfold acceptEntry
  repeat' first
    | with_reducible exact Sound.refl _
    | with_reducible (apply Sound.trans; on_goal 2 => first | apply modPod_sound | apply noteDepth_sound)
    | dsimp only
    | refine Sound.upd rfl ?_ rfl rfl rfl rfl rfl

theorem refuseEntry_sound (s : State) (p : PodId) : Sound s (refuseEntry s p) := by
  unfold refuseEntry
  repeat' first
    | with_reducible exact Sound.refl _
    | with_reducible (apply Sound.trans; on_goal 2 => apply addSat_sound)
    | dsimp only

end Sys2Proof.Machine
end

