-- ==== Sys2Proof/Laws/SoundLink.lean ====
section
/-! SUPPORT. The operations of the twine plane, the ports and the fabric sequencers are sound. -/

set_option linter.unusedTactic false
set_option linter.unreachableTactic false
set_option linter.unusedVariables false

namespace Sys2Proof.Machine

theorem queueTx_sound (s : State) (p : PortId) (held : Option PortId) (k : Packet) : Sound s (queueTx s p held k) := by
  unfold queueTx
  repeat' first
    | with_reducible exact Sound.refl _
    | with_reducible (apply Sound.trans; on_goal 2 => apply modPort_sound)
    | with_reducible apply ite_sound
    | split
    | dsimp only
    | refine Sound.upd rfl ?_ rfl rfl rfl rfl rfl

theorem freeRx_sound (s : State) (p : PortId) (k : Packet) : Sound s (freeRx s p k) := by
  unfold freeRx
  repeat' first
    | with_reducible exact Sound.refl _
    | with_reducible (apply Sound.trans; on_goal 2 => apply modPort_sound)
    | with_reducible apply ite_sound
    | split
    | dsimp only
    | refine Sound.upd rfl ?_ rfl rfl rfl rfl rfl

theorem freeFrom_sound (s : State) (p : Option PortId) (k : Packet) : Sound s (freeFrom s p k) := by
  unfold freeFrom
  repeat' first
    | with_reducible exact Sound.refl _
    | with_reducible (apply Sound.trans; on_goal 2 => first | apply freeRx_sound | apply modMisc_sound)
    | split
    | dsimp only
    | refine Sound.upd rfl ?_ rfl rfl rfl rfl rfl

theorem noRoute_sound (s : State) (k : Packet) : Sound s (noRoute s k) := by
  unfold noRoute
  repeat' first
    | with_reducible exact Sound.refl _
    | with_reducible (apply Sound.trans; on_goal 2 => first | apply raiseErr_sound | apply add64_sound)
    | dsimp only

theorem releaseFence_sound (s : State) (f : Fenced) : Sound s (releaseFence s f) := by
  unfold releaseFence
  repeat' first
    | with_reducible exact Sound.refl _
    | with_reducible (apply Sound.trans; on_goal 2 => first | apply queueTx_sound | apply modMisc_sound | apply finishTransfer_sound | apply noRoute_sound)
    | split
    | dsimp only
    | refine Sound.upd rfl ?_ rfl rfl rfl rfl rfl

theorem releaseReady_sound (s : State) : Sound s (releaseReady s) := by
  unfold releaseReady
  repeat' first
    | with_reducible exact Sound.refl _
    | with_reducible (apply Sound.trans; on_goal 2 => first | apply modMisc_sound | apply releaseFence_sound)
    | with_reducible (apply forEach_sound; on_goal 2 => intro _ _)
    | dsimp only
    | refine Sound.upd rfl ?_ rfl rfl rfl rfl rfl

theorem releaseFences_sound (s : State) : Sound s (releaseFences s) := by
  unfold releaseFences
  repeat' first
    | with_reducible exact Sound.refl _
    | with_reducible (apply Sound.trans; on_goal 2 => apply releaseReady_sound)
    | with_reducible (apply foldl_sound_fst; on_goal 2 => intro _ _)
    | with_reducible (apply foldl_sound; on_goal 2 => intro _ _)
    | dsimp only

theorem confirmToken_sound (s : State) (p : PodId) (q : Fin 8) (sel : Token → Bool) : Sound s (confirmToken s p q sel) := by
  unfold confirmToken
  repeat' first
    | with_reducible exact Sound.refl _
    | with_reducible (apply Sound.trans; on_goal 2 => first | apply releaseFences_sound | apply finishTransfer_sound)
    | dsimp only

theorem takeDoneResponse_sound (s : State) (k : Packet) : Sound s (takeDoneResponse s k) := by
  unfold takeDoneResponse
  repeat' first
    | with_reducible exact Sound.refl _
    | with_reducible (apply Sound.trans; on_goal 2 => apply confirmToken_sound)
    | dsimp only

theorem addSlots_sound (s : State) (p : PortId) (take : Bool) : Sound s (addSlots s p take) := by
  unfold addSlots
  repeat' first
    | with_reducible exact Sound.refl _
    | with_reducible (apply Sound.trans; on_goal 2 => apply modMisc_sound)
    | with_reducible apply ite_sound
    | split
    | dsimp only
    | refine Sound.upd rfl ?_ rfl rfl rfl rfl rfl

theorem sendDone_sound (s : State) (k : Packet) (status : Nat) : Sound s (sendDone s k status) := by
  unfold sendDone
  repeat' first
    | with_reducible exact Sound.refl _
    | with_reducible (apply Sound.trans; on_goal 2 => first | apply takeDoneResponse_sound | apply queueTx_sound | apply addSlots_sound | apply noRoute_sound)
    | split
    | dsimp only
    | refine Sound.upd rfl ?_ rfl rfl rfl rfl rfl

theorem payloadPut_sound (s : State) (src : Option PortId) (k : Packet) : Sound s ((payloadPut s src k).1) := by
  unfold payloadPut
  repeat' first
    | with_reducible exact Sound.refl _
    | with_reducible (apply Sound.trans; on_goal 2 => first | apply netPut_sound | (apply netPut_eq_sound; assumption))
    | with_reducible apply ite_sound
    | split
    | dsimp only

theorem payloadPut_eq_sound {x} {t : State} {s : State} {src : Option PortId} {k : Packet} (h : payloadPut s src k = (t, x)) : Sound s t := by
  have e := payloadPut_sound s src k
  rw [h] at e
  exact e

theorem afterWrite_sound (s0 : State) (src : Option PortId) (k : Packet) : Sound s0 (afterWrite s0 src k) := by
  unfold afterWrite
  repeat' first
    | with_reducible exact Sound.refl _
    | with_reducible (apply Sound.trans; on_goal 2 => first | apply acceptEntry_sound | apply freeFrom_sound | apply sendDone_sound | apply confirmToken_sound)
    | with_reducible apply ite_sound
    | split
    | dsimp only

theorem deliverWrite_sound (s : State) (src : Option PortId) (k : Packet) : Sound s (deliverWrite s src k) := by
  unfold deliverWrite
  repeat' first
    | with_reducible exact Sound.refl _
    | with_reducible (apply Sound.trans; on_goal 2 => first | apply payloadPut_sound | (apply payloadPut_eq_sound; assumption) | apply afterWrite_sound | apply modPod_sound | apply refuseEntry_sound)
    | with_reducible apply ite_sound
    | split
    | dsimp only
    | refine Sound.upd rfl ?_ rfl rfl rfl rfl rfl

theorem deliverFadd_sound (s : State) (src : Option PortId) (k : Packet) : Sound s (deliverFadd s src k) := by
  unfold deliverFadd
  repeat' first
    | with_reducible exact Sound.refl _
    | with_reducible (apply Sound.trans; on_goal 2 => first | apply sendDone_sound | apply freeFrom_sound | apply netPut_sound | (apply netPut_eq_sound; assumption) | apply netRead_sound | (apply netRead_eq_sound; assumption))
    | with_reducible apply ite_sound
    | split
    | dsimp only
    | refine Sound.upd rfl ?_ rfl rfl rfl rfl rfl

theorem deliverOcommit_sound (s : State) (src : Option PortId) (k : Packet) : Sound s (deliverOcommit s src k) := by
  unfold deliverOcommit
  repeat' first
    | with_reducible exact Sound.refl _
    | with_reducible (apply Sound.trans; on_goal 2 => first | apply sendDone_sound | apply freeFrom_sound | apply modMisc_sound)
    | with_reducible apply ite_sound
    | split
    | dsimp only
    | refine Sound.upd rfl ?_ rfl rfl rfl rfl rfl

theorem deliverByp_sound (s : State) (src : Option PortId) (k : Packet) : Sound s (deliverByp s src k) := by
  unfold deliverByp
  repeat' first
    | with_reducible exact Sound.refl _
    | with_reducible (apply Sound.trans; on_goal 2 => first | apply acceptEntry_sound | apply add64_sound | apply refuseEntry_sound | apply freeFrom_sound | apply confirmToken_sound)
    | with_reducible apply ite_sound
    | split
    | dsimp only

theorem toKeeper_sound (s : State) (src : Option PortId) (k : Packet) : Sound s (toKeeper s src k) := by
  unfold toKeeper
  repeat' first
    | with_reducible exact Sound.refl _
    | with_reducible (apply Sound.trans; on_goal 2 => first | apply emit_sound | apply freeFrom_sound)
    | dsimp only

theorem serveRequest_sound (s : State) (src : Option PortId) (k : Packet) : Sound s (serveRequest s src k) := by
  unfold serveRequest
  repeat' first
    | with_reducible exact Sound.refl _
    | with_reducible (apply Sound.trans; on_goal 2 => first | apply deliverWrite_sound | apply deliverFadd_sound | apply deliverOcommit_sound | apply toKeeper_sound)
    | with_reducible apply ite_sound
    | split
    | dsimp only

theorem deliverHere_sound (s : State) (k : Packet) : Sound s (deliverHere s k) := by
  unfold deliverHere
  repeat' first
    | with_reducible exact Sound.refl _
    | with_reducible (apply Sound.trans; on_goal 2 => first | apply serveRequest_sound | apply takeDoneResponse_sound | apply freeFrom_sound | apply deliverWrite_sound | apply deliverByp_sound | apply toKeeper_sound)
    | with_reducible apply ite_sound
    | split
    | dsimp only

theorem serveLocal_sound (n : Nat) (s : State) : Sound s (serveLocal n s) := by
  induction n generalizing s with
  | zero => exact Sound.refl _
  | succ n ih =>
    unfold serveLocal
    split
    · exact Sound.refl _
    · exact ite_sound (deliverHere_sound ..) ((deliverHere_sound ..).trans (ih _))

theorem settleLocal_sound (s : State) : Sound s (settleLocal s) := by
  unfold settleLocal
  repeat' first
    | with_reducible exact Sound.refl _
    | with_reducible (apply Sound.trans; on_goal 2 => apply serveLocal_sound)
    | dsimp only

theorem sendTwine_sound (s : State) (p : PodId) (q : Fin 8) (sel : Token → Bool) (earlier : List (Nat × Nat × Word)) (k : Packet) : Sound s (sendTwine s p q sel earlier k) := by
  unfold sendTwine
  repeat' first
    | with_reducible exact Sound.refl _
    | with_reducible (apply Sound.trans; on_goal 2 => first | apply settleLocal_sound | apply confirmToken_sound | apply noRoute_sound | apply modMisc_sound | apply queueTx_sound | apply deliverOcommit_sound)
    | with_reducible apply ite_sound
    | split
    | dsimp only
    | refine Sound.upd rfl ?_ rfl rfl rfl rfl rfl

theorem acceptWaiting_sound (s : State) (p : PodId) (q : Fin 8) : Sound s (acceptWaiting s p q) := by
  unfold acceptWaiting
  repeat' first
    | with_reducible exact Sound.refl _
    | with_reducible (apply Sound.trans; on_goal 2 => first | apply modPod_sound | apply payloadPut_sound | (apply payloadPut_eq_sound; assumption) | apply settleLocal_sound | apply afterWrite_sound | apply acceptEntry_sound)
    | with_reducible apply ite_sound
    | split
    | dsimp only
    | refine Sound.upd rfl ?_ rfl rfl rfl rfl rfl

theorem setLstate_sound (s : State) (p : PortId) (v : Nat) : Sound s (setLstate s p v) := by
  unfold setLstate
  repeat' first
    | with_reducible exact Sound.refl _
    | with_reducible (apply Sound.trans; on_goal 2 => apply setField_sound)
    | dsimp only

theorem setLink_sound (s : State) (p : PortId) (st detail : Nat) : Sound s (setLink s p st detail) := by
  unfold setLink
  repeat' first
    | with_reducible exact Sound.refl _
    | with_reducible (apply Sound.trans; on_goal 2 => apply setFunc_sound)
    | with_reducible apply ite_sound
    | split
    | dsimp only

theorem modTrain_sound (s : State) (p : PortId) (f : TrainState → TrainState) : Sound s (modTrain s p f) := by
  unfold modTrain
  repeat' first
    | with_reducible exact Sound.refl _
    | with_reducible (apply Sound.trans; on_goal 2 => apply modPort_sound)
    | dsimp only
    | refine Sound.upd rfl ?_ rfl rfl rfl rfl rfl

theorem enterDetect_sound (s : State) (p : PortId) : Sound s (enterDetect s p) := by
  unfold enterDetect
  repeat' first
    | with_reducible exact Sound.refl _
    | with_reducible (apply Sound.trans; on_goal 2 => first | apply setLstate_sound | apply setLink_sound)
    | with_reducible apply ite_sound
    | split
    | dsimp only

theorem enterTrain_sound (s : State) (p : PortId) : Sound s (enterTrain s p) := by
  unfold enterTrain
  repeat' first
    | with_reducible exact Sound.refl _
    | with_reducible (apply Sound.trans; on_goal 2 => first | apply resetRange_sound | apply setReg_sound | apply setField_sound | apply modPort_sound | apply setLink_sound | apply setLstate_sound)
    | dsimp only
    | refine Sound.upd rfl ?_ rfl rfl rfl rfl rfl

theorem holdNotice_sound (s : State) : Sound s (holdNotice s) := by
  unfold holdNotice
  repeat' first
    | with_reducible exact Sound.refl _
    | with_reducible (apply Sound.trans; on_goal 2 => first | apply setFlag_sound | apply modPort_sound)
    | with_reducible (apply forEach_sound; on_goal 2 => intro _ _)
    | with_reducible apply ite_sound
    | split
    | dsimp only
    | refine Sound.upd rfl ?_ rfl rfl rfl rfl rfl

theorem takeNotice_sound (s : State) (die : Nat) (n : Notice) : Sound s (takeNotice s die n) := by
  unfold takeNotice
  repeat' first
    | with_reducible exact Sound.refl _
    | with_reducible (apply Sound.trans; on_goal 2 => first | apply holdNotice_sound | apply raiseFault_sound)
    | with_reducible apply ite_sound
    | split
    | dsimp only
    | refine Sound.upd rfl ?_ rfl rfl rfl rfl rfl

theorem startNotice_sound (s : State) (p : PortId) : Sound s (startNotice s p) := by
  unfold startNotice
  repeat' first
    | with_reducible exact Sound.refl _
    | with_reducible (apply Sound.trans; on_goal 2 => first | apply floodNotice_sound | apply takeNotice_sound)
    | dsimp only
    | refine Sound.upd rfl ?_ rfl rfl rfl rfl rfl

theorem loseReplay_sound (s : State) (p : PortId) : Sound s (loseReplay s p) := by
  unfold loseReplay
  repeat' first
    | with_reducible exact Sound.refl _
    | with_reducible (apply Sound.trans; on_goal 2 => first | apply raiseErr_sound | apply add64_sound | apply modPort_sound)
    | with_reducible (apply forEach_sound; on_goal 2 => intro _ _)
    | dsimp only
    | refine Sound.upd rfl ?_ rfl rfl rfl rfl rfl

theorem routesAtEnd_sound (s : State) : Sound s (routesAtEnd s) := by
  unfold routesAtEnd
  repeat' first
    | with_reducible exact Sound.refl _
    | with_reducible (apply Sound.trans; on_goal 2 => apply buildRoutes_sound)
    | with_reducible apply ite_sound
    | split
    | dsimp only

theorem declareDown_sound (s : State) (p : PortId) (cause : Option Nat) : Sound s (declareDown s p cause) := by
  unfold declareDown
  repeat' first
    | with_reducible exact Sound.refl _
    | with_reducible (apply Sound.trans; on_goal 2 => first | apply raiseErr_sound | apply routesAtEnd_sound | apply setLink_sound | apply setLstate_sound | apply loseReplay_sound | apply startNotice_sound)
    | with_reducible apply ite_sound
    | split
    | dsimp only
    | refine Sound.upd rfl ?_ rfl rfl rfl rfl rfl

theorem enterRecover_sound (s : State) (p : PortId) (locked : Bool) : Sound s (enterRecover s p locked) := by
  unfold enterRecover
  repeat' first
    | with_reducible exact Sound.refl _
    | with_reducible (apply Sound.trans; on_goal 2 => first | apply add64_sound | apply modPort_sound | apply declareDown_sound | apply setLink_sound | apply setLstate_sound)
    | with_reducible apply ite_sound
    | split
    | dsimp only
    | refine Sound.upd rfl ?_ rfl rfl rfl rfl rfl

theorem takeOutcome_sound (s : State) (p : PortId) (o cause : Nat) : Sound s (takeOutcome s p o cause) := by
  unfold takeOutcome
  repeat' first
    | with_reducible exact Sound.refl _
    | with_reducible (apply Sound.trans; on_goal 2 => first | apply setField_sound | apply raiseErr_sound | apply postEvent_sound | apply routesAtEnd_sound)
    | with_reducible apply ite_sound
    | split
    | dsimp only

theorem decidePort_sound (s : State) (p : PortId) : Sound s (decidePort s p) := by
  unfold decidePort
  repeat' first
    | with_reducible exact Sound.refl _
    | with_reducible (apply Sound.trans; on_goal 2 => first | apply takeOutcome_sound | apply modTrain_sound)
    | with_reducible apply ite_sound
    | split
    | dsimp only
    | refine Sound.upd rfl ?_ rfl rfl rfl rfl rfl

theorem startCredits_sound (s : State) (p : PortId) : Sound s (startCredits s p) := by
  unfold startCredits
  repeat' first
    | with_reducible exact Sound.refl _
    | with_reducible (apply Sound.trans; on_goal 2 => first | apply modPort_sound | apply setReg_sound)
    | with_reducible (apply forEach_sound; on_goal 2 => intro _ _)
    | dsimp only
    | refine Sound.upd rfl ?_ rfl rfl rfl rfl rfl

theorem packetFromTrain_sound (s : State) (p : PortId) : Sound s (packetFromTrain s p) := by
  unfold packetFromTrain
  repeat' first
    | with_reducible exact Sound.refl _
    | with_reducible (apply Sound.trans; on_goal 2 => first | apply modPort_sound | apply setLink_sound | apply setLstate_sound | apply startCredits_sound)
    | dsimp only
    | refine Sound.upd rfl ?_ rfl rfl rfl rfl rfl

theorem packetFromRecover_sound (s : State) (p : PortId) : Sound s (packetFromRecover s p) := by
  unfold packetFromRecover
  repeat' first
    | with_reducible exact Sound.refl _
    | with_reducible (apply Sound.trans; on_goal 2 => first | apply modPort_sound | apply add64_sound | apply setLink_sound | apply setLstate_sound)
    | with_reducible apply ite_sound
    | split
    | dsimp only
    | refine Sound.upd rfl ?_ rfl rfl rfl rfl rfl

theorem leaveTrain_sound (s : State) (p : PortId) (peer : Byte) : Sound s (leaveTrain s p peer) := by
  unfold leaveTrain
  repeat' first
    | with_reducible exact Sound.refl _
    | with_reducible (apply Sound.trans; on_goal 2 => first | apply modTrain_sound | apply setLink_sound | apply raiseErr_sound | apply setLstate_sound | apply startCredits_sound | apply packetFromTrain_sound)
    | with_reducible apply ite_sound
    | split
    | dsimp only
    | refine Sound.upd rfl ?_ rfl rfl rfl rfl rfl

theorem finishExchange_sound (s : State) (p : PortId) : Sound s (finishExchange s p) := by
  unfold finishExchange
  repeat' first
    | with_reducible exact Sound.refl _
    | with_reducible (apply Sound.trans; on_goal 2 => first | apply packetFromRecover_sound | apply routesAtEnd_sound | apply leaveTrain_sound)
    | with_reducible apply ite_sound
    | split
    | dsimp only
    | refine Sound.upd rfl ?_ rfl rfl rfl rfl rfl

theorem failAttempt_sound (s : State) (p : PortId) : Sound s (failAttempt s p) := by
  unfold failAttempt
  repeat' first
    | with_reducible exact Sound.refl _
    | with_reducible (apply Sound.trans; on_goal 2 => first | apply modTrain_sound | apply enterDetect_sound | apply declareDown_sound | apply takeOutcome_sound)
    | with_reducible apply ite_sound
    | split
    | dsimp only
    | refine Sound.upd rfl ?_ rfl rfl rfl rfl rfl

theorem takeHold_sound (s : State) (p : PortId) (t : Nat) : Sound s (takeHold s p t) := by
  unfold takeHold
  repeat' first
    | with_reducible exact Sound.refl _
    | with_reducible (apply Sound.trans; on_goal 2 => first | apply raiseFault_sound | apply add64_sound)
    | with_reducible apply ite_sound
    | split
    | dsimp only
    | refine Sound.upd rfl ?_ rfl rfl rfl rfl rfl

theorem checkAlign_sound (s : State) (p : PortId) (b : List Byte) : Sound s (checkAlign s p b) := by
  unfold checkAlign
  repeat' first
    | with_reducible exact Sound.refl _
    | with_reducible (apply Sound.trans; on_goal 2 => apply raiseFault_sound)
    | with_reducible apply ite_sound
    | split
    | dsimp only

theorem collectAlign_sound (s : State) (p : PortId) (b : List Byte) : Sound s (collectAlign s p b) := by
  unfold collectAlign
  repeat' first
    | with_reducible exact Sound.refl _
    | with_reducible (apply Sound.trans; on_goal 2 => apply raiseErr_sound)
    | with_reducible apply ite_sound
    | split
    | dsimp only
    | refine Sound.upd rfl ?_ rfl rfl rfl rfl rfl

theorem receiveAlign_sound (s : State) (p : PortId) (b : List Byte) : Sound s (receiveAlign s p b) := by
  unfold receiveAlign
  repeat' first
    | with_reducible exact Sound.refl _
    | with_reducible (apply Sound.trans; on_goal 2 => first | apply checkAlign_sound | apply collectAlign_sound)
    | with_reducible apply ite_sound
    | split
    | dsimp only

theorem setAligned_sound (s : State) (origin : Bool) (depth port : Nat) : Sound s (setAligned s origin depth port) := by
  unfold setAligned
  repeat' first
    | with_reducible exact Sound.refl _
    | with_reducible (apply Sound.trans; on_goal 2 => first | apply setReg_sound | apply setFunc_sound)
    | with_reducible apply ite_sound
    | split
    | dsimp only
    | refine Sound.upd rfl ?_ rfl rfl rfl rfl rfl

theorem noAlignYet_sound (s : State) : Sound s (noAlignYet s) := by
  unfold noAlignYet
  repeat' first
    | with_reducible exact Sound.refl _
    | with_reducible (apply Sound.trans; on_goal 2 => apply modPort_sound)
    | with_reducible (apply forEach_sound; on_goal 2 => intro _ _)
    | dsimp only
    | refine Sound.upd rfl ?_ rfl rfl rfl rfl rfl

theorem adoptAlign_sound (s : State) : Sound s (adoptAlign s) := by
  unfold adoptAlign
  repeat' first
    | with_reducible exact Sound.refl _
    | with_reducible (apply Sound.trans; on_goal 2 => first | apply setReg64_sound | apply noAlignYet_sound | apply setAligned_sound)
    | with_reducible apply ite_sound
    | split
    | dsimp only
    | refine Sound.upd rfl ?_ rfl rfl rfl rfl rfl

theorem rootAlign_sound (s : State) : Sound s (rootAlign s) := by
  unfold rootAlign
  repeat' first
    | with_reducible exact Sound.refl _
    | with_reducible (apply Sound.trans; on_goal 2 => first | apply setReg64_sound | apply modPort_sound | apply latchEpoch_sound | apply applyTimeWrites_sound | apply setAligned_sound)
    | with_reducible (apply forEach_sound; on_goal 2 => intro _ _)
    | dsimp only
    | refine Sound.upd rfl ?_ rfl rfl rfl rfl rfl

theorem pairMismatch_sound (s : State) (k pod_ : Nat) : Sound s (pairMismatch s k pod_) := by
  unfold pairMismatch
  repeat' first
    | with_reducible exact Sound.refl _
    | with_reducible (apply Sound.trans; on_goal 2 => first | apply setFlag_sound | apply setField_sound | apply setReg64_sound | apply raiseErr_sound | apply postEvent_sound | apply machineFault_sound)
    | with_reducible apply ite_sound
    | split
    | dsimp only

theorem comparePair_sound (s : State) (k : Nat) : Sound s (comparePair s k) := by
  unfold comparePair
  repeat' first
    | with_reducible exact Sound.refl _
    | with_reducible (apply Sound.trans; on_goal 2 => first | apply modMisc_sound | apply setField_sound | apply pairMismatch_sound | apply setFlag_sound)
    | with_reducible apply ite_sound
    | split
    | dsimp only
    | refine Sound.upd rfl ?_ rfl rfl rfl rfl rfl

theorem receivePairDigest_sound (s : State) (b : List Byte) : Sound s (receivePairDigest s b) := by
  unfold receivePairDigest
  repeat' first
    | with_reducible exact Sound.refl _
    | with_reducible (apply Sound.trans; on_goal 2 => first | apply comparePair_sound | apply modMisc_sound)
    | with_reducible apply ite_sound
    | split
    | dsimp only
    | refine Sound.upd rfl ?_ rfl rfl rfl rfl rfl

theorem receiveControl_sound (s : State) (p : PortId) (k : Packet) : Sound s (receiveControl s p k) := by
  unfold receiveControl
  repeat' first
    | with_reducible exact Sound.refl _
    | with_reducible (apply Sound.trans; on_goal 2 => first | apply receiveAlign_sound | apply freeRx_sound | apply receivePairDigest_sound | apply toKeeper_sound)
    | with_reducible apply ite_sound
    | split
    | dsimp only

theorem unexpected_sound (s : State) (f : FsqId) (circuit : Nat) : Sound s (unexpected s f circuit) := by
  unfold unexpected
  repeat' first
    | with_reducible exact Sound.refl _
    | with_reducible (apply Sound.trans; on_goal 2 => first | apply raiseErr_sound | apply add64_sound)
    | dsimp only

theorem queueLate_sound (s : State) (p : PortId) (k : Packet) : Sound s (queueLate s p k) := by
  unfold queueLate
  repeat' first
    | with_reducible exact Sound.refl _
    | with_reducible apply ite_sound
    | split
    | dsimp only
    | refine Sound.upd rfl ?_ rfl rfl rfl rfl rfl

theorem sendByDst_sound (s : State) (k : Packet) : Sound s (sendByDst s k) := by
  unfold sendByDst
  repeat' first
    | with_reducible exact Sound.refl _
    | with_reducible (apply Sound.trans; on_goal 2 => apply queueLate_sound)
    | split
    | dsimp only
    | refine Sound.upd rfl ?_ rfl rfl rfl rfl rfl

theorem passOn_sound (s : State) (p : PortId) (k : Packet) : Sound s (passOn s p k) := by
  unfold passOn
  repeat' first
    | with_reducible exact Sound.refl _
    | with_reducible (apply Sound.trans; on_goal 2 => apply queueLate_sound)
    | split
    | dsimp only
    | refine Sound.upd rfl ?_ rfl rfl rfl rfl rfl

theorem takeRsq_sound (s : State) (p : PortId) (k : Packet) : Sound s (takeRsq s p k) := by
  unfold takeRsq
  repeat' first
    | with_reducible exact Sound.refl _
    | with_reducible (apply Sound.trans; on_goal 2 => first | apply unexpected_sound | apply sendByDst_sound | apply add64_sound)
    | with_reducible apply ite_sound
    | split
    | dsimp only
    | refine Sound.upd rfl ?_ rfl rfl rfl rfl rfl

theorem receiveRsq_sound (s : State) (p : PortId) (k : Packet) : Sound s (receiveRsq s p k) := by
  unfold receiveRsq
  repeat' first
    | with_reducible exact Sound.refl _
    | with_reducible (apply Sound.trans; on_goal 2 => first | apply takeRsq_sound | apply passOn_sound)
    | with_reducible apply ite_sound
    | split
    | dsimp only

theorem takeFaultNotice_sound (s : State) (p : PortId) (k : Packet) : Sound s (takeFaultNotice s p k) := by
  unfold takeFaultNotice
  repeat' first
    | with_reducible exact Sound.refl _
    | with_reducible (apply Sound.trans; on_goal 2 => first | apply add64_sound | apply modMisc_sound | apply enterFaulted_sound | apply floodNotice_sound)
    | with_reducible apply ite_sound
    | split
    | dsimp only
    | refine Sound.upd rfl ?_ rfl rfl rfl rfl rfl

theorem receiveNotice_sound (s : State) (p : PortId) (k : Packet) : Sound s (receiveNotice s p k) := by
  unfold receiveNotice
  repeat' first
    | with_reducible exact Sound.refl _
    | with_reducible (apply Sound.trans; on_goal 2 => first | apply takeFaultNotice_sound | apply add64_sound | apply takeNotice_sound | apply floodNotice_sound)
    | with_reducible apply ite_sound
    | split
    | dsimp only

theorem numberWarp_sound (s : State) (p : PortId) (k : Packet) : Sound s ((numberWarp s p k).1) := by
  unfold numberWarp
  repeat' first
    | with_reducible exact Sound.refl _
    | with_reducible (apply Sound.trans; on_goal 2 => apply modPort_sound)
    | dsimp only
    | refine Sound.upd rfl ?_ rfl rfl rfl rfl rfl

theorem numberWarp_eq_sound {x} {t : State} {s : State} {p : PortId} {k : Packet} (h : numberWarp s p k = (t, x)) : Sound s t := by
  have e := numberWarp_sound s p k
  rw [h] at e
  exact e

theorem loseNumbers_sound (s : State) (p : PortId) (a b : BitVec 12) : Sound s (loseNumbers s p a b) := by
  unfold loseNumbers
  repeat' first
    | with_reducible exact Sound.refl _
    | with_reducible (apply Sound.trans; on_goal 2 => first | apply modPort_sound | apply add64_sound | apply declareDown_sound)
    | with_reducible apply ite_sound
    | split
    | dsimp only
    | refine Sound.upd rfl ?_ rfl rfl rfl rfl rfl

theorem acceptWarp_sound (s : State) (p : PortId) (k : Packet) : Sound s (acceptWarp s p k) := by
  unfold acceptWarp
  repeat' first
    | with_reducible exact Sound.refl _
    | with_reducible (apply Sound.trans; on_goal 2 => first | apply receiveNotice_sound | apply unexpected_sound | apply receiveRsq_sound | apply modFsq_sound)
    | with_reducible apply ite_sound
    | split
    | dsimp only
    | refine Sound.upd rfl ?_ rfl rfl rfl rfl rfl

theorem receiveWarp_sound (s0 : State) (p : PortId) (k : Packet) : Sound s0 (receiveWarp s0 p k) := by
  unfold receiveWarp
  repeat' first
    | with_reducible exact Sound.refl _
    | with_reducible (apply Sound.trans; on_goal 2 => first | apply modPort_sound | apply acceptWarp_sound | apply loseNumbers_sound | apply add64_sound)
    | with_reducible apply ite_sound
    | split
    | dsimp only
    | refine Sound.upd rfl ?_ rfl rfl rfl rfl rfl

theorem enterRx_sound (s : State) (p : PortId) (k : Packet) : Sound s (enterRx s p k) := by
  unfold enterRx
  repeat' first
    | with_reducible exact Sound.refl _
    | with_reducible (apply Sound.trans; on_goal 2 => first | apply modPort_sound | apply setField_sound)
    | with_reducible apply ite_sound
    | split
    | dsimp only
    | refine Sound.upd rfl ?_ rfl rfl rfl rfl rfl

theorem drainRsp_sound (a0 : Nat) (a1 : PortId) (a2 : State) : Sound a2 (drainRsp a0 a1 a2) := by
  induction a0 generalizing a1 a2 with
  | zero =>
    unfold drainRsp
    repeat' first
      | with_reducible exact Sound.refl _
      | with_reducible assumption
      | with_reducible (apply forEach_sound; on_goal 2 => intro _ _)
      | with_reducible apply ite_sound
      | with_reducible (apply foldl_sound_fst; on_goal 2 => intro _ _)
      | with_reducible (apply foldl_sound; on_goal 2 => intro _ _)
      | split
      | dsimp only
      | intro _
      | refine Sound.upd rfl ?_ rfl rfl rfl rfl rfl
  | succ m ih =>
    unfold drainRsp
    repeat' first
      | with_reducible exact Sound.refl _
      | with_reducible assumption
      | with_reducible (apply Sound.trans; on_goal 2 => apply takeDoneResponse_sound)
      | with_reducible (apply Sound.trans; on_goal 2 => apply freeRx_sound)
      | with_reducible (apply Sound.trans; on_goal 2 => apply deliverWrite_sound)
      | with_reducible (apply Sound.trans; on_goal 2 => apply toKeeper_sound)
      | with_reducible (apply Sound.trans; on_goal 2 => apply ih)
      | with_reducible (apply forEach_sound; on_goal 2 => intro _ _)
      | with_reducible apply ite_sound
      | with_reducible (apply foldl_sound_fst; on_goal 2 => intro _ _)
      | with_reducible (apply foldl_sound; on_goal 2 => intro _ _)
      | split
      | dsimp only
      | intro _
      | refine Sound.upd rfl ?_ rfl rfl rfl rfl rfl

theorem settleRsp_sound (s : State) (p : PortId) : Sound s (settleRsp s p) := by
  unfold settleRsp
  repeat' first
    | with_reducible exact Sound.refl _
    | with_reducible (apply Sound.trans; on_goal 2 => apply drainRsp_sound)
    | dsimp only

theorem sinkByp_sound (s : State) (p : PortId) (k : Packet) : Sound s (sinkByp s p k) := by
  unfold sinkByp
  repeat' first
    | with_reducible exact Sound.refl _
    | with_reducible (apply Sound.trans; on_goal 2 => first | apply receiveControl_sound | apply deliverByp_sound | apply noRoute_sound | apply freeRx_sound)
    | with_reducible apply ite_sound
    | split
    | dsimp only

theorem routeAccepted_sound (s : State) (p : PortId) (k : Packet) : Sound s (routeAccepted s p k) := by
  unfold routeAccepted
  repeat' first
    | with_reducible exact Sound.refl _
    | with_reducible (apply Sound.trans; on_goal 2 => first | apply sinkByp_sound | apply settleRsp_sound | apply queueTx_sound | apply noRoute_sound | apply freeRx_sound)
    | with_reducible apply ite_sound
    | split
    | dsimp only
    | refine Sound.upd rfl ?_ rfl rfl rfl rfl rfl

theorem askReplay_sound (s : State) (p : PortId) : Sound s (askReplay s p) := by
  unfold askReplay
  repeat' first
    | with_reducible exact Sound.refl _
    | with_reducible (apply Sound.trans; on_goal 2 => apply modPort_sound)
    | with_reducible apply ite_sound
    | split
    | dsimp only
    | refine Sound.upd rfl ?_ rfl rfl rfl rfl rfl

theorem receiveTwine_sound (s : State) (p : PortId) (k : Packet) : Sound s (receiveTwine s p k) := by
  unfold receiveTwine
  repeat' first
    | with_reducible exact Sound.refl _
    | with_reducible (apply Sound.trans; on_goal 2 => first | apply unexpected_sound | apply raiseErr_sound | apply modPort_sound | apply routeAccepted_sound | apply enterRx_sound | apply askReplay_sound | apply add64_sound | apply enterRecover_sound)
    | with_reducible apply ite_sound
    | split
    | dsimp only
    | refine Sound.upd rfl ?_ rfl rfl rfl rfl rfl

theorem confirmSent_sound (s : State) (k : Packet) : Sound s (confirmSent s k) := by
  unfold confirmSent
  repeat' first
    | with_reducible exact Sound.refl _
    | with_reducible (apply Sound.trans; on_goal 2 => apply confirmToken_sound)
    | with_reducible apply ite_sound
    | split
    | dsimp only

theorem takeAckT_sound (s : State) (p : PortId) (a : BitVec 12) : Sound s (takeAckT s p a) := by
  unfold takeAckT
  repeat' first
    | with_reducible exact Sound.refl _
    | with_reducible (apply Sound.trans; on_goal 2 => first | apply modPort_sound | apply confirmSent_sound)
    | with_reducible (apply forEach_sound; on_goal 2 => intro _ _)
    | with_reducible apply ite_sound
    | split
    | dsimp only
    | refine Sound.upd rfl ?_ rfl rfl rfl rfl rfl

theorem startReplay_sound (s : State) (p : PortId) : Sound s (startReplay s p) := by
  unfold startReplay
  repeat' first
    | with_reducible exact Sound.refl _
    | with_reducible (apply Sound.trans; on_goal 2 => first | apply modPort_sound | apply add64_sound | apply enterRecover_sound)
    | with_reducible apply ite_sound
    | split
    | dsimp only
    | refine Sound.upd rfl ?_ rfl rfl rfl rfl rfl

theorem takeNakW_sound (s : State) (p : PortId) (n : BitVec 12) : Sound s (takeNakW s p n) := by
  unfold takeNakW
  repeat' first
    | with_reducible exact Sound.refl _
    | with_reducible (apply Sound.trans; on_goal 2 => first | apply declareDown_sound | apply modPort_sound)
    | with_reducible apply ite_sound
    | split
    | dsimp only
    | refine Sound.upd rfl ?_ rfl rfl rfl rfl rfl

theorem takeRack_sound (s : State) (p : PortId) (n : BitVec 12) : Sound s (takeRack s p n) := by
  unfold takeRack
  repeat' first
    | with_reducible exact Sound.refl _
    | with_reducible (apply Sound.trans; on_goal 2 => apply modPort_sound)
    | dsimp only
    | refine Sound.upd rfl ?_ rfl rfl rfl rfl rfl

theorem takeAckW_sound (s : State) (p : PortId) (h : BitVec 12) : Sound s (takeAckW s p h) := by
  unfold takeAckW
  repeat' first
    | with_reducible exact Sound.refl _
    | with_reducible (apply Sound.trans; on_goal 2 => apply modPort_sound)
    | with_reducible apply ite_sound
    | split
    | dsimp only
    | refine Sound.upd rfl ?_ rfl rfl rfl rfl rfl

theorem takeCredit_sound (s : State) (p : PortId) (c : Nat) (v : Nat) : Sound s (takeCredit s p c v) := by
  unfold takeCredit
  repeat' first
    | with_reducible exact Sound.refl _
    | with_reducible (apply Sound.trans; on_goal 2 => first | apply raiseErr_sound | apply setField_sound)
    | with_reducible apply ite_sound
    | split
    | dsimp only

theorem takeAnnounce_sound (s : State) (p : PortId) (b : List Byte) : Sound s (takeAnnounce s p b) := by
  unfold takeAnnounce
  repeat' first
    | with_reducible exact Sound.refl _
    | with_reducible (apply Sound.trans; on_goal 2 => first | apply setReg_sound | apply setField_sound | apply decidePort_sound | apply modTrain_sound)
    | with_reducible apply ite_sound
    | split
    | dsimp only
    | refine Sound.upd rfl ?_ rfl rfl rfl rfl rfl

theorem takeDelayReq_sound (s : State) (p : PortId) (b : List Byte) : Sound s (takeDelayReq s p b) := by
  unfold takeDelayReq
  repeat' first
    | with_reducible exact Sound.refl _
    | with_reducible (apply Sound.trans; on_goal 2 => apply modTrain_sound)
    | dsimp only
    | refine Sound.upd rfl ?_ rfl rfl rfl rfl rfl

theorem takeDelayRsp_sound (s : State) (p : PortId) (b : List Byte) : Sound s (takeDelayRsp s p b) := by
  unfold takeDelayRsp
  repeat' first
    | with_reducible exact Sound.refl _
    | with_reducible (apply Sound.trans; on_goal 2 => first | apply modTrain_sound | apply decidePort_sound | apply setField_sound)
    | with_reducible apply ite_sound
    | split
    | dsimp only
    | refine Sound.upd rfl ?_ rfl rfl rfl rfl rfl

theorem takeReady_sound (s : State) (p : PortId) (b : List Byte) : Sound s (takeReady s p b) := by
  unfold takeReady
  repeat' first
    | with_reducible exact Sound.refl _
    | with_reducible (apply Sound.trans; on_goal 2 => first | apply setField_sound | apply finishExchange_sound | apply modTrain_sound)
    | dsimp only
    | refine Sound.upd rfl ?_ rfl rfl rfl rfl rfl

theorem takeRecover_sound (s : State) (p : PortId) : Sound s (takeRecover s p) := by
  unfold takeRecover
  repeat' first
    | with_reducible exact Sound.refl _
    | with_reducible (apply Sound.trans; on_goal 2 => apply modTrain_sound)
    | with_reducible apply ite_sound
    | split
    | dsimp only
    | refine Sound.upd rfl ?_ rfl rfl rfl rfl rfl

theorem takeTrain_sound (s : State) (p : PortId) (b : List Byte) : Sound s (takeTrain s p b) := by
  unfold takeTrain
  repeat' first
    | with_reducible exact Sound.refl _
    | with_reducible (apply Sound.trans; on_goal 2 => first | apply takeAnnounce_sound | apply takeDelayReq_sound | apply takeDelayRsp_sound | apply takeReady_sound | apply takeRecover_sound)
    | with_reducible apply ite_sound
    | split
    | dsimp only

theorem packetDone_sound (s : State) (p : PortId) (plane : Bool) (b : List Byte) : Sound s (packetDone s p plane b) := by
  unfold packetDone
  repeat' first
    | with_reducible exact Sound.refl _
    | with_reducible (apply Sound.trans; on_goal 2 => first | apply add64_sound | apply receiveTwine_sound | apply receiveWarp_sound)
    | with_reducible apply ite_sound
    | split
    | dsimp only
    | refine Sound.upd rfl ?_ rfl rfl rfl rfl rfl

theorem packetFlit_sound (s : State) (p : PortId) (type : Nat) (plane : Bool) (b : List Byte) : Sound s (packetFlit s p type plane b) := by
  unfold packetFlit
  repeat' first
    | with_reducible exact Sound.refl _
    | with_reducible (apply Sound.trans; on_goal 2 => first | apply modPort_sound | apply packetDone_sound)
    | with_reducible apply ite_sound
    | split
    | dsimp only
    | refine Sound.upd rfl ?_ rfl rfl rfl rfl rfl

theorem idleFlit_sound (s : State) (p : PortId) (b : List Byte) : Sound s (idleFlit s p b) := by
  unfold idleFlit
  repeat' first
    | with_reducible exact Sound.refl _
    | with_reducible (apply Sound.trans; on_goal 2 => first | apply modPort_sound | apply loseNumbers_sound | apply askReplay_sound)
    | with_reducible apply ite_sound
    | split
    | dsimp only
    | refine Sound.upd rfl ?_ rfl rfl rfl rfl rfl

theorem packetControl_sound (s : State) (p : PortId) (c : Nat) : Sound s (packetControl s p c) := by
  unfold packetControl
  repeat' first
    | with_reducible exact Sound.refl _
    | with_reducible (apply Sound.trans; on_goal 2 => first | apply takeHold_sound | apply startReplay_sound | apply takeAckT_sound | apply takeNakW_sound | apply takeRack_sound | apply takeAckW_sound | apply takeCredit_sound)
    | with_reducible apply ite_sound
    | split
    | dsimp only

theorem badFlit_sound (s : State) (p : PortId) : Sound s (badFlit s p) := by
  unfold badFlit
  repeat' first
    | with_reducible exact Sound.refl _
    | with_reducible (apply Sound.trans; on_goal 2 => first | apply add64_sound | apply modPort_sound | apply enterRecover_sound)
    | with_reducible apply ite_sound
    | split
    | dsimp only
    | refine Sound.upd rfl ?_ rfl rfl rfl rfl rfl

theorem takeAckF_sound (s : State) (p : PortId) (a : BitVec 12) : Sound s (takeAckF s p a) := by
  unfold takeAckF
  repeat' first
    | with_reducible exact Sound.refl _
    | with_reducible (apply Sound.trans; on_goal 2 => first | apply modPort_sound | apply finishExchange_sound | apply confirmSent_sound)
    | with_reducible (apply forEach_sound; on_goal 2 => intro _ _)
    | with_reducible apply ite_sound
    | split
    | dsimp only
    | refine Sound.upd rfl ?_ rfl rfl rfl rfl rfl

theorem flitControl_sound (s : State) (p : PortId) (c : Nat) : Sound s (flitControl s p c) := by
  unfold flitControl
  repeat' first
    | with_reducible exact Sound.refl _
    | with_reducible (apply Sound.trans; on_goal 2 => first | apply modPort_sound | apply takeAckF_sound | apply takeCredit_sound)
    | with_reducible apply ite_sound
    | split
    | dsimp only
    | refine Sound.upd rfl ?_ rfl rfl rfl rfl rfl

theorem countedFlit_sound (s : State) (p : PortId) (type : Nat) (b : List Byte) : Sound s (countedFlit s p type b) := by
  unfold countedFlit
  repeat' first
    | with_reducible exact Sound.refl _
    | with_reducible (apply Sound.trans; on_goal 2 => first | apply modPort_sound | apply takeTrain_sound | apply unexpected_sound | apply sinkByp_sound | apply enterRx_sound | apply add64_sound)
    | with_reducible apply ite_sound
    | split
    | dsimp only
    | refine Sound.upd rfl ?_ rfl rfl rfl rfl rfl

theorem idleF_sound (s : State) (p : PortId) (b : List Byte) : Sound s (idleF s p b) := by
  unfold idleF
  repeat' first
    | with_reducible exact Sound.refl _
    | with_reducible (apply Sound.trans; on_goal 2 => apply modPort_sound)
    | with_reducible apply ite_sound
    | split
    | dsimp only
    | refine Sound.upd rfl ?_ rfl rfl rfl rfl rfl

theorem flitModeFlit_sound (s0 : State) (p : PortId) (b : List Byte) : Sound s0 (flitModeFlit s0 p b) := by
  unfold flitModeFlit
  repeat' first
    | with_reducible exact Sound.refl _
    | with_reducible (apply Sound.trans; on_goal 2 => first | apply add64_sound | apply modPort_sound | apply badFlit_sound | apply enterRecover_sound | apply flitControl_sound | apply idleF_sound | apply countedFlit_sound)
    | with_reducible apply ite_sound
    | split
    | dsimp only
    | refine Sound.upd rfl ?_ rfl rfl rfl rfl rfl

theorem packetModeFlit_sound (s : State) (p : PortId) (b : List Byte) : Sound s (packetModeFlit s p b) := by
  unfold packetModeFlit
  repeat' first
    | with_reducible exact Sound.refl _
    | with_reducible (apply Sound.trans; on_goal 2 => first | apply badFlit_sound | apply modPort_sound | apply packetControl_sound | apply idleFlit_sound | apply packetFlit_sound)
    | with_reducible apply ite_sound
    | split
    | dsimp only
    | refine Sound.upd rfl ?_ rfl rfl rfl rfl rfl

theorem delivered_sound (s : State) (k : Packet) (f : State) (h : Sound s f) : Sound s (delivered s k f) :=
  ite_sound (h.trans (settleLocal_sound ..)) (Sound.refl _)

theorem rearmNak_sound (s : State) (p : PortId) : Sound s (rearmNak s p) := by
  unfold rearmNak
  repeat' first
    | with_reducible exact Sound.refl _
    | with_reducible (apply Sound.trans; on_goal 2 => apply modPort_sound)
    | with_reducible apply ite_sound
    | split
    | dsimp only
    | refine Sound.upd rfl ?_ rfl rfl rfl rfl rfl

theorem writePrtCtrl_sound (s : State) (p : PortId) (v : Word) : Sound s (writePrtCtrl s p v) := by
  unfold writePrtCtrl
  repeat' first
    | with_reducible exact Sound.refl _
    | with_reducible (apply Sound.trans; on_goal 2 => first | apply setReg_sound | apply setLstate_sound | apply declareDown_sound | apply enterDetect_sound)
    | with_reducible apply ite_sound
    | split
    | dsimp only

theorem writePortMap_sound (s : State) (hi : Bool) (v : Word) : Sound s (writePortMap s hi v) := by
  unfold writePortMap
  repeat' first
    | with_reducible exact Sound.refl _
    | with_reducible (apply Sound.trans; on_goal 2 => first | apply setFlag_sound | apply setReg_sound | apply setField_sound | apply enterDetect_sound)
    | with_reducible (apply forEach_sound; on_goal 2 => intro _ _)
    | with_reducible apply ite_sound
    | split
    | dsimp only

theorem sendFlit_sound (s : State) (p : PortId) (idle : Bool) (b : List Byte) : Sound s (sendFlit s p idle b) := by
  unfold sendFlit
  repeat' first
    | with_reducible exact Sound.refl _
    | with_reducible (apply Sound.trans; on_goal 2 => first | apply emit_sound | apply add64_sound)
    | with_reducible apply ite_sound
    | split
    | dsimp only
    | refine Sound.upd rfl ?_ rfl rfl rfl rfl rfl

theorem sendFlitMode_sound (s : State) (p : PortId) (type : Nat) (payload : List Byte) : Sound s (sendFlitMode s p type payload) := by
  unfold sendFlitMode
  repeat' first
    | with_reducible exact Sound.refl _
    | with_reducible (apply Sound.trans; on_goal 2 => first | apply modPort_sound | apply sendFlit_sound | apply modTrain_sound)
    | with_reducible apply ite_sound
    | split
    | dsimp only
    | refine Sound.upd rfl ?_ rfl rfl rfl rfl rfl

theorem sendIdleFlitMode_sound (s : State) (p : PortId) : Sound s (sendIdleFlitMode s p) := by
  unfold sendIdleFlitMode
  repeat' first
    | with_reducible exact Sound.refl _
    | with_reducible (apply Sound.trans; on_goal 2 => first | apply sendFlitMode_sound | apply modPort_sound)
    | dsimp only
    | refine Sound.upd rfl ?_ rfl rfl rfl rfl rfl

theorem sendCounted_sound (s : State) (p : PortId) (type : BitVec 3) (payload : List Byte) : Sound s (sendCounted s p type payload) := by
  unfold sendCounted
  repeat' first
    | with_reducible exact Sound.refl _
    | with_reducible (apply Sound.trans; on_goal 2 => first | apply sendFlitMode_sound | apply modPort_sound)
    | dsimp only
    | refine Sound.upd rfl ?_ rfl rfl rfl rfl rfl

theorem sendTrain_sound (s : State) (p : PortId) (kind tEcho tTurn : Nat) : Sound s (sendTrain s p kind tEcho tTurn) := by
  unfold sendTrain
  repeat' first
    | with_reducible exact Sound.refl _
    | with_reducible (apply Sound.trans; on_goal 2 => apply sendCounted_sound)
    | dsimp only

theorem sendReady_sound (s : State) (p : PortId) : Sound s (sendReady s p) := by
  unfold sendReady
  repeat' first
    | with_reducible exact Sound.refl _
    | with_reducible (apply Sound.trans; on_goal 2 => first | apply finishExchange_sound | apply sendTrain_sound | apply modTrain_sound)
    | dsimp only
    | refine Sound.upd rfl ?_ rfl rfl rfl rfl rfl

theorem debit_sound (s : State) (p : PortId) (c units : Nat) : Sound s (debit s p c units) := by
  unfold debit
  repeat' first
    | with_reducible exact Sound.refl _
    | with_reducible (apply Sound.trans; on_goal 2 => apply setField_sound)
    | dsimp only

theorem sendParley_sound (s : State) (p : PortId) (k : Packet) : Sound s (sendParley s p k) := by
  unfold sendParley
  repeat' first
    | with_reducible exact Sound.refl _
    | with_reducible (apply Sound.trans; on_goal 2 => first | apply modPort_sound | apply debit_sound | apply sendCounted_sound | apply add64_sound)
    | dsimp only
    | refine Sound.upd rfl ?_ rfl rfl rfl rfl rfl

theorem sendAnnounce_sound (s : State) (p : PortId) : Sound s (sendAnnounce s p) := by
  unfold sendAnnounce
  repeat' first
    | with_reducible exact Sound.refl _
    | with_reducible (apply Sound.trans; on_goal 2 => first | apply modTrain_sound | apply sendTrain_sound)
    | dsimp only
    | refine Sound.upd rfl ?_ rfl rfl rfl rfl rfl

theorem newFlit_sound (s : State) (p : PortId) : Sound s (newFlit s p) := by
  unfold newFlit
  repeat' first
    | with_reducible exact Sound.refl _
    | with_reducible (apply Sound.trans; on_goal 2 => first | apply sendAnnounce_sound | apply sendTrain_sound | apply modTrain_sound | apply sendReady_sound | apply sendParley_sound | apply sendIdleFlitMode_sound | apply draw_sound | apply sendFlitMode_sound)
    | with_reducible apply ite_sound
    | split
    | dsimp only
    | refine Sound.upd rfl ?_ rfl rfl rfl rfl rfl

theorem sendAgainFlit_sound (s : State) (p : PortId) (type : BitVec 3) (b : List Byte) : Sound s (sendAgainFlit s p type b) := by
  unfold sendAgainFlit
  repeat' first
    | with_reducible exact Sound.refl _
    | with_reducible (apply Sound.trans; on_goal 2 => first | apply sendFlitMode_sound | apply modPort_sound | apply add64_sound | apply modTrain_sound)
    | with_reducible apply ite_sound
    | split
    | dsimp only
    | refine Sound.upd rfl ?_ rfl rfl rfl rfl rfl

theorem flitModeSlot_sound (s : State) (p : PortId) : Sound s (flitModeSlot s p) := by
  unfold flitModeSlot
  repeat' first
    | with_reducible exact Sound.refl _
    | with_reducible (apply Sound.trans; on_goal 2 => first | apply sendIdleFlitMode_sound | apply sendAgainFlit_sound | apply newFlit_sound)
    | with_reducible apply ite_sound
    | split
    | dsimp only
    | refine Sound.upd rfl ?_ rfl rfl rfl rfl rfl

theorem packetModeControl_sound (s : State) (p : PortId) (type : Nat) (plane : Bool) : Sound s ((packetModeControl s p type plane).1) := by
  unfold packetModeControl
  repeat' first
    | with_reducible exact Sound.refl _
    | with_reducible (apply Sound.trans; on_goal 2 => apply modPort_sound)
    | with_reducible apply ite_sound
    | split
    | dsimp only
    | refine Sound.upd rfl ?_ rfl rfl rfl rfl rfl

theorem packetModeControl_eq_sound {x} {t : State} {s : State} {p : PortId} {type : Nat} {plane : Bool} (h : packetModeControl s p type plane = (t, x)) : Sound s t := by
  have e := packetModeControl_sound s p type plane
  rw [h] at e
  exact e

theorem sendIdlePacket_sound (s : State) (p : PortId) : Sound s (sendIdlePacket s p) := by
  unfold sendIdlePacket
  repeat' first
    | with_reducible exact Sound.refl _
    | with_reducible (apply Sound.trans; on_goal 2 => first | apply packetModeControl_sound | (apply packetModeControl_eq_sound; assumption) | apply sendFlit_sound | apply modPort_sound)
    | dsimp only
    | refine Sound.upd rfl ?_ rfl rfl rfl rfl rfl

theorem sendPacketFlit_sound (s : State) (p : PortId) (type : Nat) (plane : Bool) (b : List Byte) : Sound s (sendPacketFlit s p type plane b) := by
  unfold sendPacketFlit
  repeat' first
    | with_reducible exact Sound.refl _
    | with_reducible (apply Sound.trans; on_goal 2 => first | apply packetModeControl_sound | (apply packetModeControl_eq_sound; assumption) | apply modPort_sound | apply sendFlit_sound | apply add64_sound)
    | with_reducible apply ite_sound
    | split
    | dsimp only
    | refine Sound.upd rfl ?_ rfl rfl rfl rfl rfl

theorem sendHeadFlit_sound (s : State) (p : PortId) : Sound s (sendHeadFlit s p) := by
  unfold sendHeadFlit
  repeat' first
    | with_reducible exact Sound.refl _
    | with_reducible (apply Sound.trans; on_goal 2 => first | apply sendPacketFlit_sound | apply modPort_sound | apply sendIdlePacket_sound)
    | split
    | dsimp only
    | refine Sound.upd rfl ?_ rfl rfl rfl rfl rfl

theorem beginPacket_sound (s : State) (p : PortId) (plane : Bool) (n : Nat) (k : Packet) : Sound s (beginPacket s p plane n k) := by
  unfold beginPacket
  repeat' first
    | with_reducible exact Sound.refl _
    | with_reducible (apply Sound.trans; on_goal 2 => first | apply sendHeadFlit_sound | apply modPort_sound)
    | dsimp only
    | refine Sound.upd rfl ?_ rfl rfl rfl rfl rfl

theorem beginWarp_sound (s : State) (p : PortId) (k : Packet) : Sound s (beginWarp s p k) := by
  unfold beginWarp
  repeat' first
    | with_reducible exact Sound.refl _
    | with_reducible (apply Sound.trans; on_goal 2 => first | apply numberWarp_sound | (apply numberWarp_eq_sound; assumption) | apply beginPacket_sound)
    | dsimp only

theorem sendNotice_sound (s : State) (p : PortId) (k : Packet) : Sound s (sendNotice s p k) := by
  unfold sendNotice
  repeat' first
    | with_reducible exact Sound.refl _
    | with_reducible (apply Sound.trans; on_goal 2 => first | apply modPort_sound | apply numberWarp_sound | (apply numberWarp_eq_sound; assumption) | apply add64_sound | apply sendPacketFlit_sound)
    | dsimp only
    | refine Sound.upd rfl ?_ rfl rfl rfl rfl rfl

theorem sendRetry_sound (s : State) (p : PortId) (c : WarpCopy) : Sound s (sendRetry s p c) := by
  unfold sendRetry
  repeat' first
    | with_reducible exact Sound.refl _
    | with_reducible (apply Sound.trans; on_goal 2 => first | apply modPort_sound | apply beginPacket_sound | apply add64_sound)
    | with_reducible apply ite_sound
    | split
    | dsimp only
    | refine Sound.upd rfl ?_ rfl rfl rfl rfl rfl

theorem sendLate_sound (s : State) (p : PortId) (i : TxItem) : Sound s (sendLate s p i) := by
  unfold sendLate
  repeat' first
    | with_reducible exact Sound.refl _
    | with_reducible (apply Sound.trans; on_goal 2 => first | apply add64_sound | apply beginWarp_sound)
    | with_reducible apply ite_sound
    | split
    | dsimp only
    | refine Sound.upd rfl ?_ rfl rfl rfl rfl rfl

theorem sendReplay_sound (s : State) (p : PortId) (k : Packet) : Sound s (sendReplay s p k) := by
  unfold sendReplay
  repeat' first
    | with_reducible exact Sound.refl _
    | with_reducible (apply Sound.trans; on_goal 2 => first | apply beginPacket_sound | apply modPort_sound)
    | dsimp only
    | refine Sound.upd rfl ?_ rfl rfl rfl rfl rfl

theorem sendNewTwine_sound (s : State) (p : PortId) (e : Option PortId × Packet) : Sound s (sendNewTwine s p e) := by
  unfold sendNewTwine
  repeat' first
    | with_reducible exact Sound.refl _
    | with_reducible (apply Sound.trans; on_goal 2 => first | apply modPort_sound | apply debit_sound | apply settleRsp_sound | apply freeRx_sound | apply addSlots_sound | apply beginPacket_sound)
    | with_reducible apply ite_sound
    | split
    | dsimp only
    | refine Sound.upd rfl ?_ rfl rfl rfl rfl rfl

theorem countStall_sound (s : State) (p : PortId) (stalled : Bool) : Sound s (countStall s p stalled) := by
  unfold countStall
  repeat' first
    | with_reducible exact Sound.refl _
    | with_reducible (apply Sound.trans; on_goal 2 => apply add64_sound)
    | with_reducible apply ite_sound
    | split
    | dsimp only

theorem twineSlot_sound (s0 : State) (p : PortId) : Sound s0 (twineSlot s0 p) := by
  unfold twineSlot
  repeat' first
    | with_reducible exact Sound.refl _
    | with_reducible (apply Sound.trans; on_goal 2 => first | apply modPort_sound | apply sendReplay_sound | apply sendIdlePacket_sound | apply sendNewTwine_sound)
    | with_reducible apply ite_sound
    | split
    | dsimp only
    | refine Sound.upd rfl ?_ rfl rfl rfl rfl rfl

theorem freeSlot_sound (s : State) (p : PortId) : Sound s (freeSlot s p) := by
  unfold freeSlot
  repeat' first
    | with_reducible exact Sound.refl _
    | with_reducible (apply Sound.trans; on_goal 2 => first | apply sendIdlePacket_sound | apply sendNotice_sound | apply twineSlot_sound | apply sendRetry_sound | apply sendLate_sound)
    | with_reducible apply ite_sound
    | split
    | dsimp only
    | refine Sound.upd rfl ?_ rfl rfl rfl rfl rfl

theorem packetGoesOn_sound (s : State) (p : PortId) (twine : Bool) : Sound s (packetGoesOn s p twine) := by
  unfold packetGoesOn
  repeat' first
    | with_reducible exact Sound.refl _
    | with_reducible (apply Sound.trans; on_goal 2 => first | apply sendNotice_sound | apply sendHeadFlit_sound)
    | with_reducible apply ite_sound
    | split
    | dsimp only
    | refine Sound.upd rfl ?_ rfl rfl rfl rfl rfl

theorem voidSlot_sound (s : State) (p : PortId) : Sound s (voidSlot s p) := by
  unfold voidSlot
  repeat' first
    | with_reducible exact Sound.refl _
    | with_reducible (apply Sound.trans; on_goal 2 => first | apply sendNotice_sound | apply sendIdlePacket_sound)
    | split
    | dsimp only
    | refine Sound.upd rfl ?_ rfl rfl rfl rfl rfl

theorem packetModeSlot_sound (s0 : State) (p : PortId) : Sound s0 (packetModeSlot s0 p) := by
  unfold packetModeSlot
  repeat' first
    | with_reducible exact Sound.refl _
    | with_reducible (apply Sound.trans; on_goal 2 => first | apply countStall_sound | apply packetGoesOn_sound | apply beginWarp_sound | apply voidSlot_sound | apply freeSlot_sound)
    | with_reducible apply ite_sound
    | split
    | dsimp only
    | refine Sound.upd rfl ?_ rfl rfl rfl rfl rfl

theorem stageLocal_sound (s : State) (f : FsqId) (r : Record) (i : Nat) (late : Bool) (k : Packet) : Sound s (stageLocal s f r i late k) := by
  unfold stageLocal
  repeat' first
    | with_reducible exact Sound.refl _
    | with_reducible (apply Sound.trans; on_goal 2 => first | apply add64_sound | apply modFsq_sound)
    | with_reducible apply ite_sound
    | split
    | dsimp only
    | refine Sound.upd rfl ?_ rfl rfl rfl rfl rfl

theorem handLocal_sound (s : State) (f : FsqId) : Sound s (handLocal s f) := by
  unfold handLocal
  repeat' first
    | with_reducible exact Sound.refl _
    | with_reducible (apply Sound.trans; on_goal 2 => first | apply netRequest_sound | apply modFsq_sound)
    | with_reducible apply ite_sound
    | with_reducible (apply foldl_sound_fst; on_goal 2 => intro _ _)
    | with_reducible (apply foldl_sound; on_goal 2 => intro _ _)
    | split
    | dsimp only
    | refine Sound.upd rfl ?_ rfl rfl rfl rfl rfl

theorem writeLocal_sound (s : State) (f : FsqId) : Sound s (writeLocal s f) := by
  unfold writeLocal
  repeat' first
    | with_reducible exact Sound.refl _
    | with_reducible (apply Sound.trans; on_goal 2 => first | apply add64_sound | apply modFsq_sound)
    | split
    | dsimp only
    | refine Sound.upd rfl ?_ rfl rfl rfl rfl rfl

theorem toOutput_sound (s : State) (f : FsqId) (r : Record) (i n : Nat) (late : Bool) (k : Packet) (o : Nat) : Sound s (toOutput s f r i n late k o) := by
  unfold toOutput
  repeat' first
    | with_reducible exact Sound.refl _
    | with_reducible (apply Sound.trans; on_goal 2 => first | apply stageLocal_sound | apply add64_sound | apply modFsq_sound)
    | with_reducible apply ite_sound
    | split
    | dsimp only
    | refine Sound.upd rfl ?_ rfl rfl rfl rfl rfl

theorem toMask_sound (s : State) (f : FsqId) (r : Record) (i n : Nat) (late : Bool) (k : Packet) : Sound s (toMask s f r i n late k) := by
  unfold toMask
  repeat' first
    | with_reducible exact Sound.refl _
    | with_reducible (apply Sound.trans; on_goal 2 => apply toOutput_sound)
    | with_reducible (apply foldl_sound_fst; on_goal 2 => intro _ _)
    | with_reducible (apply foldl_sound; on_goal 2 => intro _ _)
    | dsimp only
    | refine Sound.upd rfl ?_ rfl rfl rfl rfl rfl

theorem reducePair_sound (s : State) (f : FsqId) (r : Record) (i n : Nat) (late : Bool) (a b : Packet) : Sound s (reducePair s f r i n late a b) := by
  unfold reducePair
  repeat' first
    | with_reducible exact Sound.refl _
    | with_reducible (apply Sound.trans; on_goal 2 => first | apply raiseErr_sound | apply add64_sound | apply toMask_sound)
    | with_reducible apply ite_sound
    | split
    | dsimp only
    | refine Sound.upd rfl ?_ rfl rfl rfl rfl rfl

theorem reduceLate_sound (s : State) (f : FsqId) (r : Record) (i n : Nat) (k : Packet) : Sound s (reduceLate s f r i n k) := by
  unfold reduceLate
  repeat' first
    | with_reducible exact Sound.refl _
    | with_reducible (apply Sound.trans; on_goal 2 => first | apply modFsq_sound | apply reducePair_sound)
    | with_reducible apply ite_sound
    | split
    | dsimp only
    | refine Sound.upd rfl ?_ rfl rfl rfl rfl rfl

theorem departureBytes_sound (s : State) (f : FsqId) (r : Record) (i : Nat) : Sound s ((departureBytes s f r i).1) := by
  unfold departureBytes
  repeat' first
    | with_reducible exact Sound.refl _
    | with_reducible (apply Sound.trans; on_goal 2 => first | apply storeRead_sound | (apply storeRead_eq_sound; assumption))
    | split
    | dsimp only
    | refine Sound.upd rfl ?_ rfl rfl rfl rfl rfl

theorem departureBytes_eq_sound {x} {t : State} {s : State} {f : FsqId} {r : Record} {i : Nat} (h : departureBytes s f r i = (t, x)) : Sound s t := by
  have e := departureBytes_sound s f r i
  rw [h] at e
  exact e

theorem askDepartures_sound (s : State) (f : FsqId) (c n w : Nat) : Sound s (askDepartures s f c n w) := by
  unfold askDepartures
  repeat' first
    | with_reducible exact Sound.refl _
    | with_reducible (apply Sound.trans; on_goal 2 => apply netStream_sound)
    | with_reducible apply ite_sound
    | with_reducible (apply foldl_sound_fst; on_goal 2 => intro _ _)
    | with_reducible (apply foldl_sound; on_goal 2 => intro _ _)
    | split
    | dsimp only
    | refine Sound.upd rfl ?_ rfl rfl rfl rfl rfl

theorem beginReads_sound (s : State) (f : FsqId) (m : Nat) : Sound s (beginReads s f m) := by
  unfold beginReads
  repeat' first
    | with_reducible exact Sound.refl _
    | with_reducible (apply Sound.trans; on_goal 2 => apply askDepartures_sound)
    | with_reducible apply ite_sound
    | split
    | dsimp only

theorem formDeparture_sound (s : State) (f : FsqId) (r : Record) (i : Nat) : Sound s ((formDeparture s f r i).1) := by
  unfold formDeparture
  repeat' first
    | with_reducible exact Sound.refl _
    | with_reducible (apply Sound.trans; on_goal 2 => first | apply departureBytes_sound | (apply departureBytes_eq_sound; assumption) | apply modFsq_sound)
    | with_reducible apply ite_sound
    | split
    | dsimp only
    | refine Sound.upd rfl ?_ rfl rfl rfl rfl rfl

theorem formDeparture_eq_sound {x} {t : State} {s : State} {f : FsqId} {r : Record} {i : Nat} (h : formDeparture s f r i = (t, x)) : Sound s t := by
  have e := formDeparture_sound s f r i
  rw [h] at e
  exact e

theorem missPick_sound (s : State) (f : FsqId) (r : Record) (i : Nat) : Sound s (missPick s f r i) := by
  unfold missPick
  repeat' first
    | with_reducible exact Sound.refl _
    | with_reducible (apply Sound.trans; on_goal 2 => first | apply modFsq_sound | apply sendByDst_sound | apply add64_sound)
    | with_reducible apply ite_sound
    | split
    | dsimp only
    | refine Sound.upd rfl ?_ rfl rfl rfl rfl rfl

theorem inputPick_sound (f : FsqId) (incomplete : BitVec 16) (arrived : List InFlight) (acc : State × Presented) (e : Record × Nat) : Sound acc.1 ((inputPick f incomplete arrived acc e).1) := by
  unfold inputPick
  repeat' first
    | with_reducible exact Sound.refl _
    | with_reducible (apply Sound.trans; on_goal 2 => first | apply add64_sound | apply modFsq_sound | apply formDeparture_sound | (apply formDeparture_eq_sound; assumption) | apply missPick_sound)
    | with_reducible apply ite_sound
    | split
    | dsimp only
    | refine Sound.upd rfl ?_ rfl rfl rfl rfl rfl

theorem inputPick_eq_sound {x} {t : State} {f : FsqId} {incomplete : BitVec 16} {arrived : List InFlight} {acc : State × Presented} {e : Record × Nat} (h : inputPick f incomplete arrived acc e = (t, x)) : Sound acc.1 t := by
  have e := inputPick_sound f incomplete arrived acc e
  rw [h] at e
  exact e

theorem countForward_sound (s : State) (f : FsqId) (r : Record) : Sound s (countForward s f r) := by
  unfold countForward
  repeat' first
    | with_reducible exact Sound.refl _
    | with_reducible (apply Sound.trans; on_goal 2 => apply add64_sound)
    | with_reducible apply ite_sound
    | split
    | dsimp only

theorem presentOne_sound (f : FsqId) (n : Nat) (l : Presented) (s : State) (e : Record × Nat × Packet) : Sound s (presentOne f n l s e) := by
  unfold presentOne
  repeat' first
    | with_reducible exact Sound.refl _
    | with_reducible (apply Sound.trans; on_goal 2 => first | apply toMask_sound | apply countForward_sound | apply reducePair_sound | apply reduceLate_sound)
    | with_reducible apply ite_sound
    | split
    | dsimp only
    | refine Sound.upd rfl ?_ rfl rfl rfl rfl rfl

theorem takeResend_sound (s : State) (f : FsqId) (k : Packet) : Sound s (takeResend s f k) := by
  unfold takeResend
  repeat' first
    | with_reducible exact Sound.refl _
    | with_reducible (apply Sound.trans; on_goal 2 => first | apply stageLocal_sound | apply modFsq_sound | apply unexpected_sound)
    | with_reducible apply ite_sound
    | split
    | dsimp only
    | refine Sound.upd rfl ?_ rfl rfl rfl rfl rfl

theorem passResend_sound (s : State) (p : PortId) (k : Packet) : Sound s (passResend s p k) := by
  unfold passResend
  repeat' first
    | with_reducible exact Sound.refl _
    | with_reducible (apply Sound.trans; on_goal 2 => first | apply passOn_sound | apply modFsq_sound)
    | with_reducible (apply forEach_sound; on_goal 2 => intro _ _)
    | dsimp only
    | refine Sound.upd rfl ?_ rfl rfl rfl rfl rfl

theorem lateArrival_sound (s : State) (f : FsqId) (n : Nat) (a : InFlight) : Sound s (lateArrival s f n a) := by
  unfold lateArrival
  repeat' first
    | with_reducible exact Sound.refl _
    | with_reducible (apply Sound.trans; on_goal 2 => first | apply takeResend_sound | apply passResend_sound | apply modFsq_sound | apply reduceLate_sound | apply toMask_sound | apply countForward_sound | apply unexpected_sound)
    | with_reducible apply ite_sound
    | split
    | dsimp only
    | refine Sound.upd rfl ?_ rfl rfl rfl rfl rfl

theorem warpPick_sound (s : State) (f : FsqId) (n : Nat) (incomplete : BitVec 16) : Sound s (warpPick s f n incomplete) := by
  unfold warpPick
  repeat' first
    | with_reducible exact Sound.refl _
    | with_reducible (apply Sound.trans; on_goal 2 => first | apply modFsq_sound | apply unexpected_sound | apply inputPick_sound | (apply inputPick_eq_sound; assumption) | apply presentOne_sound | apply lateArrival_sound)
    | with_reducible (apply forEach_sound; on_goal 2 => intro _ _)
    | with_reducible apply ite_sound
    | with_reducible (apply foldl_sound_fst; on_goal 2 => intro _ _)
    | with_reducible (apply foldl_sound; on_goal 2 => intro _ _)
    | split
    | dsimp only
    | refine Sound.upd rfl ?_ rfl rfl rfl rfl rfl

theorem skipPicks_sound (s : State) (n : Nat) (p : PortId) : Sound s (skipPicks s n p) := by
  unfold skipPicks
  repeat' first
    | with_reducible exact Sound.refl _
    | with_reducible (apply Sound.trans; on_goal 2 => first | apply numberWarp_sound | (apply numberWarp_eq_sound; assumption))
    | with_reducible (apply foldl_sound_fst; on_goal 2 => intro _ _)
    | with_reducible (apply foldl_sound; on_goal 2 => intro _ _)
    | split
    | dsimp only
    | refine Sound.upd rfl ?_ rfl rfl rfl rfl rfl

theorem portPick_sound (s : State) (n : Nat) (p : PortId) : Sound s (portPick s n p) := by
  unfold portPick
  repeat' first
    | with_reducible exact Sound.refl _
    | with_reducible (apply Sound.trans; on_goal 2 => apply modPort_sound)
    | with_reducible apply ite_sound
    | split
    | dsimp only
    | refine Sound.upd rfl ?_ rfl rfl rfl rfl rfl

theorem fsqPick_sound (s : State) (f : FsqId) (n : Nat) (incomplete : BitVec 16) : Sound s (fsqPick s f n incomplete) := by
  unfold fsqPick
  repeat' first
    | with_reducible exact Sound.refl _
    | with_reducible (apply Sound.trans; on_goal 2 => first | apply beginReads_sound | apply handLocal_sound | apply warpPick_sound)
    | dsimp only

theorem takeSnapshot_sound (s : State) : Sound s (takeSnapshot s) := by
  unfold takeSnapshot
  repeat' first
    | with_reducible exact Sound.refl _
    | with_reducible (apply foldl_sound_fst; on_goal 2 => intro _ _)
    | with_reducible (apply foldl_sound; on_goal 2 => intro _ _)
    | dsimp only
    | refine Sound.upd rfl ?_ rfl rfl rfl rfl rfl

theorem readReg_sound (s : State) (a : Agent) (o : Nat) : Sound s ((readReg s a o).2) := by
  unfold readReg
  repeat' first
    | with_reducible exact Sound.refl _
    | with_reducible apply ite_sound
    | with_reducible (apply foldl_sound_fst; on_goal 2 => intro _ _)
    | with_reducible (apply foldl_sound; on_goal 2 => intro _ _)
    | split
    | dsimp only
    | refine Sound.upd rfl ?_ rfl rfl rfl rfl rfl

theorem readReg_eq_sound {x} {t : State} {s : State} {a : Agent} {o : Nat} (h : readReg s a o = (x, t)) : Sound s t := by
  have e := readReg_sound s a o
  rw [h] at e
  exact e

end Sys2Proof.Machine
end

