-- ==== Sys2Proof/Laws/SoundPod.lean ====
section
/-! SUPPORT. The operations of the Pods are sound. -/

set_option linter.unusedTactic false
set_option linter.unreachableTactic false
set_option linter.unusedVariables false

namespace Sys2Proof.Machine

theorem issueLoad_sound (s : State) (p : PodId) (c : Nat) (f : MemFields) : Sound s (issueLoad s p c f) := by
  unfold issueLoad
  repeat' first
    | with_reducible exact Sound.refl _
    | with_reducible (apply Sound.trans; on_goal 2 => first | apply nextSerial_sound | (apply nextSerial_eq_sound; assumption) | apply storeRead_sound | (apply storeRead_eq_sound; assumption) | apply modPod_sound)
    | with_reducible (apply foldl_sound_fst; on_goal 2 => intro _ _)
    | with_reducible (apply foldl_sound; on_goal 2 => intro _ _)
    | dsimp only
    | refine Sound.upd rfl ?_ rfl rfl rfl rfl rfl

theorem issueStoreOp_sound (s : State) (p : PodId) (c : Nat) (f : MemFields) : Sound s (issueStoreOp s p c f) := by
  unfold issueStoreOp
  repeat' first
    | with_reducible exact Sound.refl _
    | with_reducible (apply Sound.trans; on_goal 2 => first | apply nextSerial_sound | (apply nextSerial_eq_sound; assumption) | apply digestWrite_sound | apply modPod_sound)
    | with_reducible apply ite_sound
    | split
    | dsimp only
    | refine Sound.upd rfl ?_ rfl rfl rfl rfl rfl

theorem issueCopy_sound (s : State) (p : PodId) (f : MemFields) : Sound s (issueCopy s p f) := by
  unfold issueCopy
  repeat' first
    | with_reducible exact Sound.refl _
    | with_reducible (apply Sound.trans; on_goal 2 => first | apply nextSerial_sound | (apply nextSerial_eq_sound; assumption) | apply storeRead_sound | (apply storeRead_eq_sound; assumption) | apply modPod_sound)
    | with_reducible apply ite_sound
    | split
    | dsimp only
    | refine Sound.upd rfl ?_ rfl rfl rfl rfl rfl

theorem issueFetch_sound (s : State) (p : PodId) (f : MemFields) : Sound s (issueFetch s p f) := by
  unfold issueFetch
  repeat' first
    | with_reducible exact Sound.refl _
    | with_reducible (apply Sound.trans; on_goal 2 => first | apply nextSerial_sound | (apply nextSerial_eq_sound; assumption) | apply addToken_sound | (apply addToken_eq_sound; assumption) | apply modPod_sound)
    | dsimp only

theorem issueSource_sound (s : State) (p : PodId) (q : Fin 8) (f : MemFields) (kind : TokenKind) (root dst : Nat) (op : Nat) : Sound s (issueSource s p q f kind root dst op) := by
  unfold issueSource
  repeat' first
    | with_reducible exact Sound.refl _
    | with_reducible (apply Sound.trans; on_goal 2 => first | apply storeRead_sound | (apply storeRead_eq_sound; assumption) | apply addToken_sound | (apply addToken_eq_sound; assumption) | apply modPod_sound)
    | dsimp only
    | refine Sound.upd rfl ?_ rfl rfl rfl rfl rfl

theorem issueQStore_sound (s : State) (p : PodId) (f : MemFields) : Sound s (issueQStore s p f) := by
  unfold issueQStore
  repeat' first
    | with_reducible exact Sound.refl _
    | with_reducible (apply Sound.trans; on_goal 2 => first | apply nextSerial_sound | (apply nextSerial_eq_sound; assumption) | apply issueSource_sound)
    | dsimp only

theorem issueTwine_sound (s : State) (p : PodId) (c : Nat) (f : MemFields) : Sound s (issueTwine s p c f) := by
  unfold issueTwine
  repeat' first
    | with_reducible exact Sound.refl _
    | with_reducible (apply Sound.trans; on_goal 2 => first | apply nextSerial_sound | (apply nextSerial_eq_sound; assumption) | apply modPod_sound | apply issueSource_sound)
    | with_reducible apply ite_sound
    | split
    | dsimp only
    | refine Sound.upd rfl ?_ rfl rfl rfl rfl rfl

theorem sendHead_sound (s : State) (p : PodId) : Sound s (sendHead s p) := by
  unfold sendHead
  repeat' first
    | with_reducible exact Sound.refl _
    | with_reducible (apply Sound.trans; on_goal 2 => first | apply sendTwine_sound | apply modPod_sound)
    | with_reducible apply ite_sound
    | split
    | dsimp only
    | refine Sound.upd rfl ?_ rfl rfl rfl rfl rfl

theorem sendTwines_sound (s : State) (p : PodId) : Sound s (sendTwines s p) := by
  unfold sendTwines
  repeat' first
    | with_reducible exact Sound.refl _
    | with_reducible (apply Sound.trans; on_goal 2 => apply sendHead_sound)
    | with_reducible (apply foldl_sound_fst; on_goal 2 => intro _ _)
    | with_reducible (apply foldl_sound; on_goal 2 => intro _ _)
    | dsimp only

theorem issueGather_sound (s : State) (p : PodId) (f : MemFields) : Sound s (issueGather s p f) := by
  unfold issueGather
  repeat' first
    | with_reducible exact Sound.refl _
    | with_reducible (apply Sound.trans; on_goal 2 => first | apply nextSerial_sound | (apply nextSerial_eq_sound; assumption) | apply addToken_sound | (apply addToken_eq_sound; assumption) | apply modPod_sound)
    | with_reducible (apply foldl_sound_fst; on_goal 2 => intro _ _)
    | with_reducible (apply foldl_sound; on_goal 2 => intro _ _)
    | dsimp only
    | refine Sound.upd rfl ?_ rfl rfl rfl rfl rfl

theorem issueStatus_sound (s : State) (p : PodId) (f : MemFields) (v : Nat) : Sound s (issueStatus s p f v) := by
  unfold issueStatus
  repeat' first
    | with_reducible exact Sound.refl _
    | with_reducible (apply Sound.trans; on_goal 2 => first | apply nextSerial_sound | (apply nextSerial_eq_sound; assumption) | apply modPod_sound)
    | dsimp only

theorem issueSel_sound (s : State) (p : PodId) (f : MemFields) (v : Option Nat) : Sound s (issueSel s p f v) := by
  unfold issueSel
  repeat' first
    | with_reducible exact Sound.refl _
    | with_reducible (apply Sound.trans; on_goal 2 => first | apply modCore_sound | apply issueStatus_sound)
    | split
    | dsimp only
    | refine Sound.upd rfl ?_ rfl rfl rfl rfl rfl

theorem issueWait_sound (s : State) (p : PodId) (f : MemFields) : Sound s (issueWait s p f) := by
  unfold issueWait
  repeat' first
    | with_reducible exact Sound.refl _
    | with_reducible (apply Sound.trans; on_goal 2 => apply issueStatus_sound)
    | dsimp only

theorem issuePop_sound (s : State) (p : PodId) (f : MemFields) : Sound s (issuePop s p f) := by
  unfold issuePop
  repeat' first
    | with_reducible exact Sound.refl _
    | with_reducible (apply Sound.trans; on_goal 2 => first | apply nextSerial_sound | (apply nextSerial_eq_sound; assumption) | apply modPod_sound)
    | split
    | dsimp only
    | refine Sound.upd rfl ?_ rfl rfl rfl rfl rfl

theorem issueMem_sound (s : State) (p : PodId) (c : Nat) (f : MemFields) : Sound s (issueMem s p c f) := by
  unfold issueMem
  repeat' first
    | with_reducible exact Sound.refl _
    | with_reducible (apply Sound.trans; on_goal 2 => first | apply issueLoad_sound | apply issueStoreOp_sound | apply issueCopy_sound | apply issueFetch_sound | apply issueQStore_sound | apply issueWait_sound | apply issuePop_sound | apply issueSel_sound | apply issueGather_sound | apply issueTwine_sound)
    | with_reducible apply ite_sound
    | split
    | dsimp only

theorem issueNload_sound (s : State) (p : PodId) (f : TeFields) : Sound s (issueNload s p f) := by
  unfold issueNload
  repeat' first
    | with_reducible exact Sound.refl _
    | with_reducible (apply Sound.trans; on_goal 2 => first | apply nextSerial_sound | (apply nextSerial_eq_sound; assumption) | apply storeRead_sound | (apply storeRead_eq_sound; assumption) | apply memWrite_sound | apply modPod_sound)
    | dsimp only
    | refine Sound.upd rfl ?_ rfl rfl rfl rfl rfl

theorem issueFload_sound (s : State) (p : PodId) (f : TeFields) : Sound s (issueFload s p f) := by
  unfold issueFload
  repeat' first
    | with_reducible exact Sound.refl _
    | with_reducible (apply Sound.trans; on_goal 2 => first | apply nextSerial_sound | (apply nextSerial_eq_sound; assumption) | apply storeRead_sound | (apply storeRead_eq_sound; assumption) | apply modPod_sound)
    | dsimp only
    | refine Sound.upd rfl ?_ rfl rfl rfl rfl rfl

theorem issueWin_sound (s : State) (p : PodId) (f : TeFields) : Sound s (issueWin s p f) := by
  unfold issueWin
  repeat' first
    | with_reducible exact Sound.refl _
    | with_reducible (apply Sound.trans; on_goal 2 => first | apply addSat_sound | apply nextSerial_sound | (apply nextSerial_eq_sound; assumption) | apply digestWrite_sound | apply add64_sound | apply setField_sound | apply modPod_sound | apply raisePodErr_sound)
    | split
    | dsimp only
    | refine Sound.upd rfl ?_ rfl rfl rfl rfl rfl

theorem issueTe_sound (s : State) (p : PodId) (c : Nat) (f : TeFields) : Sound s (issueTe s p c f) := by
  unfold issueTe
  repeat' first
    | with_reducible exact Sound.refl _
    | with_reducible (apply Sound.trans; on_goal 2 => first | apply issueNload_sound | apply issueFload_sound | apply issueWin_sound)
    | with_reducible apply ite_sound
    | split
    | dsimp only

theorem settleWindows_sound (s : State) (p : PodId) : Sound s (settleWindows s p) := by
  unfold settleWindows
  repeat' first
    | with_reducible exact Sound.refl _
    | with_reducible (apply Sound.trans; on_goal 2 => first | apply setPod_sound | apply orReg_sound | apply add64_sound)
    | with_reducible (apply forEach_sound; on_goal 2 => intro _ _)
    | dsimp only
    | refine Sound.upd rfl ?_ rfl rfl rfl rfl rfl

theorem countCompares_sound (s : State) (p : PodId) : Sound s (countCompares s p) := by
  unfold countCompares
  repeat' first
    | with_reducible exact Sound.refl _
    | with_reducible (apply Sound.trans; on_goal 2 => first | apply add64_sound | apply setPod_sound)
    | with_reducible apply ite_sound
    | split
    | dsimp only
    | refine Sound.upd rfl ?_ rfl rfl rfl rfl rfl

theorem settleTeCfg_sound (s : State) (p : PodId) : Sound s (settleTeCfg s p) := by
  unfold settleTeCfg
  repeat' first
    | with_reducible exact Sound.refl _
    | with_reducible (apply Sound.trans; on_goal 2 => first | apply setReg_sound | apply setPod_sound)
    | with_reducible apply ite_sound
    | split
    | dsimp only
    | refine Sound.upd rfl ?_ rfl rfl rfl rfl rfl

theorem writeTeCfg_sound (s : State) (p : PodId) (v : Word) : Sound s (writeTeCfg s p v) := by
  unfold writeTeCfg
  repeat' first
    | with_reducible exact Sound.refl _
    | with_reducible (apply Sound.trans; on_goal 2 => first | apply settleTeCfg_sound | apply modPod_sound)
    | dsimp only
    | refine Sound.upd rfl ?_ rfl rfl rfl rfl rfl

theorem writeEgress_sound (s : State) (p : PodId) (v : Word) : Sound s (writeEgress s p v) := by
  unfold writeEgress
  repeat' first
    | with_reducible exact Sound.refl _
    | with_reducible (apply Sound.trans; on_goal 2 => apply modPod_sound)
    | dsimp only
    | refine Sound.upd rfl ?_ rfl rfl rfl rfl rfl

theorem writePodReg_sound (s : State) (p : PodId) (own : Bool) (o : Nat) (v : Word) : Sound s (writePodReg s p own o v) := by
  unfold writePodReg
  repeat' first
    | with_reducible exact Sound.refl _
    | with_reducible (apply Sound.trans; on_goal 2 => first | apply setField_sound | apply modReg_sound | apply writeTeCfg_sound | apply writeEgress_sound)
    | with_reducible apply ite_sound
    | split
    | dsimp only

theorem setNext_sound (s : State) (p : PodId) (n : Nat) : Sound s (setNext s p n) := by
  unfold setNext
  repeat' first
    | with_reducible exact Sound.refl _
    | with_reducible (apply Sound.trans; on_goal 2 => first | apply modCore_sound | apply setPc_sound)
    | dsimp only
    | refine Sound.upd rfl ?_ rfl rfl rfl rfl rfl

theorem takeBranch_sound (s : State) (p : PodId) (n : Nat) : Sound s (takeBranch s p n) := by
  unfold takeBranch
  repeat' first
    | with_reducible exact Sound.refl _
    | with_reducible (apply Sound.trans; on_goal 2 => first | apply modCore_sound | apply setNext_sound)
    | dsimp only
    | refine Sound.upd rfl ?_ rfl rfl rfl rfl rfl

theorem jumpTo_sound (s : State) (p : PodId) (n : Nat) : Sound s (jumpTo s p n) := by
  unfold jumpTo
  repeat' first
    | with_reducible exact Sound.refl _
    | with_reducible (apply Sound.trans; on_goal 2 => first | apply takeBranch_sound | apply modPod_sound)
    | dsimp only
    | refine Sound.upd rfl ?_ rfl rfl rfl rfl rfl

theorem advancePc_sound (s : State) (p : PodId) (b : Nat) : Sound s (advancePc s p b) := by
  unfold advancePc
  repeat' first
    | with_reducible exact Sound.refl _
    | with_reducible (apply Sound.trans; on_goal 2 => first | apply setNext_sound | apply setPod_sound)
    | dsimp only
    | refine Sound.upd rfl ?_ rfl rfl rfl rfl rfl

theorem ctlResult_sound (s : State) (p : PodId) (f : CtlFields) (v : Nat) (n : Nat) : Sound s (ctlResult s p f v n) := by
  unfold ctlResult
  repeat' first
    | with_reducible exact Sound.refl _
    | with_reducible (apply Sound.trans; on_goal 2 => first | apply nextSerial_sound | (apply nextSerial_eq_sound; assumption) | apply modPod_sound)
    | dsimp only

theorem issueLoop_sound (s : State) (p : PodId) (f : CtlFields) : Sound s (issueLoop s p f) := by
  unfold issueLoop
  repeat' first
    | with_reducible exact Sound.refl _
    | with_reducible (apply Sound.trans; on_goal 2 => first | apply takeBranch_sound | apply setPod_sound)
    | with_reducible apply ite_sound
    | split
    | dsimp only
    | refine Sound.upd rfl ?_ rfl rfl rfl rfl rfl

theorem issueFend_sound (s : State) (p : PodId) (f : CtlFields) : Sound s (issueFend s p f) := by
  unfold issueFend
  repeat' first
    | with_reducible exact Sound.refl _
    | with_reducible (apply Sound.trans; on_goal 2 => first | apply setFlag_sound | apply setNext_sound | apply modPod_sound)
    | dsimp only
    | refine Sound.upd rfl ?_ rfl rfl rfl rfl rfl

theorem issueStep_sound (s : State) (p : PodId) : Sound s (issueStep s p) := by
  unfold issueStep
  repeat' first
    | with_reducible exact Sound.refl _
    | with_reducible (apply Sound.trans; on_goal 2 => apply setReg64_sound)
    | dsimp only

theorem ctlEffect_sound (s : State) (p : PodId) (c : Nat) (f : CtlFields) : Sound s (ctlEffect s p c f) := by
  unfold ctlEffect
  repeat' first
    | with_reducible exact Sound.refl _
    | with_reducible (apply Sound.trans; on_goal 2 => first | apply ctlResult_sound | apply jumpTo_sound | apply takeBranch_sound | apply modPod_sound | apply issueLoop_sound | apply modCore_sound | apply issueFend_sound | apply issueStep_sound | apply writePodReg_sound | apply readReg_sound | (apply readReg_eq_sound; assumption))
    | with_reducible apply ite_sound
    | split
    | dsimp only
    | refine Sound.upd rfl ?_ rfl rfl rfl rfl rfl

theorem issueCtl_sound (s : State) (p : PodId) (c : Nat) (f : CtlFields) : Sound s ((issueCtl s p c f).1) := by
  unfold issueCtl
  repeat' first
    | with_reducible exact Sound.refl _
    | with_reducible (apply Sound.trans; on_goal 2 => apply ctlEffect_sound)
    | dsimp only

theorem issueCtl_eq_sound {x} {t : State} {s : State} {p : PodId} {c : Nat} {f : CtlFields} (h : issueCtl s p c f = (t, x)) : Sound s t := by
  have e := issueCtl_sound s p c f
  rw [h] at e
  exact e

theorem checkPieces_sound (s : State) (p : PodId) (l : List (Nat × Nat)) : Sound s (checkPieces s p l) := by
  unfold checkPieces
  repeat' first
    | with_reducible exact Sound.refl _
    | with_reducible (apply Sound.trans; on_goal 2 => first | apply storeRead_sound | (apply storeRead_eq_sound; assumption))
    | with_reducible (apply forEach_sound; on_goal 2 => intro _ _)
    | dsimp only

theorem finishMma_sound (p : PodId) (s : State) (j : MmaJob) : Sound s (finishMma p s j) := by
  unfold finishMma
  repeat' first
    | with_reducible exact Sound.refl _
    | with_reducible (apply Sound.trans; on_goal 2 => apply modPod_sound)
    | with_reducible apply ite_sound
    | split
    | dsimp only
    | refine Sound.upd rfl ?_ rfl rfl rfl rfl rfl

theorem issueMma_sound (s : State) (p : PodId) (f : MeFields) : Sound s (issueMma s p f) := by
  unfold issueMma
  repeat' first
    | with_reducible exact Sound.refl _
    | with_reducible (apply Sound.trans; on_goal 2 => first | apply nextSerial_sound | (apply nextSerial_eq_sound; assumption) | apply checkPieces_sound | apply modPod_sound)
    | with_reducible apply ite_sound
    | with_reducible (apply foldl_sound_fst; on_goal 2 => intro _ _)
    | with_reducible (apply foldl_sound; on_goal 2 => intro _ _)
    | split
    | dsimp only
    | refine Sound.upd rfl ?_ rfl rfl rfl rfl rfl

theorem issueDrain_sound (s : State) (p : PodId) (f : MeFields) : Sound s (issueDrain s p f) := by
  unfold issueDrain
  repeat' first
    | with_reducible exact Sound.refl _
    | with_reducible (apply Sound.trans; on_goal 2 => first | apply nextSerial_sound | (apply nextSerial_eq_sound; assumption) | apply digestWrite_sound | apply modPod_sound | apply raisePodErr_sound)
    | with_reducible (apply forEach_sound; on_goal 2 => intro _ _)
    | with_reducible apply ite_sound
    | split
    | dsimp only
    | refine Sound.upd rfl ?_ rfl rfl rfl rfl rfl

theorem issueBload_sound (s : State) (p : PodId) (f : MeFields) : Sound s (issueBload s p f) := by
  unfold issueBload
  repeat' first
    | with_reducible exact Sound.refl _
    | with_reducible (apply Sound.trans; on_goal 2 => first | apply nextSerial_sound | (apply nextSerial_eq_sound; assumption) | apply checkPieces_sound | apply modPod_sound)
    | dsimp only
    | refine Sound.upd rfl ?_ rfl rfl rfl rfl rfl

theorem setVuFlags_sound (s : State) (p : PodId) (f : VFlags) : Sound s (setVuFlags s p f) := by
  unfold setVuFlags
  repeat' first
    | with_reducible exact Sound.refl _
    | with_reducible (apply Sound.trans; on_goal 2 => apply orReg_sound)
    | dsimp only

theorem consumeDraw_sound (s : State) (p : PodId) (c : Nat) (f : VuFields) : Sound s (consumeDraw s p c f) := by
  unfold consumeDraw
  repeat' first
    | with_reducible exact Sound.refl _
    | with_reducible (apply Sound.trans; on_goal 2 => first | apply setReg64_sound | apply draw_sound)
    | with_reducible apply ite_sound
    | split
    | dsimp only

theorem setIntervals_sound (s : State) (p : PodId) (c : Nat) (f : VuFields) : Sound s (setIntervals s p c f) := by
  unfold setIntervals
  repeat' first
    | with_reducible exact Sound.refl _
    | with_reducible (apply Sound.trans; on_goal 2 => apply modCore_sound)
    | with_reducible apply ite_sound
    | split
    | dsimp only
    | refine Sound.upd rfl ?_ rfl rfl rfl rfl rfl

theorem issueReduction_sound (s : State) (p : PodId) (c : Nat) (f : VuFields) : Sound s (issueReduction s p c f) := by
  unfold issueReduction
  repeat' first
    | with_reducible exact Sound.refl _
    | with_reducible (apply Sound.trans; on_goal 2 => first | apply nextSerial_sound | (apply nextSerial_eq_sound; assumption) | apply modPod_sound | apply setVuFlags_sound)
    | with_reducible apply ite_sound
    | split
    | dsimp only
    | refine Sound.upd rfl ?_ rfl rfl rfl rfl rfl

theorem issueVu_sound (s : State) (p : PodId) (c : Nat) (f : VuFields) : Sound s (issueVu s p c f) := by
  unfold issueVu
  repeat' first
    | with_reducible exact Sound.refl _
    | with_reducible (apply Sound.trans; on_goal 2 => first | apply add64_sound | apply issueReduction_sound | apply nextSerial_sound | (apply nextSerial_eq_sound; assumption) | apply modPod_sound | apply setIntervals_sound | apply consumeDraw_sound | apply setVuFlags_sound)
    | with_reducible apply ite_sound
    | with_reducible (apply foldl_sound_fst; on_goal 2 => intro _ _)
    | with_reducible (apply foldl_sound; on_goal 2 => intro _ _)
    | split
    | dsimp only

theorem withPending_sound (s : State) (p : PodId) : Sound s (withPending s p) := by
  unfold withPending
  repeat' first
    | with_reducible exact Sound.refl _
    | with_reducible (apply Sound.trans; on_goal 2 => apply modPod_sound)
    | with_reducible (apply foldl_sound_fst; on_goal 2 => intro _ _)
    | with_reducible (apply foldl_sound; on_goal 2 => intro _ _)
    | dsimp only

theorem trapPod_sound (s0 : State) (p : PodId) (slot : Nat) (causes : List Nat) : Sound s0 (trapPod s0 p slot causes) := by
  unfold trapPod
  repeat' first
    | with_reducible exact Sound.refl _
    | with_reducible (apply Sound.trans; on_goal 2 => first | apply draw_sound | apply setFlag_sound | apply modCore_sound | apply setReg_sound | apply raisePodErr_sound)
    | dsimp only
    | refine Sound.upd rfl ?_ rfl rfl rfl rfl rfl

theorem haltPod_sound (s : State) (p : PodId) (cause num : Nat) : Sound s (haltPod s p cause num) := by
  unfold haltPod
  repeat' first
    | with_reducible exact Sound.refl _
    | with_reducible (apply Sound.trans; on_goal 2 => first | apply setFlag_sound | apply modCore_sound | apply causeArises_sound)
    | with_reducible apply ite_sound
    | split
    | dsimp only
    | refine Sound.upd rfl ?_ rfl rfl rfl rfl rfl

theorem haltAt_sound (s : State) (p : PodId) (cause num : Nat) : Sound s (haltAt s p cause num) := by
  unfold haltAt
  repeat' first
    | with_reducible exact Sound.refl _
    | with_reducible (apply Sound.trans; on_goal 2 => apply haltPod_sound)
    | with_reducible (apply forEach_sound; on_goal 2 => intro _ _)
    | with_reducible apply ite_sound
    | split
    | dsimp only

theorem markVClass_sound (s : State) (p : PodId) (o : SlotOp) : Sound s (markVClass s p o) := by
  unfold markVClass
  repeat' first
    | with_reducible exact Sound.refl _
    | with_reducible (apply Sound.trans; on_goal 2 => apply orReg_sound)
    | split
    | dsimp only
    | refine Sound.upd rfl ?_ rfl rfl rfl rfl rfl

theorem countVu_sound (s : State) : Sound s (countVu s) := by
  unfold countVu
  repeat' first
    | with_reducible exact Sound.refl _
    | dsimp only
    | refine Sound.upd rfl ?_ rfl rfl rfl rfl rfl

theorem issueOp_sound (s0 : State) (p : PodId) (o : SlotOp) : Sound s0 ((issueOp s0 p o).1) := by
  unfold issueOp
  repeat' first
    | with_reducible exact Sound.refl _
    | with_reducible (apply Sound.trans; on_goal 2 => first | apply markVClass_sound | apply issueMma_sound | apply issueDrain_sound | apply issueBload_sound | apply issueVu_sound | apply countVu_sound | apply issueTe_sound | apply issueMem_sound | apply issueCtl_sound | (apply issueCtl_eq_sound; assumption))
    | with_reducible apply ite_sound
    | split
    | dsimp only
    | refine Sound.upd rfl ?_ rfl rfl rfl rfl rfl

theorem issueOp_eq_sound {x} {t : State} {s0 : State} {p : PodId} {o : SlotOp} (h : issueOp s0 p o = (t, x)) : Sound s0 t := by
  have e := issueOp_sound s0 p o
  rw [h] at e
  exact e

theorem releaseTimed_sound (sel : StoreRange → Bool) (s : State) (p : PodId) : Sound s (releaseTimed sel s p) := by
  unfold releaseTimed
  repeat' first
    | with_reducible exact Sound.refl _
    | with_reducible (apply Sound.trans; on_goal 2 => first | apply writeResults_sound | apply setPod_sound | apply writeRange_sound)
    | with_reducible (apply forEach_sound; on_goal 2 => intro _ _)
    | dsimp only
    | refine Sound.upd rfl ?_ rfl rfl rfl rfl rfl

theorem settleTree_sound (s : State) (p : PodId) : Sound s (settleTree s p) := by
  unfold settleTree
  repeat' first
    | with_reducible exact Sound.refl _
    | with_reducible (apply Sound.trans; on_goal 2 => first | apply settleTeCfg_sound | apply setPod_sound | apply orReg_sound | apply add64_sound)
    | with_reducible (apply forEach_sound; on_goal 2 => intro _ _)
    | dsimp only
    | refine Sound.upd rfl ?_ rfl rfl rfl rfl rfl

theorem settleEngines_sound (s : State) (p : PodId) : Sound s (settleEngines s p) := by
  unfold settleEngines
  repeat' first
    | with_reducible exact Sound.refl _
    | with_reducible (apply Sound.trans; on_goal 2 => first | apply setPod_sound | apply finishMma_sound | apply add64_sound | apply modPod_sound)
    | with_reducible (apply forEach_sound; on_goal 2 => intro _ _)
    | dsimp only
    | refine Sound.upd rfl ?_ rfl rfl rfl rfl rfl

theorem settleFor_sound (s : State) (p : PodId) (o : SlotOp) : Sound s (settleFor s p o) := by
  unfold settleFor
  repeat' first
    | with_reducible exact Sound.refl _
    | with_reducible (apply Sound.trans; on_goal 2 => first | apply modPod_sound | apply releaseTimed_sound | apply settleEngines_sound | apply settleTree_sound)
    | with_reducible apply ite_sound
    | split
    | dsimp only

theorem runOp_sound (s : State) (p : PodId) (o : SlotOp) : Sound s (runOp s p o) := by
  unfold runOp
  repeat' first
    | with_reducible exact Sound.refl _
    | with_reducible (apply Sound.trans; on_goal 2 => first | apply withPending_sound | apply trapPod_sound | apply settleFor_sound | apply issueOp_sound | (apply issueOp_eq_sound; assumption))
    | with_reducible apply ite_sound
    | split
    | dsimp only
    | refine Sound.upd rfl ?_ rfl rfl rfl rfl rfl

theorem roundEngine_sound (s : State) (p : PodId) (m : Nat) : Sound s (roundEngine s p m) := by
  unfold roundEngine
  repeat' first
    | with_reducible exact Sound.refl _
    | with_reducible (apply Sound.trans; on_goal 2 => first | apply add64_sound | apply setPod_sound)
    | with_reducible apply ite_sound
    | with_reducible (apply foldl_sound_fst; on_goal 2 => intro _ _)
    | with_reducible (apply foldl_sound; on_goal 2 => intro _ _)
    | split
    | dsimp only
    | refine Sound.upd rfl ?_ rfl rfl rfl rfl rfl

theorem refreshNodes_sound (p : PodId) (lo hi : Nat) (s : State) (j : ReadJob) : Sound s (refreshNodes p lo hi s j) := by
  unfold refreshNodes
  repeat' first
    | with_reducible exact Sound.refl _
    | with_reducible (apply Sound.trans; on_goal 2 => apply memWrite_sound)
    | with_reducible apply ite_sound
    | split
    | dsimp only
    | refine Sound.upd rfl ?_ rfl rfl rfl rfl rfl

theorem digestLine_sound (p : PodId) (l : LineStream) (s : State) (lo hi : Nat) : Sound s (digestLine p l s lo hi) := by
  unfold digestLine
  repeat' first
    | with_reducible exact Sound.refl _
    | with_reducible (apply Sound.trans; on_goal 2 => apply digestWrite_sound)
    | with_reducible (apply forEach_sound; on_goal 2 => intro _ _)
    | dsimp only

theorem takeLine_sound (p : PodId) (n : Nat) (l : LineStream) (s : State) (a : Nat) : Sound s (takeLine p n l s a) := by
  unfold takeLine
  repeat' first
    | with_reducible exact Sound.refl _
    | with_reducible (apply Sound.trans; on_goal 2 => first | apply digestLine_sound | apply writeResults_sound | apply setPod_sound | apply modMisc_sound | apply refreshNodes_sound)
    | with_reducible (apply forEach_sound; on_goal 2 => intro _ _)
    | with_reducible apply ite_sound
    | with_reducible (apply foldl_sound_fst; on_goal 2 => intro _ _)
    | with_reducible (apply foldl_sound; on_goal 2 => intro _ _)
    | split
    | dsimp only
    | refine Sound.upd rfl ?_ rfl rfl rfl rfl rfl

theorem finishMmas_sound (s : State) (p : PodId) : Sound s (finishMmas s p) := by
  unfold finishMmas
  repeat' first
    | with_reducible exact Sound.refl _
    | with_reducible (apply Sound.trans; on_goal 2 => first | apply setPod_sound | apply finishMma_sound)
    | with_reducible (apply forEach_sound; on_goal 2 => intro _ _)
    | with_reducible apply ite_sound
    | split
    | dsimp only
    | refine Sound.upd rfl ?_ rfl rfl rfl rfl rfl

theorem resumeTwine_sound (s : State) (p : PodId) : Sound s (resumeTwine s p) := by
  unfold resumeTwine
  repeat' first
    | with_reducible exact Sound.refl _
    | with_reducible (apply Sound.trans; on_goal 2 => first | apply settleLocal_sound | apply serveRequest_sound | apply settleRsp_sound | apply deliverWrite_sound)
    | with_reducible (apply forEach_sound; on_goal 2 => intro _ _)
    | with_reducible apply ite_sound
    | split
    | dsimp only
    | refine Sound.upd rfl ?_ rfl rfl rfl rfl rfl

theorem formProducts_sound (s : State) (p : PodId) (late : List Nat) : Sound s (formProducts s p late) := by
  unfold formProducts
  repeat' first
    | with_reducible exact Sound.refl _
    | with_reducible (apply Sound.trans; on_goal 2 => first | apply add64_sound | apply setPod_sound)
    | with_reducible apply ite_sound
    | split
    | dsimp only
    | refine Sound.upd rfl ?_ rfl rfl rfl rfl rfl

theorem countBusy_sound (s : State) (p : PodId) (n : Nat) : Sound s (countBusy s p n) := by
  unfold countBusy
  repeat' first
    | with_reducible exact Sound.refl _
    | with_reducible (apply Sound.trans; on_goal 2 => apply add64_sound)
    | with_reducible apply ite_sound
    | split
    | dsimp only
    | refine Sound.upd rfl ?_ rfl rfl rfl rfl rfl

theorem setNetLines_sound (s : State) (p : PodId) (l : List LineStream) : Sound s (setNetLines s p l) := by
  unfold setNetLines
  repeat' first
    | with_reducible exact Sound.refl _
    | with_reducible (apply Sound.trans; on_goal 2 => apply modMisc_sound)
    | dsimp only
    | refine Sound.upd rfl ?_ rfl rfl rfl rfl rfl

theorem bankCycle_sound (s0 : State) (p : PodId) : Sound s0 (bankCycle s0 p) := by
  unfold bankCycle
  repeat' first
    | with_reducible exact Sound.refl _
    | with_reducible (apply Sound.trans; on_goal 2 => first | apply formProducts_sound | apply countBusy_sound | apply modPod_sound | apply setNetLines_sound | apply takeLine_sound | apply sendTwines_sound | apply finishMmas_sound | apply add64_sound)
    | with_reducible (apply forEach_sound; on_goal 2 => intro _ _)
    | with_reducible (apply foldl_sound_fst; on_goal 2 => intro _ _)
    | with_reducible (apply foldl_sound; on_goal 2 => intro _ _)
    | dsimp only
    | refine Sound.upd rfl ?_ rfl rfl rfl rfl rfl

theorem rateCycle_sound (s : State) (p : PodId) : Sound s (rateCycle s p) := by
  unfold rateCycle
  repeat' first
    | with_reducible exact Sound.refl _
    | with_reducible (apply Sound.trans; on_goal 2 => first | apply add64_sound | apply setPod_sound)
    | with_reducible apply ite_sound
    | with_reducible (apply foldl_sound_fst; on_goal 2 => intro _ _)
    | with_reducible (apply foldl_sound; on_goal 2 => intro _ _)
    | split
    | dsimp only

theorem countCycle_sound (s : State) (p : PodId) : Sound s (countCycle s p) := by
  unfold countCycle
  repeat' first
    | with_reducible exact Sound.refl _
    | with_reducible (apply Sound.trans; on_goal 2 => first | apply setField_sound | apply countCompares_sound)
    | with_reducible apply ite_sound
    | split
    | dsimp only
    | refine Sound.upd rfl ?_ rfl rfl rfl rfl rfl

theorem countStretch_sound (s : State) (p : PodId) : Sound s (countStretch s p) := by
  unfold countStretch
  repeat' first
    | with_reducible exact Sound.refl _
    | with_reducible (apply Sound.trans; on_goal 2 => apply addSat_sound)
    | with_reducible apply ite_sound
    | split
    | dsimp only
    | refine Sound.upd rfl ?_ rfl rfl rfl rfl rfl

theorem stallAt_sound (s : State) (p : PodId) (cause : Nat) : Sound s (stallAt s p cause) := by
  unfold stallAt
  repeat' first
    | with_reducible exact Sound.refl _
    | with_reducible (apply Sound.trans; on_goal 2 => apply add64_sound)
    | dsimp only

theorem debugAnswer_sound (s : State) (data : Nat) (addr : BitVec 48) (status : Nat) : Sound s (debugAnswer s data addr status) := by
  unfold debugAnswer
  repeat' first
    | with_reducible exact Sound.refl _
    | with_reducible (apply Sound.trans; on_goal 2 => apply emit_sound)
    | dsimp only
    | refine Sound.upd rfl ?_ rfl rfl rfl rfl rfl

theorem afterIssue_sound (s : State) (p : PodId) (hit : Option Nat) (stepping : Bool) : Sound s (afterIssue s p hit stepping) := by
  unfold afterIssue
  repeat' first
    | with_reducible exact Sound.refl _
    | with_reducible (apply Sound.trans; on_goal 2 => first | apply add64_sound | apply modCore_sound | apply haltAt_sound | apply haltPod_sound | apply debugAnswer_sound)
    | with_reducible apply ite_sound
    | split
    | dsimp only
    | refine Sound.upd rfl ?_ rfl rfl rfl rfl rfl

theorem issueSlots_sound (s : State) (p : PodId) (ops : List SlotOp) : Sound s ((issueSlots s p ops).1) := by
  unfold issueSlots
  repeat' first
    | with_reducible exact Sound.refl _
    | with_reducible (apply Sound.trans; on_goal 2 => first | apply issueOp_sound | (apply issueOp_eq_sound; assumption))
    | with_reducible (apply foldl_sound_fst; on_goal 2 => intro _ _)
    | with_reducible (apply foldl_sound; on_goal 2 => intro _ _)
    | dsimp only

theorem issueSlots_eq_sound {x} {t : State} {s : State} {p : PodId} {ops : List SlotOp} (h : issueSlots s p ops = (t, x)) : Sound s t := by
  have e := issueSlots_sound s p ops
  rw [h] at e
  exact e

theorem issueBundle_sound (s0 : State) (p : PodId) (b : Nat) (ops : List SlotOp) : Sound s0 (issueBundle s0 p b ops) := by
  unfold issueBundle
  repeat' first
    | with_reducible exact Sound.refl _
    | with_reducible (apply Sound.trans; on_goal 2 => first | apply modCore_sound | apply issueSlots_sound | (apply issueSlots_eq_sound; assumption) | apply advancePc_sound | apply afterIssue_sound)
    | with_reducible apply ite_sound
    | split
    | dsimp only
    | refine Sound.upd rfl ?_ rfl rfl rfl rfl rfl

theorem tryIssue_sound (s : State) (p : PodId) (b : Nat) (ops : List SlotOp) : Sound s (tryIssue s p b ops) := by
  unfold tryIssue
  repeat' first
    | with_reducible exact Sound.refl _
    | with_reducible (apply Sound.trans; on_goal 2 => first | apply issueBundle_sound | apply stallAt_sound)
    | with_reducible (apply foldl_sound_fst; on_goal 2 => intro _ _)
    | with_reducible (apply foldl_sound; on_goal 2 => intro _ _)
    | split
    | dsimp only
    | refine Sound.upd rfl ?_ rfl rfl rfl rfl rfl

theorem bundleUp_sound (s : State) (p : PodId) : Sound s (bundleUp s p) := by
  unfold bundleUp
  repeat' first
    | with_reducible exact Sound.refl _
    | with_reducible (apply Sound.trans; on_goal 2 => first | apply tryIssue_sound | apply stallAt_sound | apply modCore_sound | apply haltAt_sound | apply trapPod_sound | apply withPending_sound)
    | with_reducible apply ite_sound
    | split
    | dsimp only
    | refine Sound.upd rfl ?_ rfl rfl rfl rfl rfl

theorem coreCycle_sound (s : State) (p : PodId) : Sound s (coreCycle s p) := by
  unfold coreCycle
  repeat' first
    | with_reducible exact Sound.refl _
    | with_reducible (apply Sound.trans; on_goal 2 => first | apply stallAt_sound | apply bundleUp_sound)
    | with_reducible apply ite_sound
    | split
    | dsimp only

theorem settleDue_sound (s : State) (p : PodId) : Sound s (settleDue s p) := by
  unfold settleDue
  repeat' first
    | with_reducible exact Sound.refl _
    | with_reducible (apply Sound.trans; on_goal 2 => first | apply modPod_sound | apply settleTeCfg_sound | apply settleWindows_sound | apply settleRanges_sound | apply settleLandings_sound)
    | dsimp only

theorem startDebug_sound (s : State) (a : BitVec 48) (w : Option Word64) : Sound s (startDebug s a w) := by
  unfold startDebug
  repeat' first
    | with_reducible exact Sound.refl _
    | with_reducible (apply Sound.trans; on_goal 2 => first | apply startWrite_sound | apply askRead_sound)
    | split
    | dsimp only
    | refine Sound.upd rfl ?_ rfl rfl rfl rfl rfl

theorem startHeldWrite_sound (s : State) (p : PodId) : Sound s (startHeldWrite s p) := by
  unfold startHeldWrite
  repeat' first
    | with_reducible exact Sound.refl _
    | with_reducible (apply Sound.trans; on_goal 2 => apply startDebug_sound)
    | with_reducible apply ite_sound
    | split
    | dsimp only
    | refine Sound.upd rfl ?_ rfl rfl rfl rfl rfl

theorem answerDebug_sound (s : State) (p : PodId) : Sound s (answerDebug s p) := by
  unfold answerDebug
  repeat' first
    | with_reducible exact Sound.refl _
    | with_reducible (apply Sound.trans; on_goal 2 => first | apply debugAnswer_sound | apply closeJob_sound)
    | with_reducible apply ite_sound
    | split
    | dsimp only
    | refine Sound.upd rfl ?_ rfl rfl rfl rfl rfl

theorem podCycle_sound (s : State) (p : PodId) : Sound s (podCycle s p) := by
  unfold podCycle
  repeat' first
    | with_reducible exact Sound.refl _
    | with_reducible (apply Sound.trans; on_goal 2 => first | apply startHeldWrite_sound | apply answerDebug_sound | apply resumeTwine_sound | apply settleDue_sound | apply coreCycle_sound | apply roundEngine_sound | apply countStretch_sound | apply countCycle_sound | apply bankCycle_sound | apply rateCycle_sound | apply modCore_sound)
    | with_reducible apply ite_sound
    | with_reducible (apply foldl_sound_fst; on_goal 2 => intro _ _)
    | with_reducible (apply foldl_sound; on_goal 2 => intro _ _)
    | split
    | dsimp only
    | refine Sound.upd rfl ?_ rfl rfl rfl rfl rfl

theorem geSlot_sound (s : State) (seed : Word64) (r : GeReq) (g : Graph) (v : Nat) : Sound s ((geSlot s seed r g v).1) := by
  unfold geSlot
  repeat' first
    | with_reducible exact Sound.refl _
    | with_reducible (apply Sound.trans; on_goal 2 => first | apply rootRead_sound | (apply rootRead_eq_sound; assumption))
    | with_reducible apply ite_sound
    | split
    | dsimp only

theorem geSlot_eq_sound {x} {t : State} {s : State} {seed : Word64} {r : GeReq} {g : Graph} {v : Nat} (h : geSlot s seed r g v = (t, x)) : Sound s t := by
  have e := geSlot_sound s seed r g v
  rw [h] at e
  exact e

theorem geSlots_sound (seed : Word64) (r : GeReq) (g : Graph) (a3 : State) (a4 : List Nat) : Sound a3 ((geSlots seed r g a3 a4).1) := by
  induction a4 generalizing a3 with
  | nil =>
    unfold geSlots
    repeat' first
      | with_reducible exact Sound.refl _
      | with_reducible assumption
      | with_reducible (apply forEach_sound; on_goal 2 => intro _ _)
      | with_reducible apply ite_sound
      | with_reducible (apply foldl_sound_fst; on_goal 2 => intro _ _)
      | with_reducible (apply foldl_sound; on_goal 2 => intro _ _)
      | split
      | dsimp only
      | intro _
      | refine Sound.upd rfl ?_ rfl rfl rfl rfl rfl
  | cons m l ih =>
    unfold geSlots
    repeat' first
      | with_reducible exact Sound.refl _
      | with_reducible assumption
      | with_reducible (apply Sound.trans; on_goal 2 => apply geSlot_sound)
      | with_reducible (apply Sound.trans; on_goal 2 => apply ih)
      | with_reducible (apply forEach_sound; on_goal 2 => intro _ _)
      | with_reducible apply ite_sound
      | with_reducible (apply foldl_sound_fst; on_goal 2 => intro _ _)
      | with_reducible (apply foldl_sound; on_goal 2 => intro _ _)
      | split
      | dsimp only
      | intro _
      | refine Sound.upd rfl ?_ rfl rfl rfl rfl rfl

theorem geWrite_sound (s : State) (p : PodId) (op : Nat) (parts : List (Nat × List Byte)) : Sound s (geWrite s p op parts) := by
  unfold geWrite
  repeat' first
    | with_reducible exact Sound.refl _
    | with_reducible (apply Sound.trans; on_goal 2 => apply arriveData_sound)
    | dsimp only

theorem geRows_sound (r : GeReq) (g : Graph) (a2 : State) (a3 : List (Nat × Bool)) : Sound a2 ((geRows r g a2 a3).1) := by
  induction a3 generalizing a2 with
  | nil =>
    unfold geRows
    repeat' first
      | with_reducible exact Sound.refl _
      | with_reducible assumption
      | with_reducible (apply forEach_sound; on_goal 2 => intro _ _)
      | with_reducible apply ite_sound
      | with_reducible (apply foldl_sound_fst; on_goal 2 => intro _ _)
      | with_reducible (apply foldl_sound; on_goal 2 => intro _ _)
      | split
      | dsimp only
      | intro _
      | refine Sound.upd rfl ?_ rfl rfl rfl rfl rfl
  | cons m l ih =>
    unfold geRows
    repeat' first
      | with_reducible exact Sound.refl _
      | with_reducible assumption
      | with_reducible (apply Sound.trans; on_goal 2 => apply rootRead_sound)
      | with_reducible (apply Sound.trans; on_goal 2 => apply ih)
      | with_reducible (apply forEach_sound; on_goal 2 => intro _ _)
      | with_reducible apply ite_sound
      | with_reducible (apply foldl_sound_fst; on_goal 2 => intro _ _)
      | with_reducible (apply foldl_sound; on_goal 2 => intro _ _)
      | split
      | dsimp only
      | intro _
      | refine Sound.upd rfl ?_ rfl rfl rfl rfl rfl

theorem geFinish_sound (s : State) (d : DieId) (p : PodId) : Sound s (geFinish s d p) := by
  unfold geFinish
  repeat' first
    | with_reducible exact Sound.refl _
    | with_reducible (apply Sound.trans; on_goal 2 => first | apply modPod_sound | apply add64_sound | apply modMisc_sound)
    | dsimp only
    | refine Sound.upd rfl ?_ rfl rfl rfl rfl rfl

theorem geRun_sound (s : State) (d : DieId) (p : PodId) (op : Nat) (r : GeReq) (seeds : List Nat) (g : Graph) : Sound s (geRun s d p op r seeds g) := by
  unfold geRun
  repeat' first
    | with_reducible exact Sound.refl _
    | with_reducible (apply Sound.trans; on_goal 2 => first | apply geSlots_sound | apply geRows_sound | apply raiseFault_sound | apply geWrite_sound | apply add64_sound)
    | with_reducible apply ite_sound
    | split
    | dsimp only
    | refine Sound.upd rfl ?_ rfl rfl rfl rfl rfl

theorem geServe_sound (s : State) (d : DieId) (p : PodId) (g : GatherReq) (data : List Byte) : Sound s (geServe s d p g data) := by
  unfold geServe
  repeat' first
    | with_reducible exact Sound.refl _
    | with_reducible (apply Sound.trans; on_goal 2 => first | apply geFinish_sound | apply geWrite_sound | apply rootRead_sound | (apply rootRead_eq_sound; assumption) | apply raiseFault_sound | apply geRun_sound)
    | with_reducible apply ite_sound
    | split
    | dsimp only

end Sys2Proof.Machine
end

