-- ==== Sys2Proof/Laws/SoundDevice.lean ====
section
/-! SUPPORT. The operations of the device around the Pods are sound. -/

set_option linter.unusedTactic false
set_option linter.unreachableTactic false
set_option linter.unusedVariables false

namespace Sys2Proof.Machine

theorem setRates_sound (s : State) (exceeds : List Nat → Bool) : Sound s (setRates s exceeds) := by
  unfold setRates
  repeat' first
    | with_reducible exact Sound.refl _
    | with_reducible (apply Sound.trans; on_goal 2 => first | apply setFlag_sound | apply setField_sound)
    | with_reducible apply ite_sound
    | with_reducible (apply foldl_sound_fst; on_goal 2 => intro _ _)
    | with_reducible (apply foldl_sound; on_goal 2 => intro _ _)
    | split
    | dsimp only

theorem rateUpdate_sound (s : State) : Sound s (rateUpdate s) := by
  unfold rateUpdate
  repeat' first
    | with_reducible exact Sound.refl _
    | with_reducible (apply Sound.trans; on_goal 2 => first | apply setField_sound | apply setRates_sound)
    | with_reducible apply ite_sound
    | split
    | dsimp only
    | refine Sound.upd rfl ?_ rfl rfl rfl rfl rfl

theorem settleMode_sound (s : State) : Sound s (settleMode s) := by
  unfold settleMode
  repeat' first
    | with_reducible exact Sound.refl _
    | with_reducible (apply Sound.trans; on_goal 2 => apply setField_sound)
    | with_reducible apply ite_sound
    | split
    | dsimp only

theorem validInterval_sound (s : State) (m : Int) : Sound s (validInterval s m) := by
  unfold validInterval
  repeat' first
    | with_reducible exact Sound.refl _
    | with_reducible (apply Sound.trans; on_goal 2 => first | apply setReg_sound | apply settleMode_sound | apply raiseErr_sound | apply setRates_sound)
    | with_reducible apply ite_sound
    | split
    | dsimp only
    | refine Sound.upd rfl ?_ rfl rfl rfl rfl rfl

theorem invalidInterval_sound (s : State) : Sound s (invalidInterval s) := by
  unfold invalidInterval
  repeat' first
    | with_reducible exact Sound.refl _
    | with_reducible (apply Sound.trans; on_goal 2 => first | apply setFlag_sound | apply settleMode_sound | apply raiseErr_sound)
    | with_reducible apply ite_sound
    | split
    | dsimp only
    | refine Sound.upd rfl ?_ rfl rfl rfl rfl rfl

theorem clearErrPwr_sound (s : State) (v : Word) : Sound s (clearErrPwr s v) := by
  unfold clearErrPwr
  repeat' first
    | with_reducible exact Sound.refl _
    | with_reducible (apply Sound.trans; on_goal 2 => first | apply modReg_sound | apply settleMode_sound)
    | with_reducible apply ite_sound
    | split
    | dsimp only
    | refine Sound.upd rfl ?_ rfl rfl rfl rfl rfl

theorem thermtrip_sound (s : State) : Sound s (thermtrip s) := by
  unfold thermtrip
  repeat' first
    | with_reducible exact Sound.refl _
    | with_reducible (apply Sound.trans; on_goal 2 => first | apply modMisc_sound | apply emit_sound)
    | with_reducible apply ite_sound
    | split
    | dsimp only
    | refine Sound.upd rfl ?_ rfl rfl rfl rfl rfl

theorem thermalCeiling_sound (s : State) (l : List Nat) : Sound s (thermalCeiling s l) := by
  unfold thermalCeiling
  repeat' first
    | with_reducible exact Sound.refl _
    | with_reducible (apply Sound.trans; on_goal 2 => first | apply setFlag_sound | apply raiseAlert_sound | apply raiseErr_sound | apply thermtrip_sound)
    | with_reducible apply ite_sound
    | with_reducible (apply foldl_sound_fst; on_goal 2 => intro _ _)
    | with_reducible (apply foldl_sound; on_goal 2 => intro _ _)
    | split
    | dsimp only
    | refine Sound.upd rfl ?_ rfl rfl rfl rfl rfl

theorem readJunctions_sound (s : State) (cds ios : List Byte) : Sound s (readJunctions s cds ios) := by
  unfold readJunctions
  repeat' first
    | with_reducible exact Sound.refl _
    | with_reducible (apply Sound.trans; on_goal 2 => first | apply setReg_sound | apply thermalCeiling_sound)
    | dsimp only

theorem readStack_sound (s : State) (k : Nat) (temp : Byte) : Sound s (readStack s k temp) := by
  unfold readStack
  repeat' first
    | with_reducible exact Sound.refl _
    | with_reducible (apply Sound.trans; on_goal 2 => first | apply setFlag_sound | apply setReg_sound)
    | with_reducible apply ite_sound
    | split
    | dsimp only

theorem readStacks_sound (s : State) (temps : List Byte) : Sound s (readStacks s temps) := by
  unfold readStacks
  repeat' first
    | with_reducible exact Sound.refl _
    | with_reducible (apply Sound.trans; on_goal 2 => apply readStack_sound)
    | with_reducible (apply foldl_sound_fst; on_goal 2 => intro _ _)
    | with_reducible (apply foldl_sound; on_goal 2 => intro _ _)
    | dsimp only

theorem bareReset_sound (s : State) (keep : Nat → Bool) : Sound s (bareReset s keep) := by
  have h0 : regDefault 0x0 = 0 := by decide
  have h3 : regDefault 0x3000000 = 0 := by decide
  refine ⟨rfl, rfl, fun h => ⟨rfl, ?_⟩, List.prefix_rfl, Nat.le_refl _⟩
  have a := tabWf_set (tabWf_filter h.2 (fun e => keep e.1)) 0x0
    (BitVec.ofNat 32 (0x82400000 + s.fuses.stepping.toNat * 256 + s.fuses.grade.toNat * 16))
  rw [h0] at a
  have b := tabWf_set a 0x3000000 (tabGet 0 State.reset.regs 0x3000000)
  rw [h3] at b
  exact b

theorem putFlash_sound (s : State) (f : Flash) : Sound s (putFlash s f) := by
  unfold putFlash
  repeat' first
    | with_reducible exact Sound.refl _
    | with_reducible apply ite_sound
    | split
    | dsimp only
    | refine Sound.upd rfl ?_ rfl rfl rfl rfl rfl

theorem showSlots_sound (s : State) : Sound s (showSlots s) := by
  unfold showSlots
  repeat' first
    | with_reducible exact Sound.refl _
    | with_reducible (apply Sound.trans; on_goal 2 => first | apply setReg_sound | apply setField_sound | apply setFlag_sound)
    | dsimp only

theorem nameImage_sound (s : State) (f : Flash) (run : Option (Fin 2)) : Sound s (nameImage s f run) := by
  unfold nameImage
  repeat' first
    | with_reducible exact Sound.refl _
    | with_reducible (apply Sound.trans; on_goal 2 => apply setReg_sound)
    | split
    | dsimp only
    | refine Sound.upd rfl ?_ rfl rfl rfl rfl rfl

theorem bootSlot_sound (s : State) : Sound s (bootSlot s) := by
  unfold bootSlot
  extract_lets lost src f s0 c cause run s1 s2 s3 s4
  have h0 : Sound s s0 := ⟨rfl, rfl, id, List.prefix_rfl, Nat.le_add_right _ _⟩
  have h1 : Sound s s1 := h0.trans (Sound.other rfl rfl rfl rfl rfl rfl)
  have h2 : Sound s s2 := ((h1.trans (setFlag_sound ..)).trans (setField_sound ..)).trans (setField_sound ..)
  have h3 : Sound s s3 := h2.trans (nameImage_sound ..)
  have h4 : Sound s s4 := foldl_sound h3 (fun t e => raiseErr_sound ..)
  refine Sound.trans ?_ (showSlots_sound ..)
  exact ite_sound h4 (h4.trans (raiseErr_sound ..))

theorem sampleStraps_sound (s : State) (straps : BitVec 16) : Sound s (sampleStraps s straps) := by
  unfold sampleStraps
  repeat' first
    | with_reducible exact Sound.refl _
    | with_reducible (apply Sound.trans; on_goal 2 => first | apply setReg_sound | apply raiseErr_sound)
    | with_reducible apply ite_sound
    | split
    | dsimp only

theorem startFunctions_sound (s : State) : Sound s (startFunctions s) := by
  unfold startFunctions
  repeat' first
    | with_reducible exact Sound.refl _
    | with_reducible (apply Sound.trans; on_goal 2 => apply setFunc_sound)
    | with_reducible apply ite_sound
    | split
    | dsimp only

theorem coldBoot_sound (s : State) (straps : BitVec 16) (cause : Nat) : Sound s (coldBoot s straps cause) := by
  unfold coldBoot
  repeat' first
    | with_reducible exact Sound.refl _
    | with_reducible (apply Sound.trans; on_goal 2 => first | apply startFunctions_sound | apply bootSlot_sound | apply setField_sound | apply sampleStraps_sound)
    | dsimp only

theorem assertPowerOn_sound (s : State) : Sound s (assertPowerOn s) := by
  unfold assertPowerOn
  repeat' first
    | with_reducible exact Sound.refl _
    | with_reducible (apply Sound.trans; on_goal 2 => first | apply modMisc_sound | apply bareReset_sound)
    | dsimp only
    | refine Sound.upd rfl ?_ rfl rfl rfl rfl rfl

theorem releasePowerOn_sound (s : State) : Sound s (releasePowerOn s) := by
  unfold releasePowerOn
  repeat' first
    | with_reducible exact Sound.refl _
    | with_reducible (apply Sound.trans; on_goal 2 => apply modMisc_sound)
    | dsimp only
    | refine Sound.upd rfl ?_ rfl rfl rfl rfl rfl

theorem coldReset_sound (s : State) (straps : BitVec 16) (cause : Nat) : Sound s (coldReset s straps cause) := by
  unfold coldReset
  repeat' first
    | with_reducible exact Sound.refl _
    | with_reducible (apply Sound.trans; on_goal 2 => first | apply coldBoot_sound | apply bareReset_sound)
    | dsimp only
    | refine Sound.upd rfl ?_ rfl rfl rfl rfl rfl

theorem restartUnit_sound (s t : State) (f : Nat) : Sound t (restartUnit s t f) :=
  ite_sound (setFunc_sound ..) (ite_sound (setFunc_sound ..) (setFunc_sound ..))

theorem setKpllLock_sound (s : State) (b : Bool) : Sound s (setKpllLock s b) := by
  unfold setKpllLock
  repeat' first
    | with_reducible exact Sound.refl _
    | with_reducible (apply Sound.trans; on_goal 2 => apply setFlag_sound)
    | dsimp only

theorem warmReset_sound (s : State) (cause : Nat) : Sound s (warmReset s cause) := by
  unfold warmReset
  extract_lets named hung b0 b src src1 src2 src3 s1 s2 s3 s4 s5
  have hb : Sound s b := foldl_sound (bareReset_sound s _) (fun t o => setReg_sound ..)
  have h1 : Sound s s1 := hb.trans (Sound.other rfl rfl rfl rfl rfl rfl)
  have h2 : Sound s s2 :=
    ((((h1.trans (setField_sound ..)).trans (setFlag_sound ..)).trans (setFlag_sound ..)).trans (setKpllLock_sound ..)).trans (startFunctions_sound ..)
  have h3 : Sound s s3 := foldl_sound h2 (fun t f => restartUnit_sound s t f)
  have h4 : Sound s s4 := ite_sound (foldl_sound h3 (fun t p => setFunc_sound ..)) h3
  have h5 : Sound s s5 := ite_sound h4 (h4.trans (setFunc_sound ..))
  clear_value s5
  refine Sound.trans ?_ (latchEpoch_sound _)
  exact h5.trans (Sound.other rfl rfl rfl rfl rfl rfl)

theorem resetHost_sound (s : State) : Sound s (resetHost s) := by
  unfold resetHost
  repeat' first
    | with_reducible exact Sound.refl _
    | with_reducible (apply Sound.trans; on_goal 2 => first | apply modPods_sound | apply resetRange_sound)
    | dsimp only
    | refine Sound.upd rfl ?_ rfl rfl rfl rfl rfl

theorem pcieReset_sound (s : State) : Sound s (pcieReset s) := by
  unfold pcieReset
  repeat' first
    | with_reducible exact Sound.refl _
    | with_reducible (apply Sound.trans; on_goal 2 => first | apply setFunc_sound | apply resetHost_sound)
    | with_reducible apply ite_sound
    | split
    | dsimp only

theorem readManifest_sound (s : State) : Sound s (readManifest s) := by
  unfold readManifest
  repeat' first
    | with_reducible exact Sound.refl _
    | with_reducible (apply Sound.trans; on_goal 2 => first | apply putFlash_sound | apply raiseErr_sound | apply setDigest_sound | apply setReg_sound | apply setFlag_sound)
    | with_reducible apply ite_sound
    | split
    | dsimp only
    | refine Sound.upd rfl ?_ rfl rfl rfl rfl rfl

theorem compareIdentity_sound (s : State) : Sound s (compareIdentity s) := by
  unfold compareIdentity
  repeat' first
    | with_reducible exact Sound.refl _
    | with_reducible (apply Sound.trans; on_goal 2 => first | apply setField_sound | apply raiseErr_sound)
    | with_reducible apply ite_sound
    | split
    | dsimp only

theorem ackIdentity_sound (s : State) (v : Word) : Sound s (ackIdentity s v) := by
  unfold ackIdentity
  repeat' first
    | with_reducible exact Sound.refl _
    | with_reducible (apply Sound.trans; on_goal 2 => first | apply putFlash_sound | apply postState_sound | apply setField_sound)
    | with_reducible apply ite_sound
    | split
    | dsimp only
    | refine Sound.upd rfl ?_ rfl rfl rfl rfl rfl

theorem keeperReady_sound (s : State) : Sound s (keeperReady s) := by
  unfold keeperReady
  repeat' first
    | with_reducible exact Sound.refl _
    | with_reducible (apply Sound.trans; on_goal 2 => first | apply compareIdentity_sound | apply setFunc_sound | apply postState_sound | apply enterDetect_sound)
    | with_reducible (apply forEach_sound; on_goal 2 => intro _ _)
    | with_reducible apply ite_sound
    | split
    | dsimp only

theorem finishFunction_sound (s : State) (f errBit unit : Nat) (failed : Option Byte) : Sound s (finishFunction s f errBit unit failed) := by
  unfold finishFunction
  repeat' first
    | with_reducible exact Sound.refl _
    | with_reducible (apply Sound.trans; on_goal 2 => first | apply setFunc_sound | apply raiseErr_sound)
    | with_reducible apply ite_sound
    | split
    | dsimp only
    | refine Sound.upd rfl ?_ rfl rfl rfl rfl rfl

theorem reportLate_sound (s : State) (l : List (Nat × Nat)) (errBit : Nat) : Sound s (reportLate s l errBit) := by
  unfold reportLate
  repeat' first
    | with_reducible exact Sound.refl _
    | with_reducible (apply Sound.trans; on_goal 2 => apply raiseErr_sound)
    | with_reducible apply ite_sound
    | with_reducible (apply foldl_sound_fst; on_goal 2 => intro _ _)
    | with_reducible (apply foldl_sound; on_goal 2 => intro _ _)
    | split
    | dsimp only

theorem writeCfgSelect_sound (s : State) (v : Word) : Sound s (writeCfgSelect s v) := by
  unfold writeCfgSelect
  repeat' first
    | with_reducible exact Sound.refl _
    | with_reducible (apply Sound.trans; on_goal 2 => first | apply setFlag_sound | apply showSlots_sound)
    | with_reducible apply ite_sound
    | split
    | dsimp only
    | refine Sound.upd rfl ?_ rfl rfl rfl rfl rfl

theorem sysReset_sound (s : State) (straps : BitVec 16) : Sound s (sysReset s straps) := by
  unfold sysReset
  repeat' first
    | with_reducible exact Sound.refl _
    | with_reducible (apply Sound.trans; on_goal 2 => apply coldReset_sound)
    | with_reducible apply ite_sound
    | split
    | dsimp only

theorem writeCfgReset_sound (s : State) (v : Word) (straps : BitVec 16) : Sound s (writeCfgReset s v straps) := by
  unfold writeCfgReset
  repeat' first
    | with_reducible exact Sound.refl _
    | with_reducible (apply Sound.trans; on_goal 2 => first | apply coldReset_sound | apply pcieReset_sound | apply warmReset_sound)
    | with_reducible apply ite_sound
    | split
    | dsimp only

theorem zeroPodStore_sound (s : State) (p : PodId) : Sound s (zeroPodStore s p) := by
  unfold zeroPodStore
  repeat' first
    | with_reducible exact Sound.refl _
    | with_reducible (apply Sound.trans; on_goal 2 => apply memZero_sound)
    | dsimp only

theorem zeroStack_sound (s : State) (k : Nat) : Sound s (zeroStack s k) :=
  ⟨rfl, rfl, fun h => ⟨tabWf_filter h.1 _, h.2⟩, List.prefix_rfl, Nat.le_refl _⟩

theorem portOff_sound (s : State) (p : PortId) : Sound s (portOff s p) := by
  unfold portOff
  repeat' first
    | with_reducible exact Sound.refl _
    | with_reducible (apply Sound.trans; on_goal 2 => first | apply setLstate_sound | apply setLink_sound)
    | with_reducible apply ite_sound
    | split
    | dsimp only

theorem portsOff_sound (s : State) : Sound s (portsOff s) := by
  unfold portsOff
  repeat' first
    | with_reducible exact Sound.refl _
    | with_reducible (apply Sound.trans; on_goal 2 => apply portOff_sound)
    | with_reducible (apply forEach_sound; on_goal 2 => intro _ _)
    | dsimp only

theorem setSynced_sound (s : State) (b : Bool) : Sound s (setSynced s b) := by
  unfold setSynced
  repeat' first
    | with_reducible exact Sound.refl _
    | with_reducible (apply Sound.trans; on_goal 2 => first | apply setFlag_sound | apply setFunc_sound)
    | with_reducible apply ite_sound
    | split
    | dsimp only

theorem loseReference_sound (s : State) : Sound s (loseReference s) := by
  unfold loseReference
  repeat' first
    | with_reducible exact Sound.refl _
    | with_reducible (apply Sound.trans; on_goal 2 => first | apply raiseErr_sound | apply setReg_sound | apply setField_sound | apply setFunc_sound | apply portsOff_sound | apply setSynced_sound)
    | with_reducible apply ite_sound
    | with_reducible (apply foldl_sound_fst; on_goal 2 => intro _ _)
    | with_reducible (apply foldl_sound; on_goal 2 => intro _ _)
    | split
    | dsimp only
    | refine Sound.upd rfl ?_ rfl rfl rfl rfl rfl

theorem keeperOnRef_sound (s : State) : Sound s (keeperOnRef s) := by
  unfold keeperOnRef
  repeat' first
    | with_reducible exact Sound.refl _
    | with_reducible (apply Sound.trans; on_goal 2 => apply setReg_sound)
    | with_reducible apply ite_sound
    | split
    | dsimp only

theorem returnReference_sound (s : State) : Sound s (returnReference s) := by
  unfold returnReference
  repeat' first
    | with_reducible exact Sound.refl _
    | with_reducible (apply Sound.trans; on_goal 2 => first | apply warmReset_sound | apply keeperOnRef_sound | apply setFlag_sound | apply setFunc_sound)
    | with_reducible apply ite_sound
    | split
    | dsimp only
    | refine Sound.upd rfl ?_ rfl rfl rfl rfl rfl

theorem setLock_sound (s : State) (p : Pll) (b : Bool) : Sound s (setLock s p b) := by
  unfold setLock
  repeat' first
    | with_reducible exact Sound.refl _
    | with_reducible (apply Sound.trans; on_goal 2 => apply setFlag_sound)
    | split
    | dsimp only
    | refine Sound.upd rfl ?_ rfl rfl rfl rfl rfl

theorem losePll_sound (s : State) (p : Pll) : Sound s (losePll s p) := by
  unfold losePll
  repeat' first
    | with_reducible exact Sound.refl _
    | with_reducible (apply Sound.trans; on_goal 2 => first | apply setLock_sound | apply portsOff_sound | apply setFunc_sound | apply raiseFault_sound)
    | with_reducible apply ite_sound
    | split
    | dsimp only

theorem writeClkKeeper_sound (s : State) (v : Word) : Sound s (writeClkKeeper s v) := by
  unfold writeClkKeeper
  repeat' first
    | with_reducible exact Sound.refl _
    | with_reducible (apply Sound.trans; on_goal 2 => first | apply setFlag_sound | apply setField_sound | apply setKpllLock_sound)
    | with_reducible apply ite_sound
    | split
    | dsimp only
    | refine Sound.upd rfl ?_ rfl rfl rfl rfl rfl

theorem writeClkGate_sound (s : State) (v : Word) : Sound s (writeClkGate s v) := by
  unfold writeClkGate
  repeat' first
    | with_reducible exact Sound.refl _
    | with_reducible (apply Sound.trans; on_goal 2 => first | apply setReg_sound | apply resetRange_sound | apply setFunc_sound)
    | with_reducible apply ite_sound
    | split
    | dsimp only
    | refine Sound.upd rfl ?_ rfl rfl rfl rfl rfl

theorem dropRequest_sound (s : State) : Sound s (dropRequest s) := by
  unfold dropRequest
  repeat' first
    | with_reducible exact Sound.refl _
    | with_reducible (apply Sound.trans; on_goal 2 => apply setFlag_sound)
    | dsimp only
    | refine Sound.upd rfl ?_ rfl rfl rfl rfl rfl

theorem armPstep_sound (s : State) : Sound s (armPstep s) := by
  unfold armPstep
  repeat' first
    | with_reducible exact Sound.refl _
    | with_reducible (apply Sound.trans; on_goal 2 => apply setFlag_sound)
    | with_reducible apply ite_sound
    | split
    | dsimp only
    | refine Sound.upd rfl ?_ rfl rfl rfl rfl rfl

theorem cancelPstep_sound (s : State) : Sound s (cancelPstep s) := by
  unfold cancelPstep
  repeat' first
    | with_reducible exact Sound.refl _
    | with_reducible (apply Sound.trans; on_goal 2 => apply dropRequest_sound)
    | with_reducible apply ite_sound
    | split
    | dsimp only
    | refine Sound.upd rfl ?_ rfl rfl rfl rfl rfl

theorem writePstepReq_sound (s : State) (v : Word) : Sound s (writePstepReq s v) := by
  unfold writePstepReq
  repeat' first
    | with_reducible exact Sound.refl _
    | with_reducible (apply Sound.trans; on_goal 2 => first | apply setField_sound | apply modReg_sound | apply armPstep_sound | apply cancelPstep_sound)
    | with_reducible apply ite_sound
    | split
    | dsimp only

theorem writeRails_sound (s : State) (mv : Nat) : Sound s (writeRails s mv) := by
  unfold writeRails
  repeat' first
    | with_reducible exact Sound.refl _
    | with_reducible (apply Sound.trans; on_goal 2 => apply emit_sound)
    | with_reducible apply ite_sound
    | with_reducible (apply foldl_sound_fst; on_goal 2 => intro _ _)
    | with_reducible (apply foldl_sound; on_goal 2 => intro _ _)
    | split
    | dsimp only

theorem droopDetect_sound (s : State) (r : RegionId) (mv : Nat) : Sound s (droopDetect s r mv) := by
  unfold droopDetect
  repeat' first
    | with_reducible exact Sound.refl _
    | with_reducible apply ite_sound
    | split
    | dsimp only
    | refine Sound.upd rfl ?_ rfl rfl rfl rfl rfl

theorem writeFcount_sound (s : State) (v : Word) : Sound s (writeFcount s v) := by
  unfold writeFcount
  repeat' first
    | with_reducible exact Sound.refl _
    | with_reducible (apply Sound.trans; on_goal 2 => first | apply setField_sound | apply setFlag_sound | apply setReg_sound)
    | with_reducible apply ite_sound
    | split
    | dsimp only
    | refine Sound.upd rfl ?_ rfl rfl rfl rfl rfl

theorem switchPstep_sound (s : State) (n t : Nat) : Sound s (switchPstep s n t) := by
  unfold switchPstep
  repeat' first
    | with_reducible exact Sound.refl _
    | with_reducible (apply Sound.trans; on_goal 2 => first | apply dropRequest_sound | apply setField_sound)
    | with_reducible apply ite_sound
    | split
    | dsimp only
    | refine Sound.upd rfl ?_ rfl rfl rfl rfl rfl

theorem writeTimCtrl_sound (s : State) (v : Word) : Sound s (writeTimCtrl s v) := by
  unfold writeTimCtrl
  repeat' first
    | with_reducible exact Sound.refl _
    | with_reducible (apply Sound.trans; on_goal 2 => apply setSynced_sound)
    | dsimp only
    | refine Sound.upd rfl ?_ rfl rfl rfl rfl rfl

theorem writeTimIncr_sound (s : State) (v : Word) : Sound s (writeTimIncr s v) := by
  unfold writeTimIncr
  repeat' first
    | with_reducible exact Sound.refl _
    | with_reducible (apply Sound.trans; on_goal 2 => apply setReg_sound)
    | dsimp only

theorem ptpSend_sound (s : State) (f : PtpFrame) : Sound s (ptpSend s f) := by
  unfold ptpSend
  repeat' first
    | with_reducible exact Sound.refl _
    | with_reducible (apply Sound.trans; on_goal 2 => apply emit_sound)
    | with_reducible apply ite_sound
    | split
    | dsimp only
    | refine Sound.upd rfl ?_ rfl rfl rfl rfl rfl

theorem ptpReceive_sound (s : State) (f : PtpFrame) : Sound s (ptpReceive s f) := by
  unfold ptpReceive
  repeat' first
    | with_reducible exact Sound.refl _
    | with_reducible (apply Sound.trans; on_goal 2 => apply emit_sound)
    | with_reducible apply ite_sound
    | split
    | dsimp only

theorem doorbellBad_sound (s : State) (i : StreamId) : Sound s (doorbellBad s i) := by
  unfold doorbellBad
  repeat' first
    | with_reducible exact Sound.refl _
    | with_reducible (apply Sound.trans; on_goal 2 => apply raiseErr_sound)
    | dsimp only

theorem writeSqTail_sound (s : State) (i : StreamId) (v : Word) : Sound s (writeSqTail s i v) := by
  unfold writeSqTail
  repeat' first
    | with_reducible exact Sound.refl _
    | with_reducible (apply Sound.trans; on_goal 2 => first | apply doorbellBad_sound | apply modStrm_sound)
    | with_reducible apply ite_sound
    | split
    | dsimp only
    | refine Sound.upd rfl ?_ rfl rfl rfl rfl rfl

theorem writeCqHead_sound (s : State) (i : StreamId) (v : Word) : Sound s (writeCqHead s i v) := by
  unfold writeCqHead
  repeat' first
    | with_reducible exact Sound.refl _
    | with_reducible (apply Sound.trans; on_goal 2 => first | apply doorbellBad_sound | apply modStrm_sound)
    | with_reducible apply ite_sound
    | split
    | dsimp only
    | refine Sound.upd rfl ?_ rfl rfl rfl rfl rfl

theorem dropJobs_sound (s : State) (i : StreamId) : Sound s (dropJobs s i) := by
  unfold dropJobs
  repeat' first
    | with_reducible exact Sound.refl _
    | with_reducible (apply Sound.trans; on_goal 2 => apply modMisc_sound)
    | split
    | dsimp only
    | refine Sound.upd rfl ?_ rfl rfl rfl rfl rfl

theorem readyEvents_sound (s : State) : Sound s (readyEvents s) := by
  unfold readyEvents
  repeat' first
    | with_reducible exact Sound.refl _
    | with_reducible (apply Sound.trans; on_goal 2 => apply postState_sound)
    | with_reducible apply ite_sound
    | with_reducible (apply foldl_sound_fst; on_goal 2 => intro _ _)
    | with_reducible (apply foldl_sound; on_goal 2 => intro _ _)
    | split
    | dsimp only

theorem enableStream_sound (s : State) (i : StreamId) : Sound s (enableStream s i) := by
  unfold enableStream
  repeat' first
    | with_reducible exact Sound.refl _
    | with_reducible (apply Sound.trans; on_goal 2 => first | apply setFlag_sound | apply setStrmState_sound | apply dropJobs_sound | apply setReg_sound | apply modStrm_sound | apply readyEvents_sound)
    | with_reducible apply ite_sound
    | split
    | dsimp only
    | refine Sound.upd rfl ?_ rfl rfl rfl rfl rfl

theorem resetStream_sound (s : State) (i : StreamId) : Sound s (resetStream s i) := by
  unfold resetStream
  repeat' first
    | with_reducible exact Sound.refl _
    | with_reducible (apply Sound.trans; on_goal 2 => first | apply setFlag_sound | apply setStrmState_sound | apply modPods_sound | apply modStrm_sound | apply modMisc_sound)
    | with_reducible apply ite_sound
    | split
    | dsimp only
    | refine Sound.upd rfl ?_ rfl rfl rfl rfl rfl

theorem writeStreamCtrl_sound (s : State) (i : StreamId) (v : Word) : Sound s (writeStreamCtrl s i v) := by
  unfold writeStreamCtrl
  repeat' first
    | with_reducible exact Sound.refl _
    | with_reducible (apply Sound.trans; on_goal 2 => first | apply setField_sound | apply resetStream_sound | apply enableStream_sound)
    | with_reducible apply ite_sound
    | split
    | dsimp only

theorem settleReset_sound (s : State) (i : StreamId) : Sound s (settleReset s i) := by
  unfold settleReset
  repeat' first
    | with_reducible exact Sound.refl _
    | with_reducible (apply Sound.trans; on_goal 2 => first | apply modStrm_sound | apply setStrmState_sound)
    | with_reducible apply ite_sound
    | split
    | dsimp only
    | refine Sound.upd rfl ?_ rfl rfl rfl rfl rfl

theorem fetchFailed_sound (s : State) (i : StreamId) (addr : Word64) : Sound s (fetchFailed s i addr) := by
  unfold fetchFailed
  repeat' first
    | with_reducible exact Sound.refl _
    | with_reducible (apply Sound.trans; on_goal 2 => first | apply raiseErr_sound | apply setStrmState_sound)
    | with_reducible apply ite_sound
    | split
    | dsimp only

theorem takeSeq_sound (s : State) (i : StreamId) : Sound s ((takeSeq s i).2) := by
  unfold takeSeq
  repeat' first
    | with_reducible exact Sound.refl _
    | with_reducible (apply Sound.trans; on_goal 2 => apply modReg_sound)
    | dsimp only

theorem takeSeq_eq_sound {x} {t : State} {s : State} {i : StreamId} (h : takeSeq s i = (x, t)) : Sound s t := by
  have e := takeSeq_sound s i
  rw [h] at e
  exact e

theorem submit_sound (s : State) (i : StreamId) (d0 segs : List Byte) (readFails : Bool) : Sound s (submit s i d0 segs readFails) := by
  unfold submit
  repeat' first
    | with_reducible exact Sound.refl _
    | with_reducible (apply Sound.trans; on_goal 2 => first | apply takeSeq_sound | (apply takeSeq_eq_sound; assumption) | apply modStrm_sound | apply passHead_sound | apply raiseErr_sound)
    | with_reducible apply ite_sound
    | split
    | dsimp only
    | refine Sound.upd rfl ?_ rfl rfl rfl rfl rfl

theorem offerEntry_sound (s : State) (i : StreamId) : Sound s (offerEntry s i) := by
  unfold offerEntry
  repeat' first
    | with_reducible exact Sound.refl _
    | with_reducible (apply Sound.trans; on_goal 2 => first | apply acceptEntry_sound | apply passHead_sound | apply modStrm_sound | apply refuseEntry_sound)
    | with_reducible apply ite_sound
    | split
    | dsimp only
    | refine Sound.upd rfl ?_ rfl rfl rfl rfl rfl

theorem inputStaged_sound (s : State) (i : StreamId) (input : List Byte) : Sound s (inputStaged s i input) := by
  unfold inputStaged
  repeat' first
    | with_reducible exact Sound.refl _
    | with_reducible (apply Sound.trans; on_goal 2 => first | apply hostPut_sound | (apply hostPut_eq_sound; assumption) | apply modStrm_sound | apply offerEntry_sound)
    | with_reducible apply ite_sound
    | split
    | dsimp only
    | refine Sound.upd rfl ?_ rfl rfl rfl rfl rfl

theorem completePost_sound (s : State) (i : StreamId) (po : Post) (u : Submission) : Sound s (completePost s i po u) := by
  unfold completePost
  repeat' first
    | with_reducible exact Sound.refl _
    | with_reducible (apply Sound.trans; on_goal 2 => first | apply hostGet_sound | (apply hostGet_eq_sound; assumption) | apply emit_sound | apply modStrm_sound)
    | with_reducible apply ite_sound
    | split
    | dsimp only
    | refine Sound.upd rfl ?_ rfl rfl rfl rfl rfl

theorem abortSubs_sound (s : State) (i : StreamId) (l : List Submission) : Sound s (abortSubs s i l) := by
  unfold abortSubs
  repeat' first
    | with_reducible exact Sound.refl _
    | with_reducible (apply Sound.trans; on_goal 2 => apply modStrm_sound)
    | with_reducible apply ite_sound
    | split
    | dsimp only
    | refine Sound.upd rfl ?_ rfl rfl rfl rfl rfl

theorem processPost_sound (s : State) (po : Post) : Sound s (processPost s po) := by
  unfold processPost
  repeat' first
    | with_reducible exact Sound.refl _
    | with_reducible (apply Sound.trans; on_goal 2 => first | apply modStrm_sound | apply raiseErr_sound | apply completePost_sound | apply addSat_sound | apply abortSubs_sound)
    | with_reducible apply ite_sound
    | with_reducible (apply foldl_sound_fst; on_goal 2 => intro _ _)
    | with_reducible (apply foldl_sound; on_goal 2 => intro _ _)
    | split
    | dsimp only
    | refine Sound.upd rfl ?_ rfl rfl rfl rfl rfl

theorem processPosts_sound (s : State) : Sound s (processPosts s) := by
  unfold processPosts
  repeat' first
    | with_reducible exact Sound.refl _
    | with_reducible (apply Sound.trans; on_goal 2 => first | apply processPost_sound | apply modPod_sound)
    | with_reducible (apply foldl_sound_fst; on_goal 2 => intro _ _)
    | with_reducible (apply foldl_sound; on_goal 2 => intro _ _)
    | dsimp only
    | refine Sound.upd rfl ?_ rfl rfl rfl rfl rfl

theorem reofferEntries_sound (s : State) : Sound s (reofferEntries s) := by
  unfold reofferEntries
  repeat' first
    | with_reducible exact Sound.refl _
    | with_reducible (apply Sound.trans; on_goal 2 => apply offerEntry_sound)
    | with_reducible apply ite_sound
    | with_reducible (apply foldl_sound_fst; on_goal 2 => intro _ _)
    | with_reducible (apply foldl_sound; on_goal 2 => intro _ _)
    | split
    | dsimp only

theorem startStream_sound (s : State) (i : StreamId) : Sound s (startStream s i) := by
  unfold startStream
  repeat' first
    | with_reducible exact Sound.refl _
    | with_reducible (apply Sound.trans; on_goal 2 => first | apply endStream_sound | apply modStrm_sound | apply dropJobs_sound | apply setReg_sound | apply setStrmState_sound)
    | with_reducible apply ite_sound
    | split
    | dsimp only
    | refine Sound.upd rfl ?_ rfl rfl rfl rfl rfl

theorem dropInbound_sound (s : State) : Sound s (dropInbound s) := by
  unfold dropInbound
  repeat' first
    | with_reducible exact Sound.refl _
    | with_reducible (apply Sound.trans; on_goal 2 => apply modPods_sound)
    | dsimp only
    | refine Sound.upd rfl ?_ rfl rfl rfl rfl rfl

theorem startStreams_sound (s : State) : Sound s (startStreams s) := by
  unfold startStreams
  repeat' first
    | with_reducible exact Sound.refl _
    | with_reducible (apply Sound.trans; on_goal 2 => first | apply startStream_sound | apply dropInbound_sound)
    | with_reducible (apply foldl_sound_fst; on_goal 2 => intro _ _)
    | with_reducible (apply foldl_sound; on_goal 2 => intro _ _)
    | dsimp only

theorem pauseStreams_sound (s : State) : Sound s (pauseStreams s) := by
  unfold pauseStreams
  repeat' first
    | with_reducible exact Sound.refl _
    | with_reducible (apply Sound.trans; on_goal 2 => apply setStrmState_sound)
    | with_reducible apply ite_sound
    | with_reducible (apply foldl_sound_fst; on_goal 2 => intro _ _)
    | with_reducible (apply foldl_sound; on_goal 2 => intro _ _)
    | split
    | dsimp only

theorem writeRecord_sound (s : State) (i : StreamId) (r : List Byte) (irq : Bool) : Sound s (writeRecord s i r irq) := by
  unfold writeRecord
  repeat' first
    | with_reducible exact Sound.refl _
    | with_reducible (apply Sound.trans; on_goal 2 => first | apply emit_sound | apply setField_sound | apply modStrm_sound)
    | with_reducible apply ite_sound
    | split
    | dsimp only
    | refine Sound.upd rfl ?_ rfl rfl rfl rfl rfl

theorem endBatch_sound (s : State) (i : StreamId) : Sound s (endBatch s i) := by
  unfold endBatch
  repeat' first
    | with_reducible exact Sound.refl _
    | with_reducible (apply Sound.trans; on_goal 2 => first | apply msix_sound | apply modStrm_sound)
    | with_reducible apply ite_sound
    | split
    | dsimp only
    | refine Sound.upd rfl ?_ rfl rfl rfl rfl rfl

theorem copyOutput_sound (s : State) (i : StreamId) : Sound s ((copyOutput s i).1) := by
  unfold copyOutput
  repeat' first
    | with_reducible exact Sound.refl _
    | with_reducible (apply Sound.trans; on_goal 2 => first | apply emit_sound | apply closeJob_sound)
    | with_reducible apply ite_sound
    | split
    | dsimp only
    | refine Sound.upd rfl ?_ rfl rfl rfl rfl rfl

theorem copyOutput_eq_sound {x} {t : State} {s : State} {i : StreamId} (h : copyOutput s i = (t, x)) : Sound s t := by
  have e := copyOutput_sound s i
  rw [h] at e
  exact e

theorem completionRecord_sound (s : State) (i : StreamId) : Sound s (completionRecord s i) := by
  unfold completionRecord
  repeat' first
    | with_reducible exact Sound.refl _
    | with_reducible (apply Sound.trans; on_goal 2 => first | apply copyOutput_sound | (apply copyOutput_eq_sound; assumption) | apply endBatch_sound | apply writeRecord_sound)
    | with_reducible apply ite_sound
    | split
    | dsimp only
    | refine Sound.upd rfl ?_ rfl rfl rfl rfl rfl

theorem writeMask_sound (s : State) (o m : Nat) (v : Word) : Sound s (writeMask s o m v) := by
  unfold writeMask
  repeat' first
    | with_reducible exact Sound.refl _
    | with_reducible (apply Sound.trans; on_goal 2 => apply modReg_sound)
    | dsimp only

theorem clearMask_sound (s : State) (o m : Nat) (v : Word) : Sound s (clearMask s o m v) := by
  unfold clearMask
  repeat' first
    | with_reducible exact Sound.refl _
    | with_reducible (apply Sound.trans; on_goal 2 => apply modReg_sound)
    | dsimp only

theorem writeLockable_sound (s : State) (o : Nat) (v : Word) : Sound s (writeLockable s o v) := by
  unfold writeLockable
  repeat' first
    | with_reducible exact Sound.refl _
    | with_reducible (apply Sound.trans; on_goal 2 => first | apply setReg_sound | apply setField_sound)
    | with_reducible apply ite_sound
    | split
    | dsimp only

theorem writePrio_sound (s : State) (v : Word) : Sound s (writePrio s v) := by
  unfold writePrio
  repeat' first
    | with_reducible exact Sound.refl _
    | with_reducible (apply Sound.trans; on_goal 2 => first | apply setReg_sound | apply setFlag_sound)
    | with_reducible apply ite_sound
    | split
    | dsimp only

theorem writeRefout_sound (s : State) (v : Word) : Sound s (writeRefout s v) := by
  unfold writeRefout
  repeat' first
    | with_reducible exact Sound.refl _
    | with_reducible (apply Sound.trans; on_goal 2 => apply setReg_sound)
    | dsimp only

theorem writeSnap_sound (s : State) (v : Word) : Sound s (writeSnap s v) := by
  unfold writeSnap
  repeat' first
    | with_reducible exact Sound.refl _
    | with_reducible (apply Sound.trans; on_goal 2 => first | apply clearMask_sound | apply setFlag_sound | apply modMisc_sound)
    | with_reducible apply ite_sound
    | split
    | dsimp only
    | refine Sound.upd rfl ?_ rfl rfl rfl rfl rfl

theorem writeCap_sound (s : State) (b : Nat) (v : Word) : Sound s (writeCap s b v) := by
  unfold writeCap
  repeat' first
    | with_reducible exact Sound.refl _
    | with_reducible (apply Sound.trans; on_goal 2 => apply resetRange_sound)
    | with_reducible apply ite_sound
    | split
    | dsimp only

theorem writeMsix_sound (s : State) (o : Nat) (v : Word) : Sound s (writeMsix s o v) := by
  unfold writeMsix
  repeat' first
    | with_reducible exact Sound.refl _
    | with_reducible (apply Sound.trans; on_goal 2 => first | apply writeMask_sound | apply emit_sound | apply setFlag_sound | apply msix_sound | apply setReg_sound)
    | with_reducible apply ite_sound
    | split
    | dsimp only

theorem writeStreamReg_sound (s : State) (i : StreamId) (o : Nat) (v : Word) : Sound s (writeStreamReg s i o v) := by
  unfold writeStreamReg
  repeat' first
    | with_reducible exact Sound.refl _
    | with_reducible (apply Sound.trans; on_goal 2 => first | apply writeMask_sound | apply setFlag_sound | apply writeStreamCtrl_sound | apply clearMask_sound)
    | with_reducible apply ite_sound
    | split
    | dsimp only

theorem writePair_sound (s : State) (v : Word) : Sound s (writePair s v) := by
  unfold writePair
  repeat' first
    | with_reducible exact Sound.refl _
    | with_reducible (apply Sound.trans; on_goal 2 => apply writeMask_sound)
    | with_reducible apply ite_sound
    | split
    | dsimp only

theorem writePairFinding_sound (s : State) (o : Nat) (v : Word) : Sound s (writePairFinding s o v) := by
  unfold writePairFinding
  repeat' first
    | with_reducible exact Sound.refl _
    | with_reducible (apply Sound.trans; on_goal 2 => first | apply setFlag_sound | apply writeMask_sound)
    | with_reducible apply ite_sound
    | split
    | dsimp only

theorem writeSystem_sound (s : State) (o : Nat) (v : Word) : Sound s (writeSystem s o v) := by
  unfold writeSystem
  repeat' first
    | with_reducible exact Sound.refl _
    | with_reducible (apply Sound.trans; on_goal 2 => first | apply writeSnap_sound | apply writeClkKeeper_sound | apply writeClkGate_sound | apply writeRefout_sound | apply writeFcount_sound | apply writePstepReq_sound | apply setReg_sound | apply writePrio_sound | apply writeTimIncr_sound | apply writeTimCtrl_sound | apply writeCfgSelect_sound | apply writeCfgReset_sound | apply ackIdentity_sound | apply writePair_sound | apply clearMask_sound | apply writeMask_sound)
    | with_reducible apply ite_sound
    | split
    | dsimp only

theorem writeErrBlock_sound (s : State) (o : Nat) (v : Word) : Sound s (writeErrBlock s o v) := by
  unfold writeErrBlock
  repeat' first
    | with_reducible exact Sound.refl _
    | with_reducible (apply Sound.trans; on_goal 2 => first | apply clearErrPwr_sound | apply writeCap_sound | apply clearMask_sound | apply writeMask_sound)
    | with_reducible apply ite_sound
    | split
    | dsimp only

theorem writeHostBlock_sound (s : State) (o : Nat) (v : Word) : Sound s (writeHostBlock s o v) := by
  unfold writeHostBlock
  repeat' first
    | with_reducible exact Sound.refl _
    | with_reducible (apply Sound.trans; on_goal 2 => first | apply writeSqTail_sound | apply writeCqHead_sound | apply writeStreamReg_sound | apply writeMsix_sound)
    | with_reducible apply ite_sound
    | split
    | dsimp only

theorem writeFabric_sound (s : State) (o : Nat) (v : Word) : Sound s (writeFabric s o v) := by
  unfold writeFabric
  repeat' first
    | with_reducible exact Sound.refl _
    | with_reducible (apply Sound.trans; on_goal 2 => first | apply writePortMap_sound | apply writePrtCtrl_sound | apply clearMask_sound)
    | with_reducible apply ite_sound
    | split
    | dsimp only

theorem writeReg_sound (s : State) (a : Agent) (o : Nat) (v : Word) : Sound s (writeReg s a o v) := by
  unfold writeReg
  repeat' first
    | with_reducible exact Sound.refl _
    | with_reducible (apply Sound.trans; on_goal 2 => first | apply writePodReg_sound | apply writeLockable_sound | apply writePairFinding_sound | apply writeSystem_sound | apply writeErrBlock_sound | apply writeHostBlock_sound | apply writeFabric_sound)
    | with_reducible apply ite_sound
    | split
    | dsimp only
    | refine Sound.upd rfl ?_ rfl rfl rfl rfl rfl

theorem readAccess_sound (s : State) (a : Agent) (o n : Nat) : Sound s ((readAccess s a o n).2) := by
  unfold readAccess
  repeat' first
    | with_reducible exact Sound.refl _
    | with_reducible (apply Sound.trans; on_goal 2 => first | apply readReg_sound | (apply readReg_eq_sound; assumption))
    | with_reducible apply ite_sound
    | split
    | dsimp only

theorem readAccess_eq_sound {x} {t : State} {s : State} {a : Agent} {o n : Nat} (h : readAccess s a o n = (x, t)) : Sound s t := by
  have e := readAccess_sound s a o n
  rw [h] at e
  exact e

theorem writeAccess_sound (s : State) (a : Agent) (o n : Nat) (v : Word64) : Sound s (writeAccess s a o n v) := by
  unfold writeAccess
  repeat' first
    | with_reducible exact Sound.refl _
    | with_reducible (apply Sound.trans; on_goal 2 => apply writeReg_sound)
    | with_reducible apply ite_sound
    | split
    | dsimp only

theorem applySetting_sound (s : State) (e : List Byte) : Sound s (applySetting s e) := by
  unfold applySetting
  repeat' first
    | with_reducible exact Sound.refl _
    | with_reducible (apply Sound.trans; on_goal 2 => first | apply raiseErr_sound | apply writeReg_sound)
    | with_reducible apply ite_sound
    | with_reducible (apply foldl_sound_fst; on_goal 2 => intro _ _)
    | with_reducible (apply foldl_sound; on_goal 2 => intro _ _)
    | split
    | dsimp only
    | refine Sound.upd rfl ?_ rfl rfl rfl rfl rfl

theorem checkPsteps_sound (s : State) : Sound s (checkPsteps s) := by
  unfold checkPsteps
  repeat' first
    | with_reducible exact Sound.refl _
    | with_reducible (apply Sound.trans; on_goal 2 => first | apply setFlag_sound | apply resetRange_sound)
    | with_reducible apply ite_sound
    | split
    | dsimp only

theorem applySettings_sound (s : State) : Sound s (applySettings s) := by
  unfold applySettings
  repeat' first
    | with_reducible exact Sound.refl _
    | with_reducible (apply Sound.trans; on_goal 2 => apply applySetting_sound)
    | with_reducible apply ite_sound
    | with_reducible (apply foldl_sound_fst; on_goal 2 => intro _ _)
    | with_reducible (apply foldl_sound; on_goal 2 => intro _ _)
    | split
    | dsimp only

theorem showImages_sound (s : State) : Sound s (showImages s) := by
  unfold showImages
  repeat' first
    | with_reducible exact Sound.refl _
    | with_reducible (apply Sound.trans; on_goal 2 => apply setReg_sound)
    | with_reducible (apply foldl_sound_fst; on_goal 2 => intro _ _)
    | with_reducible (apply foldl_sound; on_goal 2 => intro _ _)
    | dsimp only

theorem setUnits_sound (s : State) (st : Nat) (links : Bool) : Sound s (setUnits s st links) := by
  unfold setUnits
  repeat' first
    | with_reducible exact Sound.refl _
    | with_reducible (apply Sound.trans; on_goal 2 => apply setFunc_sound)
    | with_reducible apply ite_sound
    | with_reducible (apply foldl_sound_fst; on_goal 2 => intro _ _)
    | with_reducible (apply foldl_sound; on_goal 2 => intro _ _)
    | split
    | dsimp only

theorem startUnits_sound (s : State) : Sound s (startUnits s) := by
  unfold startUnits
  repeat' first
    | with_reducible exact Sound.refl _
    | with_reducible (apply Sound.trans; on_goal 2 => first | apply setUnits_sound | apply showImages_sound | apply writeRails_sound | apply enterDetect_sound)
    | with_reducible (apply forEach_sound; on_goal 2 => intro _ _)
    | dsimp only

theorem resetLockable_sound (s : State) : Sound s (resetLockable s) :=
  ⟨rfl, rfl, fun h => ⟨h.1, tabWf_filter h.2 _⟩, List.prefix_rfl, Nat.le_refl _⟩

theorem configCommit_sound (s : State) : Sound s (configCommit s) := by
  unfold configCommit
  repeat' first
    | with_reducible exact Sound.refl _
    | with_reducible (apply Sound.trans; on_goal 2 => first | apply readManifest_sound | apply setUnits_sound | apply setFlag_sound | apply resetLockable_sound | apply checkPsteps_sound | apply applySettings_sound | apply startUnits_sound)
    | with_reducible apply ite_sound
    | split
    | dsimp only
    | refine Sound.upd rfl ?_ rfl rfl rfl rfl rfl

theorem refusalCode_sound (s : State) (b : List Byte) (s0 : Nat) : Sound s ((refusalCode s b s0).2) := by
  unfold refusalCode
  repeat' first
    | with_reducible exact Sound.refl _
    | with_reducible (apply Sound.trans; on_goal 2 => apply draw_sound)
    | split
    | dsimp only
    | refine Sound.upd rfl ?_ rfl rfl rfl rfl rfl

theorem refusalCode_eq_sound {x} {t : State} {s : State} {b : List Byte} {s0 : Nat} (h : refusalCode s b s0 = (x, t)) : Sound s t := by
  have e := refusalCode_sound s b s0
  rw [h] at e
  exact e

theorem resetWeight_sound (s : State) : Sound s (resetWeight s) := by
  unfold resetWeight
  repeat' first
    | with_reducible exact Sound.refl _
    | with_reducible (apply Sound.trans; on_goal 2 => first | apply modMisc_sound | apply postEvent_sound)
    | with_reducible apply ite_sound
    | split
    | dsimp only
    | refine Sound.upd rfl ?_ rfl rfl rfl rfl rfl

theorem acceptWeave_sound (s : State) (w : Weave) : Sound s (acceptWeave s w) := by
  unfold acceptWeave
  repeat' first
    | with_reducible exact Sound.refl _
    | with_reducible (apply Sound.trans; on_goal 2 => first | apply setReg64_sound | apply setFlag_sound | apply resetRange_sound | apply buildRoutes_sound | apply resetWeight_sound | apply pauseStreams_sound)
    | dsimp only
    | refine Sound.upd rfl ?_ rfl rfl rfl rfl rfl

theorem commitUnit_sound (l : List (Nat × PodId × Nat × List Word)) (s : State) (u : PodId × Nat) : Sound s (commitUnit l s u) := by
  unfold commitUnit
  repeat' first
    | with_reducible exact Sound.refl _
    | with_reducible (apply Sound.trans; on_goal 2 => first | apply storeRead_sound | (apply storeRead_eq_sound; assumption) | apply addSat_sound | apply nextSerial_sound | (apply nextSerial_eq_sound; assumption) | apply modPod_sound | apply netStream_sound)
    | with_reducible apply ite_sound
    | split
    | dsimp only

theorem finishCommits_sound (s : State) (p : PodId) : Sound s (finishCommits s p) := by
  unfold finishCommits
  repeat' first
    | with_reducible exact Sound.refl _
    | with_reducible (apply Sound.trans; on_goal 2 => first | apply setPod_sound | apply writeRange_sound)
    | with_reducible (apply forEach_sound; on_goal 2 => intro _ _)
    | dsimp only
    | refine Sound.upd rfl ?_ rfl rfl rfl rfl rfl

theorem applyCommits_sound (s : State) (j : Nat) : Sound s (applyCommits s j) := by
  unfold applyCommits
  repeat' first
    | with_reducible exact Sound.refl _
    | with_reducible (apply Sound.trans; on_goal 2 => first | apply finishCommits_sound | apply modMisc_sound | apply commitUnit_sound)
    | with_reducible (apply foldl_sound_fst; on_goal 2 => intro _ _)
    | with_reducible (apply foldl_sound; on_goal 2 => intro _ _)
    | dsimp only
    | refine Sound.upd rfl ?_ rfl rfl rfl rfl rfl

theorem retryLocal_sound (s : State) : Sound s (retryLocal s) := by
  unfold retryLocal
  repeat' first
    | with_reducible exact Sound.refl _
    | with_reducible (apply Sound.trans; on_goal 2 => first | apply settleLocal_sound | apply deliverOcommit_sound)
    | with_reducible (apply foldl_sound_fst; on_goal 2 => intro _ _)
    | with_reducible (apply foldl_sound; on_goal 2 => intro _ _)
    | dsimp only

theorem showPairDigests_sound (s : State) : Sound s (showPairDigests s) := by
  unfold showPairDigests
  repeat' first
    | with_reducible exact Sound.refl _
    | with_reducible (apply Sound.trans; on_goal 2 => apply setReg64_sound)
    | with_reducible (apply foldl_sound_fst; on_goal 2 => intro _ _)
    | with_reducible (apply foldl_sound; on_goal 2 => intro _ _)
    | dsimp only

theorem sendPairDigests_sound (s : State) : Sound s (sendPairDigests s) := by
  unfold sendPairDigests
  repeat' first
    | with_reducible exact Sound.refl _
    | with_reducible (apply Sound.trans; on_goal 2 => apply queueTx_sound)
    | with_reducible apply ite_sound
    | with_reducible (apply foldl_sound_fst; on_goal 2 => intro _ _)
    | with_reducible (apply foldl_sound; on_goal 2 => intro _ _)
    | split
    | dsimp only

theorem matchPairDigests_sound (s : State) : Sound s (matchPairDigests s) := by
  unfold matchPairDigests
  repeat' first
    | with_reducible exact Sound.refl _
    | with_reducible (apply Sound.trans; on_goal 2 => first | apply comparePair_sound | apply modMisc_sound)
    | with_reducible apply ite_sound
    | split
    | dsimp only
    | refine Sound.upd rfl ?_ rfl rfl rfl rfl rfl

theorem recordCheckpoint_sound (s : State) (c : Nat) : Sound s (recordCheckpoint s c) := by
  unfold recordCheckpoint
  repeat' first
    | with_reducible exact Sound.refl _
    | with_reducible (apply Sound.trans; on_goal 2 => first | apply setField_sound | apply setReg64_sound | apply setFlag_sound)
    | with_reducible apply ite_sound
    | split
    | dsimp only
    | refine Sound.upd rfl ?_ rfl rfl rfl rfl rfl

theorem checkpointStep_sound (s : State) : Sound s (checkpointStep s) := by
  unfold checkpointStep
  repeat' first
    | with_reducible exact Sound.refl _
    | with_reducible (apply Sound.trans; on_goal 2 => apply recordCheckpoint_sound)
    | with_reducible apply ite_sound
    | split
    | dsimp only
    | refine Sound.upd rfl ?_ rfl rfl rfl rfl rfl

theorem endFrame_sound (s : State) : Sound s (endFrame s) := by
  unfold endFrame
  repeat' first
    | with_reducible exact Sound.refl _
    | with_reducible (apply Sound.trans; on_goal 2 => first | apply checkpointStep_sound | apply matchPairDigests_sound | apply sendPairDigests_sound | apply showPairDigests_sound)
    | with_reducible apply ite_sound
    | split
    | dsimp only
    | refine Sound.upd rfl ?_ rfl rfl rfl rfl rfl

theorem resumePod_sound (s : State) (p : PodId) : Sound s (resumePod s p) := by
  unfold resumePod
  repeat' first
    | with_reducible exact Sound.refl _
    | with_reducible (apply Sound.trans; on_goal 2 => first | apply draw_sound | apply modCore_sound | apply setFlag_sound)
    | with_reducible apply ite_sound
    | split
    | dsimp only
    | refine Sound.upd rfl ?_ rfl rfl rfl rfl rfl

theorem resumePods_sound (s : State) : Sound s (resumePods s) := by
  unfold resumePods
  repeat' first
    | with_reducible exact Sound.refl _
    | with_reducible (apply Sound.trans; on_goal 2 => apply resumePod_sound)
    | with_reducible (apply foldl_sound_fst; on_goal 2 => intro _ _)
    | with_reducible (apply foldl_sound; on_goal 2 => intro _ _)
    | dsimp only

theorem takeWeight_sound (s : State) : Sound s (takeWeight s) := by
  unfold takeWeight
  repeat' first
    | with_reducible exact Sound.refl _
    | with_reducible (apply Sound.trans; on_goal 2 => first | apply setDigest_sound | apply modMisc_sound)
    | dsimp only
    | refine Sound.upd rfl ?_ rfl rfl rfl rfl rfl

theorem landArrivals_sound (s : State) : Sound s (landArrivals s) := by
  unfold landArrivals
  repeat' first
    | with_reducible exact Sound.refl _
    | with_reducible (apply Sound.trans; on_goal 2 => first | apply externalWrite_sound | apply modFsq_sound)
    | with_reducible (apply forEach_sound; on_goal 2 => intro _ _)
    | with_reducible (apply foldl_sound_fst; on_goal 2 => intro _ _)
    | with_reducible (apply foldl_sound; on_goal 2 => intro _ _)
    | dsimp only
    | refine Sound.upd rfl ?_ rfl rfl rfl rfl rfl

theorem frameWork_sound (s0 : State) : Sound s0 (frameWork s0) := by
  unfold frameWork
  repeat' first
    | with_reducible exact Sound.refl _
    | with_reducible (apply Sound.trans; on_goal 2 => first | apply landArrivals_sound | apply takeWeight_sound | apply reofferEntries_sound | apply processPosts_sound)
    | dsimp only
    | refine Sound.upd rfl ?_ rfl rfl rfl rfl rfl

theorem beginFrame_sound (s : State) (k : Nat) : Sound s (beginFrame s k) := by
  unfold beginFrame
  repeat' first
    | with_reducible exact Sound.refl _
    | dsimp only
    | refine Sound.upd rfl ?_ rfl rfl rfl rfl rfl

theorem firstFrame_sound (s : State) (w : Weave) : Sound s (firstFrame s w) := by
  unfold firstFrame
  repeat' first
    | with_reducible exact Sound.refl _
    | with_reducible (apply Sound.trans; on_goal 2 => first | apply resumePods_sound | apply startStreams_sound | apply beginFrame_sound | apply frameWork_sound)
    | dsimp only

theorem nextFrame_sound (s : State) : Sound s (nextFrame s) := by
  unfold nextFrame
  repeat' first
    | with_reducible exact Sound.refl _
    | with_reducible (apply Sound.trans; on_goal 2 => first | apply beginFrame_sound | apply frameWork_sound | apply retryLocal_sound | apply applyCommits_sound | apply resumePods_sound)
    | with_reducible apply ite_sound
    | split
    | dsimp only

theorem frameStart_sound (s0 : State) : Sound s0 (frameStart s0) := by
  unfold frameStart
  repeat' first
    | with_reducible exact Sound.refl _
    | with_reducible (apply Sound.trans; on_goal 2 => first | apply endFrame_sound | apply beginFrame_sound | apply frameWork_sound | apply nextFrame_sound | apply firstFrame_sound)
    | with_reducible apply ite_sound
    | split
    | dsimp only
    | refine Sound.upd rfl ?_ rfl rfl rfl rfl rfl

theorem newStake_sound (s : State) : Sound s (newStake s) := by
  unfold newStake
  repeat' first
    | with_reducible exact Sound.refl _
    | with_reducible (apply Sound.trans; on_goal 2 => first | apply setReg_sound | apply setReg64_sound)
    | dsimp only
    | refine Sound.upd rfl ?_ rfl rfl rfl rfl rfl

theorem freeWarp_sound (s : State) : Sound s (freeWarp s) := by
  unfold freeWarp
  repeat' first
    | with_reducible exact Sound.refl _
    | with_reducible (apply Sound.trans; on_goal 2 => apply modPort_sound)
    | with_reducible (apply forEach_sound; on_goal 2 => intro _ _)
    | dsimp only
    | refine Sound.upd rfl ?_ rfl rfl rfl rfl rfl

theorem clearFsq_sound (s : State) : Sound s (clearFsq s) := by
  unfold clearFsq
  repeat' first
    | with_reducible exact Sound.refl _
    | with_reducible (apply Sound.trans; on_goal 2 => apply modFsq_sound)
    | with_reducible (apply forEach_sound; on_goal 2 => intro _ _)
    | with_reducible apply ite_sound
    | split
    | dsimp only
    | refine Sound.upd rfl ?_ rfl rfl rfl rfl rfl

theorem clearWeave_sound (s : State) : Sound s (clearWeave s) := by
  unfold clearWeave
  repeat' first
    | with_reducible exact Sound.refl _
    | with_reducible (apply Sound.trans; on_goal 2 => first | apply setReg_sound | apply modFsq_sound | apply setFlag_sound)
    | with_reducible (apply forEach_sound; on_goal 2 => intro _ _)
    | dsimp only
    | refine Sound.upd rfl ?_ rfl rfl rfl rfl rfl

theorem cleanFault_sound (s : State) : Sound s (cleanFault s) := by
  unfold cleanFault
  repeat' first
    | with_reducible exact Sound.refl _
    | with_reducible (apply Sound.trans; on_goal 2 => first | apply modMisc_sound | apply clearWeave_sound)
    | dsimp only
    | refine Sound.upd rfl ?_ rfl rfl rfl rfl rfl

theorem beginRecovery_sound (s : State) (w : Weave) (n : Notice) : Sound s (beginRecovery s w n) := by
  unfold beginRecovery
  repeat' first
    | with_reducible exact Sound.refl _
    | with_reducible (apply Sound.trans; on_goal 2 => first | apply setFlag_sound | apply setField_sound | apply setReg_sound | apply modCore_sound)
    | with_reducible (apply forEach_sound; on_goal 2 => intro _ _)
    | with_reducible apply ite_sound
    | split
    | dsimp only
    | refine Sound.upd rfl ?_ rfl rfl rfl rfl rfl

theorem nextWeaveStake_sound (s : State) (w : Weave) : Sound s (nextWeaveStake s w) := by
  unfold nextWeaveStake
  repeat' first
    | with_reducible exact Sound.refl _
    | with_reducible (apply Sound.trans; on_goal 2 => first | apply setField_sound | apply setReg64_sound | apply setFlag_sound)
    | dsimp only

theorem runningStake_sound (s : State) (w : Weave) (failed : Option Notice) : Sound s (runningStake s w failed) := by
  unfold runningStake
  repeat' first
    | with_reducible exact Sound.refl _
    | with_reducible (apply Sound.trans; on_goal 2 => first | apply beginRecovery_sound | apply nextWeaveStake_sound)
    | split
    | dsimp only
    | refine Sound.upd rfl ?_ rfl rfl rfl rfl rfl

theorem beginQuiet_sound (s : State) (w : Weave) : Sound s (beginQuiet s w) := by
  unfold beginQuiet
  repeat' first
    | with_reducible exact Sound.refl _
    | with_reducible (apply Sound.trans; on_goal 2 => first | apply setFlag_sound | apply clearWeave_sound | apply modCore_sound)
    | with_reducible (apply forEach_sound; on_goal 2 => intro _ _)
    | with_reducible apply ite_sound
    | split
    | dsimp only
    | refine Sound.upd rfl ?_ rfl rfl rfl rfl rfl

theorem startPair_sound (s : State) : Sound s (startPair s) := by
  unfold startPair
  repeat' first
    | with_reducible exact Sound.refl _
    | with_reducible (apply Sound.trans; on_goal 2 => first | apply setField_sound | apply setFlag_sound)
    | with_reducible apply ite_sound
    | split
    | dsimp only

theorem beginWeave_sound (s : State) (w : Weave) : Sound s (beginWeave s w) := by
  unfold beginWeave
  repeat' first
    | with_reducible exact Sound.refl _
    | with_reducible (apply Sound.trans; on_goal 2 => first | apply setReg64_sound | apply setReg_sound | apply startPair_sound)
    | dsimp only
    | refine Sound.upd rfl ?_ rfl rfl rfl rfl rfl

theorem weaveBoundary_sound (s : State) (n : Nat) (failed : Option Notice) : Sound s (weaveBoundary s n failed) := by
  unfold weaveBoundary
  repeat' first
    | with_reducible exact Sound.refl _
    | with_reducible (apply Sound.trans; on_goal 2 => first | apply cleanFault_sound | apply beginWeave_sound | apply beginQuiet_sound | apply runningStake_sound | apply clearWeave_sound)
    | with_reducible apply ite_sound
    | split
    | dsimp only
    | refine Sound.upd rfl ?_ rfl rfl rfl rfl rfl

theorem stakeBoundary_sound (s : State) (stackTemps cdTemps ioTemps : List Byte) : Sound s (stakeBoundary s stackTemps cdTemps ioTemps) := by
  unfold stakeBoundary
  repeat' first
    | with_reducible exact Sound.refl _
    | with_reducible (apply Sound.trans; on_goal 2 => first | apply readJunctions_sound | apply readStacks_sound | apply newStake_sound | apply latchEpoch_sound | apply applyTimeWrites_sound | apply weaveBoundary_sound | apply freeWarp_sound | apply holdNotice_sound | apply clearFsq_sound)
    | with_reducible apply ite_sound
    | split
    | dsimp only

theorem zeroWindow_sound (s : State) (p : PodId) (w : PodWindow) : Sound s (zeroWindow s p w) := by
  unfold zeroWindow
  repeat' first
    | with_reducible exact Sound.refl _
    | with_reducible (apply Sound.trans; on_goal 2 => apply memZero_sound)
    | dsimp only

theorem loadPodRegs_sound (s : State) (p : PodId) (w : Weave) (len : Nat) : Sound s (loadPodRegs s p w len) := by
  unfold loadPodRegs
  repeat' first
    | with_reducible exact Sound.refl _
    | with_reducible (apply Sound.trans; on_goal 2 => first | apply resetRange_sound | apply setReg_sound | apply setReg64_sound | apply setFlag_sound)
    | dsimp only

theorem loadPod_sound (s : State) (w : Weave) (p : PodId) : Sound s (loadPod s w p) := by
  unfold loadPod
  repeat' first
    | with_reducible exact Sound.refl _
    | with_reducible (apply Sound.trans; on_goal 2 => first | apply zeroWindow_sound | apply modPod_sound | apply loadPodRegs_sound)
    | dsimp only
    | refine Sound.upd rfl ?_ rfl rfl rfl rfl rfl

theorem loadFsq_sound (s : State) (w : Weave) (f : FsqId) : Sound s (loadFsq s w f) := by
  unfold loadFsq
  repeat' first
    | with_reducible exact Sound.refl _
    | with_reducible (apply Sound.trans; on_goal 2 => first | apply modFsq_sound | apply resetRange_sound | apply setReg_sound)
    | dsimp only
    | refine Sound.upd rfl ?_ rfl rfl rfl rfl rfl

theorem installWeave_sound (s : State) (w : Weave) : Sound s (installWeave s w) := by
  unfold installWeave
  repeat' first
    | with_reducible exact Sound.refl _
    | with_reducible (apply Sound.trans; on_goal 2 => first | apply loadFsq_sound | apply loadPod_sound | apply setDigest_sound | apply setReg64_sound | apply setReg_sound | apply modMisc_sound)
    | with_reducible (apply foldl_sound_fst; on_goal 2 => intro _ _)
    | with_reducible (apply foldl_sound; on_goal 2 => intro _ _)
    | dsimp only
    | refine Sound.upd rfl ?_ rfl rfl rfl rfl rfl

theorem quietDone_sound (s : State) : Sound s (quietDone s) := by
  unfold quietDone
  repeat' first
    | with_reducible exact Sound.refl _
    | with_reducible (apply Sound.trans; on_goal 2 => apply installWeave_sound)
    | with_reducible apply ite_sound
    | split
    | dsimp only
    | refine Sound.upd rfl ?_ rfl rfl rfl rfl rfl

theorem spliceReloaded_sound (s : State) (p : PodId) : Sound s (spliceReloaded s p) := by
  unfold spliceReloaded
  repeat' first
    | with_reducible exact Sound.refl _
    | with_reducible (apply Sound.trans; on_goal 2 => first | apply modPod_sound | apply setField_sound)
    | with_reducible apply ite_sound
    | split
    | dsimp only
    | refine Sound.upd rfl ?_ rfl rfl rfl rfl rfl

theorem sendAgain_sound (s : State) : Sound s (sendAgain s) := by
  unfold sendAgain
  repeat' first
    | with_reducible exact Sound.refl _
    | with_reducible (apply Sound.trans; on_goal 2 => apply floodNotice_sound)
    | with_reducible (apply foldl_sound_fst; on_goal 2 => intro _ _)
    | with_reducible (apply foldl_sound; on_goal 2 => intro _ _)
    | dsimp only
    | refine Sound.upd rfl ?_ rfl rfl rfl rfl rfl

theorem assertHold_sound (s : State) (j : Nat × Nat) : Sound s (assertHold s j) := by
  unfold assertHold
  repeat' first
    | with_reducible exact Sound.refl _
    | with_reducible (apply Sound.trans; on_goal 2 => first | apply setFlag_sound | apply setReg_sound)
    | with_reducible apply ite_sound
    | split
    | dsimp only
    | refine Sound.upd rfl ?_ rfl rfl rfl rfl rfl

theorem judgeTick_sound (s : State) : Sound s (judgeTick s) := by
  unfold judgeTick
  repeat' first
    | with_reducible exact Sound.refl _
    | with_reducible apply ite_sound
    | split
    | dsimp only
    | refine Sound.upd rfl ?_ rfl rfl rfl rfl rfl

theorem checkPoint_sound (s : State) : Sound s (checkPoint s) := by
  unfold checkPoint
  repeat' first
    | with_reducible exact Sound.refl _
    | with_reducible (apply Sound.trans; on_goal 2 => first | apply sendAgain_sound | apply assertHold_sound)
    | with_reducible apply ite_sound
    | split
    | dsimp only
    | refine Sound.upd rfl ?_ rfl rfl rfl rfl rfl

theorem extendStake_sound (s : State) : Sound s (extendStake s) := by
  unfold extendStake
  repeat' first
    | with_reducible exact Sound.refl _
    | with_reducible (apply Sound.trans; on_goal 2 => first | apply setField_sound | apply add64_sound | apply setFlag_sound)
    | dsimp only
    | refine Sound.upd rfl ?_ rfl rfl rfl rfl rfl

theorem endStake_sound (s : State) : Sound s (endStake s) := by
  unfold endStake
  repeat' first
    | with_reducible exact Sound.refl _
    | with_reducible (apply Sound.trans; on_goal 2 => apply setFlag_sound)
    | dsimp only
    | refine Sound.upd rfl ?_ rfl rfl rfl rfl rfl

theorem commitPoint_sound (s : State) : Sound s (commitPoint s) := by
  unfold commitPoint
  repeat' first
    | with_reducible exact Sound.refl _
    | with_reducible (apply Sound.trans; on_goal 2 => first | apply endStake_sound | apply extendStake_sound | apply raiseFault_sound)
    | with_reducible apply ite_sound
    | split
    | dsimp only

theorem takeDoe_sound (s : State) (kind : DoeKind) (req : List Byte) : Sound s (takeDoe s kind req) := by
  unfold takeDoe
  repeat' first
    | with_reducible exact Sound.refl _
    | with_reducible apply ite_sound
    | split
    | dsimp only
    | refine Sound.upd rfl ?_ rfl rfl rfl rfl rfl

theorem answerDoe_sound (s : State) : Sound s (answerDoe s) := by
  unfold answerDoe
  repeat' first
    | with_reducible exact Sound.refl _
    | with_reducible (apply Sound.trans; on_goal 2 => first | apply draw_sound | apply msix_sound | apply emit_sound)
    | with_reducible apply ite_sound
    | split
    | dsimp only
    | refine Sound.upd rfl ?_ rfl rfl rfl rfl rfl

theorem idleTick_sound (s : State) : Sound s (idleTick s) := by
  unfold idleTick
  repeat' first
    | with_reducible exact Sound.refl _
    | with_reducible (apply Sound.trans; on_goal 2 => first | apply judgeTick_sound | apply passTick_sound | apply answerDoe_sound)
    | dsimp only

theorem takeAdmin_sound (s : State) : Sound s (takeAdmin s) := by
  unfold takeAdmin
  repeat' first
    | with_reducible exact Sound.refl _
    | with_reducible (apply Sound.trans; on_goal 2 => first | apply takeSeq_sound | (apply takeSeq_eq_sound; assumption) | apply passHead_sound | apply modMisc_sound)
    | dsimp only
    | refine Sound.upd rfl ?_ rfl rfl rfl rfl rfl

theorem finishAdmin_sound (s : State) (irq : Bool) (status : Nat) (data : List Byte) (arg0 arg1 : Nat) : Sound s (finishAdmin s irq status data arg0 arg1) := by
  unfold finishAdmin
  repeat' first
    | with_reducible exact Sound.refl _
    | with_reducible (apply Sound.trans; on_goal 2 => apply queueAdmin_sound)
    | dsimp only

theorem failAdmin_sound (s : State) (d : List Byte) (status : Nat) : Sound s (failAdmin s d status) := by
  unfold failAdmin
  repeat' first
    | with_reducible exact Sound.refl _
    | with_reducible (apply Sound.trans; on_goal 2 => apply finishAdmin_sound)
    | dsimp only

theorem dmaFailed_sound (s : State) (d : List Byte) (addr : Nat) : Sound s (dmaFailed s d addr) := by
  unfold dmaFailed
  repeat' first
    | with_reducible exact Sound.refl _
    | with_reducible (apply Sound.trans; on_goal 2 => first | apply failAdmin_sound | apply raiseErr_sound)
    | dsimp only

theorem runAdmin_sound (s : State) (desc : List Byte) (op : Nat) (body : State → List Byte → State) (hb : ∀ t a1, Sound t (body t a1)) : Sound s (runAdmin s desc op body) := by
  unfold runAdmin
  repeat' first
    | with_reducible exact Sound.refl _
    | with_reducible assumption
    | with_reducible (apply Sound.trans; on_goal 2 => first | apply takeAdmin_sound | apply failAdmin_sound)
    | with_reducible (apply Sound.trans; on_goal 2 => apply hb)
    | with_reducible apply hb
    | with_reducible apply ite_sound
    | split
    | dsimp only

theorem loadWeave_sound (s : State) (d image seedSet : List Byte) (readFails : Bool) : Sound s (loadWeave s d image seedSet readFails) := by
  unfold loadWeave
  repeat' first
    | with_reducible exact Sound.refl _
    | with_reducible (apply Sound.trans; on_goal 2 => first | apply failAdmin_sound | apply dmaFailed_sound | apply memWrite_sound | apply countRoot_sound | apply refusalCode_sound | (apply refusalCode_eq_sound; assumption) | apply finishAdmin_sound | apply acceptWeave_sound)
    | with_reducible apply ite_sound
    | split
    | dsimp only
    | refine Sound.upd rfl ?_ rfl rfl rfl rfl rfl

theorem loadBytes_sound (s : State) (d bytes : List Byte) (readFails : Bool) : Sound s (loadBytes s d bytes readFails) := by
  unfold loadBytes
  repeat' first
    | with_reducible exact Sound.refl _
    | with_reducible (apply Sound.trans; on_goal 2 => first | apply failAdmin_sound | apply dmaFailed_sound | apply modMisc_sound | apply hostPut_sound | (apply hostPut_eq_sound; assumption))
    | with_reducible apply ite_sound
    | split
    | dsimp only
    | refine Sound.upd rfl ?_ rfl rfl rfl rfl rfl

theorem loadComplete_sound (s0 : State) : Sound s0 (loadComplete s0) := by
  unfold loadComplete
  repeat' first
    | with_reducible exact Sound.refl _
    | with_reducible (apply Sound.trans; on_goal 2 => first | apply closeJob_sound | apply finishAdmin_sound | apply modMisc_sound | apply postEvent_sound)
    | with_reducible apply ite_sound
    | split
    | dsimp only
    | refine Sound.upd rfl ?_ rfl rfl rfl rfl rfl

theorem readBytes_sound (s : State) (d : List Byte) : Sound s (readBytes s d) := by
  unfold readBytes
  repeat' first
    | with_reducible exact Sound.refl _
    | with_reducible (apply Sound.trans; on_goal 2 => first | apply failAdmin_sound | apply hostGet_sound | (apply hostGet_eq_sound; assumption) | apply emit_sound)
    | with_reducible apply ite_sound
    | split
    | dsimp only
    | refine Sound.upd rfl ?_ rfl rfl rfl rfl rfl

theorem storeManifest_sound (s : State) (d bytes : List Byte) (readFails : Bool) : Sound s (storeManifest s d bytes readFails) := by
  unfold storeManifest
  repeat' first
    | with_reducible exact Sound.refl _
    | with_reducible (apply Sound.trans; on_goal 2 => first | apply failAdmin_sound | apply dmaFailed_sound | apply raiseErr_sound | apply finishAdmin_sound | apply putFlash_sound)
    | with_reducible apply ite_sound
    | split
    | dsimp only
    | refine Sound.upd rfl ?_ rfl rfl rfl rfl rfl

theorem withSlot_sound (s : State) (d : List Byte) (body : Fin 2 → State) (hb : ∀ i, Sound s (body i)) : Sound s (withSlot s d body) := by
  unfold withSlot
  repeat' first
    | with_reducible exact Sound.refl _
    | with_reducible assumption
    | with_reducible (apply Sound.trans; on_goal 2 => apply failAdmin_sound)
    | with_reducible (apply Sound.trans; on_goal 2 => apply hb)
    | with_reducible apply hb
    | with_reducible apply ite_sound
    | split
    | dsimp only
    | intro _

theorem bundleWrite_sound (s : State) (d bytes : List Byte) (readFails : Bool) : Sound s (bundleWrite s d bytes readFails) := by
  unfold bundleWrite
  repeat' first
    | with_reducible exact Sound.refl _
    | with_reducible (apply Sound.trans; on_goal 2 => first | apply withSlot_sound | apply failAdmin_sound | apply dmaFailed_sound | apply showSlots_sound | apply putFlash_sound)
    | with_reducible apply ite_sound
    | split
    | dsimp only
    | intro _
    | refine Sound.upd rfl ?_ rfl rfl rfl rfl rfl

theorem bundleVerify_sound (s : State) (d : List Byte) : Sound s (bundleVerify s d) := by
  unfold bundleVerify
  repeat' first
    | with_reducible exact Sound.refl _
    | with_reducible (apply Sound.trans; on_goal 2 => first | apply withSlot_sound | apply showSlots_sound | apply putFlash_sound | apply finishAdmin_sound)
    | with_reducible apply ite_sound
    | split
    | dsimp only
    | intro _
    | refine Sound.upd rfl ?_ rfl rfl rfl rfl rfl

theorem bundleCommit_sound (s : State) (d : List Byte) : Sound s (bundleCommit s d) := by
  unfold bundleCommit
  repeat' first
    | with_reducible exact Sound.refl _
    | with_reducible (apply Sound.trans; on_goal 2 => first | apply failAdmin_sound | apply showSlots_sound | apply putFlash_sound)
    | with_reducible apply ite_sound
    | split
    | dsimp only

theorem bundleRead_sound (s : State) (d : List Byte) : Sound s (bundleRead s d) := by
  unfold bundleRead
  repeat' first
    | with_reducible exact Sound.refl _
    | with_reducible (apply Sound.trans; on_goal 2 => first | apply withSlot_sound | apply failAdmin_sound | apply emit_sound)
    | with_reducible apply ite_sound
    | split
    | dsimp only
    | intro _
    | refine Sound.upd rfl ?_ rfl rfl rfl rfl rfl

theorem setTap_sound (s : State) (c : Byte) : Sound s (setTap s c) := by
  unfold setTap
  repeat' first
    | with_reducible exact Sound.refl _
    | with_reducible apply ite_sound
    | split
    | dsimp only
    | refine Sound.upd rfl ?_ rfl rfl rfl rfl rfl

theorem boundaryTap_sound (s : State) (c : Byte) : Sound s (boundaryTap s c) := by
  unfold boundaryTap
  repeat' first
    | with_reducible exact Sound.refl _
    | with_reducible (apply Sound.trans; on_goal 2 => apply setTap_sound)
    | with_reducible apply ite_sound
    | split
    | dsimp only

theorem tapAnswer_sound (s : State) (o : Output) : Sound s (tapAnswer s o) := by
  unfold tapAnswer
  repeat' first
    | with_reducible exact Sound.refl _
    | with_reducible (apply Sound.trans; on_goal 2 => apply emit_sound)
    | with_reducible apply ite_sound
    | split
    | dsimp only

theorem debugCommand_sound (s0 : State) (f : DbgFields) (free joins : Bool) (body : State → State) (hb : ∀ t, Sound t (body t)) : Sound s0 (debugCommand s0 f free joins body) := by
  unfold debugCommand
  repeat' first
    | with_reducible exact Sound.refl _
    | with_reducible assumption
    | with_reducible (apply Sound.trans; on_goal 2 => first | apply setTap_sound | apply tapAnswer_sound | apply debugAnswer_sound | apply setFlag_sound)
    | with_reducible (apply Sound.trans; on_goal 2 => apply hb)
    | with_reducible apply hb
    | with_reducible apply ite_sound
    | split
    | dsimp only

theorem plainCommand_sound (s : State) (f : DbgFields) (body : State → State) (hb : ∀ t, Sound t (body t)) : Sound s (plainCommand s f body) := by
  unfold plainCommand
  repeat' first
    | with_reducible exact Sound.refl _
    | with_reducible assumption
    | with_reducible (apply Sound.trans; on_goal 2 => apply debugCommand_sound)
    | with_reducible (apply Sound.trans; on_goal 2 => apply hb)
    | with_reducible apply hb
    | dsimp only
    | intro _

theorem podCommand_sound (s : State) (f : DbgFields) (every joins : Bool) (body : State → List PodId → State) (hb : ∀ t a1, Sound t (body t a1)) : Sound s (podCommand s f every joins body) := by
  unfold podCommand
  repeat' first
    | with_reducible exact Sound.refl _
    | with_reducible assumption
    | with_reducible (apply Sound.trans; on_goal 2 => first | apply debugCommand_sound | apply debugAnswer_sound)
    | with_reducible (apply Sound.trans; on_goal 2 => apply hb)
    | with_reducible apply hb
    | split
    | dsimp only
    | intro _
    | refine Sound.upd rfl ?_ rfl rfl rfl rfl rfl

theorem abortStep_sound (s : State) : Sound s (abortStep s) := by
  unfold abortStep
  repeat' first
    | with_reducible exact Sound.refl _
    | with_reducible (apply Sound.trans; on_goal 2 => apply haltPod_sound)
    | split
    | dsimp only
    | refine Sound.upd rfl ?_ rfl rfl rfl rfl rfl

theorem haltPods_sound (s : State) (f : DbgFields) (l : List PodId) : Sound s (haltPods s f l) := by
  unfold haltPods
  repeat' first
    | with_reducible exact Sound.refl _
    | with_reducible (apply Sound.trans; on_goal 2 => first | apply abortStep_sound | apply haltPod_sound | apply debugAnswer_sound)
    | with_reducible apply ite_sound
    | with_reducible (apply foldl_sound_fst; on_goal 2 => intro _ _)
    | with_reducible (apply foldl_sound; on_goal 2 => intro _ _)
    | split
    | dsimp only

theorem unhalt_sound (s : State) (p : PodId) (stepping : Bool) : Sound s (unhalt s p stepping) := by
  unfold unhalt
  repeat' first
    | with_reducible exact Sound.refl _
    | with_reducible (apply Sound.trans; on_goal 2 => first | apply setFlag_sound | apply modCore_sound)
    | dsimp only
    | refine Sound.upd rfl ?_ rfl rfl rfl rfl rfl

theorem resumeHalted_sound (s : State) (f : DbgFields) (l : List PodId) : Sound s (resumeHalted s f l) := by
  unfold resumeHalted
  repeat' first
    | with_reducible exact Sound.refl _
    | with_reducible (apply Sound.trans; on_goal 2 => first | apply debugAnswer_sound | apply unhalt_sound)
    | with_reducible apply ite_sound
    | with_reducible (apply foldl_sound_fst; on_goal 2 => intro _ _)
    | with_reducible (apply foldl_sound; on_goal 2 => intro _ _)
    | split
    | dsimp only

theorem stepPod_sound (s : State) (f : DbgFields) (p : PodId) : Sound s (stepPod s f p) := by
  unfold stepPod
  repeat' first
    | with_reducible exact Sound.refl _
    | with_reducible (apply Sound.trans; on_goal 2 => first | apply debugAnswer_sound | apply unhalt_sound)
    | with_reducible apply ite_sound
    | split
    | dsimp only
    | refine Sound.upd rfl ?_ rfl rfl rfl rfl rfl

theorem setBreaks_sound (s : State) (f : DbgFields) (l : List PodId) : Sound s (setBreaks s f l) := by
  unfold setBreaks
  repeat' first
    | with_reducible exact Sound.refl _
    | with_reducible (apply Sound.trans; on_goal 2 => first | apply debugAnswer_sound | apply modPod_sound)
    | with_reducible apply ite_sound
    | with_reducible (apply foldl_sound_fst; on_goal 2 => intro _ _)
    | with_reducible (apply foldl_sound; on_goal 2 => intro _ _)
    | split
    | dsimp only
    | refine Sound.upd rfl ?_ rfl rfl rfl rfl rfl

theorem setWatches_sound (s : State) (f : DbgFields) (l : List PodId) : Sound s (setWatches s f l) := by
  unfold setWatches
  repeat' first
    | with_reducible exact Sound.refl _
    | with_reducible (apply Sound.trans; on_goal 2 => first | apply debugAnswer_sound | apply modPod_sound)
    | with_reducible apply ite_sound
    | with_reducible (apply foldl_sound_fst; on_goal 2 => intro _ _)
    | with_reducible (apply foldl_sound; on_goal 2 => intro _ _)
    | split
    | dsimp only
    | refine Sound.upd rfl ?_ rfl rfl rfl rfl rfl

theorem debugRead_sound (s : State) (a : Nat) : Sound s ((debugRead s a).1) := by
  unfold debugRead
  repeat' first
    | with_reducible exact Sound.refl _
    | with_reducible (apply Sound.trans; on_goal 2 => first | apply countRoot_sound | apply addSat_sound)
    | with_reducible apply ite_sound
    | split
    | dsimp only

theorem debugRead_eq_sound {x} {t : State} {s : State} {a : Nat} (h : debugRead s a = (t, x)) : Sound s t := by
  have e := debugRead_sound s a
  rw [h] at e
  exact e

theorem debugReadCommand_sound (s : State) (f : DbgFields) : Sound s (debugReadCommand s f) := by
  unfold debugReadCommand
  repeat' first
    | with_reducible exact Sound.refl _
    | with_reducible (apply Sound.trans; on_goal 2 => first | apply debugAnswer_sound | apply readReg_sound | (apply readReg_eq_sound; assumption) | apply debugRead_sound | (apply debugRead_eq_sound; assumption) | apply startDebug_sound)
    | with_reducible apply ite_sound
    | split
    | dsimp only

theorem noteWrite_sound (s : State) (f : DbgFields) : Sound s (noteWrite s f) := by
  unfold noteWrite
  repeat' first
    | with_reducible exact Sound.refl _
    | with_reducible (apply Sound.trans; on_goal 2 => apply raiseErr_sound)
    | with_reducible apply ite_sound
    | split
    | dsimp only

theorem debugWriteMem_sound (s : State) (f : DbgFields) : Sound s (debugWriteMem s f) := by
  unfold debugWriteMem
  repeat' first
    | with_reducible exact Sound.refl _
    | with_reducible (apply Sound.trans; on_goal 2 => first | apply startDebug_sound | apply debugAnswer_sound | apply memWrite_sound | apply countRoot_sound)
    | with_reducible apply ite_sound
    | split
    | dsimp only
    | refine Sound.upd rfl ?_ rfl rfl rfl rfl rfl

theorem debugWriteCommand_sound (s : State) (f : DbgFields) : Sound s (debugWriteCommand s f) := by
  unfold debugWriteCommand
  repeat' first
    | with_reducible exact Sound.refl _
    | with_reducible (apply Sound.trans; on_goal 2 => first | apply debugAnswer_sound | apply writeReg_sound | apply debugWriteMem_sound | apply noteWrite_sound)
    | with_reducible apply ite_sound
    | split
    | dsimp only

theorem writeCoreWord_sound (s : State) (p : PodId) (f : DbgFields) : Sound s (writeCoreWord s p f) := by
  unfold writeCoreWord
  repeat' first
    | with_reducible exact Sound.refl _
    | with_reducible (apply Sound.trans; on_goal 2 => first | apply modCore_sound | apply setNext_sound | apply modPod_sound)
    | with_reducible apply ite_sound
    | split
    | dsimp only
    | refine Sound.upd rfl ?_ rfl rfl rfl rfl rfl

theorem coreCommand_sound (s : State) (f : DbgFields) (write : Bool) (p : PodId) : Sound s (coreCommand s f write p) := by
  unfold coreCommand
  repeat' first
    | with_reducible exact Sound.refl _
    | with_reducible (apply Sound.trans; on_goal 2 => first | apply debugAnswer_sound | apply writeCoreWord_sound | apply noteWrite_sound)
    | with_reducible apply ite_sound
    | split
    | dsimp only

theorem onePod_sound (s : State) (l : List PodId) (body : State → PodId → State) (hb : ∀ t a1, Sound t (body t a1)) : Sound s (onePod s l body) := by
  unfold onePod
  repeat' first
    | with_reducible exact Sound.refl _
    | with_reducible assumption
    | with_reducible (apply Sound.trans; on_goal 2 => apply hb)
    | with_reducible apply hb
    | with_reducible (apply foldl_sound_fst; on_goal 2 => intro _ _)
    | with_reducible (apply foldl_sound; on_goal 2 => intro _ _)
    | dsimp only

theorem drawNonce_sound (s : State) : Sound s (drawNonce s) := by
  unfold drawNonce
  repeat' first
    | with_reducible exact Sound.refl _
    | with_reducible (apply Sound.trans; on_goal 2 => apply draw_sound)
    | dsimp only
    | refine Sound.upd rfl ?_ rfl rfl rfl rfl rfl

theorem challengeWord_sound (s : State) (f : DbgFields) : Sound s (challengeWord s f) := by
  unfold challengeWord
  repeat' first
    | with_reducible exact Sound.refl _
    | with_reducible (apply Sound.trans; on_goal 2 => first | apply drawNonce_sound | apply debugAnswer_sound)
    | with_reducible apply ite_sound
    | split
    | dsimp only

theorem responseWord_sound (s : State) (f : DbgFields) : Sound s (responseWord s f) := by
  unfold responseWord
  repeat' first
    | with_reducible exact Sound.refl _
    | with_reducible (apply Sound.trans; on_goal 2 => apply debugAnswer_sound)
    | with_reducible apply ite_sound
    | split
    | dsimp only
    | refine Sound.upd rfl ?_ rfl rfl rfl rfl rfl

theorem unlock_sound (s : State) (f : DbgFields) : Sound s (unlock s f) := by
  unfold unlock
  repeat' first
    | with_reducible exact Sound.refl _
    | with_reducible (apply Sound.trans; on_goal 2 => first | apply debugAnswer_sound | apply drawNonce_sound | apply raiseErr_sound)
    | with_reducible apply ite_sound
    | split
    | dsimp only
    | refine Sound.upd rfl ?_ rfl rfl rfl rfl rfl

theorem lockPort_sound (s : State) (f : DbgFields) : Sound s (lockPort s f) := by
  unfold lockPort
  repeat' first
    | with_reducible exact Sound.refl _
    | with_reducible (apply Sound.trans; on_goal 2 => apply debugAnswer_sound)
    | dsimp only
    | refine Sound.upd rfl ?_ rfl rfl rfl rfl rfl

theorem assignI3c_sound (s : State) (a : BitVec 7) : Sound s (assignI3c s a) := by
  unfold assignI3c
  repeat' first
    | with_reducible exact Sound.refl _
    | with_reducible (apply Sound.trans; on_goal 2 => apply modMisc_sound)
    | with_reducible apply ite_sound
    | split
    | dsimp only
    | refine Sound.upd rfl ?_ rfl rfl rfl rfl rfl

end Sys2Proof.Machine
end

