-- ==== Sys2Proof/WellFormed.lean ====
section
/-! DEFINITION. Which commands are well formed: the byte lists a command carries have the lengths the spec gives them, and a
number that a field of fixed width holds fits it. -/

namespace Sys2Proof

/-- A descriptor is 64 bytes (R337, R346). -/
def wfDesc (d : List Byte) : Bool := decide (d.length = 64)

/-- A packet's payload is 64 · (LEN_M1 + 1) bytes (R197). -/
def wfPacket (p : Packet) : Bool := decide (p.payload.length = 64 * (p.lenM1.toNat + 1))

/-- A flit is 288 bytes (R234). -/
def wfFlit (b : List Byte) : Bool := decide (b.length = 288)

/-- The payload of a one-flit message is 64 bytes (R262, R197). -/
def wfMessage (b : List Byte) : Bool := decide (b.length = 64)

/-- A register access has one of the sizes of R438. -/
def wfSize (n : Nat) : Bool := n = 1 || n = 2 || n = 4 || n = 8

/-- A well-formed command. -/
def WellFormed : Instr → Bool
  | .stakeBoundary st cd io => decide (st.length = 12) && decide (cd.length = 4) && decide (io.length = 2)
  | .pstepFinalCheck _ mv => decide (mv.length = 4)
  | .powerMeasureInterval r => decide (r.length = 9)
  | .flitRx _ raw => wfFlit raw
  | .warpPacketRx _ pkt => wfPacket pkt
  | .write _ pkt => wfPacket pkt
  | .fadd _ pkt => wfPacket pkt
  | .ocommit _ pkt => wfPacket pkt
  | .mgmtReq _ pkt => wfPacket pkt
  | .mgmtRsp _ pkt => wfPacket pkt
  | .done _ pkt => wfPacket pkt
  | .msg _ pkt => wfPacket pkt
  | .byp _ pkt => wfPacket pkt
  | .twinePacketRx _ pkt => wfPacket pkt
  | .notice _ pkt => wfPacket pkt
  | .faultNotice _ pkt => wfPacket pkt
  | .rsqRx _ pkt => wfPacket pkt
  | .alignRx _ b => wfMessage b
  | .pairDigestRx b => decide (b.length = 192)
  | .announce _ b => wfMessage b
  | .delayReq _ b => wfMessage b
  | .delayRsp _ b => wfMessage b
  | .ready _ b => wfMessage b
  | .recover _ b => wfMessage b
  | .submit _ d _ _ => wfDesc d
  | .nop d => wfDesc d
  | .loadWeave d _ sd _ => wfDesc d && (decide (sd.length = 0) || decide (sd.length = 2048))
  | .load d _ _ => wfDesc d
  | .read d => wfDesc d
  | .manifest d _ _ => wfDesc d
  | .bundleWrite d _ _ => wfDesc d
  | .bundleVerify d => wfDesc d
  | .bundleCommit d => wfDesc d
  | .bundleRead d => wfDesc d
  | .registerWrite _ off size _ => wfSize size && decide (off.toNat % size = 0)
  | .inputStaged _ b => decide (b.length ≤ 0x4000000)
  | _ => true

end Sys2Proof
end

