-- ==== Sys2Proof/Tests/Slice0.lean ====
section
/-! SUPPORT. The model's own tests: the checks of WellFormed, for each statement concrete states and operands that meet the hypotheses of
its clauses, and single commands against the spec's own examples and tables. -/

namespace Sys2Proof.Tests

open Sys2Proof Sys2Proof.Machine

set_option Elab.async false

/-! ## Helpers -/

/-- The device right after reset with some registers written. -/
def dev (l : List (Nat × Word)) : State := l.foldl (fun s e => setReg s e.1 e.2) State.reset

/-- The invariant reads memory and registers alone. -/
theorem dev_inv (l : List (Nat × Word)) : (dev l).Inv := by
  have h : ∀ (l : List (Nat × Word)) (s : State), s.Inv → (l.foldl (fun s e => setReg s e.1 e.2) s).Inv := by
    intro l; induction l with
    | nil => intro s h; exact h
    | cons e l ih => intro s h; exact ih _ (setReg_inv h e.1 e.2)
  exact h l State.reset ⟨by decide, by decide⟩

/-- A check of the state that a command answers. -/
def after (o : Host.Outcome State Fault Refusal) (f : State → Bool) : Bool :=
  match o with
  | .next t => f t
  | _ => false

/-! ## WellFormed: each check refuses an ill-formed command -/

/-- A packet with a payload of `n` bytes and LEN_M1 `m`. -/
def pkt (type : BitVec 4) (m : BitVec 6) (payload : List Byte) : Packet :=
  ⟨0, 0, 0, 0, false, false, false, m, 0, 0, type, 0, payload⟩

/-- `n` zero bytes. -/
def zs (n : Nat) : List Byte := List.replicate n 0

theorem test_wf_stack_temps : WellFormed (.stakeBoundary (zs 11) (zs 4) (zs 2)) = false := by decide +kernel
theorem test_wf_die_temps : WellFormed (.stakeBoundary (zs 12) (zs 3) (zs 2)) = false := by decide +kernel
theorem test_wf_io_temps : WellFormed (.stakeBoundary (zs 12) (zs 4) (zs 1)) = false ∧ WellFormed (.stakeBoundary (zs 12) (zs 4) (zs 2)) = true := by decide +kernel
theorem test_wf_rails : WellFormed (.pstepFinalCheck 0 [600]) = false ∧ WellFormed (.powerMeasureInterval []) = false := by decide +kernel
theorem test_wf_flit : WellFormed (.flitRx 0 (zs 287)) = false := by decide +kernel
theorem test_wf_packet : WellFormed (.msg none (pkt 0xD 1 (zs 64))) = false ∧ WellFormed (.msg none (pkt 0xD 0 (zs 64))) = true := by decide +kernel
theorem test_wf_message : WellFormed (.announce 0 (zs 63)) = false ∧ WellFormed (.pairDigestRx (zs 144)) = false := by decide +kernel
theorem test_wf_descriptor : WellFormed (.nop (zs 63)) = false ∧ WellFormed (.submit 1 (zs 65) [] false) = false := by decide +kernel
theorem test_wf_seed_set : WellFormed (.loadWeave (zs 64) [] (zs 1) false) = false := by decide +kernel
theorem test_wf_access : WellFormed (.registerWrite .host 2 4 0) = false ∧ WellFormed (.registerWrite .host 0 3 0) = false
    ∧ WellFormed (.registerWrite .host 8 8 0) = true := by decide +kernel

/-! ## The table's words -/

/-- No row of the table gives bits, so no word spells a command and none is put in front of the queue. -/
theorem test_no_words (n w : Nat) (s : State) : decodeTableWord n w = none ∧ s.withFetchWord n w = s := ⟨rfl, rfl⟩

/-! ## Witnesses: the machine as a whole, resets and boot -/

theorem wit_queue : ({ State.reset with pending := [.bypass, .doeAbort] } : State).pending = Instr.bypass :: [.doeAbort] := rfl

theorem wit_idle : State.reset.Inv ∧ State.reset.pending = [] ∧ State.reset.doe.request = none ∧ fabricRuns State.reset = true
    ∧ State.reset.time.ns32 < secondNs32 ∧ (∀ t, step (dev [(rTick, 33407)]) = .next t → checkDue t = true)
    ∧ (∀ t, step State.reset = .next t → checkDue t = false) :=
  ⟨dev_inv [], by decide +kernel, by decide +kernel, by decide +kernel, by decide +kernel,
    fun t h => by cases h; decide +kernel, fun t h => by cases h; decide +kernel⟩

/-- The device right after reset with its other state changed by `f`. -/
def withMisc (f : Misc → Misc) : State := { State.reset with misc := f State.reset.misc }

/-- EXTEST is selected: the pins follow boundary scan. -/
def scanning (l : List (Nat × Word)) : State := { dev l with dport := { State.reset.dport with tap := 0 } }

/-- SYS_RST_N low, and power-on reset asserted. -/
def lowPin : State := withMisc (fun m => { m with sysRstLow := true })
def tripped : State := withMisc (fun m => { m with porAsserted := true })

theorem wit_pins : (State.reset.Inv ∧ inReset State.reset = false ∧ State.reset.misc.porAsserted = false ∧ State.reset.misc.sysRstLow = false)
    ∧ lowPin.misc.sysRstLow = true ∧ inReset lowPin = true ∧ tripped.misc.porAsserted = true ∧ inReset tripped = true
    ∧ boundaryScan State.reset = false ∧ boundaryScan (scanning []) = true ∧ (withMisc (fun m => { m with thermtripLow := true })).misc.thermtripLow = true
    ∧ (func (scanning [(rFunc fKeeper, 1)]) fPcie = 0 ∧ func (scanning [(rFunc fKeeper, 1)]) fKeeper ≠ 0) :=
  ⟨⟨dev_inv [], by decide +kernel⟩, by decide +kernel⟩

theorem wit_step : State.reset.Inv ∧ step State.reset = .next (idleTick State.reset) := ⟨dev_inv [], rfl⟩

theorem wit_cold : State.reset.Inv ∧ 1000 ≤ 1000 ∧ 499 < 500 ∧ (500 ≤ 500 ∧ 500 < 1000) ∧ getF (0xC01D0001 : Word) 16 16 = 0xC01D
    ∧ getF (0xC01C0001 : Word) 16 16 ≠ 0xC01D := ⟨dev_inv [], by decide +kernel⟩

theorem wit_warm : State.reset.Inv ∧ getF (0xC01D0002 : Word) 16 16 = 0xC01D ∧ getB (0xC01D0002 : Word) 0 = false
    ∧ getF (0 : Word) 16 16 ≠ 0xC01D := ⟨dev_inv [], by decide +kernel⟩

theorem wit_functions :
    ((dev [(rFunc fPcie, 1)]).Inv ∧ func (dev [(rFunc fPcie, 1)]) fPcie = 1)
    ∧ ((dev [(rFunc fMgmt, 1)]).Inv ∧ func (dev [(rFunc fMgmt, 1)]) fMgmt = 1) ∧ ((dev [(rFunc fMgmt, 2)]).Inv ∧ func (dev [(rFunc fMgmt, 2)]) fMgmt = 2)
    ∧ refRuns (dev [(rFunc fMgmt, 1)]) = true ∧ refRuns (dev [(rClkStatus, 0)]) = false
    ∧ func State.reset fPcie ≠ 1 ∧ func State.reset fMgmt ≠ 1 ∧ func State.reset fMgmt ≠ 2 :=
  ⟨⟨dev_inv _, by decide +kernel⟩, ⟨dev_inv _, by decide +kernel⟩, ⟨dev_inv _, by decide +kernel⟩, by decide +kernel⟩

/-- PCIE INIT with PERST_N high, the configuration committed. -/
def pcieUp : State := { dev [(rFunc fPcie, 1), (rCfgStatus, 0x80000000)] with misc := { State.reset.misc with perstLow := false } }

theorem wit_pcie : pcieUp.Inv ∧ func pcieUp fPcie = 1 ∧ pcieUp.misc.perstLow = false ∧ (committed pcieUp = true ∧ pcieRuns pcieUp = true)
    ∧ State.reset.misc.perstLow = true ∧ committed State.reset = false ∧ pcieRuns (dev [(rClkStatus, 0)]) = false
    ∧ ((dev [(rFunc fKeeper, 1)]).Inv ∧ func (dev [(rFunc fKeeper, 1)]) fPcie = 0 ∧ func (dev [(rFunc fKeeper, 1)]) fKeeper ≠ 0)
    ∧ func State.reset fKeeper = 0 := 
  ⟨dev_inv [(rFunc fPcie, 1), (rCfgStatus, 0x80000000)], by decide +kernel, by decide +kernel, by decide +kernel, rfl, by decide +kernel,
    by decide +kernel, ⟨dev_inv _, by decide +kernel⟩, by decide +kernel⟩

theorem wit_self_tests : ((dev [(rFunc (fPod 63), 1)]).Inv ∧ func (dev [(rFunc (fPod 63), 1)]) (fPod 63) = 1
      ∧ podClockRuns (dev [(rFunc (fPod 63), 1)]) 63 = true)
    ∧ podClockRuns (dev [(rClkStatus, 0xDFF07FFF)]) 63 = false ∧ rootRuns (dev [(rClkStatus, 0xD7F0FFFF)]) 3 = false
    ∧ (dev [(rFunc (fRoot 11), 1)]).Inv ∧ func (dev [(rFunc (fRoot 11), 1)]) (fRoot 11) = 1
    ∧ rootRuns (dev [(rFunc (fRoot 11), 1)]) 3 = true :=
  ⟨⟨dev_inv _, by decide +kernel⟩, by decide +kernel, by decide +kernel, dev_inv _, by decide +kernel⟩

theorem wit_boot : committed (dev [(rCfgStatus, 0x80000000)]) = true ∧ (State.reset.Inv ∧ committed State.reset = false ∧ keeperRuns State.reset = true)
    ∧ after (exec .configCommit State.reset) (fun t => spiOn t && busRuns t 3) = true ∧ manifestOk (impliedManifest 0) = true
    ∧ committed (dev [(rCfgStatus, 0x40000000)]) = false
    ∧ ((dev [(rFunc fKeeper, 1), (rCfgStatus, 0x80000000)]).Inv ∧ func (dev [(rFunc fKeeper, 1), (rCfgStatus, 0x80000000)]) fKeeper = 1
      ∧ committed (dev [(rFunc fKeeper, 1), (rCfgStatus, 0x80000000)]) = true ∧ keeperRuns (dev [(rFunc fKeeper, 1), (rCfgStatus, 0x80000000)]) = true)
    ∧ keeperRuns (dev [(rClkStatus, 0)]) = false
    ∧ limited (dev [(rCfgStatus, 0x40000000)]) = true ∧ limited State.reset = false ∧ func State.reset fKeeper ≠ 1 :=
  ⟨by decide +kernel, ⟨dev_inv [], by decide +kernel⟩, by decide +kernel, by decide +kernel, by decide +kernel,
    ⟨dev_inv _, by decide +kernel⟩, by decide +kernel⟩

/-- KEEPER READY, slot B in state `st`, and the selection `sel` waiting. -/
def slotB (st : BitVec 4) (sel : Option (Fin 2)) : State :=
  { dev [(rFunc fKeeper, 2)] with flash := { Flash.reset with slots := vput Flash.reset.slots 1 ⟨[], st, 0⟩, selecting := sel, selectRan := 0 } }

theorem wit_select : (slotB 5 none).Inv ∧ getB (0xA501 : Word) 31 = false ∧ getF (0xA501 : Word) 8 8 = 0xA5 ∧ func (slotB 5 none) fKeeper = 2
    ∧ (slotB 5 none).flash.selected ≠ fin 2 (by decide) (getF (0xA501 : Word) 0 1)
    ∧ slotState (slotB 5 none).flash (fin 2 (by decide) (getF (0xA501 : Word) 0 1)) = 5
    ∧ getF (0xA401 : Word) 8 8 ≠ 0xA5 ∧ func State.reset fKeeper ≠ 2
    ∧ State.reset.flash.selected = fin 2 (by decide) (getF (0xA500 : Word) 0 1)
    ∧ slotState (slotB 6 none).flash (fin 2 (by decide) (getF (0xA501 : Word) 0 1)) = 6 := ⟨dev_inv [(rFunc fKeeper, 2)], by decide +kernel⟩

theorem wit_selection_written : (slotB 2 (some 1)).Inv ∧ (slotB 2 (some 1)).flash.selecting = some 1
    ∧ keeperRuns (slotB 2 (some 1)) = true ∧ spiOn (slotB 2 (some 1)) = true ∧ spiOn (dev [(rClkGate, 0x7D)]) = false ∧ slotState (slotB 2 (some 1)).flash 1 = 2
    ∧ slotState (slotB 4 (some 1)).flash 1 = 4 ∧ (slotB 2 (some 1)).flash.selectRan ≠ 2 ∧ slotState (slotB 0 (some 1)).flash 1 = 0
    ∧ keeperRuns (dev [(rClkStatus, 0)]) = false ∧ State.reset.flash.selecting = none :=
  ⟨dev_inv [(rFunc fKeeper, 2)], by decide +kernel⟩

theorem wit_identity : (dev [(rCfgIdentity, 0x40000000)]).Inv ∧ getF (0xA500 : Word) 8 8 = 0xA5
    ∧ field (dev [(rCfgIdentity, 0x40000000)]) rCfgIdentity 29 3 = 2 ∧ keeperRuns (dev [(rCfgIdentity, 0x40000000)]) = true
    ∧ spiOn (dev [(rCfgIdentity, 0x40000000)]) = true ∧ getF (0xA400 : Word) 8 8 ≠ 0xA5
    ∧ field State.reset rCfgIdentity 29 3 ≠ 2 := ⟨dev_inv _, by decide +kernel⟩

/-! ## Witnesses: clocks, P-steps and power -/

theorem wit_reference : ({ State.reset with clock := { State.reset.clock with refLost := true } } : State).Inv
    ∧ ({ State.reset with clock := { State.reset.clock with refLost := true } } : State).clock.refLost = true ∧ 100000 ≤ 100000
    ∧ ({ State.reset with clock := { State.reset.clock with refLost := true } } : State).clock.keeperHung = false
    ∧ inReset { State.reset with clock := { State.reset.clock with refLost := true } } = false
    ∧ State.reset.clock.refLost = false ∧ 99999 < 100000 ∧ pllBit .fabric = some 30 := ⟨dev_inv [], by decide +kernel⟩

theorem wit_keeper_clock : State.reset.Inv ∧ getB (2 : Word) 0 = false ∧ getB (2 : Word) 1 = true ∧ flag State.reset rClkKeeper 31 = true
    ∧ keeperRuns State.reset = true ∧ ((dev [(rClkKeeper, 0x80000002)]).Inv ∧ flag (dev [(rClkKeeper, 0x80000002)]) rClkKeeper 1 = true
      ∧ refRuns (dev [(rClkKeeper, 0x80000002)]) = true)
    ∧ flag State.reset rClkKeeper 1 = false
    ∧ (if getB (1 : Word) 0 then flag State.reset rClkKeeper 30 else flag State.reset rClkKeeper 31) = false
    ∧ (if getB (2 : Word) 0 then flag State.reset rClkKeeper 30 else flag State.reset rClkKeeper 31) = true
    ∧ getB (0x3E : Word) 6 = false ∧ getB (0x3E : Word) 0 = false
    ∧ func (dev [(rFunc fKeeper, 2), (rFunc fMgmt, 4)]) fKeeper = 2 ∧ func (dev [(rFunc fKeeper, 2), (rFunc fMgmt, 4)]) fMgmt = 4 :=
  ⟨dev_inv [], by decide +kernel, by decide +kernel, by decide +kernel, by decide +kernel, ⟨dev_inv _, by decide +kernel⟩, by decide +kernel⟩

/-- Region 15 stretched, with the Pod cycles since its supply was last below each threshold. -/
def stretched (n c25 c50 : Nat) : State := { State.reset with clock := { State.reset.clock with
  stretch := vput State.reset.clock.stretch 15 n, since25 := vput State.reset.clock.since25 15 c25, since50 := vput State.reset.clock.since50 15 c50 } }

theorem wit_droop : field State.reset rDroop 0 8 ≤ field State.reset rDroop 8 8 ∧ field State.reset rDroop 8 8 < 61
    ∧ (60 ≤ field State.reset rDroop 8 8 ∧ field State.reset rDroop 0 8 < 60) ∧ 30 ≤ field State.reset rDroop 0 8
    ∧ (16 ≤ vget (stretched 50 16 16).clock.since25 15 ∧ 16 ≤ vget (stretched 50 16 16).clock.since50 15)
    ∧ (vget (stretched 50 0 15).clock.stretch 15 = 50 ∧ vget (stretched 50 0 15).clock.since50 15 < 16)
    ∧ (vget (stretched 25 15 16).clock.stretch 15 = 25 ∧ vget (stretched 25 15 16).clock.since25 15 < 16) := by decide +kernel

/-- The device with a P-step request for stake `n` to step `k`, and VDD_CD to be lowered at `low`. -/
def armed (n k : Nat) (low : Option (Nat × Nat)) (l : List (Nat × Word)) : State :=
  { dev l with clock := { State.reset.clock with request := some (n, k), lowerAt := low } }

theorem wit_pstep_requests :
    ((dev [(rPstepAt, 128)]).Inv ∧ getB (0x80000001 : Word) 30 = false ∧ flag (dev [(rPstepAt, 128)]) rPstepReq 29 = false
      ∧ stakeNo (dev [(rPstepAt, 128)]) + 128 ≤ reg64 (dev [(rPstepAt, 128)]) rPstepAt)
    ∧ ((dev [(rPstepAt, 127)]).Inv ∧ reg64 (dev [(rPstepAt, 127)]) rPstepAt < stakeNo (dev [(rPstepAt, 127)]) + 128)
    ∧ ((dev [(rPstepReq, 0x20000707)]).Inv ∧ flag (dev [(rPstepReq, 0x20000707)]) rPstepReq 29 = true)
    ∧ getB (0x40000000 : Word) 31 = false ∧ stakeNo (armed 9 1 none []) + 9 ≤ 9 ∧ 8 < stakeNo (armed 8 1 none []) + 9 :=
  ⟨⟨dev_inv _, by decide +kernel⟩, ⟨dev_inv _, by decide +kernel⟩, ⟨dev_inv _, by decide +kernel⟩, by decide +kernel⟩

/-- At the final check point of stake 0, with a request for stake 1 whose final check has passed. -/
def switching : State :=
  let s := armed 1 0 none [(rTick, 33408)]
  { s with stake := { s.stake with checked := true }, clock := { s.clock with finalPassed := true } }

theorem wit_pstep_order :
    ((armed 64 0 none []).clock.request = some (64, 0) ∧ stakeNo (armed 64 0 none []) + 64 = 64 ∧ flag (armed 64 0 none []) rClkGate 3 = true
      ∧ busRuns (armed 64 0 none []) 3 = true ∧ pstepMv (armed 64 0 none []) (pstepNow (armed 64 0 none [])) < pstepMv (armed 64 0 none []) 0)
    ∧ stakeNo (armed 65 0 none []) + 64 ≠ 65 ∧ busRuns (armed 64 0 none [(rClkGate, 0x77)]) 3 = false
    ∧ ((armed 8 0 none []).clock.request = some (8, 0) ∧ stakeNo (armed 8 0 none []) + 8 = 8 ∧ busRuns (armed 8 0 none []) 3 = true
      ∧ pstepMv (armed 8 0 none []) (pstepNow (armed 8 0 none [])) < pstepMv (armed 8 0 none []) 0
      ∧ ∃ i, i < 4 ∧ ¬ ((List.replicate 4 (pstepMv (armed 8 0 none []) 0 + 11)).getD i 0 ≤ pstepMv (armed 8 0 none []) 0 + 10
        ∧ pstepMv (armed 8 0 none []) 0 ≤ (List.replicate 4 (pstepMv (armed 8 0 none []) 0 + 11)).getD i 0 + 10))
    ∧ (stakeNo (armed 8 7 none []) + 8 = 8 ∧ pstepMv (armed 8 7 none []) 7 ≤ pstepMv (armed 8 7 none []) (pstepNow (armed 8 7 none [])))
    ∧ (∀ i, i < 4 → (List.replicate 4 (pstepMv (armed 8 0 none []) 0 + 10)).getD i 0 ≤ pstepMv (armed 8 0 none []) 0 + 10
        ∧ pstepMv (armed 8 0 none []) 0 ≤ (List.replicate 4 (pstepMv (armed 8 0 none []) 0 + 10)).getD i 0 + 10)
    ∧ (armed 8 0 none []).Inv ∧ (0xFFFE : BitVec 16) ≠ 0xFFFF ∧ stakeNo (armed 9 0 none []) + 8 ≠ 9
    ∧ (switching.Inv ∧ switching.clock.request = some (1, 0) ∧ stakeNo switching + 1 = 1 ∧ atFinalCheck switching = true
      ∧ switching.clock.finalPassed = true)
    ∧ (stakeNo (armed 2 0 none []) + 1 ≠ 2 ∧ atFinalCheck State.reset = false ∧ State.reset.clock.finalPassed = false)
    ∧ ((armed 9 7 (some (0, 600)) []).clock.lowerAt = some (0, 600) ∧ stakeNo (armed 9 7 (some (0, 600)) []) = 0
      ∧ busRuns (armed 9 7 (some (0, 600)) []) 3 = true)
    ∧ stakeNo (armed 9 7 (some (1, 600)) []) ≠ 1 ∧ State.reset.clock.request = none :=
  ⟨by decide +kernel, by decide +kernel, by decide +kernel, ⟨by decide +kernel, by decide +kernel, by decide +kernel, by decide +kernel, 0, by decide +kernel⟩,
    by decide +kernel, by decide +kernel, dev_inv [], by decide +kernel, by decide +kernel,
    ⟨dev_inv [(rTick, 33408)], by decide +kernel⟩, by decide +kernel⟩

theorem wit_frequency : (State.reset.Inv ∧ flag State.reset rClkGate 6 = true ∧ sourceOk (getF (0x80000000 : Word) 0 8) = true)
    ∧ sourceOk (getF (0x800000FF : Word) 0 8) = false ∧ flag (dev [(rClkGate, 0x3F)]) rClkGate 6 = false
    ∧ ({ State.reset with clock := { State.reset.clock with fcountRunning := true } } : State).clock.fcountRunning = true
    ∧ State.reset.clock.fcountRunning = false ∧ (field State.reset rFcountCtrl 0 8 ≠ 0x1A ∧ refoutDriven State.reset = false)
    ∧ field (dev [(rFcountCtrl, 0x1A), (rClkRefout, 0x80000000)]) rFcountCtrl 0 8 = 0x1A ∧ refoutDriven (dev [(rFcountCtrl, 0x1A), (rClkRefout, 0x80000000)]) = true := ⟨⟨dev_inv [], by decide +kernel⟩, by decide +kernel⟩

theorem wit_power_rates : (computeDie .ioA = none ∧ computeDie (.compute 3) ≠ none ∧ State.reset.misc.thermtripLow = false)
    ∧ State.reset.Inv ∧ 1 ≤ State.reset.power.ceiling ∧ State.reset.power.ceiling ≤ 8
    ∧ (∀ c, c < 3 → 1 ≤ rateOf State.reset c ∧ rateOf State.reset c ≤ 8) ∧ field State.reset rPwrStatus 30 2 ≠ 1
    ∧ field (dev [(rPwrStatus, 0x40000888)]) rPwrStatus 30 2 = 1 ∧ (∀ c, c < 3 → ∃ k, k < 3 ∧ field State.reset rPwrPrio (2 * k) 2 = c) :=
  ⟨by decide +kernel, dev_inv [], by decide +kernel⟩

/-- The device with regulator 0 named and `n` invalid intervals counted. -/
def regulator (n : Nat) : State := { State.reset with power := { State.reset.power with regulators := [0], invalids := n } }

theorem wit_power_measure : State.reset.Inv ∧ measured State.reset [] = some 0 ∧ measured (regulator 6) [none] = none ∧ (regulator 6).power.invalids < 7
    ∧ measured (regulator 7) [none] = none ∧ (regulator 7).power.invalids = 7 := ⟨dev_inv [], by decide +kernel⟩

/-! ## Witnesses: stakes, holds and frames -/

/-- A weave of period 2 with no records and no code. -/
def weave : Weave where
  sheet := 0xB0
  profile := 2
  envelope := 0
  pathMode := false
  vMask := 0
  spliceCount := 0
  period := 2
  ckptInterval := 0
  ckptList := []
  windows := []
  records := []
  overlays := []
  overlayUnits := []
  directory := []
  code := []
  startStake := 2
  startStep := 0
  firstWeaveStake := 0
  seeds := []
  seedId := 7
  program := []
  rootCopy := 0
  length := 0
  acceptedStake := 0

/-- The device with that weave in force, its flags and some registers. -/
def run (flags : Word) (l : List (Nat × Word)) : State := { dev ((rWeaveState, flags) :: l) with active := some weave }

theorem run_inv (flags : Word) (l : List (Nat × Word)) : (run flags l).Inv := dev_inv ((rWeaveState, flags) :: l)

/-- A NOTICE held for stake 0. -/
def noted (s : State) : State := { s with stake := { s.stake with notices := [⟨0, 1, 2, 3⟩], seen := [⟨0, 1, 2, 3⟩] } }

/-- An open request of Pod 3, queue 5 to device 1, and an entry that is visible at once. -/
def openReq : Token := ⟨0, .twSend, 0, 0, 0, false, false, 0, 0, 64, [], 1⟩
def entry0 : Entry := ⟨zs 64, 0, 0, none⟩

/-- The stake timer changed by `f`. -/
def staked (s : State) (f : StakeState → StakeState) : State := { s with stake := f s.stake }

/-- The end of a stake without holds. -/
def ending : State := staked (run 0x80000000 [(rTick, 36864)]) (fun x => { x with committed := true })

theorem wit_stake : (ending.Inv ∧ fabricRuns ending = true ∧ stakeOffset ending = 36864 + 9216 * ending.stake.round ∧ ending.stake.committed = true)
    ∧ (fabricRuns (dev [(rClkStatus, 0)]) = false ∧ stakeOffset State.reset ≠ 36864 + 9216 * State.reset.stake.round
      ∧ State.reset.stake.committed = false)
    ∧ (boundaryDue ending = true ∧ weaveActive ending = true ∧ ending.active = some weave ∧ ending.loaded = none ∧ quiet ending = false
      ∧ ending.misc.faultCleanup = false ∧ ending.stake.notices = []) ∧ 85 < 86 ∧ 82 ≤ 82 := ⟨⟨run_inv _ _, by decide +kernel⟩, by decide +kernel⟩

/-- The check point of round 1, aligned, with a weave in force whose Pod 5 has code and is halted. -/
def halted : State :=
  staked (run 0x80000000 [(rTick, 42624), (rAlign, 0x80000000), (rPod 5 0x100, 0x40000000), (rPod 5 0x108, 1)]) (fun x => { x with round := 1 })

theorem wit_check_point : (halted.Inv ∧ fabricRuns halted = true ∧ stakeOffset halted = 33408 + 9216 * halted.stake.round ∧ halted.stake.checked = false
      ∧ aligned halted = true ∧ (checkCauses halted).1 ≠ 0 ∧ faulted halted = false ∧ halted.stake.judged = none ∧ debugHold halted 5 = true)
    ∧ (stakeOffset (dev [(rTick, 33408)]) = 33408 + 9216 * (dev [(rTick, 33408)]).stake.round ∧ aligned (dev [(rTick, 33408)]) = false)
    ∧ (checkCauses (dev [(rTick, 33408), (rAlign, 0x80000000)])).1 = 0
    ∧ (staked halted (fun x => { x with judged := some (1, 5), arisen := 8 })).stake.judged = some (1, 5)
    ∧ stakeOffset State.reset ≠ 33408 + 9216 * State.reset.stake.round ∧ (staked halted (fun x => { x with checked := true })).stake.checked = true
    ∧ podNotReady (run 0x80000000 [(rPod 63 0x100, 0x80000000), (rPod 63 0x108, 1)]) 63 = true
    ∧ rootWaits { dev [(rRootCtrl, 0), (rTick, 1)] with pods := vmod State.reset.pods 0 (fun x => { x with
        outq := vput x.outq 0 ⟨1, [{ openReq with kind := .fetch }]⟩ }) } 0 = true := ⟨⟨run_inv _ _, by decide +kernel⟩, by decide +kernel⟩

/-- The commit point of round 0, with a hold for the round where `b` says so. -/
def held (b : Bool) (l : List (Nat × Word)) : State := staked (dev ((rTick, 36288) :: l)) (fun x => { x with held := b })

theorem wit_commit_point : ((held true []).Inv ∧ fabricRuns (held true []) = true ∧ stakeOffset (held true []) = 36288 + 9216 * (held true []).stake.round
      ∧ (held true []).stake.committed = false ∧ (held true []).stake.held = true
      ∧ field (held true []) rHoldStatus 0 24 < field (held true []) rHoldCtrl 0 24)
    ∧ ((held false []).Inv ∧ fabricRuns (held false []) = true ∧ stakeOffset (held false []) = 36288 + 9216 * (held false []).stake.round
      ∧ (held false []).stake.committed = false ∧ (held false []).stake.held = false)
    ∧ (stakeOffset State.reset ≠ 36288 + 9216 * State.reset.stake.round ∧ ending.stake.committed = true)
    ∧ ((held true [(rHoldCtrl, 4), (rHoldStatus, 4)]).Inv ∧ commitDue (held true [(rHoldCtrl, 4), (rHoldStatus, 4)]) = true
      ∧ (held true [(rHoldCtrl, 4), (rHoldStatus, 4)]).stake.held = true
      ∧ field (held true [(rHoldCtrl, 4), (rHoldStatus, 4)]) rHoldCtrl 0 24 ≤ field (held true [(rHoldCtrl, 4), (rHoldStatus, 4)]) rHoldStatus 0 24) :=
  ⟨⟨dev_inv _, by decide +kernel⟩, ⟨dev_inv _, by decide +kernel⟩, by decide +kernel, dev_inv _, by decide +kernel⟩

/-- The final check point of a stake. -/
def final (s : State) : State := staked s (fun x => { x with checked := true })

/-- Bytes of die 1 that wait for the next frame, for the end of the store of Pod 63. -/
def landing : State := { final (dev [(rTick, 33408)]) with
  fsqs := vmod State.reset.fsqs 1 (fun q => { q with landed := [(63, podSize - 64, zs 64)] }) }

theorem wit_frame : ((final (run 0x80000000 [(rTick, 33408), (rPod 5 0x108, 1)])).Inv
      ∧ atFinalCheck (final (run 0x80000000 [(rTick, 33408), (rPod 5 0x108, 1)])) = true
      ∧ (final (run 0x80000000 [(rTick, 33408), (rPod 5 0x108, 1)])).stake.frameStarted = false
      ∧ weaveActive (final (run 0x80000000 [(rTick, 33408), (rPod 5 0x108, 1)])) = true
      ∧ (final (run 0x80000000 [(rTick, 33408), (rPod 5 0x108, 1)])).active = some weave
      ∧ noticeHeld (final (run 0x80000000 [(rTick, 33408), (rPod 5 0x108, 1)])) = false
      ∧ faulted (final (run 0x80000000 [(rTick, 33408), (rPod 5 0x108, 1)])) = false
      ∧ flag (final (run 0x80000000 [(rTick, 33408), (rPod 5 0x108, 1)])) rPairStatus 31 = false
      ∧ weavePending (final (run 0x80000000 [(rTick, 33408), (rPod 5 0x108, 1)])) = false
      ∧ hasCode (final (run 0x80000000 [(rTick, 33408), (rPod 5 0x108, 1)])) 5 = true)
    ∧ (landing.Inv ∧ atFinalCheck landing = true ∧ landing.stake.frameStarted = false ∧ landing.active = none ∧ weaveActive landing = false
      ∧ (∀ g, (fsq landing g).landed = if g = 1 then [(63, podSize - 64, zs 64)] else []) ∧ flag landing (rPod 63 0x500) 0 = false
      ∧ podSize - 64 + (zs 64).length ≤ podSize)
    ∧ (atFinalCheck (noted (final (run 0x80000000 [(rTick, 33408)]))) = true ∧ noticeHeld (noted (final (run 0x80000000 [(rTick, 33408)]))) = true)
    ∧ atFinalCheck State.reset = false :=
  ⟨⟨run_inv _ _, by decide +kernel⟩, ⟨dev_inv [(rTick, 33408)], by decide +kernel⟩, by decide +kernel⟩

theorem wit_snapshot : ((dev [(rSnapCtrl, 0x20000000)]).Inv ∧ flag (dev [(rSnapCtrl, 0x20000000)]) rSnapCtrl 29 = true
      ∧ stakeNo (dev [(rSnapCtrl, 0x20000000)]) = (dev [(rSnapCtrl, 0x20000000)]).misc.snapStake ∧ stakeOffset (dev [(rSnapCtrl, 0x20000000)]) = 0
      ∧ fabricRuns (dev [(rSnapCtrl, 0x20000000)]) = true)
    ∧ flag State.reset rSnapCtrl 29 = false ∧ stakeNo (dev [(rStake, 1)]) ≠ (dev [(rStake, 1)]).misc.snapStake
    ∧ stakeOffset (dev [(rTick, 1)]) ≠ 0 := ⟨⟨dev_inv _, by decide +kernel⟩, by decide +kernel⟩

/-- The last slot of a stake for the last channel, and its end 800 ticks later. -/
theorem wit_refresh : refreshDue (dev [(rTick, 35500)]) 11 31 = true ∧ refreshDue State.reset 11 31 = false
    ∧ 800 ≤ ticksSince (dev [(rTick, 36300)]) 35500 ∧ ticksSince (dev [(rTick, 36299)]) 35500 < 800 := by decide +kernel

/-! ## Witnesses: the warp plane -/

/-- A record of departure input `input` in picks 0 to 895, to output `o`. -/
def record (input : Nat) (o : Nat) : Record := ⟨0, 9, 0, 0, 0, 0, false, false, false, 0, BitVec.ofNat 13 (2 ^ o), 0, 895, 0, input, 0⟩

/-- A staged packet for the end of the store of Pod 3, granted. -/
def late7 : Staged := ⟨3, 0x3FFFFC0, zs 64, 0, 9, 0, false, some 7⟩

/-- FSQ 0 with that record, a staged packet and a late read. -/
def fsqs : State := { run 0x80000000 [] with fsqs := vmod State.reset.fsqs 0 (fun q => { q with
  records := [record 12 7], staged := [late7], lateReads := [(record 12 7, 5)] }) }

theorem wit_pick : fsqs.Inv ∧ fabricRuns fsqs = true ∧ fabricRuns (dev [(rClkStatus, 0)]) = false ∧ fsqs.txItems = [] ∧ fsqs.misc.netLines = []
    ∧ (record 12 7).runM1 < 65536 ∧ 7 < 8 ∧ weaveActive fsqs = true ∧ pickNo fsqs < 896 ∧ effective fsqs 0 = [record 12 7]
    ∧ effective fsqs (fin 2 (by decide) (1 - (0 : Fin 2).val)) = [] ∧ (∀ g, (fsq fsqs g).arriving = []) ∧ 12 ≤ (record 12 7).input
    ∧ (record 12 7).reduce = false ∧ runIndex (record 12 7) (pickNo fsqs) = some 0
    ∧ (0 : BitVec 16).getLsbD (8 * (0 : Fin 2).val + ((record 12 7).input - 12)) = false ∧ outputs (record 12 7).mask = [7]
    ∧ flag fsqs rWeaveState 28 = false ∧ (∀ g, ∀ d ∈ (fsq fsqs g).staged, d.pod ≠ (record 12 7).pod) := ⟨run_inv _ _, by decide +kernel⟩

/-- A recovery stake in which FSQ 0 keeps the copy of circuit 9. -/
def recovery : State := { run 0x90000000 [] with fsqs := vmod State.reset.fsqs 0 (fun q => { q with
  records := [record 12 7], retained := [⟨0, { pkt 1 0 (zs 64) with circuit := 9 }⟩] }) }

theorem wit_recovery : recovery.Inv ∧ weaveActive recovery = true ∧ effective recovery 0 = [record 12 7] ∧ runIndex (record 12 7) (pickNo recovery) = some 0
    ∧ recoveryCopy recovery 0 (record 12 7) 0 = some ⟨0, { pkt 1 0 (zs 64) with circuit := 9 }⟩ := ⟨run_inv _ _, by decide +kernel⟩

theorem wit_late_read : (fsq fsqs 0).lateReads.find? (fun e => decide (e.1.input = 12 + (0 : Fin 8).val)
      && decide (circuitOf e.1 e.2 = (14 : BitVec 16).toNat)) = some (record 12 7, 5)
    ∧ netGranted fsqs (record 12 7).pod (departureOp 0 (circuitOf (record 12 7) 5)) = true ∧ noticeHeld fsqs = false
    ∧ fabricRuns fsqs = true ∧ networkRuns fsqs ((record 12 7).pod.val / 16) = true ∧ (record 12 7).reduce = false ∧ outputs (record 12 7).mask = [7]
    ∧ noticeHeld (noted fsqs) = true ∧ (fsq (noted fsqs) 0).lateReads = (fsq fsqs 0).lateReads
    ∧ netGranted { fsqs with misc := { fsqs.misc with netLines := [((record 12 7).pod, ⟨departureOp 0 (circuitOf (record 12 7) 5), 5, 0, false, 0, 0, 64, 0, 1, 1, []⟩)] } }
        (record 12 7).pod (departureOp 0 (circuitOf (record 12 7) 5)) = false ∧ networkRuns (dev [(rClkStatus, 0xDFE0FFFF)]) ((record 12 7).pod.val / 16) = false
    ∧ (fsq State.reset 0).lateReads.find? (fun e => decide (e.1.input = 12 + (0 : Fin 8).val)
      && decide (circuitOf e.1 e.2 = (14 : BitVec 16).toNat)) = none := by decide +kernel

theorem wit_local_write : (fsq fsqs 0).staged.find? (localGranted fsqs) = some late7
    ∧ (fsq State.reset 0).staged.find? (localGranted State.reset) = none := by decide +kernel

/-- Port 15 in PACKET with a weave in force. -/
def up : State := run 0x80000000 [(rPort 15 0x04, 0x50000000)]

theorem wit_warp_packet : portUp State.reset 15 = false ∧ (up.Inv ∧ portUp up 15 = true ∧ weaveActive up = true
      ∧ (pkt 1 0 (zs 64)).type = 1 ∧ (pkt 1 0 (zs 64)).seq = (port up 15).rxWarpSeq)
    ∧ ((2048 : BitVec 12) ≠ (port up 15).rxWarpSeq ∧ (port up 15).lost.any (fun l => l.seq = (2048 : BitVec 12)) = false
      ∧ newer 2048 (port up 15).rxWarpSeq = false) := ⟨by decide +kernel, ⟨run_inv _ _, by decide +kernel⟩, by decide +kernel⟩

/-- A NOTICE for stake `n` with SPLICE `k`. -/
def notice (n k : Nat) : Packet := pkt 0xE 0 (leBytes 8 n ++ leBytes 2 1 ++ [2, 0] ++ leBytes 2 k ++ zs 50)

theorem wit_notice : State.reset.Inv ∧ numAt (notice 0 3).payload 0x0C 2 ≠ 0xFFFE
    ∧ (noted State.reset).stake.seen.contains (noticeOf (notice 0 3).payload) = true
    ∧ (State.reset.stake.seen.contains (noticeOf (notice 0 0xFFFF).payload) = false
      ∧ stakeNo State.reset ≤ (noticeOf (notice 0 0xFFFF).payload).failStake ∧ (noticeOf (notice 0 0xFFFF).payload).failStake = stakeNo State.reset
      ∧ numAt (notice 0 0xFFFF).payload 0x0C 2 = 0xFFFF)
    ∧ ((dev [(rStake, 1)]).stake.seen.contains (noticeOf (notice 0 3).payload) = false
      ∧ (noticeOf (notice 0 3).payload).failStake < stakeNo (dev [(rStake, 1)])) := ⟨dev_inv [], by decide +kernel⟩

theorem wit_fault_notice : State.reset.Inv ∧ acceptedStake State.reset ≤ numAt (notice 0 0xFFFE).payload 0 8
    ∧ State.reset.misc.seenFaults.contains (faultKey (notice 0 0xFFFE).payload) = false ∧ flag State.reset rFaultState 31 = false
    ∧ flag State.reset rClkGate 5 = true ∧ (dev [(rFaultState, 0x80000000)]).Inv ∧ flag (dev [(rFaultState, 0x80000000)]) rFaultState 31 = true
    ∧ (dev [(rFaultState, 0x80000000)]).misc.seenFaults.contains (faultKey (notice 0 0xFFFE).payload) = false
    ∧ numAt (notice 0 0xFFFE).payload 0 8 < acceptedStake { State.reset with loaded := some { weave with acceptedStake := 1 } } :=
  ⟨dev_inv [], by decide +kernel, by decide +kernel, by decide +kernel, by decide +kernel, dev_inv _, by decide +kernel⟩

/-- A device at coordinate 0 with a retained copy of circuit 9, a route to device 1 on port 0, and that port in PACKET. -/
def keeper : State := { run 0x80000000 [(rPort 0 0x04, 0x50000000)] with
  fsqs := vmod State.reset.fsqs 1 (fun q => { q with retained := [⟨0, { pkt 1 0 (zs 64) with circuit := 9 }⟩] })
  misc := { State.reset.misc with routes := [(1, 1)] } }

theorem wit_rsq : keeper.Inv ∧ weaveActive keeper = true ∧ noticeHeld keeper = false
    ∧ devOf ({ pkt 2 0 (zs 64) with circuit := 9, src := 512 } : Packet).dst = deviceCoord keeper
    ∧ allFsqs.findSome? (fun f => (retainedCopy keeper f 9 0).map (fun c => (f, c))) = some (1, ⟨0, { pkt 1 0 (zs 64) with circuit := 9 }⟩)
    ∧ routeTo keeper 0 (devOf (BitVec.ofNat 24 (devOf (512 : BitVec 24) * 512))) = .out 0 ∧ weaveActive State.reset = false
    ∧ (∀ f, retainedCopy keeper f 8 0 = none) :=
  ⟨run_inv _ _, by decide +kernel⟩

/-- A weave in force with reach port 15 in PACKET, by which device 1 is reached. -/
def reaching : State := { run 0x80000000 [(rPort 15 0x04, 0x50000000)] with misc := { State.reset.misc with routes := [(1, 16)] } }

theorem wit_rsq_passed : weaveActive reaching = true ∧ devOf (512 : BitVec 24) ≠ deviceCoord reaching ∧ noticeHeld reaching = false ∧ (11 : PortId).val < 12
    ∧ routeTo reaching 0 (devOf (512 : BitVec 24)) = .out 15 ∧ 12 ≤ (15 : PortId).val ∧ noticeHeld (noted reaching) = true ∧ 12 ≤ (12 : PortId).val
    ∧ devOf (512 : BitVec 24) ≠ deviceCoord keeper ∧ (∀ q, routeTo keeper 0 (devOf (512 : BitVec 24)) = .out q → q.val < 12) := by
  decide +kernel

/-! ## Witnesses: pairing -/

/-- Pairing runs, with own digests of frame 4 and the partner's groups but for group 3. -/
def paired (d : Word64) (flags : Word) : State := { dev [(rPairStatus, flags)] with misc := { State.reset.misc with
  pairOwn := [(4, d :: List.replicate 63 0)], pairPeer := [(4, 0, List.replicate 16 0), (4, 1, List.replicate 16 0), (4, 2, List.replicate 16 0)] } }

/-- The pair packet of frame 4 and group `g`, with zero digests. -/
def digests (g : Byte) : List Byte := [2, g] ++ zs 6 ++ leBytes 8 4 ++ zs 176

theorem wit_pair : flag State.reset rPairStatus 31 = false ∧ 3 < numAt (digests 4) 1 1
    ∧ ((paired 1 0x80000000).Inv ∧ flag (paired 1 0x80000000) rPairStatus 31 = true ∧ numAt (digests 3) 1 1 ≤ 3
      ∧ flag (paired 1 0x80000000) rPairStatus 30 = false ∧ flag (paired 1 0x80000000) rPair 30 = false
      ∧ (paired 1 0x80000000).misc.pairOwn.find? (fun e => e.1 = numAt (digests 3) 8 8) = some (4, 1 :: List.replicate 63 0)
      ∧ peerDigests (Sys2Proof.Claims.withPeer (paired 1 0x80000000) (digests 3)) (numAt (digests 3) 8 8) = some (List.replicate 64 0)
      ∧ (upTo 64).find? (fun j => (1 :: List.replicate 63 (0 : Word64)).getD j 0 ≠ (List.replicate 64 (0 : Word64)).getD j 0) = some 0)
    ∧ (flag (paired 0 0x80000000) rPair 29 = false
      ∧ peerDigests (Sys2Proof.Claims.withPeer (paired 0 0x80000000) (digests 3)) (numAt (digests 3) 8 8) = some (List.replicate 64 0)
      ∧ ∀ j, j < 64 → (0 :: List.replicate 63 (0 : Word64)).getD j 0 = (List.replicate 64 (0 : Word64)).getD j 0) :=
  ⟨by decide +kernel, by decide +kernel, ⟨dev_inv [(rPairStatus, 0x80000000)], by decide +kernel⟩, by decide +kernel⟩

theorem wit_pair_timeout : flag ({ dev [(rPairStatus, 0x80000000)] with misc := { State.reset.misc with pairOwn := [(1, []), (4, [])] } } : State)
      rPairStatus 31 = true
    ∧ [((1 : Nat), ([] : List Word64)), (4, [])].find? (fun e => decide (e.1 + 3 ≤ ([((1 : Nat), ([] : List Word64)), (4, [])].map (·.1)).foldl max 0))
      = some (1, []) := by decide +kernel

/-! ## Witnesses: flits -/

/-- The device with port `p` in state `l` (R263). -/
def port_ (p : Nat) (l : Word) (r : List (Nat × Word)) : State := dev ((rPort p 0x04, l <<< 28) :: r)

/-- A twine packet of `n` payload bytes from device 1 to Pod 3, queue 5 of device 0, whose route is port 0. -/
def twine (type : BitVec 4) (m : BitVec 6) (n : Nat) : Packet := { pkt type m (zs n) with src := 512, dst := 29 }

/-- Port 2 in flit mode, at training step `n`. -/
def training (l : Word) (n : Nat) : State := { port_ 2 l [] with ports := vmod State.reset.ports 2 (fun x => { x with train := { x.train with step := n } }) }

theorem wit_flit_slot : lstate (port_ 2 5 []) 2 = 5 ∧ (port (port_ 2 5 []) 2).txByp ++ (port (port_ 2 5 []) 2).txRsp ++ (port (port_ 2 5 []) 2).txReq = []
    ∧ inFlitMode (training 2 1) 2 = true ∧ lstate State.reset 2 ≠ 5 ∧ inFlitMode State.reset 2 = false ∧ aligned State.reset = false
    ∧ portUp (port_ 2 5 []) 2 = true ∧ aligned (dev [(rAlign, 0x80000000)]) = true ∧ portUp State.reset 2 = false := by decide +kernel

/-- Port 2 in PACKET at tick `n`, changed by `f`, with the warp packets `l` on their way; its ALIGN of the stake has been sent. -/
def slot2 (n : Nat) (l : List TxItem) (f : Port → Port) : State :=
  { port_ 2 5 [(rTick, BitVec.ofNat 32 n)] with ports := vmod State.reset.ports 2 (fun x => f { x with alignSent := true }), txItems := l }

/-- A late warp packet of port 2, one for pick 0, and a copy that awaits its retry. -/
def lateItem : TxItem := ⟨2, none, 896, pkt 1 0 (zs 64)⟩
def nowItem : TxItem := ⟨2, some 0, 0, pkt 2 0 (zs 64)⟩
def retryCopy : WarpCopy := ⟨0, pkt 1 0 (zs 64), 0, true, none, true, false⟩

/-- The states of a slot, in the order of R260: a packet in progress, a warp packet of the pick, a NOTICE, a retry, late traffic, a replay, a new
twine packet on each channel, an IDLE. Tick 32256 begins the spare picks. -/
def going : State := slot2 0 [] (fun x => { x with txFlits := [(zs 256, 0)] })
def inPick : State := slot2 0 [nowItem] id
def noticing : State := slot2 0 [] (fun x => { x with txNotices := [notice 0 3] })
def retrying : State := slot2 32256 [] (fun x => { x with copies := [retryCopy] })
def lateTx : State := slot2 32256 [lateItem] id
def replaying : State := slot2 0 [] (fun x => { x with replay := [twine 8 0 64], replayLeft := 1 })
def sendingB (b : Bool) : State := slot2 0 [] (fun x => if b then { x with txByp := [(none, twine 0xF 0 64)], txReq := [(none, twine 8 0 64)] }
  else { x with txReq := [(none, twine 8 0 64)] })
def sending (b : Bool) : State := setField (setField (sendingB b) (rPort 2 0x20) 16 16 384) (rPort 2 0x28) 16 16 16

theorem wit_open_slot : (∀ s ∈ [noticing, retrying, lateTx, replaying, sending true, sending false, slot2 0 [] id],
      lstate s 2 = 5 ∧ (port s 2).txFlits = [] ∧ s.txItems.find? (fun i => i.port = 2 && i.atPick = some (pickNo s)) = none
        ∧ (weaveActive s && txScheduled s 2 (position s) (pickNo s)) = false)
    ∧ (∀ s ∈ [going, retrying, replaying, sending true, sending false, slot2 0 [] id], readyNotice s 2 = none)
    ∧ (∀ s ∈ [retrying, lateTx], resendPick (pickNo s) = true) ∧ (∀ s ∈ [replaying, sending true, slot2 0 [] id], resendPick (pickNo s) = false)
    ∧ (∀ s ∈ [sending true, sending false, slot2 0 [] id], nextReplay s 2 = none ∧ dueAlign s 2 = none) := by decide +kernel

theorem wit_slot_order : (lstate going 2 = 5 ∧ (port going 2).txFlits = (zs 256, 0) :: [])
    ∧ (lstate inPick 2 = 5 ∧ (port inPick 2).txFlits = [] ∧ inPick.txItems.find? (fun i => i.port = 2 && i.atPick = some (pickNo inPick)) = some nowItem
      ∧ nowItem.pkt.type = 2)
    ∧ (readyNotice noticing 2 = some (notice 0 3) ∧ idleDue noticing 2 1 = false)
    ∧ (readyRetry retrying 2 = some retryCopy ∧ idleDue retrying 2 (warpFlits retryCopy.pkt) = false)
    ∧ ((port lateTx 2).txNotices = [] ∧ readyRetry lateTx 2 = none ∧ headLate lateTx 2 = some lateItem ∧ roomForWarp lateTx 2 lateItem.pkt = true
      ∧ flitSlotNo lateTx = 0 ∧ idleDue lateTx 2 (warpFlits lateItem.pkt) = false)
    ∧ (nextReplay replaying 2 = some (twine 8 0 64) ∧ 1 ≤ unitsOf (twine 8 0 64) ∧ twineFits replaying 2 (unitsOf (twine 8 0 64)) = true
      ∧ idleDue replaying 2 (unitsOf (twine 8 0 64)) = false) := by decide +kernel

/-- The first of the transmit lists on the BYP channel where it has one, else on REQ, within the link rate. -/
theorem wit_slot_twine : (∀ e ∈ [(true, twine 0xF 0 64), (false, twine 8 0 64)],
      ((port (sending e.1) 2).txByp ++ (port (sending e.1) 2).txRsp ++ (port (sending e.1) 2).txReq).head? = some (none, e.2)
      ∧ unitsOf e.2 ≤ creditLeft (sending e.1) 2 (channelOf e.2)
      ∧ (channelOf e.2 = if (port (sending e.1) 2).txByp ≠ [] then 2 else if (port (sending e.1) 2).txRsp ≠ [] then 1 else 0)
      ∧ roomForTwine (sending e.1) 2 e.2 = true ∧ 1 ≤ unitsOf e.2 ∧ twineFits (sending e.1) 2 (unitsOf e.2) = true
      ∧ idleDue (sending e.1) 2 (unitsOf e.2) = false ∧ (port (sending e.1) 2).twinePhase * field (sending e.1) rPwrStatus 8 4 / 8
        < ((port (sending e.1) 2).twinePhase + 1) * field (sending e.1) rPwrStatus 8 4 / 8)
    ∧ (port (slot2 0 [] id) 2).txByp ++ (port (slot2 0 [] id) 2).txRsp ++ (port (slot2 0 [] id) 2).txReq = [] := by decide +kernel

/-- A flit with sixteen wrong bytes, past what the code corrects. -/
def badRaw : List Byte := (upTo 16).map (fun i => BitVec.ofNat 8 (17 * i + 1)) ++ zs 272

theorem wit_flit_rx : receives State.reset 2 = false ∧ ((training 2 1).Inv ∧ receives (training 2 1) 2 = true ∧ lstate (training 2 1) 2 ≠ 5)
    ∧ ((lastN 64 ((port (port_ 2 5 []) 2).rxHistory ++ [true])).filter (fun b => b)).length < 8
    ∧ 8 ≤ ((lastN 64 (List.replicate 7 true ++ [true])).filter (fun b => b)).length :=
  ⟨by decide +kernel, ⟨dev_inv _, by decide +kernel⟩, by decide +kernel⟩

set_option maxRecDepth 1000000 in
theorem wit_flit_uncorrectable : flitCorrect badRaw = none := by decide +kernel

/-- The 264 bytes of a flit, and what a receiver makes of it when no error has touched it. -/
def flitOf (payload : List Byte) (c : Nat) : List Byte := sliceB payload 0 256 ++ leBytes 8 c

theorem received (payload : List Byte) (c : Nat) : flitCorrect (flitBytes payload c) = some (flitOf payload c, 0) := by
  refine flitCorrect_sent (flitOf payload c) ?_
  have h : (sliceB payload 0 256).length = 256 := by
    simp only [sliceB, List.drop_zero, List.length_append, List.length_take, List.length_replicate]; omega
  rw [flitOf, List.length_append, h, leBytes_length]

/-- A control field: FLIT_TYPE, PLANE, no credit, ACK_W and ACK_T, and further bits. -/
def control (type plane w t more : Nat) : Nat := type * 2 ^ 5 + plane * 2 ^ 8 + 3 * 2 ^ 9 + w * 2 ^ 27 + t * 2 ^ 41 + more

/-- A flit with the CRC-16 of flit mode, and one whose CRC is zero. -/
def modeFlit (payload : List Byte) (c : Nat) : List Byte := sliceB payload 0 254 ++ leBytes 2 (flitCrc16 (sliceB payload 0 254 ++ leBytes 8 c))

set_option maxRecDepth 1000000 in
theorem wit_flit_crc : (∃ b, flitCorrect (flitBytes (zs 256) (2 ^ 54)) = some (b, 0) ∧ numAt b 256 8 / 2 ^ 54 % 2 = 1
      ∧ numAt b 254 2 ≠ flitCrc16 (b.take 254 ++ sliceB b 256 8)) ∧ lstate (training 2 1) 2 ≠ 5 :=
  ⟨⟨_, received _ _, by decide +kernel⟩, by decide +kernel⟩

/-- What each clause of FLIT_RX asks of an intact flit of packet mode, as a check on its 264 bytes: no hold, no report and no credit; nothing
acknowledged; the next numbers of an IDLE. -/
theorem wit_flit_idle : (port_ 2 5 []).Inv ∧ Sys2Proof.Claims.Arrives (port_ 2 5 []) 2 (flitBytes (zs 256) (control 0 0 0 0 0)) (flitOf (zs 256) (control 0 0 0 0 0)) 0 0
    ∧ Sys2Proof.Claims.NoReport (flitOf (zs 256) (control 0 0 0 0 0)) ∧ Sys2Proof.Claims.IdleNext (port_ 2 5 []) 2 (flitOf (zs 256) (control 0 0 0 0 0)) := by
  refine ⟨dev_inv _, ⟨by decide +kernel, received _ _, by decide +kernel⟩, ?_, ?_⟩
  · unfold Sys2Proof.Claims.NoReport; decide +kernel
  · unfold Sys2Proof.Claims.IdleNext; decide +kernel

/-- Port 2 with a packet in progress: one flit of plane 1. -/
def partway (k : Packet) : State := { port_ 2 5 [] with ports := vmod State.reset.ports 2 (fun x => { x with
  rxPartial := some ⟨true, [(packetBytes k 2).take 256], false⟩ }) }

/-- A flit of type `y` on plane `v` arrives that reports and acknowledges nothing. -/
theorem arrives_quiet {s : State} (pl : List Byte) (y v : Nat) (h : lstate s 2 = 5)
    (hb : Sys2Proof.Claims.ctl (flitOf pl (control y v 0 0 0)) 54 1 = 0 ∧ Sys2Proof.Claims.ctl (flitOf pl (control y v 0 0 0)) 5 3 = y)
    (hr : Sys2Proof.Claims.NoReport (flitOf pl (control y v 0 0 0))) (hk : (port s 2).replay = []) (hc : (port s 2).copies = []) :
    Sys2Proof.Claims.Arrives s 2 (flitBytes pl (control y v 0 0 0)) (flitOf pl (control y v 0 0 0)) 0 y
      ∧ Sys2Proof.Claims.NoReport (flitOf pl (control y v 0 0 0)) ∧ Sys2Proof.Claims.NoAck s 2 (flitOf pl (control y v 0 0 0)) 0 := by
  refine ⟨⟨h, received _ _, hb⟩, hr, ?_, ?_⟩
  · rw [hk]; intro k hk; cases hk
  · rw [hc]; intro c hc; cases hc

/-- SINGLE flits with a packet on each plane and with a wrong CRC-32, START, BODY and END. -/
def singleW : List Byte := packetBytes (notice 0 3) 1
def singleT : List Byte := packetBytes (twine 8 0 64) 1
def twoFlits : Packet := twine 8 3 256

set_option maxRecDepth 1000000 in
theorem wit_flit_packets : (∀ e ∈ [(singleW, 4, 0), (singleT, 4, 1), (zs 256, 4, 0), (zs 256, 1, 1), (zs 256, 2, 1), ((packetBytes twoFlits 2).drop 256, 3, 1)],
      (Sys2Proof.Claims.ctl (flitOf e.1 (control e.2.1 e.2.2 0 0 0)) 54 1 = 0 ∧ Sys2Proof.Claims.ctl (flitOf e.1 (control e.2.1 e.2.2 0 0 0)) 5 3 = e.2.1)
        ∧ Sys2Proof.Claims.ctl (flitOf e.1 (control e.2.1 e.2.2 0 0 0)) 55 1 = 0 ∧ Sys2Proof.Claims.ctl (flitOf e.1 (control e.2.1 e.2.2 0 0 0)) 53 1 = 0
        ∧ Sys2Proof.Claims.ctl (flitOf e.1 (control e.2.1 e.2.2 0 0 0)) 39 2 = 0 ∧ Sys2Proof.Claims.ctl (flitOf e.1 (control e.2.1 e.2.2 0 0 0)) 9 2 = 3)
    ∧ packetOfFlits ((flitOf singleW (control 4 0 0 0 0)).take 256) = some (notice 0 3)
    ∧ packetOfFlits ((flitOf singleT (control 4 1 0 0 0)).take 256) = some (twine 8 0 64)
    ∧ packetOfFlits ((flitOf (zs 256) (control 4 0 0 0 0)).take 256) = none
    ∧ packetOfFlits ([(packetBytes twoFlits 2).take 256].flatten ++ (flitOf ((packetBytes twoFlits 2).drop 256) (control 3 1 0 0 0)).take 256) = some twoFlits := by
  decide +kernel

theorem wit_flit_quiet : (∀ s ∈ [port_ 2 5 [], partway twoFlits], lstate s 2 = 5 ∧ (port s 2).replay = [] ∧ (port s 2).copies = [])
    ∧ (port (port_ 2 5 []) 2).rxPartial = none
    ∧ (port (partway twoFlits) 2).rxPartial = some ⟨decide (Sys2Proof.Claims.ctl (flitOf (zs 256) (control 2 1 0 0 0)) 8 1 = 1), [(packetBytes twoFlits 2).take 256], false⟩
    ∧ (port_ 2 5 []).Inv ∧ (partway twoFlits).Inv :=
  ⟨by decide +kernel, by decide +kernel, by decide +kernel, dev_inv _, dev_inv _⟩

/-! ## Witnesses: the twine plane -/

/-- Device 0 with a route to device 1 on port 0, which is in PACKET. -/
def routed : State := { port_ 0 5 [] with misc := { State.reset.misc with routes := [(1, 1)] } }

theorem wit_twine_request : routed.Inv ∧ Sys2Proof.Claims.NoneReleased routed ∧ Sys2Proof.Claims.Deliverable routed (some 0) (twine 8 0 64) ∧ fenceWaits routed (some 0) (twine 8 0 64) = false
    ∧ routeTo routed 1 (devOf (twine 8 0 64).src) = .out 0 ∧ 0 < slotsFree routed 0 ∧ (twine 9 0 64).payload.length % 64 = 0
    ∧ commitBytes routed (numAt (twine 0xA 1 128).payload 0 8) + 4 * (payloadLanes ((twine 0xA 1 128).payload.drop 64)).length ≤ 0x200000
    ∧ forHere routed { twine 8 0 64 with dst := 512 } = false :=
  ⟨dev_inv [(rPort 0 0x04, (5 : Word) <<< 28)], by
    unfold Sys2Proof.Claims.NoneReleased; decide +kernel, by
    unfold Sys2Proof.Claims.Deliverable; decide +kernel, by decide +kernel⟩

/-- The routed device with a transfer open for step `n` of packet `k`: its lines granted where `b` says so. -/
def serving (k : Packet) (n : Nat) (b : Bool) : State := { routed with misc := { routed.misc with
  netJobs := [⟨70, 3, .packet (some 0) k n, [], zs 64⟩], netLines := if b then [] else [(3, ⟨70, 5, 0, false, 0, 0, 64, 0, 1, 1, []⟩)] } }

theorem wit_twine_served : (∀ s ∈ [routed, serving (twine 8 0 64) 0 true, serving (twine 0xD 0 64) 0 true, serving (twine 8 0 64) 0 false,
        serving (twine 9 0 64) 0 true, serving (twine 9 0 64) 1 true], s.misc.localReq = [] ∧ routeTo s 1 1 = .out 0 ∧ 0 < slotsFree s 0)
    ∧ (netJob routed (.packet (some 0) (twine 8 0 64) 0) = none ∧ (twine 8 0 64).payload ≠ [] ∧ canRespond routed (twine 8 0 64) = true)
    ∧ (∀ k ∈ [twine 8 0 64, twine 0xD 0 64], netJob (serving k 0 true) (.packet (some 0) k 0) = some ⟨70, 3, .packet (some 0) k 0, [], zs 64⟩
      ∧ netDone (serving k 0 true) ⟨70, 3, .packet (some 0) k 0, [], zs 64⟩ = true ∧ fenceWaits (serving k 0 true) (some 0) k = false
      ∧ isWaiting (serving k 0 true) k (some 0) = false ∧ inqRoom (serving k 0 true) 3 5 = true)
    ∧ (netJob (serving (twine 8 0 64) 0 false) (.packet (some 0) (twine 8 0 64) 0) = some ⟨70, 3, .packet (some 0) (twine 8 0 64) 0, [], zs 64⟩
      ∧ netDone (serving (twine 8 0 64) 0 false) ⟨70, 3, .packet (some 0) (twine 8 0 64) 0, [], zs 64⟩ = false)
    ∧ (∀ s ∈ [routed, serving (twine 9 0 64) 0 true, serving (twine 9 0 64) 1 true], faddOpen s (some 0) (twine 9 0 64) = false)
    ∧ (netJob (serving (twine 9 0 64) 0 true) (.packet (some 0) (twine 9 0 64) 1) = none
      ∧ netJob (serving (twine 9 0 64) 0 true) (.packet (some 0) (twine 9 0 64) 0) = some ⟨70, 3, .packet (some 0) (twine 9 0 64) 0, [], zs 64⟩
      ∧ netDone (serving (twine 9 0 64) 0 true) ⟨70, 3, .packet (some 0) (twine 9 0 64) 0, [], zs 64⟩ = true ∧ (zs 64).length = (twine 9 0 64).payload.length)
    ∧ (netJob (serving (twine 9 0 64) 1 true) (.packet (some 0) (twine 9 0 64) 1) = some ⟨70, 3, .packet (some 0) (twine 9 0 64) 1, [], zs 64⟩
      ∧ netDone (serving (twine 9 0 64) 1 true) ⟨70, 3, .packet (some 0) (twine 9 0 64) 1, [], zs 64⟩ = true) := by decide +kernel

theorem wit_twine_full : inqRoom { routed with pods := vmod State.reset.pods 3 (fun x => { x with
      inq := vput x.inq 5 (List.replicate 64 entry0) }) } (podOf (twine 0xD 0 64).dst) (queueOf (twine 0xD 0 64).dst) = false := by decide +kernel

/-- Pod 3 with that request open, and with a FENCE packet to device 1 that waits for it where `f` says so. -/
def asking (f : Bool) : State := { routed with
  pods := vmod State.reset.pods 3 (fun x => { x with outq := vput x.outq 5 ⟨1, [openReq]⟩ })
  misc := { routed.misc with fenced := if f then [⟨{ pkt 8 0 (zs 64) with src := 29, dst := 512, fence := true }, [(3, 5, 0)]⟩] else [] } }

theorem wit_done : Sys2Proof.Claims.NoneReleased (asking true) ∧ Sys2Proof.Claims.NoneReleased (asking false)
    ∧ ((asking false).misc.fenced = [] ∧ forHere (asking false) (twine 0xC 0 64) = true
      ∧ (outQ (pod (asking false) (podOf (twine 0xC 0 64).dst)) (queueOf (twine 0xC 0 64).dst)).tokens = [openReq]
      ∧ openReq.transferDone = false ∧ openReq.dstDev = devOf (twine 0xC 0 64).src ∧ openReq.kind = .twSend)
    ∧ (forHere (asking true) (twine 0xC 0 64) = true
      ∧ (asking true).misc.fenced = [⟨{ pkt 8 0 (zs 64) with src := 29, dst := 512, fence := true },
          [((podOf (twine 0xC 0 64).dst).val, (queueOf (twine 0xC 0 64).dst).val, openReq.seq)]⟩]
      ∧ (outQ (pod (asking true) (podOf (twine 0xC 0 64).dst)) (queueOf (twine 0xC 0 64).dst)).tokens = [openReq]
      ∧ channelOf ({ pkt 8 0 (zs 64) with src := 29, dst := 512, fence := true } : Packet) = 0
      ∧ routeTo (asking true) 0 (devOf ({ pkt 8 0 (zs 64) with src := 29, dst := 512, fence := true } : Packet).dst) = .out 0)
    ∧ (twine 0xF 0 64).offset ≠ 0xFFFFFF
    ∧ inqRoom routed (podOf (twine 0xF 0 64).dst) (queueOf (twine 0xF 0 64).dst) = true ∧ (port routed 0).rxRsp = [] := by
  refine ⟨?_, ?_, by decide +kernel⟩ <;> (unfold Sys2Proof.Claims.NoneReleased; decide +kernel)

theorem wit_twine_packet : portUp State.reset 0 = false
    ∧ ((twine 8 0 64).seq = (port routed 0).rxTwineSeq ∧ 8 ≤ (twine 8 0 64).type.toNat ∧ channelOf (twine 8 0 64) = 0 ∧ forHere routed (twine 8 0 64) = true
      ∧ unitsIn (port routed 0).rxReq + unitsOf (twine 8 0 64) ≤ 384)
    ∧ (newer 0xFFF (port routed 0).rxTwineSeq = false ∧ newer (port routed 0).rxTwineSeq 0xFFF = true)
    ∧ newer 2047 (port routed 0).rxTwineSeq = true ∧ (port routed 0).nakTSent ≠ some (port routed 0).rxTwineSeq := by decide +kernel

/-- Port 0 of the routed device holds a request to be served. -/
def served : State := { routed with ports := vmod State.reset.ports 0 (fun x => { x with rxReq := [twine 8 0 64] }) }

theorem wit_served : (port served 0).rxReq = twine 8 0 64 :: [] ∧ forHere served (twine 8 0 64) = true
    ∧ fenceWaits served (some 0) (twine 8 0 64) = false ∧ (port State.reset 0).rxReq = [] := by decide +kernel

/-- A FENCE request behind an unserved packet of its source and destination. -/
def behind : State := { routed with ports := vmod State.reset.ports 0 (fun x => { x with
  rxReq := [{ twine 8 0 64 with fence := true, seq := 1 }], rxRsp := [twine 0xD 0 64] }) }

theorem wit_behind : (port behind 0).rxReq = { twine 8 0 64 with fence := true, seq := 1 } :: []
    ∧ fenceWaits behind (some 0) { twine 8 0 64 with fence := true, seq := 1 } = true := by decide +kernel

/-- Pod 3 with an entry that waits for queue 5. -/
def waits : State := { State.reset with pods := vmod State.reset.pods 3 (fun x => { x with waiting := [⟨5, zs 64, none, none⟩] }) }

theorem wit_waiting : (pod waits 3).waiting.find? (fun w => w.queue = 5) = some ⟨5, zs 64, none, none⟩ ∧ inqRoom waits 3 5 = true
    ∧ ∀ i, (port waits i).rxRsp = [] := by decide +kernel

/-! ## Witnesses: alignment, training, recovery, discovery -/

/-- An ALIGN of depth `d` and stake `n` that began at tick 0. -/
def align (d : Byte) (n : Nat) : List Byte := [1, 1, d] ++ zs 5 ++ leBytes 8 n ++ zs 48

/-- Port 2 in PACKET, aligned where the first bit is set. -/
def aligned_ (a : Word) (l : List (Nat × Word)) : State := port_ 2 5 ((rAlign, a) :: l)

/-- The same at the tick at which an ALIGN sent at tick 0 arrives. -/
def onTime : State := setReg64 (aligned_ 0x80000000 []) rTick Config.fixedDelay

/-- The fixed delay has no value in the model, any that fits the tick counter will do. -/
theorem wit_align_near (h : Config.fixedDelay < 2 ^ 64) : portUp onTime 2 = true ∧ numAt (align 0 0) 1 1 = 1 ∧ aligned onTime = true
    ∧ (alignOffset onTime 2 (align 0 0)).natAbs ≤ 32 ∧ numAt (align 0 0) 8 8 = stakeNo onTime
    ∧ numAt (align 0 0) 0x10 8 = reg64 onTime rStakeStart := by
  have hr : ∀ o : Nat, rTick ≠ o → rTick + 4 ≠ o → reg onTime o = reg (aligned_ 0x80000000 []) o :=
    fun o h1 h2 => reg_setReg64_ne _ _ h1 h2
  have ht : tick onTime = Config.fixedDelay := by
    unfold tick onTime; rw [reg64_setReg64]; exact Nat.mod_eq_of_lt h
  have hd : field onTime (rPort (2 : PortId).val 0x14) 0 20 = 0 := by
    unfold field; rw [hr _ (by decide) (by decide)]; decide +kernel
  refine ⟨?_, by decide +kernel, ?_, ?_, ?_, ?_⟩
  · unfold portUp lstate field; rw [hr _ (by decide) (by decide)]; decide +kernel
  · unfold aligned flag; rw [hr _ (by decide) (by decide)]; decide +kernel
  · have h0 : numAt (align 0 0) 0x18 8 = 0 := by decide +kernel
    simp only [alignOffset]; rw [ht, hd, h0]; omega
  · unfold stakeNo reg64; rw [hr _ (by decide) (by decide), hr _ (by decide) (by decide)]; decide +kernel
  · unfold reg64; rw [hr _ (by decide) (by decide), hr _ (by decide) (by decide)]; decide +kernel

/-- An ALIGN sent 33 ticks too late. -/
theorem wit_align_far : 32 < (alignOffset (aligned_ 0x80000000 []) 2 ([1, 1] ++ zs 22 ++ leBytes 8 33 ++ zs 32)).natAbs := by
  have h : numAt (([1, 1] ++ zs 22 ++ leBytes 8 33 ++ zs 32 : List Byte)) 0x18 8 = 33 := by decide +kernel
  have ht : tick (aligned_ 0x80000000 []) = 0 := by decide +kernel
  simp only [alignOffset]; rw [h, ht]; omega

theorem wit_align : portUp State.reset 2 = false ∧ numAt (align 0 1) 8 8 ≠ stakeNo (aligned_ 0x80000000 [])
    ∧ (aligned (aligned_ 0 []) = false ∧ numAt (align 4 0) 2 1 < 5 ∧ (aligned_ 0 []).align.candidates = [])
    ∧ tick { aligned_ 0 [] with align := ⟨[(0, 2, 0, 0, 0)], 0⟩ } < 0 + 36864 := by decide +kernel

theorem wit_adopt : bestCandidate [(4, 15, -5, 2 ^ 64 - 1, 2 ^ 64 - 1)] = some (4, 15, -5, 2 ^ 64 - 1, 2 ^ 64 - 1)
    ∧ 0 + 36864 ≤ tick (aligned_ 0 [(rTick, 36864)])
    ∧ ((dev [(rManifest, 0x80000000), (rPlace, 0x20000000), (rTick + 4, 100)]).Inv
      ∧ flag (dev [(rManifest, 0x80000000), (rPlace, 0x20000000), (rTick + 4, 100)]) rManifest 31 = true
      ∧ flag (dev [(rManifest, 0x80000000), (rPlace, 0x20000000), (rTick + 4, 100)]) rPlace 29 = true
      ∧ 5 * secondTicks ≤ tick (dev [(rManifest, 0x80000000), (rPlace, 0x20000000), (rTick + 4, 100)]))
    ∧ flag (dev [(rPlace, 0x10000000)]) rPlace 28 = true ∧ 10 * secondTicks ≤ tick (dev [(rTick + 4, 100)])
    ∧ 15 * secondTicks ≤ tick (dev [(rTick + 4, 100)]) :=
  ⟨by decide +kernel, by decide +kernel, ⟨dev_inv _, by decide +kernel⟩, by decide +kernel⟩

theorem wit_train_again : (dev [(rPort 15 0x04, 0x70200000)]).Inv ∧ lstate (dev [(rPort 15 0x04, 0x70200000)]) 15 = 7
    ∧ outcome (dev [(rPort 15 0x04, 0x70200000)]) 15 = 2 ∧ lstate State.reset 15 ≠ 1 ∧ lstate State.reset 15 ≠ 7 := ⟨dev_inv _, by decide +kernel⟩

theorem wit_train : lstate (port_ 15 1 []) 15 = 1 ∧ lstate State.reset 15 ≠ 1 ∧ ((port State.reset 15).train.step = 0 ∧ lstate (port_ 15 2 []) 15 = 2)
    ∧ ((port (training 2 0) 2).train.attempts + 1 < 8 ∧ enabled (training 2 0) 2 = true ∧ func (training 2 0) (fLink (2 : PortId).val) ≠ 4)
    ∧ lstate State.reset 2 ≠ 2 ∧ inFlitMode (training 2 1) 2 = true ∧ inFlitMode State.reset 2 = false := by decide +kernel

theorem wit_delay : (port ({ port_ 2 2 [] with ports := vmod State.reset.ports 2 (fun x => { x with train := { x.train with
        step := 1, asked := true, delays := List.replicate 62 9 } }) } : State) 2).train.asked = true
    ∧ (port ({ port_ 2 2 [] with ports := vmod State.reset.ports 2 (fun x => { x with train := { x.train with
        step := 1, asked := true, delays := List.replicate 62 9 } }) } : State) 2).train.delays.length < 63 := by decide +kernel

/-- Port 2 in PACKET with an undecided copy sent in pick 0 and a twine packet to replay. -/
def sent (n : Nat) (l : List (Nat × Word)) : State := { port_ 2 5 l with ports := vmod State.reset.ports 2 (fun x => { x with
  copies := [⟨0, pkt 1 0 (zs 64), 0, false, none, false, false⟩], replay := [twine 8 0 64], replaysNoProgress := 14, recoverStakes := List.replicate n 0 }) }

theorem wit_recover : (sent 7 []).Inv ∧ lstate (sent 7 []) 2 = 5
    ∧ ((port (sent 7 []) 2).recoverStakes.filter (fun n => decide (stakeNo (sent 7 []) < n + 1024))).length < 8
    ∧ 8 ≤ ((port (sent 8 []) 2).recoverStakes.filter (fun n => decide (stakeNo (sent 8 []) < n + 1024))).length
    ∧ lstate State.reset 2 ≠ 5 ∧ numAt ([4] ++ zs 63) 0 1 = 4
    ∧ (lstate (port_ 2 6 [(rTick, 4001)]) 2 = 6 ∧ field (port_ 2 6 [(rTick, 4001)]) rLinkCfg 0 16
        < ticksSince (port_ 2 6 [(rTick, 4001)]) (port (port_ 2 6 [(rTick, 4001)]) 2).recoverTick)
    ∧ ticksSince (port_ 2 6 [(rTick, 4000)]) (port (port_ 2 6 [(rTick, 4000)]) 2).recoverTick ≤ field (port_ 2 6 [(rTick, 4000)]) rLinkCfg 0 16
    ∧ (portUp (sent 0 [(rTick, 2880)]) 2 = true ∧ ⟨0, pkt 1 0 (zs 64), 0, false, none, false, false⟩ ∈ (port (sent 0 [(rTick, 2880)]) 2).copies
      ∧ 0 + 80 ≤ absPick (sent 0 [(rTick, 2880)]))
    ∧ absPick (sent 0 []) < 0 + 80
    ∧ (portUp (sent 0 []) 2 = true ∧ (port (sent 0 []) 2).replay ≠ [] ∧ (port (sent 0 []) 2).replaysNoProgress + 1 < 16
      ∧ replayOver (sent 0 [(rTick + 4, 1)]) (port (sent 0 [(rTick + 4, 1)]) 2).replaySince = true)
    ∧ replayOver (sent 0 []) (port (sent 0 []) 2).replaySince = false ∧ portUp State.reset 2 = false
    ∧ receives (sent 0 []) 2 = true ∧ (if 12 ≤ (2 : PortId).val then 48 else 6) < (7 : Int).natAbs
    ∧ (-6 : Int).natAbs ≤ (if 12 ≤ (2 : PortId).val then 48 else 6) ∧ (if 12 ≤ (12 : PortId).val then 48 else 6) < (-49 : Int).natAbs :=
  ⟨dev_inv _, by decide +kernel⟩

/-- An IDLE on port 2 whose control field is `c`. -/
def idle (c : Nat) : List Byte := flitOf (zs 256) c

/-- NAK_T of number 1, NAK_W of number 0 and of one whose copy is gone, a RACK, a hold of round 0, a grant of 32,767 units on VC 0. -/
def nakT : Nat := control 0 0 4095 0 (2 ^ 53)
def nakW (n : Nat) : Nat := control 0 0 n 4095 (2 ^ 39)
def rack : Nat := control 0 0 0 4095 (2 ^ 40)
def holding : Nat := control 0 0 4095 4095 (2 ^ 55)
def grant : Nat := 32767 * 2 ^ 11 + 4095 * 2 ^ 27 + 4095 * 2 ^ 41

/-- Port 2 whose peer speaks a version with RACK, and one with the peer's buffers. -/
def racked : State := dev [(rPort 2 0x04, 0x51000000)]
def granted : State := { port_ 2 5 [] with ports := vmod State.reset.ports 2 (fun x => { x with train := { x.train with peerBufs := [32767, 0, 0] } }) }

theorem wit_flit_control : (∀ c ∈ [nakT, nakW 0, nakW 5, rack, holding, grant], Sys2Proof.Claims.ctl (idle c) 54 1 = 0 ∧ Sys2Proof.Claims.ctl (idle c) 5 3 = 0
      ∧ BitVec.ofNat 12 (numAt (idle c) 0 2) = 0 ∧ BitVec.ofNat 12 (numAt (idle c) 2 2) = 0)
    ∧ (∀ s ∈ [sent 0 [], racked, granted, aligned_ 0x80000000 [], aligned_ 0 []], lstate s 2 = 5 ∧ (port s 2).rxWarpSeq = 0 ∧ (port s 2).rxTwineSeq = 0)
    ∧ (Sys2Proof.Claims.ctl (idle nakT) 55 1 = 0 ∧ Sys2Proof.Claims.ctl (idle nakT) 53 1 = 1 ∧ Sys2Proof.Claims.ctl (idle nakT) 39 2 = 0
      ∧ Sys2Proof.Claims.ctl (idle nakT) 9 2 = 3 ∧ (port (sent 0 []) 2).replay ≠ [] ∧ (port (sent 0 []) 2).replaysNoProgress + 1 < 16
      ∧ (∀ k ∈ (port (sent 0 []) 2).replay, 2048 ≤ (BitVec.ofNat 12 (Sys2Proof.Claims.ctl (idle nakT) 41 12) - 1 - k.seq).toNat)
      ∧ ∀ c ∈ (port (sent 0 []) 2).copies, 2048 ≤ (BitVec.ofNat 12 (Sys2Proof.Claims.ctl (idle nakT) 27 12) - c.seq).toNat)
    ∧ (∀ n ∈ [0, 5], Sys2Proof.Claims.ctl (idle (nakW n)) 55 1 = 0 ∧ Sys2Proof.Claims.ctl (idle (nakW n)) 53 1 = 0 ∧ Sys2Proof.Claims.ctl (idle (nakW n)) 39 1 = 1
      ∧ Sys2Proof.Claims.ctl (idle (nakW n)) 9 2 = 3
      ∧ ∀ k ∈ (port (sent 0 []) 2).replay, 2048 ≤ (BitVec.ofNat 12 (Sys2Proof.Claims.ctl (idle (nakW n)) 41 12) - k.seq).toNat)
    ∧ ((port (sent 0 []) 2).copies.find? (fun c => c.seq = BitVec.ofNat 12 (Sys2Proof.Claims.ctl (idle (nakW 0)) 27 12))
        = some ⟨0, pkt 1 0 (zs 64), 0, false, none, false, false⟩
      ∧ (port (sent 0 []) 2).copies.find? (fun c => c.seq = BitVec.ofNat 12 (Sys2Proof.Claims.ctl (idle (nakW 5)) 27 12)) = none) := by decide +kernel

theorem wit_flit_grants : (Sys2Proof.Claims.ctl (idle rack) 55 1 = 0 ∧ Sys2Proof.Claims.ctl (idle rack) 53 1 = 0 ∧ Sys2Proof.Claims.ctl (idle rack) 39 1 = 0
      ∧ Sys2Proof.Claims.ctl (idle rack) 40 1 = 1 ∧ Sys2Proof.Claims.ctl (idle rack) 9 2 = 3 ∧ field racked (rPort 2 0x04) 24 4 ≠ 0 ∧ (port racked 2).replay = [])
    ∧ (Sys2Proof.Claims.ctl (idle holding) 55 1 = 1 ∧ Sys2Proof.Claims.ctl (idle holding) 53 1 = 0 ∧ Sys2Proof.Claims.ctl (idle holding) 39 2 = 0
      ∧ Sys2Proof.Claims.ctl (idle holding) 9 2 = 3 ∧ Sys2Proof.Claims.ctl (idle holding) 56 8 = holdTag (aligned_ 0x80000000 [])
      ∧ aligned (aligned_ 0x80000000 []) = true ∧ aligned (aligned_ 0 []) = false ∧ (aligned_ 0x80000000 []).stake.refusedRound = none
      ∧ (aligned_ 0x80000000 []).stake.committed = false ∧ (aligned_ 0x80000000 []).stake.held = false
      ∧ (staked (aligned_ 0x80000000 []) (fun x => { x with refusedRound := some 0 })).stake.refusedRound = some (Sys2Proof.Claims.ctl (idle holding) 56 8)
      ∧ (port (aligned_ 0x80000000 []) 2).replay = [] ∧ (port (aligned_ 0x80000000 []) 2).copies = []
      ∧ Sys2Proof.Claims.ctl (idle holding) 56 8 ≠ holdTag (aligned_ 0x80000000 [(rStake, 1)]))
    ∧ (Sys2Proof.Claims.ctl (idle grant) 55 1 = 0 ∧ Sys2Proof.Claims.ctl (idle grant) 53 1 = 0 ∧ Sys2Proof.Claims.ctl (idle grant) 39 2 = 0
      ∧ Sys2Proof.Claims.ctl (idle grant) 9 2 = 0 ∧ (port granted 2).replay = [] ∧ (port granted 2).copies = []
      ∧ (Sys2Proof.Claims.ctl (idle grant) 11 16 + 65536 - field granted (rPort 2 (0x20 + 4 * 0)) 16 16) % 65536 ≤ 32767
      ∧ (Sys2Proof.Claims.ctl (idle grant) 11 16 + 65536 - field granted (rPort 2 (0x20 + 4 * 0)) 0 16) % 65536 ≤ (port granted 2).train.peerBufs.getD 0 0) := by
  decide +kernel

/-- Port 2 in flit mode, its hunt over where `b` says so, with `l` flits to be acknowledged. -/
def inMode (b : Bool) (l : List (BitVec 3 × List Byte)) : State :=
  { training 2 1 with ports := vmod (training 2 1).ports 2 (fun x => { x with hunt := b, flitReplay := l }) }

/-- Flits of flit mode: an IDLE of count 0 and of count 1, a READY, and an IDLE with NAK. -/
def modeCtl (type more : Nat) : Nat := control type 0 0 4095 (2 ^ 54 + more)
def modeOf (pl : List Byte) (c : Nat) : List Byte := flitOf (modeFlit pl c) c
def modeCases : List (List Byte × Nat × Nat) := [(zs 256, 0, 0), (1 :: zs 255, 0, 0), (3 :: zs 255, 5, 0), (zs 256, 0, 2 ^ 53), (zs 256, 4, 0)]

set_option maxRecDepth 1000000 in
theorem wit_flit_mode : (∀ e ∈ modeCases, Sys2Proof.Claims.ctl (modeOf e.1 (modeCtl e.2.1 e.2.2)) 54 1 = 1
      ∧ Sys2Proof.Claims.ctl (modeOf e.1 (modeCtl e.2.1 e.2.2)) 5 3 = e.2.1 ∧ Sys2Proof.Claims.ctl (modeOf e.1 (modeCtl e.2.1 e.2.2)) 9 2 = 3
      ∧ numAt (modeOf e.1 (modeCtl e.2.1 e.2.2)) 254 2
        = flitCrc16 ((modeOf e.1 (modeCtl e.2.1 e.2.2)).take 254 ++ sliceB (modeOf e.1 (modeCtl e.2.1 e.2.2)) 256 8))
    ∧ (∀ e ∈ modeCases.filter (fun e => e.2.2 = 0), Sys2Proof.Claims.ctl (modeOf e.1 (modeCtl e.2.1 e.2.2)) 53 1 = 0
      ∧ BitVec.ofNat 12 (Sys2Proof.Claims.ctl (modeOf e.1 (modeCtl e.2.1 e.2.2)) 41 12) + 1 = (port (inMode true []) 2).txCount)
    ∧ numAt (modeOf (3 :: zs 255) (modeCtl 5 0)) 0 1 < 5 ∧ Sys2Proof.Claims.ctl (modeOf (zs 256) (modeCtl 0 (2 ^ 53))) 53 1 = 1
    ∧ BitVec.ofNat 12 (numAt (modeOf (zs 256) (modeCtl 0 0)) 0 2) = (port (inMode true []) 2).rxCount
    ∧ BitVec.ofNat 12 (numAt (modeOf (1 :: zs 255) (modeCtl 0 0)) 0 2) ≠ (port (inMode true []) 2).rxCount := by decide +kernel

theorem wit_flit_mode_ports : (∀ s ∈ [inMode true [], inMode false [], inMode true [(0, zs 256)]], inFlitMode s 2 = true ∧ (port s 2).train.step < 5)
    ∧ (port (inMode true []) 2).flitReplay = [] ∧ (port (inMode true []) 2).hunt = true ∧ (port (inMode false []) 2).hunt = false
    ∧ ((port (port_ 2 5 []) 2).recoverStakes.filter (fun m => decide (stakeNo (port_ 2 5 []) < m + 1024))).length < 8
    ∧ 0 ∈ [0, 4, 5, 6] := by decide +kernel

/-- A manifest of pattern 4 with one rack cable from port 0 of device 0. -/
def cabledDev : State := { port_ 0 1 [] with manifest := some (zs 6 ++ [4, 0, 1] ++ zs 7 ++ leBytes 4 2 ++ leBytes 4 1 ++ zs 40 ++ zs 48
  ++ ([1, 0] ++ zs 46) ++ [0, 0, 1, 0, 0, 0, 0, 0]) }

/-- A device listed at coordinate 0, whose manifest has a remappable group of ports 0 and 1. -/
def grouped : State := { State.reset with manifest := some (zs 6 ++ [4, 0, 1] ++ zs 7 ++ leBytes 4 1 ++ zs 4 ++ leBytes 4 1 ++ zs 36 ++ zs 48 ++ [0, 0, 3, 0, 1, 0, 0, 0]) }

/-- The exchange of ports 0 and 1, and one that leaves the group. -/
theorem wit_port_map : grouped.Inv ∧ weaveActive grouped = false ∧ weavePending grouped = false
    ∧ (∀ i, i < 8 → 0 + i ∈ mapPorts 0x76543201 ∧ (getF (0x76543201 : Word) (4 * i) 4 = 0 + i ∨ groupHolds grouped (0 + i) (getF (0x76543201 : Word) (4 * i) 4) = true))
    ∧ getF (reg grouped rPortMapLo) (4 * 1) 4 ≠ getF (0x76543201 : Word) (4 * 1) 4 ∧ getF (reg grouped rPortMapLo) (4 * 7) 4 = getF (0x76543201 : Word) (4 * 7) 4
    ∧ (∃ i, i < 8 ∧ getF (0x76543120 : Word) (4 * i) 4 ≠ 0 + i ∧ groupHolds grouped (0 + i) (getF (0x76543120 : Word) (4 * i) 4) = false) := by
  refine ⟨dev_inv [], by decide +kernel, by decide +kernel, by decide +kernel, by decide +kernel, by decide +kernel, 2, by decide +kernel⟩

/-- Port 2 in TRAIN at step 1 with `n` delays measured, its request of one more out, and the peer's announcement. -/
def measuring (n : Nat) : State := { port_ 2 2 [(rStream 0 0x34, 0x20000000)] with ports := vmod State.reset.ports 2 (fun x => { x with train := { x.train with
  step := 1, asked := true, delays := List.replicate n 9, peer := some (zs 64) } }) }

theorem wit_discovery : (measuring 64).Inv ∧ lstate (measuring 64) 2 = 2 ∧ 1 ≤ (port (measuring 64) 2).train.step ∧ (port (measuring 64) 2).train.step < 4
    ∧ 64 ≤ (port (measuring 64) 2).train.delays.length ∧ (measuring 63).Inv ∧ (port (measuring 63) 2).train.asked = true
    ∧ (port (measuring 63) 2).train.delays.length = 63 ∧ (port (measuring 63) 2).train.peer = some (zs 64) ∧ strmState (measuring 63) 0 = 1 :=
  ⟨dev_inv _, by decide +kernel, by decide +kernel, by decide +kernel, by decide +kernel, dev_inv _, by decide +kernel⟩

theorem wit_ports : (enabled (port_ 2 7 []) 2 = true ∧ getB (1 : Word) 0 = true ∧ lstate (port_ 2 7 []) 2 = 7 ∧ func (port_ 2 7 []) (fLink (2 : PortId).val) ≠ 4)
    ∧ lstate (port_ 2 3 []) 2 = 3
    ∧ (lstate cabledDev 0 = 1 ∧ cabled cabledDev 0 = true ∧ outcome cabledDev 0 ≠ 2 ∧ func cabledDev (fLink (0 : PortId).val) ≠ 4)
    ∧ cabled State.reset 0 = false ∧ weaveActive up = true ∧ weavePending (dev [(rWeaveState, 0x40000000)]) = true
    ∧ 0 ∉ mapPorts (0x76543211 : Word) ∧ weaveActive State.reset = false ∧ weavePending State.reset = false
    ∧ reg State.reset rPortMapLo = 0x76543210 ∧ reg State.reset rPortMapHi = 0xFEDCBA98
    ∧ strmState (dev [(rStream 0 0x34, 0x20000000)]) 0 = 1 := by decide +kernel

/-! ## Witnesses: Pod operations -/

/-- The device with some registers written, Pod 3 changed by `g`, and a weave in force that allows every V class and every engine. -/
def podDev (l : List (Nat × Word)) (g : Pod → Pod) : State :=
  { dev l with pods := vmod State.reset.pods 3 g, active := some { weave with vMask := BitVec.allOnes 64, envelope := 256 } }

theorem podDev_inv (l : List (Nat × Word)) (g : Pod → Pod) : (podDev l g).Inv := dev_inv l

/-- A Pod with some S registers written. -/
def withS (l : List (Fin 32 × Word64)) (x : Pod) : Pod := { x with s := l.foldl (fun v e => vput v e.1 e.2) x.s }

/-- Operation `o` of Pod 3 issues. -/
def goes (s : State) (o : SlotOp) : Bool :=
  !podTrapped s 3 && !podHalted s 3 && podClockRuns s 3 && (opTraps (withPending s 3) 3 o).isEmpty && !opWaits (settleFor s 3 o) 3 o

theorem goes_issues {s : State} {o : SlotOp} (h : goes s o = true) : Sys2Proof.Claims.Issues s 3 o := by
  simp only [goes, Bool.and_eq_true, Bool.not_eq_true', List.isEmpty_iff] at h
  exact ⟨h.1.1.1.1, h.1.1.1.2, h.1.1.2, h.1.2, h.2⟩

theorem all_issue {s : State} {l : List SlotOp} (h : l.all (goes s) = true) : ∀ o ∈ l, Sys2Proof.Claims.Issues s 3 o :=
  fun o ho => goes_issues (List.all_eq_true.1 h o ho)

/-- A control operation's fields. -/
def ctl (c : Nat) (rd ra rb : BitVec 5) (imm : BitVec 27) : SlotOp := .ctl c ⟨rd, ra, rb, imm⟩

theorem wit_operations :
    Sys2Proof.Claims.operation (.cAdd 3 ⟨1, 2, 3, 0⟩) = some (3, ctl 1 1 2 3 0)
    ∧ podTrapped (dev [(rPod 3 0x100, 0x20000000)]) 3 = true ∧ podHalted (dev [(rPod 3 0x100, 0x40000000)]) 3 = true
    ∧ (podTrapped State.reset 3 = false ∧ podHalted State.reset 3 = false ∧ podClockRuns State.reset 3 = true) ∧ podClockRuns (dev [(rClkStatus, 0)]) 3 = false
    ∧ (opTraps (withPending (podDev [] (fun x => { x with outq := vput x.outq 0 ⟨1, [openReq]⟩ })) 3) 3 (.ctl 0x19 ⟨0, 0, 0, 0x10⟩) = []
      ∧ opWaits (settleFor (podDev [] (fun x => { x with outq := vput x.outq 0 ⟨1, [openReq]⟩ })) 3 (.ctl 0x19 ⟨0, 0, 0, 0x10⟩)) 3
          (.ctl 0x19 ⟨0, 0, 0, 0x10⟩) = true)
    ∧ (State.reset.Inv ∧ opTraps (withPending State.reset 3) 3 (ctl 0x14 0 0 0 0) ≠ []) :=
  ⟨rfl, by decide +kernel, by decide +kernel, by decide +kernel, by decide +kernel, by decide +kernel, dev_inv [], by decide +kernel⟩

theorem wit_arithmetic : (podDev [] id).Inv ∧ ∀ o ∈ [1, 2, 3, 4, 5, 6, 7, 8, 0xA].map (fun c => ctl c 31 30 29 0)
    ++ [ctl 9 31 30 0 0x4000000, ctl 0xB 31 0 0 0x4000000, ctl 0xC 31 31 0 0x7FFFFFF] ++ (upTo 5).map (fun n => ctl 0x1B 31 0 0 (BitVec.ofNat 27 n)),
    Sys2Proof.Claims.Issues (podDev [] id) 3 o := ⟨podDev_inv _ _, all_issue (by decide +kernel)⟩

/-- Pod 3 with 5 in S1 and a stacked bundle. -/
def branching : State := podDev [] (fun x => { withS [(1, 5)] x with stack := [7] })

theorem wit_branches : branching.Inv
    ∧ (∀ o ∈ [0x10, 0x11, 0x12, 0x13, 0x14].map (fun c => ctl c 0 (if c < 0x12 then 1 else 0) 0 (if c = 0x14 then 0 else 9))
        ++ [ctl 0x10 0 0 0 9, ctl 0x11 0 0 0 9, ctl 0x15 0 1 0 9, ctl 0x15 0 0 0 9, ctl 0x16 0 0 0 0x7FFFFFF], Sys2Proof.Claims.Issues branching 3 o)
    ∧ sNum (pod (settleFor branching 3 (ctl 0x10 0 1 0 9)) 3) 1 ≠ 0 ∧ sNum (pod (settleFor branching 3 (ctl 0x10 0 0 0 9)) 3) 0 = 0
    ∧ sNum (pod (settleFor branching 3 (ctl 0x11 0 1 0 9)) 3) 1 ≠ 0 ∧ sNum (pod (settleFor branching 3 (ctl 0x11 0 0 0 9)) 3) 0 = 0
    ∧ sNum (pod (settleFor branching 3 (ctl 0x15 0 1 0 9)) 3) 1 ≠ 0 ∧ sNum (pod (settleFor branching 3 (ctl 0x15 0 0 0 9)) 3) 0 = 0
    ∧ (pod branching 3).stack = 7 :: [] := ⟨podDev_inv _ _, all_issue (by decide +kernel), by decide +kernel⟩

/-- S1 holds a post of one result and ones in its low bits. -/
def csr : State := podDev [] (withS [(1, 0x1FF)])

theorem wit_frame_end : csr.Inv
    ∧ (∀ o ∈ [ctl 0x18 0 0 0 9, ctl 0x19 0 0 0 0x3F, ctl 0x19 0 0 0 0x30, ctl 0x19 0 0 0 0, ctl 0x1A 0 0 0 0]
        ++ [0x400, 0x600, 0x404, 0x500, 0x508, 0x604, 0xA00, 0x100].map (fun (o : Nat) => ctl 0x1E 0 1 0 (BitVec.ofNat 27 o))
        ++ [0x100, 0x104, 0x108, 0x400, 0x404, 0x500, 0x508, 0x600, 0x604].map (fun (o : Nat) => ctl 0x1F 31 0 0 (BitVec.ofNat 27 o)),
        Sys2Proof.Claims.Issues csr 3 o)
    ∧ (∀ i, i < 6 → getB (0x3F : BitVec 27) i = true) ∧ getF (0x30 : BitVec 27) 0 4 = 0 ∧ (pod csr 3).ranges = [] ∧ getF (0xA00 : BitVec 27) 0 16 = 0xA00
    ∧ getF ((sReg (pod (settleFor csr 3 (ctl 0x1E 0 1 0 0xA00)) 3) 1).setWidth 32) 8 8 ≠ 0
    ∧ getF (0x100 : BitVec 27) 0 16 ∉ [0x400, 0x404, 0x500, 0x508, 0x600, 0x604, 0xA00] :=
  ⟨podDev_inv _ _, all_issue (by decide +kernel), by decide +kernel⟩

/-! ## Witnesses: the MEM slot -/

/-- A MEM operation's fields. -/
def mem (c : Nat) (rd ra : BitVec 5) (imm : BitVec 16) (q : BitVec 4) (rt : BitVec 5) : SlotOp := .mem c ⟨rd, ra, imm, q, rt, 0⟩

/-- S1 points into Husk store, S2 to its last line, S3 past the near line. -/
def pointers : State := podDev [] (withS [(1, 0x1000000), (2, 0x2BFFFC0), (3, 0x1000)])

theorem wit_moves :
    (∀ o ∈ [mem 1 31 0 0 0 0, mem 1 31 1 0 0 0, mem 3 31 3 0xFFFF 0 0, mem 5 15 2 0 0 0, mem 2 31 3 0 0 0, mem 2 31 1 0 0 0, mem 4 31 3 0xFFFF 0 0,
        mem 6 1 3 0 0 0, mem 6 3 1 0 0 0], Sys2Proof.Claims.Issues pointers 3 o)
    ∧ locating pointers 3 = false ∧ Sys2Proof.Claims.Sane pointers 3 0 1024 := by
  refine ⟨all_issue (by decide +kernel), by decide +kernel, ?_⟩
  unfold Sys2Proof.Claims.Sane; decide +kernel

/-- A token and an entry in a queue, and a route to device 1 for the packets of Pod 3. -/
def queued : State :=
  { podDev [(rPort 0 0x04, (5 : Word) <<< 28), (rPort 0 0x08, 0x80010000)] (fun x => { withS [(1, 0x200), (2, 0x1000), (3, 0x300000001)] x with
      outq := vput (vput x.outq 0 ⟨1, []⟩) 3 ⟨2, [openReq]⟩, inq := vput x.inq 2 [entry0], core := { x.core with selSeen := [2] } }) with
    stake := { State.reset.stake with frames := 2 }, misc := { State.reset.misc with routes := [(1, 1)] } }

theorem queued_inv : queued.Inv := dev_inv [(rPort 0 0x04, (5 : Word) <<< 28), (rPort 0 0x08, 0x80010000)]

theorem wit_queue_operations : queued.Inv
    ∧ (∀ o ∈ [mem 8 2 0 0 7 31, mem 9 0 2 0 7 31, mem 0x14 0 2 0 7 31, mem 0xA 31 0 0 0 0, mem 0xB 2 0 0 0xA 31, mem 0xB 2 0 0 0xF 31,
        mem 0xC 31 0 0xFF 0 0, mem 0xC 31 0 0 0 0, mem 0xD 31 0 4 0 0, mem 0xD 31 0 0 0 0], Sys2Proof.Claims.Issues queued 3 o)
    ∧ tokenOut (pod (settleFor queued 3 (mem 0xA 31 0 0 0 0)) 3) (sReg (pod (settleFor queued 3 (mem 0xA 31 0 0 0 0)) 3) 0) = false
    ∧ (opTraps (withPending queued 3) 3 (mem 0xA 31 3 1 0 0) = []
      ∧ tokenOut (pod (settleFor queued 3 (mem 0xA 31 3 1 0 0)) 3) (sReg (pod (settleFor queued 3 (mem 0xA 31 3 1 0 0)) 3) 3) = true)
    ∧ visibleHead queued 3 (queueIx 0xF) = none ∧ visibleHead queued 3 (queueIx 0xA) = some entry0
    ∧ maskSeen (pod (settleFor queued 3 (mem 0xC 31 0 0xFF 0 0)) 3) 0xFF = 2 :: []
    ∧ maskSeen (pod (settleFor queued 3 (mem 0xC 31 0 0 0 0)) 3) 0 = [] := ⟨queued_inv, all_issue (by decide +kernel), by decide +kernel⟩

theorem wit_twine_operations : queued.Inv
    ∧ (∀ o ∈ [mem 0x10 1 2 63 0 31, mem 0x10 1 2 63 1 31, mem 0x10 1 2 2 2 31, mem 0x10 1 2 0 4 31, mem 0x11 1 2 63 7 31, mem 0x12 1 2 62 7 31],
        Sys2Proof.Claims.Issues queued 3 o)
    ∧ (∀ c : Nat, c < 3 → routeTo queued c (getF (sReg (pod queued 3) 1) 0 24 / 512) = .out 0)
    ∧ unconfirmedTo queued 1 ≠ [] ∧ unconfirmedTo State.reset 1 = [] := by
  exact ⟨queued_inv, all_issue (by decide +kernel), by decide +kernel, by decide +kernel, by decide +kernel⟩

/-- Pod 3 with packets to device 2, to which there is no route, and to its own queue 5. -/
def astray : State := podDev [] (withS [(1, 0x400), (2, 0x1000), (3, 29)])

theorem wit_twine_local : astray.Inv ∧ Sys2Proof.Claims.NoneReleased astray ∧ astray.misc.fenced = [] ∧ unconfirmedTo astray (deviceCoord astray) = []
    ∧ (∀ o ∈ [mem 0x10 1 2 0 0 31, mem 0x10 1 2 0 1 31, mem 0x10 1 2 0 2 31, mem 0x11 1 2 0 7 31, mem 0x12 1 2 0 7 31, mem 0x10 3 2 0 0 31,
        mem 0x10 3 2 63 1 31, mem 0x10 3 2 0 4 31], Sys2Proof.Claims.Issues astray 3 o)
    ∧ (∀ c : Nat, c < 3 → routeTo astray c (getF (sReg (pod (settleFor astray 3 (mem 0x10 1 2 0 0 31)) 3) 1) 0 24 / 512) = .none)
    ∧ (∀ q : Fin 8, (outQ (pod (settleFor astray 3 (mem 0x10 1 2 0 0 31)) 3) q).tokens = [])
    ∧ (∀ ty ∈ [(8 : Nat), 0xD], Sys2Proof.Claims.Deliverable astray none (twinePacket ty 24 29 0 (ty = 8) (zs 64))) := by
  refine ⟨podDev_inv _ _, ?_, by decide +kernel, by decide +kernel, all_issue (by decide +kernel), by decide +kernel, by decide +kernel, ?_⟩
  · unfold Sys2Proof.Claims.NoneReleased; decide +kernel
  · unfold Sys2Proof.Claims.Deliverable; decide +kernel

/-! ## Witnesses: Vector Unit, Matrix Engines, Tree Engine -/

/-- A VU operation with registers, mask and format alone. -/
def vuf (vd va vb vc : BitVec 5) (mask : BitVec 3) (fmt : BitVec 4) : VuFields := ⟨vd, va, vb, vc, mask, fmt, 0, 0, 0, 0, 0, 0, 0, 0, 0⟩

theorem wit_vector : (podDev [] id).Inv ∧ (∀ o ∈
    ([8, 0xA, 0xB, 0xC, 0xD].flatMap (fun m =>
      [1, 2, 3].map (fun c => .vu c { vuf 31 30 29 0 7 m with rmode := 4 }) ++ [4, 5, 9, 0xA, 0xB, 0xC, 0xD, 0xE].map (fun c => .vu c (vuf 31 30 29 0 7 m))
        ++ [.vu 6 (vuf 31 30 0 0 7 m), .vu 7 (vuf 31 30 0 0 7 m), .vu 8 { vuf 7 30 29 0 7 m with sub := 5 }, .vu 0x28 (vuf 31 0 0 0 0 m),
          .vu 0x29 (vuf 31 30 0 0 0 m)]))
      ++ [8, 9, 0xA].map (fun m => .vu 0x10 { vuf 31 30 29 28 7 m with rmode := 4 }), Sys2Proof.Claims.Issues (podDev [] id) 3 o)
    ∧ (∀ o ∈ [SlotOp.vu 0x11 { vuf 31 30 0 0 7 0xA with rmode := 5, fmt2 := 8, src := 1 }, .vu 0x11 { vuf 31 30 0 0 7 0xD with fmt2 := 4, sub := 0 },
        .vu 0x12 (vuf 31 30 29 0 7 0), .vu 0x13 { vuf 31 30 0 0 7 0 with sreg := 31 }, .vu 0x14 (vuf 31 30 0 0 7 0),
        .vu 0x15 { vuf 31 30 0 0 0 0 with fmt2 := 7, rmode := 5, seed := 255 }, .vu 0x24 { vuf 31 30 0 0 7 8 with sub := 8 },
        .vu 0x20 { vuf 30 29 28 0 0 0xC with sub := 3 }, .vu 0x21 { vuf 28 30 26 0 0 0xB with sub := 1 },
        .vu 0x18 { vuf 0 30 0 0 7 8 with sa := 3 }, .vu 0x19 { vuf 0 30 0 0 7 0xD with sa := 3, start := 1 }, .vu 0x1A (vuf 0 30 0 0 7 0xC),
        .vu 0x1B { vuf 0 30 0 0 7 0xA with start := 1 }, .vu 0x1C { vuf 31 0 0 0 0 0 with sa := 3 }], Sys2Proof.Claims.Issues (podDev [] id) 3 o)
    ∧ isSorted 0xB true (keyPairs 0 0) = true := ⟨podDev_inv _ _, all_issue (by decide +kernel), all_issue (by decide +kernel), by decide +kernel⟩

/-- Descriptors in Pod 3: 0 a narrow product of one K element, 1 a column product, 2 a narrow product as a drain into XPS; engine 3 with a
loaded buffer and another E_BASE in accumulator 1. -/
def matrix : State := podDev [] (fun x => { x with
  md := vput (vput (vput x.md 0 (1 <<< 288)) 1 ((1 <<< 288) ||| (8 <<< 320) ||| (8 <<< 328))) 2 ((1 <<< 288) ||| (4 <<< 336))
  me := vmod x.me 3 (fun e => { e with bufs := vmod e.bufs 1 (fun b => { b with fmt := 8, k := 1 }), bases := vput e.bases 4 (some 5) }) })

/-- An ME operation of engine 3. -/
def mef (quad : BitVec 3) (md : BitVec 4) (acc : BitVec 1) (start : BitVec 2) (buf : BitVec 1) : MeFields := ⟨3, quad, md, acc, start, 0, 0, 0, buf, 0⟩

theorem wit_matrix :
    (∀ o ∈ [SlotOp.me 1 (mef 0 0 1 0 0), .me 1 (mef 7 0 1 1 0), .me 1 (mef 0 0 1 1 0), .me 1 (mef 0 0 0 2 0), .me 1 (mef 0 1 1 0 1), .me 1 (mef 0 1 0 1 1),
        .me 2 (mef 0 0 1 0 0), .me 2 (mef 7 0 1 0 0), .me 2 (mef 0 1 0 0 0), .me 2 (mef 0 2 1 0 0), .me 3 (mef 0 1 0 0 1)], Sys2Proof.Claims.Issues matrix 3 o)
    ∧ isColFmt (meDesc (mdReg (pod matrix 3) 0)).fmtA = false ∧ isColFmt (meDesc (mdReg (pod matrix 3) 1)).fmtA = true
    ∧ baseMismatch (mef 0 0 1 1 0) (meDesc (mdReg (pod matrix 3) 0)) (vget (pod matrix 3).me 3) = true
    ∧ baseMismatch (mef 7 0 1 1 0) (meDesc (mdReg (pod matrix 3) 0)) (vget (pod matrix 3).me 3) = false
    ∧ (meDesc (mdReg (pod matrix 3) 0)).target < 4 ∧ (meDesc (mdReg (pod matrix 3) 2)).target = 4 ∧ locating matrix 3 = false :=
  ⟨all_issue (by decide +kernel), by decide +kernel⟩

/-- Nodes enabled; S1 loads two slots from the last slot of region 63. -/
def tree : State := podDev [(rPod 3 0x500, 1)] (withS [(1, 63 + 4095 * 2 ^ 6 + 2 * 2 ^ 18), (2, 1)])

theorem wit_tree :
    (∀ o ∈ [SlotOp.te 1 ⟨0, 0, 1, 0, 0⟩, .te 2 ⟨1, 0, 0, 0, 0⟩, .te 3 ⟨1, 2, 0, 0, 0⟩, .te 3 ⟨1, 2, 0, 1, 0⟩], Sys2Proof.Claims.Issues tree 3 o)
    ∧ locating tree 3 = false ∧ tree.ecc = [] := ⟨all_issue (by decide +kernel), by decide +kernel⟩

/-! ## Witnesses: Pod cycles and what becomes due -/

/-- Pod 3 with two bundles of no operations, at bundle 1, with some status bits. -/
def cycling (st : Word) : State := podDev [(rPod 3 0x100, st ||| 1), (rPod 3 0x108, 2)] (fun x => { x with code := [0, 0] })

/-- The same at the start of a frame, in an odd cycle. -/
def odd : State := podDev [(rPod 3 0x100, 0x80000001), (rPod 3 0x108, 2)] (fun x => { x with code := [0, 0], core := { x.core with cycle := 1 } })

theorem wit_pod_cycle :
    podClockRuns (dev [(rClkStatus, 0)]) 3 = false
    ∧ (State.reset.Inv ∧ podClockRuns State.reset 3 = true ∧ hasCode State.reset 3 = false ∧ State.reset.dport.heldWrite = none)
    ∧ ((cycling 0x40000000).Inv ∧ podClockRuns (cycling 0x40000000) 3 = true ∧ hasCode (cycling 0x40000000) 3 = true
      ∧ podHalted (cycling 0x40000000) 3 = true ∧ (cycling 0x40000000).dport.heldWrite = none)
    ∧ (podClockRuns (cycling 0x90000000) 3 = true ∧ hasCode (cycling 0x90000000) 3 = true ∧ podHalted (cycling 0x90000000) 3 = false
      ∧ podRunning (cycling 0x90000000) 3 = true ∧ podAtFend (cycling 0x90000000) 3 = true ∧ (cycling 0x90000000).dport.heldWrite = none)
    ∧ (odd.Inv ∧ podClockRuns odd 3 = true ∧ hasCode odd 3 = true ∧ podHalted odd 3 = false ∧ podRunning odd 3 = true
      ∧ (pod odd 3).core.frameBundles = 0 ∧ (pod odd 3).core.cycle % 2 = 1 ∧ odd.dport.heldWrite = none)
    ∧ ((cycling 0x80000000).Inv ∧ podClockRuns (cycling 0x80000000) 3 = true ∧ hasCode (cycling 0x80000000) 3 = true
      ∧ podHalted (cycling 0x80000000) 3 = false ∧ podTrapped (cycling 0x80000000) 3 = false ∧ podRunning (cycling 0x80000000) 3 = true
      ∧ podAtFend (cycling 0x80000000) 3 = false ∧ (cycling 0x80000000).dport.heldWrite = none
      ∧ (pod (cycling 0x80000000) 3).core.resumeCycle ≤ (pod (cycling 0x80000000) 3).core.cycle ∧ (pod (cycling 0x80000000) 3).core.cycle % 2 = 0
      ∧ (pod (cycling 0x80000000) 3).core.holdUntil ≤ (pod (cycling 0x80000000) 3).core.cycle ∧ (pod (cycling 0x80000000) 3).core.beyond = false
      ∧ (pod (cycling 0x80000000) 3).core.stepping = false ∧ pcOf (cycling 0x80000000) 3 < (reg (cycling 0x80000000) (rPod (3 : PodId).val 0x108)).toNat
      ∧ (pod (cycling 0x80000000) 3).code.getD (pcOf (cycling 0x80000000) 3) 0 = 0 ∧ (pod (cycling 0x80000000) 3).loops = []
      ∧ ∀ n, vget (pod (cycling 0x80000000) 3).breaks n ≠ some (BitVec.ofNat 14 (pcOf (cycling 0x80000000) 3))) :=
  ⟨by decide +kernel, ⟨dev_inv [], by decide +kernel⟩, ⟨podDev_inv _ _, by decide +kernel⟩, by decide +kernel, ⟨podDev_inv _ _, by decide +kernel⟩, podDev_inv _ _, by decide +kernel⟩

/-- Pod 3 in cycle 10 with results for S31 and V31 due, one for S30 not due, a write range and a window that are due. -/
def due : State := podDev [] (fun x => { x with
  core := { x.core with cycle := 10 }
  pend := [⟨1, 4, .s 31, 5, 10⟩, ⟨2, 4, .v 31, 6, 9⟩, ⟨3, 4, .s 30, 7, 11⟩]
  ranges := [⟨4, 3, true, 0, 64, false, some 10, [(podAddr 3 podSize - 64, zs 64)], [], false⟩, ⟨6, 2, true, 64, 128, false, some 10, [], [], false⟩]
  me := vmod x.me 15 (fun e => { e with results := [(6, 10, 3)] })
  te := { x.te with windows := [⟨5, 0, 0, 1, 0xF, [3], 10⟩] } })

/-- The same with the window's record at the end of the store. -/
def recorded : State := { due with pods := vmod due.pods 3 (fun x => { x with
  ranges := [⟨5, 1, true, podSize - 640, podSize, false, some 10, [(podAddr 3 (podSize - 640), zs 640)], [], false⟩] }) }

theorem wit_due : (due.Inv ∧ recorded.Inv)
    ∧ (∀ s ∈ [due, recorded], ∀ r ∈ (pod s 3).ranges, r.digest = false)
    ∧ (pod due 3).pend.filter (fun w => decide (w.dest = .s 31) && decide (w.due ≤ (pod due 3).core.cycle)) = [] ++ [⟨1, 4, .s 31, 5, 10⟩]
    ∧ (pod due 3).pend.filter (fun w => decide (w.dest = .v 31) && decide (w.due ≤ (pod due 3).core.cycle)) = [] ++ [⟨2, 4, .v 31, 6, 9⟩]
    ∧ (∀ w ∈ (pod due 3).pend, w.dest = .s 30 → (pod due 3).core.cycle < w.due)
    ∧ (pod due 3).ranges.filter (fun r => decide (r.op = 4) && r.due.any (fun d => decide (d ≤ (pod due 3).core.cycle)))
      = [⟨4, 3, true, 0, 64, false, some 10, [(podAddr 3 podSize - 64, zs 64)], [], false⟩]
    ∧ (∀ e : EngineId, ∀ w ∈ (vget (pod due 3).me e).results, w.1 ≠ 4 ∧ w.1 ≠ 5)
    ∧ [(podAddr 3 podSize - 64, zs 64)] = [(podAddr 3 (podSize - 64), zs 64)] ∧ podSize - 64 + (zs 64).length ≤ podSize
    ∧ (pod due 3).ranges.filter (fun r => decide (r.op = 6) && r.due.any (fun d => decide (d ≤ (pod due 3).core.cycle)))
      = [⟨6, 2, true, 64, 128, false, some 10, [], [], false⟩]
    ∧ (vget (pod due 3).me 15).results = [(6, 10, 3)] ∧ (∀ g : EngineId, g ≠ 15 → ∀ w ∈ (vget (pod due 3).me g).results, w.1 ≠ 6)
    ∧ (∀ r ∈ (pod due 3).ranges, r.op ∈ bufferOps (pod due 3) .nodes → r.writes = [] ∧ r.landing = [])
    ∧ (∀ e : EngineId, ∀ w ∈ (vget (pod due 3).me e).results, w.1 ∉ bufferOps (pod due 3) .nodes)
    ∧ ((pod due 3).te.windows = [⟨5, 0, 0, 1, 0xF, [3], 10⟩] ∧ 10 ≤ (pod due 3).core.cycle ∧ (pod due 3).te.heldCfg = none
      ∧ ∀ r ∈ (pod due 3).ranges, r.op = 5 → r.writes = [] ∧ r.landing = [])
    ∧ ((pod recorded 3).te.windows = [⟨5, 0, 0, 1, 0xF, [3], 10⟩]
      ∧ (pod recorded 3).ranges.filter (fun r => decide (r.op = 5) && r.due.any (fun d => decide (d ≤ (pod recorded 3).core.cycle)))
        = [⟨5, 1, true, podSize - 640, podSize, false, some 10, [(podAddr 3 (podSize - 640), zs 640)], [], false⟩]
      ∧ podSize - 640 + (zs 640).length ≤ podSize ∧ ∀ e : EngineId, ∀ w ∈ (vget (pod recorded 3).me e).results, w.1 ≠ 5) :=
  ⟨⟨podDev_inv _ _, dev_inv []⟩, by decide +kernel⟩

/-! ## Witnesses: transfers, gathers and registers -/

/-- Pod 3 with a token of queue 0 that fetches or stores 64 bytes at the end of Root memory and of the store; whose data is on its way where `b`
says so, with a write line or a source line at the banks where `l` says so. -/
def tokenOf (k : TokenKind) (b : Bool) : Token := ⟨0, k, 1, 0, 0, false, b, rootEnd - 64, podSize - 64, 64, if k = .store then zs 64 else [], 0⟩
def tokened (k : TokenKind) (b l : Bool) (r : List (Nat × Nat)) : State :=
  { podDev [] (fun x => { x with outq := vput x.outq 0 ⟨1, [tokenOf k b]⟩, lines := if l then [oneStep 1 4 1 (decide (k ≠ .store)) 0 64 9] else [] }) with
    misc := { State.reset.misc with refreshing := r } }

theorem wit_transfers :
    ((outQ (pod (tokened .fetch false false []) 3) 0).tokens = [tokenOf .fetch false] ∧ inRefresh (tokened .fetch false false []) (rootEnd - 64 + 64 - 1) = false
      ∧ transferRuns (tokened .fetch false false []) 3 (rootEnd - 64) = true)
    ∧ (∀ k ∈ [TokenKind.fetch, .gather], (outQ (pod (tokened k true false []) 3) 0).tokens = [tokenOf k true]
      ∧ allVisible (pod (tokened k true false []) 3) (tokenOf k true).op = true ∧ weaveActive (tokened k true false []) = false
      ∧ allVisible (pod (tokened k true true []) 3) (tokenOf k true).op = false)
    ∧ (outQ (pod (tokened .gather false false []) 3) 0).tokens = [tokenOf .gather false]
    ∧ ((outQ (pod (tokened .store false false []) 3) 0).tokens = [tokenOf .store false] ∧ sourceOpen (pod (tokened .store false false []) 3) 1 = false
      ∧ inRefresh (tokened .store false false []) (rootEnd - 64 + 64 - 1) = false ∧ transferRuns (tokened .store false false []) 3 (rootEnd - 64) = true
      ∧ rootEnd - 64 + (zs 64).length ≤ rootEnd ∧ sourceOpen (pod (tokened .store false true []) 3) 1 = true)
    ∧ inRefresh (tokened .fetch false false [(rootStack (rootEnd - 1) * 32 + rootChannel (rootEnd - 1), 0)]) (rootEnd - 64 + 64 - 1) = true
    ∧ transferRuns (setReg (tokened .fetch false false []) rClkStatus 0) 3 (rootEnd - 64) = false := by decide +kernel

/-- A gather request: graph descriptor, LIMIT, K, flags and bytes of a feature row; one seed, output at 0x80. -/
def ask (graph limit : Nat) (k flags : Byte) (feat : Nat) : List Byte :=
  leBytes 8 graph ++ zs 8 ++ leBytes 4 0x1000 ++ leBytes 4 0x80 ++ leBytes 4 limit ++ [1, k, 0, flags] ++ zs 8 ++ leBytes 4 feat ++ zs 20

/-- Pod 3 with a gather request at address 0 of queue 0, which the banks have granted to engine 0 as `data`. Root memory holds a graph of two nodes
and one edge at 0, a graph without nodes at 64, and one with too many edges at 128. -/
def gathering (data : Option (List Byte)) : State :=
  { podDev [] (fun x => { x with outq := vput x.outq 0 ⟨1, [tokenOf .gather false]⟩, gathers := [⟨1, 0, 0, 0, 0⟩] }) with
    misc := { State.reset.misc with netJobs := data.toList.map (fun b => ⟨70, 3, .gather 0 1, [], b⟩) }
    mem := [(1, 0x10), (9, 0x20), (0x18, 2), (0x20, 1), (0x98, 2), (0xA6, 1), (0x1008, 1), (0x1010, 1)] }

theorem gathering_inv (d : Option (List Byte)) : (gathering d).Inv := ⟨(by decide : Memory.wf (gathering none).mem = true), (dev_inv []).2⟩

theorem wit_gather : geNextPod State.reset 3 = none
    ∧ (geNextPod (setReg (gathering none) rClkStatus 0) 0 = some 3 ∧ (pod (setReg (gathering none) rClkStatus 0) 3).gathers.head? = some ⟨1, 0, 0, 0, 0⟩
      ∧ geReady (setReg (gathering none) rClkStatus 0) 0 3 ⟨1, 0, 0, 0, 0⟩ = false)
    ∧ (geNextPod (gathering none) 0 = some 3 ∧ (pod (gathering none) 3).gathers = ⟨1, 0, 0, 0, 0⟩ :: [] ∧ geReady (gathering none) 0 3 ⟨1, 0, 0, 0, 0⟩ = true
      ∧ netJob (gathering none) (.gather 0 1) = none)
    ∧ (netJob { gathering (some []) with misc := { (gathering (some [])).misc with netLines := [(3, oneStep 70 5 70 false 0 64 9)] } } (.gather 0 1)
        = some ⟨70, 3, .gather 0 1, [], []⟩
      ∧ netDone { gathering (some []) with misc := { (gathering (some [])).misc with netLines := [(3, oneStep 70 5 70 false 0 64 9)] } }
          ⟨70, 3, .gather 0 1, [], []⟩ = false) := by decide +kernel

/-- The request of `gathering` and its graph as the engine takes them. -/
def asked (b : List Byte) : GeReq := geReqOf (maskNodes (gathering (some b)) 3 0 (b.take 64)) 0
def graphed (b : List Byte) : Graph := graphOf (memRead (gathering (some b)) (asked b).graph 64)

theorem wit_gather_served : (∀ b ∈ [ask 0 0 1 0 64, ask 1 1024 1 0 64, ask 0 1024 65 0 64, ask 64 1024 1 0 64, ask 128 1024 1 0 64, ask 0 1024 1 5 64 ++ zs 4],
      geNextPod (gathering (some b)) 0 = some 3 ∧ geReady (gathering (some b)) 0 3 ⟨1, 0, 0, 0, 0⟩ = true
        ∧ netJob (gathering (some b)) (.gather 0 1) = some ⟨70, 3, .gather 0 1, [], b⟩ ∧ netDone (gathering (some b)) ⟨70, 3, .gather 0 1, [], b⟩ = true
        ∧ (gathering (some b)).ecc = [] ∧ (outQ (pod (gathering (some b)) 3) 0).tokens = [tokenOf .gather false]
        ∧ (tokenOf .gather false).op = 1 ∧ (tokenOf .gather false).transferDone = false)
    ∧ (geBadDst (gathering (some (ask 0 0 1 0 64))) 3 (asked (ask 0 0 1 0 64)) = true ∧ geBadGraph (asked (ask 0 0 1 0 64)) = false
      ∧ geBadRequest (asked (ask 0 0 1 0 64)) = false)
    ∧ (geBadDst (gathering (some (ask 1 1024 1 0 64))) 3 (asked (ask 1 1024 1 0 64)) = false ∧ geBadGraph (asked (ask 1 1024 1 0 64)) = true
      ∧ geBadRequest (asked (ask 1 1024 1 0 64)) = false)
    ∧ (geBadDst (gathering (some (ask 0 1024 65 0 64))) 3 (asked (ask 0 1024 65 0 64)) = false ∧ geBadGraph (asked (ask 0 1024 65 0 64)) = false
      ∧ geBadRequest (asked (ask 0 1024 65 0 64)) = true)
    ∧ (∀ b ∈ [ask 64 1024 1 0 64, ask 128 1024 1 0 64, ask 0 1024 1 5 64 ++ zs 4], geBadDst (gathering (some b)) 3 (asked b) = false
      ∧ geBadGraph (asked b) = false ∧ geBadRequest (asked b) = false)
    ∧ (geBadArrays (asked (ask 64 1024 1 0 64)) (graphed (ask 64 1024 1 0 64)) = false ∧ geBadDescriptor (asked (ask 64 1024 1 0 64)) (graphed (ask 64 1024 1 0 64)) = true)
    ∧ (geBadArrays (asked (ask 128 1024 1 0 64)) (graphed (ask 128 1024 1 0 64)) = true
      ∧ geBadDescriptor (asked (ask 128 1024 1 0 64)) (graphed (ask 128 1024 1 0 64)) = false)
    ∧ (geBadArrays (asked (ask 0 1024 1 5 64 ++ zs 4)) (graphed (ask 0 1024 1 5 64 ++ zs 4)) = false
      ∧ geBadDescriptor (asked (ask 0 1024 1 5 64 ++ zs 4)) (graphed (ask 0 1024 1 5 64 ++ zs 4)) = false
      ∧ (ask 0 1024 1 5 64 ++ zs 4).length = 64 + 4 * (asked (ask 0 1024 1 5 64 ++ zs 4)).count
      ∧ Sys2Proof.Claims.seedsOf (gathering (some (ask 0 1024 1 5 64 ++ zs 4))) 3 (asked (ask 0 1024 1 5 64 ++ zs 4)) (ask 0 1024 1 5 64 ++ zs 4) = [0]
      ∧ geDedup (asked (ask 0 1024 1 5 64 ++ zs 4)) = true ∧ geSelf (asked (ask 0 1024 1 5 64 ++ zs 4)) = true) := by decide +kernel

theorem wit_registers : State.reset.Inv ∧ committed (dev [(rCfgStatus, 0x80000000)]) = true ∧ committed State.reset = false
    ∧ pcieRuns State.reset = true ∧ pcieRuns (dev [(rClkStatus, 0)]) = false
    ∧ (∀ o ∈ [rSnapAtLo, rSnapAtLo + 4, rSetNs, rTimOffset, rPtpLat, rPairCap, rRestart], gatedOff State.reset o = false)
    ∧ (0x3FFFFF8 : BitVec 26).toNat % 8 = 0 ∧ (0x3FFFFF8 : BitVec 26).toNat + 4 < 2 ^ 26
    ∧ (getB (0x80000000 : Word) 30 = false ∧ stakeNo (dev [(rSnapAtLo, 2)]) + 2 ≤ reg64 (dev [(rSnapAtLo, 2)]) rSnapAtLo)
    ∧ reg64 (dev [(rSnapAtLo, 1)]) rSnapAtLo < stakeNo (dev [(rSnapAtLo, 1)]) + 2 ∧ getB (0x40000000 : Word) 31 = false
    ∧ teBusy (pod State.reset 3) = false ∧ teBusy (pod due 3) = true
    ∧ (agentReaches State.reset .keeper = true ∧ agentReaches State.reset .debug = true ∧ committed (dev []) = false)
    ∧ keeperRuns (dev [(rClkStatus, 0)]) = false ∧ inReset lowPin = true
    ∧ after (exec (.registerWrite .host (BitVec.ofNat 26 rSnapAtLo) 4 7) State.reset) (fun t => agentReaches t .host == agentReaches State.reset .host) = true := ⟨dev_inv [], by decide +kernel⟩

/-! ## Witnesses: host streams -/

/-- The device with some registers written and stream `i` changed by `g`. -/
def strmOf (i : StreamId) (l : List (Nat × Word)) (g : Stream → Stream) : State := { dev l with streams := vmod State.reset.streams i g }

theorem strmOf_inv (i : StreamId) (l : List (Nat × Word)) (g : Stream → Stream) : (strmOf i l g).Inv := dev_inv l

/-- Stream `i` in state `st` with some registers written, and changed by `g`. -/
def strmDev (i : StreamId) (st : Word) (l : List (Nat × Word)) (g : Stream → Stream) : State :=
  strmOf i ((rStream i.val 0x34, st <<< 29) :: l) g

theorem strmDev_inv (i : StreamId) (st : Word) (l : List (Nat × Word)) (g : Stream → Stream) : (strmDev i st l g).Inv := strmOf_inv _ _ _

/-- Stream 5 with slots of 64 bytes. -/
def slots5 : List (Nat × Word) := [(rStream 5 0x20, 64), (rFunc fPcie, 2), (rFunc fKeeper, 2)]

theorem wit_streams :
    (strmState State.reset 5 ≠ 1 ∧ pcieRuns (dev [(rClkStatus, 0)]) = false)
    ∧ ((strmDev 5 1 [] id).Inv ∧ pcieRuns (strmDev 5 1 [] id) = true ∧ strmState (strmDev 5 1 [] id) 5 = 1 ∧ getF (15 : Word) 0 16 < 2 ^ field (strmDev 5 1 [] id) (rStream (5 : StreamId).val 0x10) 0 5
      ∧ 2 ^ field (strmDev 5 1 [] id) (rStream (5 : StreamId).val 0x10) 0 5 ≤ getF (16 : Word) 0 16
      ∧ 16 = 2 ^ field (strmDev 5 1 [] id) (rStream (5 : StreamId).val 0x10) 16 5 ∧ getF (0 : Word) 0 16 < 16
      ∧ (getF (0 : Word) 0 16 + 16 - (strm (strmDev 5 1 [] id) 5).cqHead) % 16
        ≤ (field (strmDev 5 1 [] id) (rStream (5 : StreamId).val 0x38) 16 16 + 16 - (strm (strmDev 5 1 [] id) 5).cqHead) % 16
      ∧ (field (strmDev 5 1 [] id) (rStream (5 : StreamId).val 0x38) 16 16 + 16 - (strm (strmDev 5 1 [] id) 5).cqHead) % 16
        < (getF (1 : Word) 0 16 + 16 - (strm (strmDev 5 1 [] id) 5).cqHead) % 16)
    ∧ ((strmDev 5 0 slots5 id).Inv ∧ strmState (strmDev 5 0 slots5 id) 5 = 0 ∧ getB (1 : Word) 0 = true ∧ func (strmDev 5 0 slots5 id) fPcie = 2
      ∧ func (strmDev 5 0 slots5 id) fKeeper = 2 ∧ configValid (strmDev 5 0 slots5 id) 5 = true)
    ∧ (strmState State.reset 0 = 0 ∧ configValid State.reset 0 = true)
    ∧ configValid (strmDev 5 0 (slots5 ++ [(rStream 5 0x20, 63)]) id) 5 = false
    ∧ strmState (strmDev 5 2 [] id) 5 = 2 ∧ strmState (strmDev 5 4 [] id) 5 = 4
    ∧ ((strmDev 5 3 [] id).Inv ∧ strmState (strmDev 5 3 [] id) 5 = 3 ∧ (strm (strmDev 5 3 [] id) 5).subs.any isQueued = false
      ∧ inInbound (strmDev 5 3 [] id) 5 = false) :=
  ⟨by decide +kernel, ⟨strmDev_inv _ _ _ _, by decide +kernel⟩, ⟨strmDev_inv _ _ _ _, by decide +kernel⟩, by decide +kernel, by decide +kernel,
    by decide +kernel, by decide +kernel, strmDev_inv _ _ _ _, by decide +kernel⟩

/-- A scoring descriptor of `op` for 64 samples with 64 bytes of input. -/
def scoring (op : Byte) : List Byte := [op, 0, 64, 0] ++ zs 12 ++ leBytes 4 64 ++ zs 44

/-- A submission of that descriptor in status `st`. -/
def sub (st : SubmitStatus) : Submission := ⟨0, scoring 1, 64, 0, 64, st, zs 32⟩

theorem wit_submit :
    mayTake State.reset 5 (sliceB (scoring 1) 0 64) = false
    ∧ ((strmDev 5 1 slots5 (fun x => { x with sqTail := 1 })).Inv ∧ (scoring 0).length = 64
      ∧ mayTake (strmDev 5 1 slots5 (fun x => { x with sqTail := 1 })) 5 (scoring 0) = true
      ∧ descOk (strmDev 5 1 slots5 (fun x => { x with sqTail := 1 })) 5 (scoring 0) = false
      ∧ descOk (strmDev 5 1 slots5 (fun x => { x with sqTail := 1 })) 5 (scoring 1) = true
      ∧ mayTake (strmDev 5 1 slots5 (fun x => { x with sqTail := 1 })) 5 (scoring 1) = true
      ∧ weaveActive (strmDev 5 1 slots5 (fun x => { x with sqTail := 1 })) = false)
    ∧ (mayTake (strmDev 5 1 ((rWeaveState, 0x80000000) :: slots5) (fun x => { x with sqTail := 1 })) 5 (scoring 1) = true
      ∧ descOk (strmDev 5 1 ((rWeaveState, 0x80000000) :: slots5) (fun x => { x with sqTail := 1 })) 5 (scoring 1) = true
      ∧ weaveActive (strmDev 5 1 ((rWeaveState, 0x80000000) :: slots5) (fun x => { x with sqTail := 1 })) = true ∧ numAt (scoring 1) 1 1 / 2 % 2 = 0) :=
  ⟨by decide +kernel, ⟨strmDev_inv _ _ _ _, by decide +kernel⟩, by decide +kernel⟩

theorem wit_staged :
    ((∀ u ∈ (strm State.reset 5).subs, u.status ≠ .staging) ∧ pcieRuns (dev [(rClkStatus, 0)]) = false)
    ∧ ((strmDev 5 1 slots5 (fun x => { x with subs := [sub .queued, sub .staging] })).Inv
      ∧ pcieRuns (strmDev 5 1 slots5 (fun x => { x with subs := [sub .queued, sub .staging] })) = true
      ∧ strmState (strmDev 5 1 slots5 (fun x => { x with subs := [sub .queued, sub .staging] })) 5 = 1
      ∧ (strm (strmDev 5 1 slots5 (fun x => { x with subs := [sub .queued, sub .staging] })) 5).subs = [sub .queued] ++ [sub .staging]
      ∧ (∀ v ∈ [sub .queued], isEntering v = false) ∧ (sub .staging).status = .staging
      ∧ 0 = toPod (field (strmDev 5 1 slots5 (fun x => { x with subs := [sub .queued, sub .staging] })) (rStream (5 : StreamId).val 0x14) 0 6)
      ∧ 0 = queueIx (field (strmDev 5 1 slots5 (fun x => { x with subs := [sub .queued, sub .staging] })) (rStream (5 : StreamId).val 0x14) 8 3)
      ∧ inqRoom (strmDev 5 1 slots5 (fun x => { x with subs := [sub .queued, sub .staging] })) 0 0 = true)
    ∧ ((strmDev 5 1 slots5 (fun x => { x with subs := [sub (.complete 0x41 (zs 32) 0 0 0)] })).Inv
      ∧ pcieRuns (strmDev 5 1 slots5 (fun x => { x with subs := [sub (.complete 0x41 (zs 32) 0 0 0)] })) = true
      ∧ cqFull (strmDev 5 1 slots5 (fun x => { x with subs := [sub (.complete 0x41 (zs 32) 0 0 0)] })) 5 = false
      ∧ (nextRecord (strmDev 5 1 slots5 (fun x => { x with subs := [sub (.complete 0x41 (zs 32) 0 0 0)] })) 5).isSome = true)
    ∧ (strmState (strmDev 0 1 [] (fun x => { x with records := [(zs 64, true)] })) 0 = 1 ∧ pcieRuns (strmDev 0 1 [] id) = true
      ∧ strmState (strmDev 5 4 [] id) 5 = 4 ∧ strmState State.reset 5 = 0
      ∧ cqFull (strmDev 0 1 [] (fun x => { x with records := [(zs 64, true)] })) 0 = false
      ∧ nextRecord (strmDev 0 1 [] (fun x => { x with records := [(zs 64, true)] })) 0 = some (zs 64, true))
    ∧ nextRecord (strmDev 5 1 [] id) 5 = none ∧ cqFull (strmDev 5 1 [] (fun x => { x with cqHead := 1 })) 5 = true :=
  ⟨by decide +kernel, ⟨strmDev_inv _ _ _ _, by decide +kernel⟩, ⟨strmDev_inv _ _ _ _, by decide +kernel⟩, by decide +kernel⟩

/-- Stream 5 with the submissions `l`, its slots in the store of Pod 3, the PCIe clock running, and the transfer `key` open: its write asked where
`b` says so, else done. -/
def putting (l : List Submission) (key : Option NetKey) (b : Bool) : State :=
  let s := strmDev 5 1 (slots5 ++ [(rStream 5 0x18, BitVec.ofNat 32 (podAddr 3 0)), (rStream 5 0x1C, BitVec.ofNat 32 (podAddr 3 0 / 2 ^ 32))])
    (fun x => { x with subs := l })
  { s with misc := { s.misc with netJobs := key.toList.map (fun k => ⟨70, 3, k, [], zs 64⟩), netLines := if b then [(3, oneStep 70 5 70 false 0 64 9)] else [] } }

theorem putting_inv (l : List Submission) (key : Option NetKey) (b : Bool) : (putting l key b).Inv := by
  have h := strmDev_inv 5 1 (slots5 ++ [(rStream 5 0x18, BitVec.ofNat 32 (podAddr 3 0)), (rStream 5 0x1C, BitVec.ofNat 32 (podAddr 3 0 / 2 ^ 32))])
    (fun x => { x with subs := l })
  exact ⟨h.1, h.2⟩

theorem wit_input : (∀ s ∈ [putting [sub .staging] none false, putting [sub .staging] (some (.input 5 0)) true, putting [sub .staging] (some (.input 5 0)) false],
      pcieRuns s = true ∧ strmState s 5 = 1 ∧ (strm s 5).subs = [] ++ [sub .staging] ∧ inPodStore (stageBase s 5 + 0 * slotSize s 5) = true
        ∧ toPod (field s (rStream (5 : StreamId).val 0x14) 0 6) = 0 ∧ inqRoom s 0 (queueIx (field s (rStream (5 : StreamId).val 0x14) 8 3)) = true)
    ∧ (netJob (putting [sub .staging] none false) (.input 5 0) = none ∧ touchesNodes (putting [sub .staging] none false) 3 0 (ceilTo 64 64) = false)
    ∧ netJob (putting [sub .staging] (some (.input 5 0)) true) (.input 5 0) = some ⟨70, 3, .input 5 0, [], zs 64⟩
    ∧ netDone (putting [sub .staging] (some (.input 5 0)) true) ⟨70, 3, .input 5 0, [], zs 64⟩ = false
    ∧ netJob (putting [sub .staging] (some (.input 5 0)) false) (.input 5 0) = some ⟨70, 3, .input 5 0, [], zs 64⟩
    ∧ netDone (putting [sub .staging] (some (.input 5 0)) false) ⟨70, 3, .input 5 0, [], zs 64⟩ = true := by decide +kernel

theorem wit_output (b : Bool) : strmState (putting [sub (.complete 0x41 (zs 32) 0 0 0)] (some (.output 5 0)) b) 5 = 1
    ∧ pcieRuns (putting [sub (.complete 0x41 (zs 32) 0 0 0)] (some (.output 5 0)) b) = true
    ∧ cqFull (putting [sub (.complete 0x41 (zs 32) 0 0 0)] (some (.output 5 0)) b) 5 = false
    ∧ (nextRecord (putting [sub (.complete 0x41 (zs 32) 0 0 0)] (some (.output 5 0)) b) 5).isSome = true
    ∧ netJob (putting [sub (.complete 0x41 (zs 32) 0 0 0)] (some (.output 5 0)) b) (.output 5 0) = some ⟨70, 3, .output 5 0, [], zs 64⟩
    ∧ netDone (putting [sub (.complete 0x41 (zs 32) 0 0 0)] (some (.output 5 0)) b) ⟨70, 3, .output 5 0, [], zs 64⟩ = !b := by
  cases b <;> decide +kernel

/-! ## Witnesses: the admin stream, weaves, manifests and bundles -/

/-- Stream 0 ENABLED with a command to take, and some registers written. -/
def admin (l : List (Nat × Word)) : State := strmDev 0 1 l (fun x => { x with sqTail := 1 })

theorem admin_inv (l : List (Nat × Word)) : (admin l).Inv := strmDev_inv _ _ _ _

/-- An admin descriptor: opcode, KIND, LENGTH, the device address or none, and ARG0. -/
def cmd (op kind : Byte) (n a x : Nat) : List Byte := [op, 0, kind, 0] ++ zs 12 ++ leBytes 8 n ++ leBytes 8 a ++ leBytes 8 x ++ zs 24

/-- Every function that LOAD_WEAVE needs is READY. -/
def loaders : List (Nat × Word) := (rFunc fKeeper, 2) :: (upTo 12).map (fun k => (rFunc (fRoot k), 2)) ++ (upTo 64).map (fun p => (rFunc (fPod p), 2))

/-- A load in progress. -/
def loading (k : Byte) : State := { admin [] with misc := { State.reset.misc with loading := some (k, true, zs 32) } }

theorem wit_admin :
    mayTakeAdmin State.reset = false
    ∧ ((admin []).Inv ∧ (cmd 0 0 0 0 0).length = 64 ∧ mayTakeAdmin (admin []) = true ∧ numAt (cmd 0 0 0 0 0) 0 1 = 0)
    ∧ (mayTakeAdmin (admin [(rFunc (fPod 3), 2)]) = true ∧ limited (admin [(rFunc (fPod 3), 2)]) = false ∧ numAt (cmd 0x11 2 64 (podAddr 3 0) 0) 0 1 = 0x11
      ∧ numAt (cmd 0x11 2 64 (podAddr 3 0) 0) 2 1 = 2 ∧ transferOk (numAt (cmd 0x11 2 64 (podAddr 3 0) 0) 0x18 8) (numAt (cmd 0x11 2 64 (podAddr 3 0) 0) 0x10 8) = true
      ∧ memoryReady (admin [(rFunc (fPod 3), 2)]) (numAt (cmd 0x11 2 64 (podAddr 3 0) 0) 0x18 8) (numAt (cmd 0x11 2 64 (podAddr 3 0) 0) 0x10 8) = true
      ∧ touchesNodes (admin [(rFunc (fPod 3), 2)]) (toPod ((numAt (cmd 0x11 2 64 (podAddr 3 0) 0) 0x18 8 - podBase) / podSize))
          ((numAt (cmd 0x11 2 64 (podAddr 3 0) 0) 0x18 8 - podBase) % podSize) (numAt (cmd 0x11 2 64 (podAddr 3 0) 0) 0x10 8) = false)
    ∧ ((loading 2).misc.loading = some (2, true, zs 32) ∧ (loading 1).misc.loading = some (1, true, zs 32) ∧ strmState (loading 1) 0 = 1)
    ∧ State.reset.misc.loading = none
    ∧ ((admin [(rFunc (fPod 3), 2)]).ecc = [] ∧ numAt (cmd 0x12 0 64 (podAddr 3 0) 0) 0 1 = 0x12
      ∧ transferOk (numAt (cmd 0x12 0 64 (podAddr 3 0) 0) 0x18 8) (numAt (cmd 0x12 0 64 (podAddr 3 0) 0) 0x10 8) = true
      ∧ memoryReady (admin [(rFunc (fPod 3), 2)]) (numAt (cmd 0x12 0 64 (podAddr 3 0) 0) 0x18 8) (numAt (cmd 0x12 0 64 (podAddr 3 0) 0) 0x10 8) = true) :=
  ⟨by decide +kernel, ⟨admin_inv _, by decide +kernel⟩, by decide +kernel⟩

theorem wit_load_weave :
    (mayTakeAdmin (admin [(rWeaveState, 0x40000000)]) = true ∧ numAt (cmd 0x10 0 128 0 4) 0 1 = 0x10 ∧ weavePending (admin [(rWeaveState, 0x40000000)]) = true)
    ∧ (weavePending (admin []) = false ∧ rootEnd < numAt (cmd 0x10 0 128 rootEnd 4) 0x18 8 + numAt (cmd 0x10 0 128 rootEnd 4) 0x10 8)
    ∧ (numAt (cmd 0x10 0 128 0 4) 0x18 8 + numAt (cmd 0x10 0 128 0 4) 0x10 8 ≤ rootEnd ∧ loaderReady (admin []) = false)
    ∧ ((admin loaders).Inv ∧ mayTakeAdmin (admin loaders) = true ∧ limited (admin loaders) = false ∧ weavePending (admin loaders) = false
      ∧ loaderReady (admin loaders) = true
      ∧ refusalCodes (memWrite (countRoot (Sys2Proof.Claims.Taken (admin loaders)) (sliceB [] 0 128).length) 0 (sliceB [] 0 128)) (sliceB [] 0 128) 4 ≠ []) :=
  ⟨by decide +kernel, by decide +kernel, by decide +kernel, admin_inv _, by decide +kernel⟩

/-- The quiet stake of that weave, with nothing outstanding. -/
def quieted : State := { dev [(rWeaveState, 0x20000000)] with loaded := some weave }

/-- Pod 3 reloads for splice 9. -/
def reloads : State := { run 0x88000000 [(rSplice, 9 <<< 16)] with pods := vmod State.reset.pods 3 (fun x => { x with core := { x.core with loading := true } }) }

theorem wit_quiet_stake : State.reset.loaded = none ∧ (quieted.loaded = some weave ∧ quiet quieted = true ∧ quieted.active = none ∧ noTokens quieted = true)
    ∧ (pod State.reset 3).core.loading = false := by decide +kernel

/-- The code that a splice brings has no value in the model: any does. -/
theorem wit_splice_reload (c : List (BitVec 256))
    (h : Config.spliceCode (memRead reloads weave.rootCopy weave.length) 9 (deviceCoord reloads) (3 : PodId).val = some c) :
    reloads.active = some weave ∧ activeSplice reloads = some 9 ∧ newCode reloads weave 9 3 = some c ∧ (pod reloads 3).core.loading = true
      ∧ weaveActive reloads = true :=
  ⟨rfl, by decide +kernel, h, by decide +kernel, by decide +kernel⟩

theorem wit_manifest :
    (mayTakeAdmin (admin [(rFunc fKeeper, 1)]) = true ∧ func (admin [(rFunc fKeeper, 1)]) fKeeper ≠ 2 ∧ numAt (cmd 0x13 0 112 0 0) 0 1 = 0x13)
    ∧ (mayTakeAdmin (admin loaders) = true ∧ limited (admin loaders) = false ∧ func (admin loaders) fKeeper = 2
      ∧ 0x400000 < numAt (cmd 0x13 0 0x400001 0 0) 0x10 8 ∧ manifestOk (sliceB (zs 112) 0 (min (numAt (cmd 0x13 0 112 0 0) 0x10 8) 0x400000)) = false
      ∧ numAt (cmd 0x13 0 112 0 0) 0x10 8 ≤ 0x400000
      ∧ manifestOk (sliceB (impliedManifest 1) 0 (numAt (cmd 0x13 0 112 0 0) 0x10 8)) = true)
    ∧ keeperRuns (admin loaders) = true ∧ spiOn (admin loaders) = true ∧ keeperRuns (admin [(rFunc fKeeper, 1)]) = true
    ∧ keeperRuns (admin [(rClkStatus, 0)]) = false := by decide +kernel

/-- KEEPER READY, slot A running in state `st`. -/
def slotA (st : BitVec 4) : State := { admin [(rFunc fKeeper, 2)] with flash := { Flash.reset with slots := vput Flash.reset.slots 0 ⟨[], st, 0⟩ } }

theorem wit_bundles :
    (mayTakeAdmin (slotA 3) = true ∧ 2 ≤ numAt (cmd 0x18 2 0 0 0) 2 1 ∧ numAt (cmd 0x18 2 0 0 0) 0 1 = 0x18 ∧ numAt (cmd 0x19 1 0 0 0) 0 1 = 0x19
      ∧ numAt (cmd 0x1B 1 0 0 0) 0 1 = 0x1B ∧ numAt (cmd 0x1B 1 0 0 0) 2 1 < 2 ∧ func (admin [(rFunc fKeeper, 1)]) fKeeper ≠ 2)
    ∧ (numAt (cmd 0x18 1 0x10000 0 0x1FF0000) 2 1 = (1 : Fin 2).val ∧ func (slotA 3) fKeeper = 2
      ∧ slotRangeOk (numAt (cmd 0x18 1 0x10000 0 0x2000000) 0x20 8) (numAt (cmd 0x18 1 0x10000 0 0x2000000) 0x10 8) = false
      ∧ slotRangeOk (numAt (cmd 0x18 1 0x10000 0 0x1FF0000) 0x20 8) (numAt (cmd 0x18 1 0x10000 0 0x1FF0000) 0x10 8) = true
      ∧ slotProtected (slotA 4) 1 = false ∧ slotProtected (slotA 3) 0 = true)
    ∧ (numAt (cmd 0x1A 0 0 0 0) 0 1 = 0x1A ∧ runSlot (slotA 3) = (0 : Fin 2).val ∧ limited (slotA 3) = false ∧ slotState (slotA 3).flash 0 = 3
      ∧ slotState (slotA 4).flash 0 ≠ 3 ∧ slotState (slotA 1).flash 0 = 1)
    ∧ keeperRuns (slotA 3) = true ∧ spiOn (slotA 3) = true ∧ spiOn (dev [(rClkGate, 0)]) = false ∧ slotState (slotA 4).flash 1 ≠ 1
    ∧ runSlot (admin [(rFunc fKeeper, 2), (rCfgStatus, 0x20000000)]) = 2 ∧ limited (admin [(rFunc fKeeper, 2), (rCfgStatus, 0x40000000)]) = true := by
  decide +kernel

/-! ## Witnesses: time, the mailbox, the board and the debug port -/

/-- A frame of EtherType 0x88F7 whose message begins with `a`, and one in UDP over IPv4, port 319. -/
def ptpL2 (a flags : Byte) : List Byte := zs 12 ++ [0x88, 0xF7, a] ++ zs 5 ++ [flags] ++ zs 60
def ptpUdp : List Byte := zs 12 ++ [0x08, 0x00, 0x45] ++ zs 8 ++ [17] ++ zs 12 ++ [1, 0x3F] ++ zs 60

/-- A VLAN tag moves the message of a frame on by four bytes (R408). -/
theorem wit_time_frames : (ptpPlace (ptpL2 0 2) = some (14, 0) ∧ ptpType (ptpL2 0 2) 14 < 4 ∧ ptpType (ptpL2 0 2) 14 = 0 ∧ ptpTwoStep (ptpL2 0 2) 14 = true
      ∧ ptpTwoStep (ptpL2 0 0) 14 = false ∧ 14 + 48 ≤ (ptpL2 0 2).length)
    ∧ (ptpPlace (ptpL2 0xB 0) = some (14, 0) ∧ 4 ≤ ptpType (ptpL2 0xB 0) 14) ∧ ptpPlace (zs 64) = none
    ∧ (ptpPlace ptpUdp = some (42, 4) ∧ 42 + 48 ≤ ptpUdp.length ∧ timeNs State.reset.time < 2 ^ 32)
    ∧ ptpPlace (zs 12 ++ [0x81, 0, 0, 1] ++ (ptpL2 0 2).drop 12) = some (18, 0) := by decide +kernel

theorem wit_time : getB ((4 : Word) ||| 1) 2 = true ∧ func (dev [(rFunc fTime, 1)]) fTime = 1 ∧ getB ((0 : Word) ||| 1) 2 = false
    ∧ func (dev [(rFunc fTime, 2)]) fTime = 2 ∧ flag (dev [(rClkGate, 0x7E)]) rClkGate 0 = false ∧ flag State.reset rClkGate 0 = true
    ∧ flag (dev [(rPtpCtrl, 0xC0000000)]) rPtpCtrl 31 = true
    ∧ flag (dev [(rPtpCtrl, 0xC0000000)]) rPtpCtrl 30 = true := by decide +kernel

/-- KEEPER READY with a request of a kind. -/
def mailbox (k : DoeKind) (req : List Byte) : State := { dev [(rFunc fKeeper, 2)] with doe := ⟨3, some (k, req)⟩ }

theorem wit_mailbox : (func (dev [(rFunc fKeeper, 2)]) fKeeper = 2 ∧ (dev [(rFunc fKeeper, 2)]).doe.request = none ∧ (zs 64).length ≤ 65536
      ∧ pcieRuns (dev [(rFunc fKeeper, 2)]) = true) ∧ pcieRuns (dev [(rClkStatus, 0)]) = false
    ∧ func State.reset fKeeper ≠ 2 ∧ (mailbox .version [0x10, 0x84]).doe.request ≠ none
    ∧ keeperRuns (mailbox .version [0x10, 0x84]) = true ∧ ((dev [(rClkStatus, 0)]).pending = [] ∧ keeperRuns (dev [(rClkStatus, 0)]) = false)
    ∧ ((mailbox .version [0x10, 0x84]).pending = [] ∧ (mailbox .version [0x10, 0x84]).doe.request = some (.version, [0x10, 0x84]))
    ∧ (mailbox .measurements [0x11, 0xE0, 0, 8]).doe.spdm = 3 ∧ numAt [0x11, 0xE0, 0, 8] 3 1 = 8
    ∧ flag State.reset rClkGate 4 = true ∧ flag State.reset rClkGate 5 = true ∧ State.reset.dport.tap ∉ [0x00, 0x05, 0x06]
    ∧ flag (dev [(rClkGate, 0x4F)]) rClkGate 4 = false ∧ flag (dev [(rClkGate, 0x4F)]) rClkGate 5 = false
    ∧ ({ State.reset with misc := { State.reset.misc with alertLow := true } } : State).misc.alertLow = true ∧ State.reset.misc.alertLow = false
    ∧ State.reset.misc.i3cAddr = none ∧ ({ State.reset with misc := { State.reset.misc with i3cAddr := some 9 } } : State).misc.i3cAddr ≠ none := by
  decide +kernel

/-- The port locked or not, with a STEP of a Pod in progress or none, and some registers written. -/
def portDev (locked : Bool) (st : Option PodId) (l : List (Nat × Word)) : State :=
  { dev l with dport := { State.reset.dport with locked := locked, stepPod := st } }

/-- A debug command, at 25 MHz, the most that the Keeper's oscillator clock serves (R355). -/
def dbg (pod_ : Byte) (a : BitVec 48) (d : Word64) : DbgFields := ⟨pod_, a, d, 25⟩

theorem wit_debug_refusals : Instr.dbgHalt (dbg 3 0 0) ∈ Sys2Proof.Claims.lockable (dbg 3 0 0) ++ Sys2Proof.Claims.lockFree (dbg 3 0 0)
    ∧ keeperRuns { State.reset with clock := { State.reset.clock with keeperHung := true } } = false
    ∧ ratioKept State.reset { dbg 3 0 0 with tckMhz := 26 } = false
    ∧ (debugBusy (portDev false (some 3) []) = true ∧ Instr.dbgResume (dbg 3 0 0) ≠ .dbgHalt (dbg 3 0 0))
    ∧ (Sys2Proof.Claims.PortTakes (portDev true none []) (dbg 3 0 0) ∧ (portDev true none []).dport.locked = true)
    ∧ Sys2Proof.Claims.PortRuns (portDev false none []) (dbg 64 0 0) ∧ (64 ≤ (dbg 64 0 0).pod.toNat ∧ (dbg 64 0 0).pod ≠ 0xFF) ∧ (dbg 255 0 0).pod = 0xFF := by
  refine ⟨by decide +kernel, by decide +kernel, by decide +kernel, by decide +kernel, ⟨?_, rfl⟩, ?_, by decide +kernel⟩
  · unfold Sys2Proof.Claims.PortTakes; decide +kernel
  · unfold Sys2Proof.Claims.PortRuns Sys2Proof.Claims.PortTakes; decide +kernel

/-- Pod 63 halted, and at its frame end where `st` says so. -/
def halted63 (st : Word) : State := portDev false none [(rPod 63 0x100, st)]

theorem wit_debug_runs : Sys2Proof.Claims.PortRuns (halted63 0x40000000) (dbg 63 0 0) ∧ (dbg 63 0 0).pod.toNat = (63 : PodId).val ∧ podHalted State.reset 63 = false
    ∧ (keeperRuns (portDev false (some 62) []) = true ∧ ratioKept (portDev false (some 62) []) (dbg 63 0 0) = true ∧ (portDev false (some 62) []).dport.stepPod = some 62)
    ∧ (podHalted (halted63 0x40000000) 63 = true ∧ podTrapped (halted63 0x40000000) 63 = false ∧ podAtFend (halted63 0x40000000) 63 = false)
    ∧ podAtFend (halted63 0x50000000) 63 = true
    ∧ (3 : Fin 4).val = (dbg 63 7 (1 <<< 63)).addr.toNat % 4 ∧ (1 : Fin 2).val = getF (dbg 63 0x40 ((1 <<< 63) ||| (1 <<< 40) ||| 64)).data 40 1
    ∧ ((dbg 63 0x40 ((1 <<< 63) ||| (1 <<< 40) ||| 64)).addr.toNat % 64 = 0 ∧ getF (dbg 63 0x40 ((1 <<< 63) ||| (1 <<< 40) ||| 64)).data 0 32 ≠ 0
      ∧ getF (dbg 63 0x40 ((1 <<< 63) ||| (1 <<< 40) ||| 64)).data 0 32 % 64 = 0 ∧ getB (dbg 63 0x40 ((1 <<< 63) ||| (1 <<< 40) ||| 64)).data 63 = true)
    ∧ (dbg 63 0x3F (1 <<< 63)).addr.toNat % 64 ≠ 0 := by
  refine ⟨?_, by decide +kernel⟩
  unfold Sys2Proof.Claims.PortRuns Sys2Proof.Claims.PortTakes; decide +kernel

/-- Pod 3's nodes enabled, with a window that walks. -/
def walking : State := { portDev false none [(rPod 3 0x500, 1)] with pods := vmod State.reset.pods 3 (fun x => { x with
  te := { x.te with windows := [⟨5, 0, 0, 1, 0xF, [3], 10⟩] } }) }

theorem wit_debug_accesses :
    (podBase ≤ (dbg 0 (BitVec.ofNat 48 (podEnd - 8)) 0).addr.toNat ∧ (dbg 0 (BitVec.ofNat 48 (podEnd - 8)) 0).addr.toNat < podEnd
      ∧ (dbg 0 (BitVec.ofNat 48 (podEnd - 8)) 0).addr.toNat % 8 = 0 ∧ (portDev false none []).ecc = [])
    ∧ (dbg 0 (BitVec.ofNat 48 (regWindow + rDevId)) 0).addr.toNat = regWindow + rDevId
    ∧ ((dbg 0 1 0).addr.toNat < regWindow ∧ (dbg 0 1 0).addr.toNat % 8 ≠ 0)
    ∧ (0xFFFFF8 < podSize ∧ (dbg 0 (BitVec.ofNat 48 (podAddr 3 0xFFFFF8)) 0).addr.toNat = podAddr 3 0xFFFFF8 ∧ 0xFFFFF8 % 8 = 0
      ∧ touchesNodes (portDev false none []) 3 0xFFFFF8 8 = false ∧ weaveActive (portDev false none []) = false
      ∧ weaveActive (portDev false none [(rWeaveState, 0x80000000)]) = true)
    ∧ (Sys2Proof.Claims.PortRuns walking (dbg 0 0 0) ∧ touchesNodes walking 3 0xFFFFF8 8 = true
      ∧ (pod walking 3).te.windows.any (winWalking (pod walking 3).core.cycle) = true ∧ weaveActive walking = false)
    ∧ (podHalted (halted63 0x40000000) 63 = true ∧ getF (dbg 63 (31 <<< 32) 0).addr 40 8 = 0 ∧ getF (dbg 63 (31 <<< 32) 0).addr 32 8 = (31 : Fin 32).val
      ∧ getF (dbg 63 (31 <<< 32) 0).addr 0 16 = 0 ∧ 8 ≤ getF (dbg 63 (8 <<< 40) 0).addr 40 8) := by
  refine ⟨by decide +kernel, by decide +kernel, by decide +kernel, by decide +kernel, ?_, by decide +kernel⟩
  unfold Sys2Proof.Claims.PortRuns Sys2Proof.Claims.PortTakes; decide +kernel

/-- The port after some failed unlocks, its signature all zero. -/
def failed (n : Nat) : State := { State.reset with dport := { State.reset.dport with fails := n } }

theorem wit_debug_lock : getF (dbg 0 3 0).addr 0 2 ≠ 0 ∧ getF (dbg 0 4 0).addr 0 2 = 0 ∧ getF (dbg 0 11 0).addr 0 4 = (11 : Fin 12).val
    ∧ 12 ≤ getF (dbg 0 12 0).addr 0 4
    ∧ (Sys2Proof.Claims.PortTakes (failed 3) (dbg 0 0 0) ∧ 3 ≤ (failed 3).dport.fails) ∧ (failed 2).dport.fails < 3 := by
  refine ⟨by decide +kernel, by decide +kernel, by decide +kernel, by decide +kernel, ⟨?_, by decide +kernel⟩, by decide +kernel⟩
  unfold Sys2Proof.Claims.PortTakes; decide +kernel

/-- A signature of zeros is no signature, whatever the key. -/
theorem wit_bad_signature : ecdsaVerify Config.debugKey ((failed 2).dport.nonce ++ sha256 (failed 2).fuses.publicKey ++ leBytes 4 (reg (failed 2) rDevId).toNat)
    ((failed 2).dport.signature.toList.flatMap (fun (w : Word64) => leBytes 8 w.toNat)) = false := by
  have h : beNat (((failed 2).dport.signature.toList.flatMap (fun (w : Word64) => leBytes 8 w.toNat)).take 48) = 0 := by decide +kernel
  unfold ecdsaVerify
  simp only [h, true_or, if_true, ite_self]

/-! ## Witness: an image that is accepted -/

/-- The smallest weave: one device, period 1, no record, no code. The ABI it names is the device's. -/
def image : List Byte :=
  leBytes 4 0x4D585756 ++ leBytes 2 (Config.weaveAbi / 2 ^ 16) ++ [0, 0, 0xA1, 0, 1, 7, 1, 0, 0, 0] ++ zs 8 ++ leBytes 4 1 ++ leBytes 4 0
    ++ leBytes 4 1 ++ leBytes 4 1 ++ zs 8 ++ zs 32 ++ (leBytes 8 128 ++ leBytes 8 128 ++ leBytes 8 128 ++ leBytes 8 128) ++ zs 16
    ++ (zs 8 ++ leBytes 8 144) ++ zs 1024 ++ (zs 4 ++ leBytes 4 72 ++ zs 64) ++ (zs 4 ++ leBytes 4 72 ++ zs 64)

/-- A device that can take it, once its bytes are in Root memory. -/
def listed (l : List (Nat × Word)) : State := { admin l with manifest := some (impliedManifest 0) }
theorem listed_inv (l : List (Nat × Word)) : (listed l).Inv := admin_inv l
def accepting : State := listed ((rAlign, 0x80000000) :: loaders)
def copied : State := memWrite (countRoot (Sys2Proof.Claims.Taken accepting) (sliceB image 0 (numAt (cmd 0x10 0 1312 0 4) 0x10 8)).length)
  (numAt (cmd 0x10 0 1312 0 4) 0x18 8) (sliceB image 0 (numAt (cmd 0x10 0 1312 0 4) 0x10 8))

theorem image_abi (h : Config.weaveAbi / 2 ^ 16 < 2 ^ 16) : numAt (sliceB image 0 1312) 4 2 = Config.weaveAbi / 2 ^ 16 := by
  have e : numAt (sliceB image 0 1312) 4 2 = leNat (leBytes 2 (Config.weaveAbi / 2 ^ 16)) := by
    with_unfolding_all rfl
  rw [e]; simp only [leBytes, leNat, BitVec.toNat_ofNat]; omega

theorem header_accepted (h : Config.weaveAbi / 2 ^ 16 < 2 ^ 16) : headerCodes copied (sliceB image 0 1312) = [] := by
  have ha := image_abi h
  unfold headerCodes
  simp only [List.append_eq_nil_iff]
  refine ⟨⟨⟨⟨⟨⟨⟨⟨⟨?_, ?_⟩, ?_⟩, ?_⟩, ?_⟩, ?_⟩, ?_⟩, ?_⟩, ?_⟩, ?_⟩
  case refine_3 => rw [ha]; simp
  all_goals decide +kernel

theorem wit_load_accepted (h : Config.weaveAbi / 2 ^ 16 < 2 ^ 16) : accepting.Inv ∧ (cmd 0x10 0 1312 0 4).length = 64 ∧ mayTakeAdmin accepting = true
    ∧ limited accepting = false ∧ numAt (cmd 0x10 0 1312 0 4) 0 1 = 0x10 ∧ weavePending accepting = false
    ∧ numAt (cmd 0x10 0 1312 0 4) 0x18 8 + numAt (cmd 0x10 0 1312 0 4) 0x10 8 ≤ rootEnd ∧ loaderReady accepting = true
    ∧ refusalCodes copied (sliceB image 0 1312) 4 = [] := by
  suffices h0 : refusalCodes copied (sliceB image 0 1312) 4 = [] by
    refine ⟨listed_inv _, ?_⟩; simp only [h0]; decide +kernel
  have hp : partOf (sliceB image 0 1312) (deviceCoord copied) = some 144 := by decide +kernel
  have hb : ¬ (sliceB image 0 1312).length < 128 := by decide +kernel
  have hs : ¬ 4 < stakeNo copied + 4 := by decide +kernel
  have hw : ¬ (whPeriod (sliceB image 0 1312) = 0 ∨ 4096 < whPeriod (sliceB image 0 1312)) := by decide +kernel
  have hi : (!partInImage (sliceB image 0 1312) 144) = false := by decide +kernel
  have hf : (!fsqImageOk (sliceB image 0 1312) (144 + 1024) || !fsqImageOk (sliceB image 0 1312) (imageB (sliceB image 0 1312) 144)) = false := by
    decide +kernel
  have hr : recordCodes copied (sliceB image 0 1312) 144 = [] := by decide +kernel
  have hq : pairBad copied (sliceB image 0 1312) 144 = false := by decide +kernel
  unfold refusalCodes
  simp only [if_neg hb, if_neg hs, if_neg hw, header_accepted h, hp, hi, hf, hr, hq, Bool.false_eq_true, if_false, List.append_nil]

/-! ## The spec's own examples -/

/-- 02, the worked example: four products in two orders drain to 2^-17. -/
theorem test_order_keeps_the_bits : [[(0x78, 0x78), (0x01, 0x01), (0xF8, 0x78), (0x01, 0x01)], [(0x01, 0x01), (0xF8, 0x78), (0x78, 0x78), (0x01, 0x01)]].map
    (fun (l : List (Nat × Nat)) => drainFloat 0 true .rne (drainCell (accBlock 0 127 127 (l.map (fun e => fpDecode 0 e.1)) (l.map (fun e => fpDecode 0 e.2)) Acc.zero) 0))
    = [0x37000000, 0x37000000] := by decide +kernel

/-- 04, R115: a block whose largest magnitude is 37.5, and its element 0.1. -/
theorem test_mx_block : mxBlock 0 (fun _ => .rne) 0 [fpDecode 0xA 0x42160000, fpDecode 0xA 0x3DCCCCCD] = ([0x79, 0x35], 0x7C, (mxBlock 0 (fun _ => .rne) 0
    [fpDecode 0xA 0x42160000, fpDecode 0xA 0x3DCCCCCD]).2.2) := by decide +kernel

/-- 04, R116, R117: 1 + 2^-9 to BF16 rounds up when the top 16 bits of the draw are below 0x4000. -/
theorem test_stochastic : (fpFinish 8 (.sr 0x3FFF000000000000) (fpDecode 0xA 0x3F804000)).code = 0x3F81
    ∧ (fpFinish 8 (.sr 0x4000000000000000) (fpDecode 0xA 0x3F804000)).code = 0x3F80 := by decide +kernel

/-- 05, R150: the slot of VU.CVT V8 from V3, FP32 to BF16, SR, COUNTER, entry 2. -/
theorem test_vu_slot : slotBits (.vu 0x11 { vuf 8 3 0 0 0 0xA with rmode := 5, fmt2 := 8, seed := 2 }) = 0x0000122D00006811 := by decide +kernel

/-- 10, R317: EXP2 of 0.5, the same bits in AP1 and AP2. -/
theorem test_exp2 : (transLane true 1 0xA .rne 0 0x3F000000).1 = 0x3FB504F3 ∧ (transLane false 1 0xA .rne 0 0x3F000000).1 = 0x3FB504F3 := by decide +kernel

/-- 08, R254: a WRITE of 1,024 bytes is 5 units, and 0xFFF and 0x000 are older than 0x001. -/
theorem test_twine : unitsOf (pkt 8 15 (zs 1024)) = 5 ∧ newer 0x001 0xFFF = true ∧ newer 0x001 0x000 = true ∧ newer 0xFFF 0x001 = false := by decide +kernel

/-- 12, R371: an envelope of 160 gives Pod 31 three engines and Pod 32 two. -/
theorem test_envelope : envelopeShare { State.reset with active := some { weave with envelope := 160 } } 31 = 3
    ∧ envelopeShare { State.reset with active := some { weave with envelope := 160 } } 32 = 2 := by decide +kernel

/-- 09, R287: the plane at rack port 4 of NODE 0x019E hears in-rack index 30. -/
theorem test_far_end : farEnd (zs 6 ++ [3, 0, 0, 1] ++ zs 54) 0x019E 4 = some (planeNode 3 4, 30) := by decide +kernel

/-- 05, R155: C.LI of -1 is sign-extended, and C.SLT compares signed numbers. -/
theorem test_control : after (exec (.cLi 3 ⟨1, 0, 0, 0x7FFFFFF⟩) State.reset) (fun t => decide ((pod t 3).pend = [⟨0, 4, .s 1, BitVec.ofNat 8192 (2 ^ 64 - 1), 1⟩])) = true
    ∧ after (exec (.cSlt 3 ⟨1, 2, 0, 0⟩) (podDev [] (withS [(2, BitVec.allOnes 64)]))) (fun t => decide ((pod t 3).pend = [⟨0, 4, .s 1, 1, 1⟩])) = true := by
  decide +kernel

/-- A step runs the command at the front and leaves the rest of the queue; SAMPLE_PRELOAD selects its instruction (14, R425). -/
theorem test_step : after (step { State.reset with pending := [.samplePreload, .bypass] }) (fun t => decide (t.dport.tap = 0x02 ∧ t.pending = [.bypass])) = true := by
  decide +kernel

/-! ## Witnesses: bundles that come up, the banks, and the on-die network -/

/-- Nothing of Pod 3 is due, and none of its engines works, as a check. -/
def resting (s : State) : Bool :=
  podClockRuns s 3 && decide (s.dport.heldWrite = none) && s.misc.netLines.all (fun e => decide (e.1 ≠ 3))
    && (pod s 3).pend.all (fun w => decide ((pod s 3).core.cycle < w.due)) && decide ((pod s 3).mmas = []) && decide ((pod s 3).te.windows = [])
    && decide ((pod s 3).te.heldCfg = none)
    && (pod s 3).ranges.all (fun r => decide (r.landing = []) && r.due.all (fun d => decide ((pod s 3).core.cycle < d)))
    && decide (∀ e : EngineId, (vget (pod s 3).me e).drains = [] ∧ admitting (vget (pod s 3).me e) (pod s 3).core.cycle = [])

theorem rests {s : State} (h : resting s = true) : Sys2Proof.Claims.Resting s 3 := by
  simp only [resting, Bool.and_eq_true, List.all_eq_true, decide_eq_true_eq] at h
  have due := h.1.2
  have engines := h.1.1.1.1
  refine ⟨engines.1.1.1.1, engines.1.1.1.2, engines.1.1.2, engines.1.2, engines.2, h.1.1.1.2, h.1.1.2, fun r hr => ⟨(due r hr).1, fun d hd => ?_⟩, h.2⟩
  have := (due r hr).2
  rw [hd, Option.all_some] at this
  exact of_decide_eq_true this

/-- Pod 3 RUNNING at a bundle with the CTL operation of `o` alone, changed by `g`. -/
def issuing (o : SlotOp) (g : Pod → Pod) : State :=
  podDev [(rPod 3 0x100, 0x80000000), (rPod 3 0x108, 2)] (fun x => g { withS [(1, 7)] x with code := [BitVec.ofNat 256 (slotBits o * 2 ^ 208), 0] })

/-- C.ADDI of S31 from S1, C.JMP, and an opcode that no operation has. -/
def addi1 : SlotOp := ctl 9 31 1 0 5
def jump1 : SlotOp := ctl 0x12 0 0 0 1
def noOp : SlotOp := ctl 0x3F 0 0 0 0

/-- The same with S1 still in flight. -/
def stalled : State := issuing addi1 (fun x => { x with pend := [⟨9, 4, .s 1, 8, 3⟩], core := { x.core with nextOp := 10 } })

theorem wit_bundles_come_up : (∀ s ∈ [issuing addi1 id, issuing jump1 id, issuing noOp id, stalled], resting s = true
      ∧ ((pod s 3).sends = [] ∧ ∀ j ∈ s.misc.netJobs, j.pod ≠ 3) ∧ (pod s 3).lines = []
      ∧ (hasCode s 3 = true ∧ podHalted s 3 = false ∧ podRunning s 3 = true ∧ podAtFend s 3 = false ∧ (pod s 3).core.resumeCycle ≤ (pod s 3).core.cycle
        ∧ ((pod s 3).core.frameBundles ≠ 0 ∨ (pod s 3).core.cycle % 2 = 0) ∧ (pod s 3).core.holdUntil ≤ (pod s 3).core.cycle
        ∧ (pod s 3).core.beyond = false ∧ (pod s 3).core.upSince = none ∧ pcOf s 3 < (reg s (rPod (3 : PodId).val 0x108)).toNat
        ∧ (∀ n, vget (pod s 3).breaks n ≠ some (BitVec.ofNat 14 (pcOf s 3)))))
    ∧ (∀ o ∈ [addi1, jump1, noOp], (bundleSlots ((pod (issuing o id) 3).code.getD 0 0)).filter (fun y => decide (opcode y ≠ 0)) = [o])
    ∧ (bundleTraps (withPending (issuing noOp id) 3) 3 [] (bundleSlots ((pod (issuing noOp id) 3).code.getD 0 0))).isSome = true
    ∧ (bundleTraps (withPending stalled 3) 3 [] (bundleSlots ((pod stalled 3).code.getD 0 0)) = none
      ∧ bundleStalls (Sys2Proof.Claims.up stalled 3) 3 (bundleSlots ((pod stalled 3).code.getD 0 0)) ≠ []) := by decide +kernel

/-- A bundle that issues: no trap, no stall; one operation leaves the next index to the core, the other sets it. -/
def issues (o : SlotOp) (jumps : Bool) : Bool :=
  let s := issuing o id
  let ops := bundleSlots ((pod s 3).code.getD 0 0)
  let r := issueSlots (Sys2Proof.Claims.resumed s 3) 3 ops
  decide (bundleTraps (withPending s 3) 3 [] ops = none) && (bundleStalls (Sys2Proof.Claims.up s 3) 3 ops).isEmpty && !(pod s 3).core.stepping
    && decide (∀ n, vget (pod s 3).watches n = none) && decide ((pod r.1 3).lines = []) && decide ((pod r.1 3).mmas = []) && (pod r.1 3).loops.isEmpty
    && (r.2 == jumps)

theorem wit_bundles_issue : issues addi1 false = true ∧ issues jump1 true = true := by decide +kernel

/-- Pod 3 at rest with one line at its banks in cycle `n`: a load of 8 bytes from `a` for S31, or a store of 64 bytes to 0x40. -/
def oneLoad (a n : Nat) : State := podDev [] (fun x => { x with
  core := { x.core with cycle := n }, lines := [oneStep 9 2 9 false a 8 n], reads := [⟨9, .result, [(a, 8)]⟩], pend := [⟨9, 3, .s 31, 0, n + 9⟩] })
def oneStore : State := podDev [] (fun x => { x with
  lines := [oneStep 9 2 9 true 0x40 64 0], ranges := [⟨9, 3, true, 0x40, 0x80, false, some 3, [(podAddr 3 0x40, zs 64)], [], false⟩] })

/-- A near load is granted at once; a Husk bank answers in every second cycle. -/
theorem wit_bank_lines : (∀ s ∈ [oneLoad 0 0, oneLoad 0x1000000 1, oneStore], resting s = true ∧ ((pod s 3).sends = [] ∧ ∀ j ∈ s.misc.netJobs, j.pod ≠ 3)
      ∧ podRunning s 3 = false ∧ podHalted s 3 = false)
    ∧ (grantLines (pod (oneLoad 0 0) 3).core.cycle false [] (presented (oneStep 9 2 9 false 0 8 0))).2 = []
    ∧ (grantLines (pod (oneLoad 0x1000000 1) 3).core.cycle false [] (presented (oneStep 9 2 9 false 0x1000000 8 1))).2 ≠ []
    ∧ ((grantLines (pod oneStore 3).core.cycle true [] (presented (oneStep 9 2 9 true 0x40 64 0))).2 = [] ∧ (zs 64).length = 64 ∧ 0x40 + 64 ≤ 0x1000000 ∧ 0 + 8 ≤ 0x1000000
      ∧ ∀ e : EngineId, (vget (pod oneStore 3).me e).results = []) := by decide +kernel

/-! A TW operation of Pod 3 whose last source line stands at the banks. -/

def tokenTw : Token := ⟨0, .twSend, 9, 0, 0, false, false, 0, 0x40, 64, zs 64, 1⟩
def sendTo (dst : Nat) (fence : Bool) (earlier : List (Nat × Nat × Word)) (type : Nat) : TwineSend := ⟨9, 5, type, 29, dst, 0, fence, [], earlier⟩

/-- The device with routes `r` and that operation, in cycle `n` of Pod 3; its source line comes up in cycle `m`. -/
def departing (r : List (Nat × Nat)) (w : TwineSend) (m : Nat) : State :=
  { podDev [(rPort 0 0x04, (5 : Word) <<< 28), (rPort 0 0x08, 0x80010000)] (fun x => { x with
      sends := [w], lines := [⟨9, 4, 9, false, 0x40, 64, 64, m, 1, 1, []⟩], reads := [⟨9, .token 5, [(0x40, 64)]⟩], outq := vput x.outq 5 ⟨1, [tokenTw]⟩ }) with
    misc := { State.reset.misc with routes := r } }

theorem wit_last_source_line : (∀ s ∈ [departing [(1, 1)] (sendTo 512 false [] 8) 0, departing [(1, 1)] (sendTo 512 true [(3, 4, 0)] 8) 0,
        departing [] (sendTo 1024 false [] 8) 0, departing [] (sendTo 29 false [] 8) 0],
      resting s = true ∧ (pod s 3).reads = [⟨9, .token 5, [(0x40, 64)]⟩] ∧ (pod s 3).lines = [⟨9, 4, 9, false, 0x40, 64, 64, 0, 1, 1, []⟩]
        ∧ (grantLines (pod s 3).core.cycle false [] (presented ⟨9, 4, 9, false, 0x40, 64, 64, 0, 1, 1, []⟩)).2 = []
        ∧ (outQ (pod s 3) 5).tokens = [tokenTw] ∧ tokenTw.data.length = 64 ∧ podRunning s 3 = false ∧ podHalted s 3 = false ∧ s.misc.netJobs = []
        ∧ s.misc.fenced = [])
    ∧ (∀ c : Nat, c < 3 → routeTo (departing [(1, 1)] (sendTo 512 false [] 8) 0) c 1 = .out 0 ∧ routeTo (departing [] (sendTo 1024 false [] 8) 0) c 2 = .none)
    ∧ (sourceOpen (pod (departing [(1, 1)] (sendTo 512 false [] 8) 1) 3) 9 = true ∧ resting (departing [(1, 1)] (sendTo 512 false [] 8) 1) = true
      ∧ ∀ l ∈ (pod (departing [(1, 1)] (sendTo 512 false [] 8) 1) 3).lines, (pod (departing [(1, 1)] (sendTo 512 false [] 8) 1) 3).core.cycle < l.nextAt) := by
  decide +kernel

/-- A packet of Pod 3 to its own queue 5, whose write has been granted. -/
def selfPkt : Packet := { pkt 8 0 (zs 64) with src := 29, dst := 29 }
def arriving : State := { podDev [] (fun x => { x with outq := vput x.outq 5 ⟨1, [{ tokenTw with dstDev := 0 }]⟩ }) with
  misc := { State.reset.misc with localReq := [selfPkt], netJobs := [⟨70, 3, .packet none selfPkt 0, [], zs 64⟩] } }

theorem wit_local_packet : Sys2Proof.Claims.NoneReleased (departing [] (sendTo 1024 false [] 8) 0)
    ∧ Sys2Proof.Claims.NoneReleased (departing [] (sendTo 29 false [] 8) 0)
    ∧ Sys2Proof.Claims.Deliverable (departing [] (sendTo 29 false [] 8) 0) none (twinePacket 8 29 29 0 false (zs 64))
    ∧ Sys2Proof.Claims.Deliverable arriving none selfPkt
    ∧ (resting arriving = true ∧ podRunning arriving 3 = false ∧ podHalted arriving 3 = false ∧ (pod arriving 3).sends = [] ∧ (pod arriving 3).lines = []
      ∧ podOf selfPkt.dst = 3 ∧ netDone arriving ⟨70, 3, .packet none selfPkt 0, [], zs 64⟩ = true ∧ devOf selfPkt.src = deviceCoord arriving
      ∧ (outQ (pod arriving (podOf selfPkt.src)) (queueOf selfPkt.src)).tokens = [{ tokenTw with dstDev := 0 }]) := by
  refine ⟨?_, ?_, ?_, ?_, by decide +kernel⟩
  · unfold Sys2Proof.Claims.NoneReleased; decide +kernel
  · unfold Sys2Proof.Claims.NoneReleased; decide +kernel
  · unfold Sys2Proof.Claims.Deliverable; decide +kernel
  · unfold Sys2Proof.Claims.Deliverable; decide +kernel

/-- An access of the debug port to the store of Pod 3 that its banks have granted, and a write held for the Tree Engine. -/
def accessing (write : Bool) : State := { portDev false none [] with misc := { State.reset.misc with netJobs := [⟨70, 3, .debug write (BitVec.ofNat 48 (podAddr 3 0x40)), [], zs 8⟩] } }
def heldBack : State := { State.reset with dport := { State.reset.dport with heldWrite := some (BitVec.ofNat 48 (podAddr 3 0xC00000), 7) } }

theorem wit_debug_network : (∀ b ∈ [false, true], resting (accessing b) = true ∧ podRunning (accessing b) 3 = false ∧ (pod (accessing b) 3).sends = []
      ∧ (pod (accessing b) 3).lines = [] ∧ netDone (accessing b) ⟨70, 3, .debug b (BitVec.ofNat 48 (podAddr 3 0x40)), [], zs 8⟩ = true ∧ (accessing b).ecc = [])
    ∧ (podClockRuns heldBack 3 = true ∧ podOfAddr (BitVec.ofNat 48 (podAddr 3 0xC00000) : BitVec 48).toNat = 3 ∧ (pod heldBack 3).te.windows = [] ∧ debugOpen heldBack = false)
    ∧ (podOfAddr (dbg 0 (BitVec.ofNat 48 (podAddr 3 0x40)) 0).addr.toNat = 3 ∧ (dbg 0 0 0).addr.toNat < rootEnd ∧ (dbg 0 0 0).addr.toNat % 8 = 0) := by decide +kernel

theorem wit_port_in_reset : (tripped.misc.porAsserted = true ∧ (portDev false none []).misc.porAsserted = false)
    ∧ (keeperRuns lowPin = false ∧ lowPin.misc.porAsserted = false)
    ∧ (inReset tripped = true ∧ (scanning []).dport.tap ∈ [(0x00 : Byte), 0x05, 0x06] ∧ inReset State.reset = false)
    ∧ refRuns State.reset = true ∧ refRuns (dev [(rClkStatus, 0)]) = false := by decide +kernel

end Sys2Proof.Tests
end

section
/-! Every command completes, and every operation keeps the invariant. -/

namespace Sys2Proof.Machine

/-- The command completes, and its next state follows from `s` by operations of the device. -/
def Soundly (s : State) (o : Host.Outcome State Fault Refusal) : Prop := ∃ t, o = .next t ∧ Sound s t

theorem soundly {s t : State} (h : Sound s t) : Soundly s (.next t) := ⟨t, rfl, h⟩

theorem ite_soundly {c : Prop} [Decidable c] {s : State} {a b : Host.Outcome State Fault Refusal} (h : Soundly s a) (g : Soundly s b) :
    Soundly s (if c then a else b) := by
  split
  · exact h
  · exact g

/-- A change that is made under a condition only. -/
theorem when_sound {c : Prop} [Decidable c] {s t : State} (h : Sound s t) : Sound s (if c then t else s) :=
  ite_sound h (Sound.refl s)

theorem stake_sound (s : State) (x : StakeState) : Sound s { s with stake := x } := Sound.other rfl rfl rfl rfl rfl rfl
theorem flash_sound (s : State) (x : Flash) : Sound s { s with flash := x } := Sound.other rfl rfl rfl rfl rfl rfl
theorem clock_sound (s : State) (x : ClockState) : Sound s { s with clock := x } := Sound.other rfl rfl rfl rfl rfl rfl
theorem doe_sound (s : State) (x : Doe) : Sound s { s with doe := x } := Sound.other rfl rfl rfl rfl rfl rfl

theorem unless_sound {c : Prop} [Decidable c] {s t : State} (h : Sound s t) : Sound s (if c then s else t) :=
  ite_sound (Sound.refl s) h

/-! ## Resets, boot and clocks -/

theorem execPowerOnReset_sound (straps : BitVec 16) (s : State) : Soundly s (execPowerOnReset straps s) := by
  have h : Sound s (releasePowerOn (assertPowerOn s)) := (assertPowerOn_sound s).trans (releasePowerOn_sound _)
  exact soundly (ite_sound h (h.trans (coldBoot_sound ..)))

theorem execRailTrip_sound (rail : Rail) (s : State) : Soundly s (execRailTrip rail s) :=
  soundly ((when_sound (modMisc_sound ..)).trans (assertPowerOn_sound _))

theorem execSysRstN_sound (n : Nat) (straps : BitVec 16) (s : State) : Soundly s (execSysRstN n straps s) := by
  have h : Sound s (modMisc s (fun m => { m with sysRstLow := false })) := modMisc_sound ..
  unfold execSysRstN
  split
  · exact soundly (h.trans (sysReset_sound ..))
  · split
    · exact soundly h
    · exact soundly ((h.trans (draw_sound _)).trans (when_sound (sysReset_sound ..)))

theorem execPodBistDone_sound (p : PodId) (failed : Option Byte) (s : State) : Soundly s (execPodBistDone p failed s) :=
  soundly (when_sound ((when_sound (zeroPodStore_sound ..)).trans (finishFunction_sound ..)))

theorem execRootReady_sound (k : StackId) (failed : Option Byte) (s : State) : Soundly s (execRootReady k failed s) :=
  soundly (when_sound ((when_sound (zeroStack_sound ..)).trans (finishFunction_sound ..)))

theorem execBootDeadline_sound (d : Deadline) (s : State) : Soundly s (execBootDeadline d s) := by
  cases d with
  | pods => exact soundly (reportLate_sound ..)
  | roots => exact soundly (reportLate_sound ..)

theorem execPerstNRelease_sound (s : State) : Soundly s (execPerstNRelease s) :=
  soundly ((modMisc_sound ..).trans (when_sound (setFunc_sound ..)))

theorem execConventionalReset_sound (s : State) : Soundly s (execConventionalReset s) :=
  soundly ((unless_sound (pcieReset_sound s)).trans (modMisc_sound ..))

theorem execControlBlockWritten_sound (s : State) : Soundly s (execControlBlockWritten s) := by
  unfold execControlBlockWritten
  split
  · exact soundly (when_sound ((flash_sound ..).trans (showSlots_sound _)))
  · exact soundly (Sound.refl s)

theorem execThermtrip_sound (d : DieName) (s : State) : Soundly s (execThermtrip d s) := by
  unfold execThermtrip
  split
  · exact soundly ((raiseErr_sound ..).trans (thermtrip_sound _))
  · exact soundly (thermtrip_sound s)

theorem execPstepVoltageRaise_sound (s : State) : Soundly s (execPstepVoltageRaise s) := by
  unfold execPstepVoltageRaise
  split
  · exact soundly (when_sound (writeRails_sound ..))
  · exact soundly (Sound.refl s)

theorem execPstepFinalCheck_sound (locked : BitVec 16) (railMv : List Nat) (s : State) :
    Soundly s (execPstepFinalCheck locked railMv s) := by
  unfold execPstepFinalCheck
  split
  · exact soundly (unless_sound (ite_sound (clock_sound ..) ((dropRequest_sound s).trans (raiseErr_sound ..))))
  · exact soundly (Sound.refl s)

theorem execPstepSwitch_sound (s : State) : Soundly s (execPstepSwitch s) := by
  unfold execPstepSwitch
  split
  · exact soundly (when_sound (switchPstep_sound ..))
  · exact soundly (Sound.refl s)

theorem execPstepVoltageLower_sound (s : State) : Soundly s (execPstepVoltageLower s) := by
  unfold execPstepVoltageLower
  split
  · exact soundly (when_sound ((writeRails_sound ..).trans (clock_sound ..)))
  · exact soundly (Sound.refl s)

theorem execFcountWindowEnd_sound (edges : Word) (s : State) : Soundly s (execFcountWindowEnd edges s) := 
  soundly (when_sound (((clock_sound ..).trans (setReg_sound ..)).trans (setFlag_sound ..)))

theorem execPowerMeasureInterval_sound (r : List (Option (BitVec 16))) (s : State) : Soundly s (execPowerMeasureInterval r s) := by
  unfold execPowerMeasureInterval
  split
  · exact soundly (validInterval_sound ..)
  · exact soundly (invalidInterval_sound s)

/-! ## Stakes, picks and frames -/

theorem execPick_sound (incomplete : BitVec 16) (s : State) : Soundly s (execPick incomplete s) := by
  have h : Sound s (forEach allPorts s (fun t p => skipPicks (portPick t (pickNo s) p) (pickNo s) p)) :=
    forEach_sound (Sound.refl s) (fun _ _ => (portPick_sound ..).trans (skipPicks_sound ..))
  exact soundly (unless_sound (ite_sound (forEach_sound h (fun _ _ => fsqPick_sound ..))
    (forEach_sound h (fun _ _ => forEach_sound (modFsq_sound ..) (fun _ _ => unexpected_sound ..)))))

theorem execDepartureReadDone_sound (f : FsqId) (channel : Fin 8) (circuit : BitVec 16) (s : State) :
    Soundly s (execDepartureReadDone f channel circuit s) := by
  unfold execDepartureReadDone
  split
  · exact soundly (Sound.refl s)
  next e _ =>
    have h : Sound s (formDeparture (modFsq s f (fun q => { q with lateReads := q.lateReads.erase e })) f e.1 e.2).1 :=
      (modFsq_sound ..).trans (formDeparture_sound ..)
    dsimp only
    split
    · exact soundly (Sound.refl s)
    · split
      · exact soundly h
      · split
        · exact soundly (h.trans (reduceLate_sound ..))
        · exact soundly (h.trans (toMask_sound ..))

theorem execPairDigestTimeout_sound (s : State) : Soundly s (execPairDigestTimeout s) := by
  unfold execPairDigestTimeout
  dsimp only
  split
  · split
    · exact soundly ((setFlag_sound ..).trans (raiseErr_sound ..))
    · exact soundly (Sound.refl s)
  · exact soundly (Sound.refl s)

theorem execPodFrameStart_sound (s : State) : Soundly s (execPodFrameStart s) :=
  soundly (when_sound ((stake_sound ..).trans (frameStart_sound _)))

theorem execSnapshot_sound (s : State) : Soundly s (execSnapshot s) :=
  soundly (when_sound (((takeSnapshot_sound s).trans (setFlag_sound ..)).trans (setFlag_sound ..)))

/-! ## Ports -/

theorem execUnalignedAlignSend_sound (s : State) : Soundly s (execUnalignedAlignSend s) :=
  soundly (unless_sound (forEach_sound (Sound.refl s) (fun _ _ => when_sound (modPort_sound ..))))

theorem execFlitRx_sound (p : PortId) (raw : List Byte) (s : State) : Soundly s (execFlitRx p raw s) := by
  unfold execFlitRx
  split
  · exact soundly (Sound.refl s)
  · split
    · exact soundly (badFlit_sound ..)
    · exact soundly ((add64_sound ..).trans (ite_sound (flitModeFlit_sound ..) (packetModeFlit_sound ..)))

theorem execTwineRequestServed_sound (p : PortId) (s : State) : Soundly s (execTwineRequestServed p s) := by
  unfold execTwineRequestServed
  split
  · split
    · exact soundly (Sound.refl s)
    · exact soundly (delivered_sound _ _ _ (serveRequest_sound ..))
  · exact soundly (Sound.refl s)

theorem execRecover_sound (p : PortId) (payload : List Byte) (s : State) : Soundly s (execRecover p payload s) := by
  unfold execRecover
  split
  · exact soundly ((enterRecover_sound ..).trans (takeRecover_sound ..))
  · exact soundly (Sound.refl s)

theorem execTwineReplayTimeout_sound (p : PortId) (s : State) : Soundly s (execTwineReplayTimeout p s) :=
  soundly (unless_sound (ite_sound ((rearmNak_sound ..).trans (startReplay_sound ..)) (rearmNak_sound ..)))

theorem execElasticSlip_sound (p : PortId) (pointer : Int) (s : State) : Soundly s (execElasticSlip p pointer s) := by
  have h (v most : Nat) : Sound s (setField (setField s (rPort p 0x3C) 24 8 v) (rPort p 0x3C) 16 8 most) :=
    (setField_sound ..).trans (setField_sound ..)
  exact ite_soundly (soundly (Sound.refl s)) (ite_soundly
    (soundly ((((h _ _).trans (raiseErr_sound ..)).trans (declareDown_sound ..)).trans (machineFault_sound ..))) (soundly (h _ _)))

theorem execDarkExpected_sound (p : PortId) (s : State) : Soundly s (execDarkExpected p s) :=
  soundly (when_sound ((takeOutcome_sound ..).trans (setLink_sound ..)))

theorem execFecLock_sound (p : PortId) (phasePs : BitVec 12) (s : State) : Soundly s (execFecLock p phasePs s) := by
  unfold execFecLock
  dsimp only
  split
  · exact soundly (ite_sound ((modPort_sound ..).trans (setReg_sound ..)) (modPort_sound ..))
  · exact soundly (Sound.refl s)

/-! ## Pods -/

theorem execGeRequestServe_sound (d : DieId) (s : State) : Soundly s (execGeRequestServe d s) := by
  unfold execGeRequestServe
  split
  · exact soundly (Sound.refl s)
  · split
    · exact soundly (Sound.refl s)
    · dsimp only
      split
      · exact soundly (Sound.refl s)
      · split
        · exact soundly ((netRead_sound ..).trans (geServe_sound ..))
        · exact soundly (netRead_sound ..)

theorem execQWaitTimeout_sound (p : PodId) (f : MemFields) (s : State) : Soundly s (execQWaitTimeout p f s) := by
  unfold execQWaitTimeout
  split
  · exact soundly (Sound.refl s)
  · split
    · exact soundly (trapPod_sound ..)
    · dsimp only
      split
      · exact soundly (((settleFor_sound ..).trans (markVClass_sound ..)).trans (issueStatus_sound ..))
      · exact soundly (Sound.refl s)

theorem execTeWindowDone_sound (p : PodId) (s : State) : Soundly s (execTeWindowDone p s) :=
  soundly (((settleWindows_sound ..).trans (settleRanges_sound ..)).trans (settleTeCfg_sound ..))

/-! ## Host, debug and board -/

theorem execRead_sound (desc : List Byte) (s : State) : Soundly s (execRead desc s) :=
  soundly (ite_sound (hostGet_sound ..) (runAdmin_sound _ _ _ _ (fun _ _ => readBytes_sound ..)))

theorem execAlertResponse_sound (s : State) : Soundly s (execAlertResponse s) :=
  soundly (when_sound (((modMisc_sound ..).trans (emit_sound ..)).trans (emit_sound ..)))

/-! ## Every command, every step -/

/-- Every command completes, and its next state follows by operations of the device. -/
theorem exec_sound (c : Instr) (s : State) : Soundly s (exec c s) := by
  cases c with
  | powerOnReset straps => exact execPowerOnReset_sound ..
  | railTrip rail => exact execRailTrip_sound ..
  | sysRstN lowNs straps => exact execSysRstN_sound ..
  | cfgResetCold value straps | cfgResetWarm value => exact soundly (writeCfgReset_sound ..)
  | conventionalReset => exact execConventionalReset_sound ..
  | hotReset => exact soundly (pcieReset_sound ..)
  | flr => exact soundly (resetHost_sound ..)
  | configCommit => exact soundly (when_sound (configCommit_sound ..))
  | keeperReady => exact soundly (keeperReady_sound ..)
  | pcieReady => exact soundly (when_sound (setFunc_sound ..))
  | podBistDone p failed => exact execPodBistDone_sound ..
  | rootReady k failed => exact execRootReady_sound ..
  | bootDeadline d => exact execBootDeadline_sound ..
  | mgmtLinkUp | mgmtLinkDown => exact soundly (when_sound (setFunc_sound ..))
  | refLoss => exact soundly (loseReference_sound ..)
  | referenceReturn edges => exact soundly (when_sound (returnReference_sound ..))
  | pllUnlock pll => exact soundly (unless_sound (losePll_sound ..))
  | pllRelock pll => exact soundly (unless_sound (setLock_sound ..))
  | kpllLockLoss => exact soundly (setKpllLock_sound ..)
  | clkKeeperWrite value => exact soundly (writeClkKeeper_sound ..)
  | clkGateWrite value => exact soundly (writeClkGate_sound ..)
  | droopDetect r belowMv => exact soundly (droopDetect_sound ..)
  | stretchEnd r => exact soundly (clock_sound ..)
  | thermtrip d => exact execThermtrip_sound ..
  | arm value | cancel value => exact soundly (writePstepReq_sound ..)
  | pstepVoltageRaise => exact execPstepVoltageRaise_sound ..
  | pstepFinalCheck locked railMv => exact execPstepFinalCheck_sound ..
  | pstepSwitch => exact execPstepSwitch_sound ..
  | pstepVoltageLower => exact execPstepVoltageLower_sound ..
  | start value => exact soundly (writeFcount_sound ..)
  | fcountWindowEnd edges => exact execFcountWindowEnd_sound ..
  | powerRateUpdate => exact soundly (rateUpdate_sound ..)
  | powerMeasureInterval readings => exact execPowerMeasureInterval_sound ..
  | errPwrClear value => exact soundly (clearErrPwr_sound ..)
  | stakeBoundary stackTemps cdTemps ioTemps => exact soundly (stakeBoundary_sound ..)
  | pick incomplete => exact execPick_sound ..
  | departureReadDone f channel circuit => exact execDepartureReadDone_sound ..
  | localWrite f => exact soundly (writeLocal_sound ..)
  | checkPoint => exact soundly (checkPoint_sound ..)
  | pairDigestTimeout => exact execPairDigestTimeout_sound ..
  | commitPoint => exact soundly (commitPoint_sound ..)
  | holdQuantumStart => exact soundly (Sound.refl s)
  | podFrameStart => exact execPodFrameStart_sound ..
  | snapshot => exact execSnapshot_sound ..
  | refreshSlot k c => exact soundly (when_sound (modMisc_sound ..))
  | refreshEnd k c => exact soundly (modMisc_sound ..)
  | flitSlot p => exact soundly (ite_sound (packetModeSlot_sound ..) (when_sound (flitModeSlot_sound ..)))
  | unalignedAlignSend => exact execUnalignedAlignSend_sound ..
  | flitRx p raw => exact execFlitRx_sound ..
  | warpPacketRx p pkt => exact soundly (when_sound (receiveWarp_sound ..))
  | write p pkt => exact soundly (delivered_sound _ _ _ (when_sound (deliverWrite_sound ..)))
  | fadd p pkt => exact soundly (delivered_sound _ _ _ (when_sound (deliverFadd_sound ..)))
  | ocommit p pkt => exact soundly (delivered_sound _ _ _ (when_sound (deliverOcommit_sound ..)))
  | mgmtReq p pkt => exact soundly (delivered_sound _ _ _ (toKeeper_sound ..))
  | mgmtRsp p pkt => exact soundly (delivered_sound _ _ _ ((toKeeper_sound ..).trans (settleRsp_sound ..)))
  | done p pkt => exact soundly (delivered_sound _ _ _ ((freeFrom_sound ..).trans (takeDoneResponse_sound ..)))
  | msg p pkt => exact soundly (delivered_sound _ _ _ (deliverWrite_sound ..))
  | byp p pkt => exact soundly (sinkByp_sound ..)
  | twinePacketRx p pkt => exact soundly (when_sound (receiveTwine_sound ..))
  | queuedEntryAccept p q => exact soundly (forEach_sound (acceptWaiting_sound ..) settleRsp_sound)
  | twineRequestServed p => exact execTwineRequestServed_sound ..
  | notice p pkt => exact soundly (receiveNotice_sound ..)
  | faultNotice p pkt => exact soundly (takeFaultNotice_sound ..)
  | rsqRx p pkt => exact soundly (ite_sound (receiveRsq_sound ..) (unexpected_sound ..))
  | alignRx p payload => exact soundly (receiveAlign_sound ..)
  | alignAdopt => exact soundly (adoptAlign_sound ..)
  | tickRootAlign | altRootAlign => exact soundly (when_sound (rootAlign_sound ..))
  | alignTimeout => exact soundly (when_sound (raiseErr_sound ..))
  | pairDigestRx payload => exact soundly (receivePairDigest_sound ..)
  | laneSignalDetect p => exact soundly (when_sound (enterTrain_sound ..))
  | trainDeadline p => exact soundly (when_sound (failAttempt_sound ..))
  | announce p payload => exact soundly (when_sound (takeAnnounce_sound ..))
  | delayReq p payload => exact soundly (when_sound (takeDelayReq_sound ..))
  | delayRsp p payload => exact soundly (when_sound (takeDelayRsp_sound ..))
  | ready p payload => exact soundly (when_sound (takeReady_sound ..))
  | recover p payload => exact execRecover_sound ..
  | laneLockLoss p => exact soundly (enterRecover_sound ..)
  | recoverFail p | ackTimeout p => exact soundly (when_sound (declareDown_sound ..))
  | twineReplayTimeout p => exact execTwineReplayTimeout_sound ..
  | elasticSlip p pointer => exact execElasticSlip_sound ..
  | darkExpected p => exact execDarkExpected_sound ..
  | retrain p value | enable p value => exact soundly (writePrtCtrl_sound ..)
  | prtPortMapWrite hi value => exact soundly (writePortMap_sound ..)
  | tokenComplete p q => exact soundly (completeToken_sound ..)
  | geRequestServe d => exact execGeRequestServe_sound ..
  | entropyHealthFail p => exact soundly (raisePodErr_sound ..)
  | podCycle p => exact soundly (when_sound (podCycle_sound ..))
  | resultReadable p d => exact soundly (modPod_sound ..)
  | bufferComplete p b => exact soundly (settleRanges_sound ..)
  | accumulatorFree p e => exact soundly (modPod_sound ..)
  | rangeRelease p op => exact soundly ((settleRanges_sound ..).trans (modPod_sound ..))
  | teWindowDone p => exact execTeWindowDone_sound ..
  | meMma p f | meDrain p f | meBload p f | teNload p f | teFload p f | teWin p f | vuAdd p f | vuSub p f | vuMul p f | vuMin p f
    | vuMax p f | vuAbs p f | vuNeg p f | vuCmp p f | vuSel p f | vuAnd p f | vuOr p f | vuXor p f | vuShl p f | vuShr p f
    | vuFma p f | vuCvt p f | vuXadd p f | vuXcvti p f | vuXcvto p f | vuMxq p f | vuRsum p f | vuRmax p f | vuRmin p f
    | vuRargmax p f | vuSamov p f | vuSort p f | vuMerge p f | vuTrans p f | vuBcast p f | vuMovs p f | mLdv p f | mStv p f
    | mLds p f | mSts p f | mMdld p f | mCopy p f | qFetch p f | qStore p f | qWait p f => exact soundly (runOp_sound ..)
  | qWaitTimeout p f => exact execQWaitTimeout_sound ..
  | qPop p f | qSel p f | qSelord p f | twSend p f | twFadd p f | twOcommit p f | geReq p f | cAdd p f | cSub p f | cAnd p f
    | cOr p f | cXor p f | cShl p f | cShr p f | cMul p f | cAddi p f | cSlt p f | cLi p f | cLih p f | cBr p f | cBz p f
    | cJmp p f | cCall p f | cRet p f | cLoop p f | cIdle p f | cFend p f | cSync p f | cStep p f | cRds p f | cCsrw p f
    | cCsrr p f => exact soundly (runOp_sound ..)
  | podEgress p value => exact soundly (writeEgress_sound ..)
  | podTeCfgWrite p value => exact soundly (writeTeCfg_sound ..)
  | hstSqTail str value => exact soundly (when_sound (writeSqTail_sound ..))
  | hstCqHead str value => exact soundly (when_sound (writeCqHead_sound ..))
  | descriptorFetchFail str hostAddr => exact soundly (fetchFailed_sound ..)
  | submit str desc segments readFails => exact soundly (submit_sound ..)
  | inputStaged str input => exact soundly (when_sound (inputStaged_sound ..))
  | completionRecord str => exact soundly (completionRecord_sound ..)
  | hstSCtrlEnable str value | hstSCtrlReset str value => exact soundly (writeStreamCtrl_sound ..)
  | streamResetDone str => exact soundly (settleReset_sound ..)
  | nop desc => exact soundly (runAdmin_sound _ _ _ _ (fun _ _ => failAdmin_sound ..))
  | loadWeave desc image seedSet readFails => exact soundly (runAdmin_sound _ _ _ _ (fun _ _ => loadWeave_sound ..))
  | quietStakeDone => exact soundly (quietDone_sound ..)
  | spliceReloadDone p => exact soundly (spliceReloaded_sound ..)
  | load desc bytes readFails => exact soundly (runAdmin_sound _ _ _ _ (fun _ _ => loadBytes_sound ..))
  | loadComplete => exact soundly (loadComplete_sound ..)
  | read desc => exact execRead_sound ..
  | manifest desc bytes readFails => exact soundly (runAdmin_sound _ _ _ _ (fun _ _ => storeManifest_sound ..))
  | bundleWrite desc bytes readFails => exact soundly (runAdmin_sound _ _ _ _ (fun _ _ => bundleWrite_sound ..))
  | bundleVerify desc => exact soundly (runAdmin_sound _ _ _ _ bundleVerify_sound)
  | bundleCommit desc => exact soundly (runAdmin_sound _ _ _ _ bundleCommit_sound)
  | bundleRead desc => exact soundly (runAdmin_sound _ _ _ _ bundleRead_sound)
  | cfgSelect value => exact soundly (writeCfgSelect_sound ..)
  | controlBlockWritten => exact execControlBlockWritten_sound ..
  | cfgIdentityAck value => exact soundly (ackIdentity_sound ..)
  | timCtrlSet value | timCtrlAddOffset value | timCtrlSynced value => exact soundly (writeTimCtrl_sound ..)
  | timIncrWrite value => exact soundly (writeTimIncr_sound ..)
  | ptpEventTx f => exact soundly (ptpSend_sound ..)
  | ptpEventRx f => exact soundly (ptpReceive_sound ..)
  | devSnapArm value | release value => exact soundly (writeSnap_sound ..)
  | errCapRearm group value => exact soundly (writeCap_sound ..)
  | registerWrite a offset size value => exact soundly (when_sound (writeAccess_sound ..))
  | getVersion req | getCapabilities req | negotiateAlgorithms req | getDigests req | getCertificate req | challenge req
    | getMeasurements req | doeDiscovery req => exact soundly (takeDoe_sound ..)
  | doeAbort => exact soundly (doe_sound ..)
  | extest => exact soundly (boundaryTap_sound ..)
  | idcode => exact soundly ((setTap_sound ..).trans (tapAnswer_sound ..))
  | samplePreload => exact soundly (setTap_sound ..)
  | clamp | highz => exact soundly (boundaryTap_sound ..)
  | bypass | dbgTrstN => exact soundly (setTap_sound ..)
  | dbgHalt f => exact soundly (podCommand_sound _ _ _ _ _ (fun _ _ => haltPods_sound ..))
  | dbgResume f => exact soundly (podCommand_sound _ _ _ _ _ (fun _ _ => resumeHalted_sound ..))
  | dbgStep f => exact soundly (podCommand_sound _ _ _ _ _ (fun t l => onePod_sound t l _ (fun _ _ => stepPod_sound ..)))
  | dbgBreak f => exact soundly (podCommand_sound _ _ _ _ _ (fun _ _ => setBreaks_sound ..))
  | dbgWatch f => exact soundly (podCommand_sound _ _ _ _ _ (fun _ _ => setWatches_sound ..))
  | dbgRead f => exact soundly (plainCommand_sound _ _ _ (fun _ => debugReadCommand_sound ..))
  | dbgWrite f => exact soundly (plainCommand_sound _ _ _ (fun _ => debugWriteCommand_sound ..))
  | readCore f | writeCore f => exact soundly (podCommand_sound _ _ _ _ _ (fun t l => onePod_sound t l _ (fun _ _ => coreCommand_sound ..)))
  | dbgStatusCmd f => exact soundly (debugCommand_sound _ _ _ _ _ (fun _ => debugAnswer_sound ..))
  | dbgChallenge f => exact soundly (debugCommand_sound _ _ _ _ _ (fun _ => challengeWord_sound ..))
  | response f => exact soundly (debugCommand_sound _ _ _ _ _ (fun _ => responseWord_sound ..))
  | unlock f => exact soundly (debugCommand_sound _ _ _ _ _ (fun _ => unlock_sound ..))
  | lock f => exact soundly (debugCommand_sound _ _ _ _ _ (fun _ => lockPort_sound ..))
  | config f => exact soundly (plainCommand_sound _ _ _ (fun _ => (setFlag_sound ..).trans (debugAnswer_sound ..)))
  | blockRead i3c c | targetWrite i3c bytes => exact soundly (when_sound (emit_sound ..))
  | alertResponse => exact execAlertResponse_sound ..
  | entdaa addr | setdasa addr => exact soundly (assignI3c_sound ..)
  | perstNRelease => exact execPerstNRelease_sound ..
  | pciePllTimeout => exact soundly (when_sound (setFunc_sound ..))
  | kpllLock => exact soundly (when_sound (setKpllLock_sound ..))
  | fecLock p phasePs => exact execFecLock_sound ..

/-- A step from `s` answers a state that holds the invariant where `s` does. -/
theorem step_keeps_inv {s t : State} (hs : s.Inv) (h : step s = .next t) : t.Inv := by
  unfold step at h
  split at h
  · cases h
    exact (idleTick_sound s).inv hs
  next c rest _ =>
    obtain ⟨u, hu, hsound⟩ := exec_sound c { s with pending := rest }
    rw [hu] at h
    cases h
    exact hsound.inv hs

end Sys2Proof.Machine

/-- Settles O3: the two registers that State.reset lists are not at their default values, and stand in rising order. -/
theorem resetHoldsTheInvariant : Obligations.ResetHoldsTheInvariant := by
  unfold Obligations.ResetHoldsTheInvariant
  exact ⟨rfl, by decide⟩

/-- Settles O4: every step is sound, and soundness carries the invariant. -/
theorem everyStepKeepsTheInvariant : Obligations.EveryStepKeepsTheInvariant := by
  unfold Obligations.EveryStepKeepsTheInvariant
  exact fun _ _ => Sys2Proof.Machine.step_keeps_inv

/-- Settles O5: what soundness says beside the invariant. -/
theorem everyCommandCompletes : Obligations.EveryCommandCompletes := by
  unfold Obligations.EveryCommandCompletes
  intro c s
  obtain ⟨t, ht, h⟩ := Sys2Proof.Machine.exec_sound c s
  exact ⟨t, ht, h.pending, h.fuses, h.out, h.fresh⟩
end

section
/-! What the register writes of an event, an error and a readiness state leave unchanged, for every offset: the frame of a boot. -/

namespace Sys2Proof.Machine

/-! ## Registers apart from those written -/

theorem reg_msix_ne (s : State) {v o : Nat} (hv : v < 96) (h : o ∉ pbaRegs) : reg (msix s v) o = reg s o := by
  unfold msix
  split
  · refine reg_setReg_ne s _ (fun e => h ?_)
    have hk : v / 32 = 0 ∨ v / 32 = 1 ∨ v / 32 = 2 := by omega
    subst e
    rcases hk with hk | hk | hk <;> simp [hk, pbaRegs]
  · rfl

theorem postEvent_regs (s : State) (k a b : Nat) (d : List Byte) : (postEvent s k a b d).regs = s.regs := by
  unfold postEvent
  split <;> rfl

theorem reg_postState_ne (s : State) (k a b : Nat) {o : Nat} (h : o ∉ pbaRegs) : reg (postState s k a b) o = reg s o := by
  unfold postState
  split
  · rw [reg_msix_ne _ (by decide) h, reg, postEvent_regs, ← reg]
  · rfl

theorem reg_setFunc_ne (s : State) (f st d : Nat) {o : Nat} (hf : rFunc f ≠ o) (h : o ∉ pbaRegs) : reg (setFunc s f st d) o = reg s o := by
  unfold setFunc
  dsimp only
  split
  · exact reg_setReg_ne s _ hf
  · rw [reg_postState_ne _ _ _ _ h, reg_setReg_ne s _ hf]

theorem reg_fillCapture_ne (s : State) (b off bit unit addr : Nat) {o : Nat} (h : o ∉ capRegs b) :
    reg (fillCapture s b off bit unit addr) o = reg s o := by
  have hne (i : Nat) (hi : i < 8) : rCap b + 4 * i ≠ o := fun e => h (e ▸ cap_mem b i hi)
  unfold fillCapture
  rw [reg_setReg64_ne _ _ (hne 5 (by decide)) (hne 6 (by decide)), reg_setReg_ne _ _ (hne 4 (by decide)),
    reg_setReg64_ne _ _ (hne 2 (by decide)) (hne 3 (by decide)), reg_setReg_ne _ _ (hne 1 (by decide)),
    reg_setReg_ne (o := rCap b) _ _ (hne 0 (by decide))]

theorem reg_capture_ne (s : State) (b off bit unit addr : Nat) {o : Nat} (h : o ∉ capRegs b) : reg (capture s b off bit unit addr) o = reg s o := by
  have hcount : reg (addSat s (rCap b + 0x1C) 1) o = reg s o := reg_setReg_ne s _ (fun e => h (e ▸ cap_mem b 7 (by decide)))
  unfold capture
  split
  · dsimp only
    split
    · rw [reg_fillCapture_ne _ _ _ _ _ _ h, hcount]
    · exact hcount
  · exact reg_fillCapture_ne s b off bit unit addr h

theorem reg_raiseErr_ne (s : State) (b off bit unit addr : Nat) {o : Nat} (ho : off ≠ o) (hc : o ∉ capRegs b) (hp : o ∉ pbaRegs) :
    reg (raiseErr s b off bit unit addr) o = reg s o := by
  have h : reg (capture (setFlag s off bit true) b off bit unit addr) o = reg s o :=
    (reg_capture_ne _ b off bit unit addr hc).trans (reg_setFlag_ne s bit true ho)
  unfold raiseErr
  dsimp only
  split
  · rw [reg_msix_ne _ (by decide) hp, h]
  · exact h

/-! ## The frame of errors and readiness states -/

/-- Registers of `l` may have changed, and what an event or an interrupt changes; every other offset reads as before, a multiple of four
or not. -/
structure Noted (l : List Nat) (s t : State) : Prop where
  frame : t = { s with regs := t.regs, streams := t.streams, misc := { s.misc with eventCount := t.misc.eventCount }, out := t.out }
  regs : ∀ o, o ∉ l → o ∉ pbaRegs → reg t o = reg s o

theorem Noted.refl (l : List Nat) (s : State) : Noted l s s := ⟨rfl, fun _ _ _ => rfl⟩

theorem Noted.trans {l : List Nat} {s t u : State} (h : Noted l s t) (g : Noted l t u) : Noted l s u :=
  ⟨by rw [g.frame, h.frame], fun o ho hp => (g.regs o ho hp).trans (h.regs o ho hp)⟩

theorem Noted.mono {l m : List Nat} {s t : State} (h : Noted l s t) (hl : l ⊆ m) : Noted m s t :=
  ⟨h.frame, fun o ho hp => h.regs o (fun hm => ho (hl hm)) hp⟩

theorem Noted.foldl {α : Type} {l : List Nat} {f : State → α → State} (xs : List α) (s : State) (hf : ∀ t, ∀ a ∈ xs, Noted l t (f t a)) :
    Noted l s (xs.foldl f s) := by
  induction xs generalizing s with
  | nil => exact Noted.refl l s
  | cons a xs ih =>
    exact (hf s a List.mem_cons_self).trans (ih (f s a) (fun t b hb => hf t b (List.mem_cons_of_mem a hb)))

theorem setReg_noted {l : List Nat} (s : State) {o : Nat} (v : Word) (ho : o ∈ l) : Noted l s (setReg s o v) :=
  ⟨rfl, fun _ hx _ => reg_setReg_ne s v (fun e => hx (e ▸ ho))⟩

theorem setField_noted {l : List Nat} (s : State) {o : Nat} (lo len v : Nat) (ho : o ∈ l) : Noted l s (setField s o lo len v) :=
  setReg_noted s _ ho

theorem setFlag_noted {l : List Nat} (s : State) {o : Nat} (i : Nat) (b : Bool) (ho : o ∈ l) : Noted l s (setFlag s o i b) :=
  setReg_noted s _ ho

theorem setFunc_noted {l : List Nat} (s : State) (f st d : Nat) (hf : rFunc f ∈ l) : Noted l s (setFunc s f st d) :=
  ⟨(setFunc_notified s f st d hf).1, fun _ ho hp => reg_setFunc_ne s f st d (fun e => ho (e ▸ hf)) hp⟩

theorem raiseErr_noted {l : List Nat} (s : State) (b off bit unit addr : Nat) (ho : off ∈ l) (hl : capRegs b ⊆ l) :
    Noted l s (raiseErr s b off bit unit addr) :=
  ⟨(raiseErr_notified s b off bit unit addr ho hl).1,
    fun _ hx hp => reg_raiseErr_ne s b off bit unit addr (fun e => hx (e ▸ ho)) (fun hc => hx (hl hc)) hp⟩

/-- A field of the register apart from the one written stays. -/
theorem field_setField_ne (s : State) (o lo len v : Nat) {lo' len' : Nat} (h : lo' + len' ≤ lo ∨ lo + len ≤ lo') :
    field (setField s o lo len v) o lo' len' = field s o lo' len' := by
  unfold field
  rw [reg_setField]
  exact getF_setF_ne _ _ _ _ _ _ h

/-- A field of another register stays. -/
theorem field_congr {s t : State} {o : Nat} (h : reg t o = reg s o) (lo len : Nat) : field t o lo len = field s o lo len := by
  unfold field
  rw [h]

/-- The readiness state just written. -/
theorem func_setFunc (s : State) (f st d : Nat) (hf : f < 0x100) (hst : st < 8) : func (setFunc s f st d) f = st := by
  unfold func field
  rw [reg_setFunc s f st d hf]
  simp only [getF, BitVec.toNat_ofNat]
  omega

end Sys2Proof.Machine
end

section
/-! Power-on and cold resets: what a boot writes, and what a cold reset keeps. -/

namespace Sys2Proof.Machine

open Sys2Proof.Claims

/-! ## The bare device -/

/-- A register after the device has been laid bare: kept or at its reset value, but for DEV_ID and DBG_STATUS. -/
theorem reg_bareReset (s : State) (keep : Nat → Bool) {o : Nat} (h0 : o ≠ 0) (h3 : o ≠ 0x3000000) :
    reg (bareReset s keep) o = if keep o then reg s o else regDefault o := by
  unfold reg bareReset
  dsimp only
  rw [tabGet_set_ne _ h3.symm, tabGet_set_ne _ h0.symm]
  split
  next hk => exact tabGet_filter _ _ _ (fun _ => hk)
  next hk => exact tabGet_dropped _ _ _ (fun _ => Bool.eq_false_iff.mpr hk)

theorem Noted.with_flash {l : List Nat} {s t : State} (h : Noted l s t) (n : Nat) (f : Flash) :
    Noted l { s with fresh := n, flash := f } { t with fresh := n, flash := f } :=
  ⟨by rw [h.frame], h.regs⟩

/-! ## What a boot writes -/

/-- The registers that a boot writes beside its errors: placement, boot state, slots, the running image and the functions that start. -/
def bootShown : List Nat :=
  [rPlace, rCfgStatus, rCfgSlot 0, rCfgSlotVer 0, rCfgSlot 1, rCfgSlotVer 1, rCfgSelect, rCfgImgVer 0, rFunc fKeeper, rFunc fPcie]

/-- Every register that a boot writes. -/
def bootRegs : List Nat := bootErrs ++ bootShown

theorem sampleStraps_noted (s : State) (straps : BitVec 16) : Noted bootRegs s (sampleStraps s straps) := by
  have h (v : Word) : Noted bootRegs s (setReg s rPlace v) := setReg_noted s v (by decide)
  unfold sampleStraps
  dsimp only
  split
  · exact h _
  · exact (h _).trans (raiseErr_noted _ _ _ _ _ _ (by decide) (by decide))

theorem reg_sampleStraps (s : State) (straps : BitVec 16) :
    reg (sampleStraps s straps) rPlace = BitVec.ofNat 32 ((if onesIn straps % 2 = 1 then 2 ^ 31 else 0) + straps.toNat) := by
  unfold sampleStraps
  dsimp only
  split
  next h => rw [reg_setReg]; simp [h, b2n]
  next h =>
    rw [reg_raiseErr_ne _ _ _ _ _ _ (by decide) (by decide) (by decide), reg_setReg]
    simp [h, b2n]

theorem startFunctions_noted (s : State) : Noted [rFunc fKeeper, rFunc fPcie] s (startFunctions s) := by
  have h : Noted [rFunc fKeeper, rFunc fPcie] s (setFunc s fKeeper 1 0) := setFunc_noted s _ _ _ (by decide)
  unfold startFunctions
  dsimp only
  split
  · exact h
  · exact h.trans (setFunc_noted _ _ _ _ (by decide))

/-- The Keeper starts (R386). -/
theorem func_startFunctions (s : State) : func (startFunctions s) fKeeper = 1 := by
  have h : func (setFunc s fKeeper 1 0) fKeeper = 1 := func_setFunc s _ _ _ (by decide) (by decide)
  unfold startFunctions
  dsimp only
  split
  · exact h
  · exact (field_congr (reg_setFunc_ne _ _ _ _ (by decide) (by decide)) _ _).trans h

/-- The registers that a boot writes after CFG_STATUS. -/
def bootAfterStatus : List Nat :=
  [rErrBoot] ++ capRegs 17 ++ [rCfgSlot 0, rCfgSlotVer 0, rCfgSlot 1, rCfgSlotVer 1, rCfgSelect, rCfgImgVer 0]

theorem nameImage_noted (s : State) (f : Flash) (run : Option (Fin 2)) : Noted bootAfterStatus s (nameImage s f run) := by
  cases run with
  | none => exact Noted.refl _ s
  | some i => exact setReg_noted s _ (by decide)

theorem showSlots_noted (s : State) : Noted bootAfterStatus s (showSlots s) := by
  unfold showSlots
  exact (((((setReg_noted s _ (by decide)).trans (setReg_noted _ _ (by decide))).trans (setReg_noted _ _ (by decide))).trans
    (setReg_noted _ _ (by decide))).trans (setFlag_noted _ _ _ (by decide))).trans (setField_noted _ _ _ _ (by decide))

theorem bootErr_noted (s : State) (bit unit : Nat) : Noted bootAfterStatus s (raiseErr s 17 rErrBoot bit unit 0) :=
  raiseErr_noted s _ _ _ _ _ (by decide) (by decide)

/-- The slot choice writes the flash, draws where a selection was in progress, and writes registers of the boot; CFG_STATUS.BOOT_CAUSE stays. -/
theorem bootSlot_noted (s : State) : ∃ n f, Noted (rCfgStatus :: bootAfterStatus) { s with fresh := n, flash := f } (bootSlot s)
    ∧ field (bootSlot s) rCfgStatus 20 4 = field s rCfgStatus 20 4 := by
  unfold bootSlot
  extract_lets lost src f s0 c cause run s1 s2 s3 s4
  refine ⟨s0.fresh, c.flash, ?_⟩
  have h2 : Noted (rCfgStatus :: bootAfterStatus) s1 s2 :=
    ((setFlag_noted s1 _ _ (by decide)).trans (setField_noted _ _ _ _ (by decide))).trans (setField_noted _ _ _ _ (by decide))
  have h3 : Noted bootAfterStatus s2 s3 := nameImage_noted ..
  have h4 : Noted bootAfterStatus s2 s4 := h3.trans (Noted.foldl _ _ (fun t e _ => bootErr_noted ..))
  have h5 : Noted bootAfterStatus s2 (showSlots (if cause = 0 then s4 else raiseErr s4 17 rErrBoot 1 (if cause = 3 then 0xFF else run) 0)) := by
    refine Noted.trans ?_ (showSlots_noted _)
    split
    · exact h4
    · exact h4.trans (bootErr_noted ..)
  refine ⟨h2.trans (h5.mono (by decide)), (field_congr (h5.regs _ (by decide) (by decide)) _ _).trans ?_⟩
  calc field s2 rCfgStatus 20 4 = field s1 rCfgStatus 20 4 := by
        unfold s2 setFlag
        rw [field_setField_ne _ _ _ _ _ (by decide), field_setField_ne _ _ _ _ _ (by decide), field_setField_ne _ _ _ _ _ (by decide)]
    _ = field s rCfgStatus 20 4 := rfl

/-- What a boot leaves: the flash and the draws apart, registers of the boot alone have changed; the Keeper has started, the cause stands in
CFG_STATUS and the straps stand in DEV_PLACE. -/
theorem coldBoot_noted (s : State) (straps : BitVec 16) (cause : Nat) :
    (∃ n f, Noted bootRegs { s with fresh := n, flash := f } (coldBoot s straps cause))
      ∧ func (coldBoot s straps cause) fKeeper = 1 ∧ field (coldBoot s straps cause) rCfgStatus 20 4 = cause % 2 ^ 4
      ∧ reg (coldBoot s straps cause) rPlace = BitVec.ofNat 32 ((if onesIn straps % 2 = 1 then 2 ^ 31 else 0) + straps.toNat) := by
  unfold coldBoot
  set a := setField (sampleStraps s straps) rCfgStatus 20 4 cause with ha
  have h1 : Noted bootRegs s a := (sampleStraps_noted s straps).trans (setField_noted _ _ _ _ (by decide))
  obtain ⟨n, f, h2, hcause⟩ := bootSlot_noted a
  have h3 := startFunctions_noted (bootSlot a)
  refine ⟨⟨n, f, ?_⟩, func_startFunctions _, ?_, ?_⟩
  · have h2' : Noted bootRegs { a with fresh := n, flash := f } (bootSlot a) := h2.mono (by decide)
    have h3' : Noted bootRegs (bootSlot a) (startFunctions (bootSlot a)) := h3.mono (by decide)
    exact ((h1.with_flash n f).trans h2').trans h3'
  · rw [field_congr (h3.regs rCfgStatus (by decide) (by decide)), hcause, ha, field_setField _ _ _ _ _ (by decide)]
  · rw [h3.regs rPlace (by decide) (by decide), h2.regs rPlace (by decide) (by decide)]
    have hset : reg a rPlace = reg (sampleStraps s straps) rPlace := reg_setField_ne _ _ _ _ (by decide)
    exact hset.trans (reg_sampleStraps s straps)

/-! ## A cold reset -/

/-- The state that a cold reset boots from. -/
def coldStart (s : State) : State := { bareReset s isSticky with dport := coldDebug s }

/-- The device has booted, and still has after a change of the host's side. -/
theorem booted_congr {straps : BitVec 16} {cause : Nat} {s t u : State} (h : Booted straps cause s t)
    (hf : u = { t with regs := u.regs, pods := u.pods, streams := u.streams, doe := u.doe, misc := u.misc, out := u.out })
    (hp : u.pods = State.reset.pods) (hd : u.misc.d3hot = false)
    (hr : ∀ o ∈ [rTick, rTick + 4, rAlign, rCfgStatus, rFunc fKeeper, rPlace], reg u o = reg t o) : Booted straps cause s u := by
  simp only [List.forall_mem_cons] at hr
  obtain ⟨hTick, hTickHi, hAlign, hStatus, hKeeper, hPlace, -⟩ := hr
  obtain ⟨hmem, hactive, hloaded, -, hports, htick, halign, hcause, hkeeper, hplace, hsecs, hns, hfuses, hpend, hceil, -⟩ := h
  refine ⟨fun a => ?_, ?_, ?_, hp, ?_, (reg64_congr hTick hTickHi).trans htick, ?_, (field_congr hStatus _ _).trans hcause,
    (field_congr hKeeper _ _).trans hkeeper, hPlace.trans hplace, ?_, ?_, ?_, ?_, ?_, hd⟩
  · rw [hf]; exact hmem a
  · rw [hf]; exact hactive
  · rw [hf]; exact hloaded
  · rw [hf]; exact hports
  · unfold aligned flag at halign ⊢; rw [hAlign]; exact halign
  · rw [hf]; exact hsecs
  · rw [hf]; exact hns
  · rw [hf]; exact hfuses
  · rw [hf]; exact hpend
  · rw [hf]; exact hceil

theorem booted_pods {straps : BitVec 16} {cause : Nat} {s t : State} (h : Booted straps cause s t) : t.pods = State.reset.pods := by
  obtain ⟨-, -, -, hpods, -⟩ := h
  exact hpods

theorem booted_d3hot {straps : BitVec 16} {cause : Nat} {s t : State} (h : Booted straps cause s t) : t.misc.d3hot = false := by
  obtain ⟨-, -, -, -, -, -, -, -, -, -, -, -, -, -, -, hd3hot⟩ := h
  exact hd3hot

/-- A cold reset boots (R380, R384): of the state before it, the fuses, the queue and THERMTRIP_N alone count. -/
theorem coldReset_booted {s s' : State} (straps : BitVec 16) {cause : Nat} (hc : cause < 16) (hfuses : s'.fuses = s.fuses)
    (hpend : s'.pending = s.pending) (htrip : s'.misc.thermtripLow = s.misc.thermtripLow) :
    Booted straps cause s (coldReset s' straps cause) := by
  obtain ⟨⟨n, f, h⟩, hkeeper, hcause, hplace⟩ := coldBoot_noted (coldStart s') straps cause
  have hreg (o : Nat) (h1 : o ∉ bootRegs) (h2 : o ∉ pbaRegs) (h0 : o ≠ 0) (h3 : o ≠ 0x3000000) (hs : isSticky o = false) :
      reg (coldBoot (coldStart s') straps cause) o = regDefault o := by
    rw [h.regs o h1 h2]
    exact (reg_bareReset s' isSticky h0 h3).trans (by rw [hs]; rfl)
  have hframe := h.frame
  show Booted straps cause s (coldBoot (coldStart s') straps cause)
  refine ⟨fun a => ?_, ?_, ?_, ?_, ?_, ?tick, ?aligned, hcause.trans (Nat.mod_eq_of_lt hc), hkeeper, hplace, ?_, ?_,
    ?fuses, ?pending, ?ceiling, ?_⟩
  case tick =>
    unfold tick reg64
    rw [hreg rTick (by decide) (by decide) (by decide) (by decide) (by decide),
      hreg (rTick + 4) (by decide) (by decide) (by decide) (by decide) (by decide)]
    decide
  case aligned =>
    unfold aligned flag
    rw [hreg rAlign (by decide) (by decide) (by decide) (by decide) (by decide)]
    decide
  case fuses =>
    rw [hframe]
    exact hfuses
  case pending =>
    rw [hframe]
    exact hpend
  case ceiling =>
    rw [hframe, ← htrip]
    rfl
  all_goals
    rw [hframe]
    rfl

/-- A cold reset keeps the W1CS registers but for the errors of the boot itself (R381, R413). -/
theorem reg_coldReset_sticky (s : State) (straps : BitVec 16) (cause : Nat) {o : Nat} (hs : isSticky o = true) (ho : o ∉ bootErrs) :
    reg (coldReset s straps cause) o = reg s o := by
  have apart : ∀ x ∈ bootShown ++ pbaRegs ++ [0, 0x3000000], isSticky x = false := by decide
  have hne {x : Nat} (hx : x ∈ bootShown ++ pbaRegs ++ [0, 0x3000000]) : o ≠ x := fun e => by
    rw [e, apart x hx] at hs
    cases hs
  obtain ⟨⟨n, f, h⟩, -⟩ := coldBoot_noted (coldStart s) straps cause
  have hboot : o ∉ bootRegs := by
    simp only [bootRegs, List.mem_append, not_or]
    exact ⟨ho, fun hx => hne (by simp [hx]) rfl⟩
  have hpba : o ∉ pbaRegs := fun hx => hne (by simp [hx]) rfl
  refine (h.regs o hboot hpba).trans ?_
  exact (reg_bareReset s isSticky (hne (by simp)) (hne (by simp))).trans (by rw [hs]; rfl)

/-! ## A cold reset by the host -/

/-- Idle Pods have no posts to discard. -/
theorem resetHost_pods {t : State} (h : t.pods = State.reset.pods) : (resetHost t).pods = State.reset.pods := by
  have hidle : ∀ i (hi : i < 64), t.pods[i] = Pod.reset := by
    rw [h]
    exact fun i hi => Vector.getElem_replicate hi
  have hvoid : ({ Pod.reset with posts := Pod.reset.posts.map (fun po => { po with void := true }) } : Pod) = Pod.reset := rfl
  apply Vector.ext
  intro i hi
  unfold resetHost modPods
  simp only [Vector.getElem_ofFn, vget, resetRange_pods, hidle, hvoid]
  exact (Vector.getElem_replicate hi).symm

theorem resetHost_regs (t : State) : (resetHost t).regs = (resetRange t 0x100000 0x110000).regs := rfl

theorem reg_resetHost_ne (t : State) {o : Nat} (h : o < 0x100000 ∨ 0x110000 ≤ o) : reg (resetHost t) o = reg t o := by
  rw [reg, resetHost_regs, ← reg, reg_resetRange_ne t h]

theorem resetHost_booted {straps : BitVec 16} {cause : Nat} {s t : State} (h : Booted straps cause s t) : Booted straps cause s (resetHost t) := by
  have apart : ∀ o ∈ [rTick, rTick + 4, rAlign, rCfgStatus, rFunc fKeeper, rPlace], o < 0x100000 := by decide
  exact booted_congr h rfl (resetHost_pods (booted_pods h)) rfl (fun o ho => reg_resetHost_ne t (Or.inl (apart o ho)))

theorem setFunc_pcie_booted {straps : BitVec 16} {cause : Nat} {s t : State} (h : Booted straps cause s t) :
    Booted straps cause s (setFunc t fPcie 1 0) := by
  have hn : Noted [rFunc fPcie] t (setFunc t fPcie 1 0) := setFunc_noted t _ _ _ (by decide)
  have hpods : (setFunc t fPcie 1 0).pods = t.pods := by rw [hn.frame]
  have hd3 : (setFunc t fPcie 1 0).misc.d3hot = t.misc.d3hot := by rw [hn.frame]
  refine booted_congr h ?_ (hpods.trans (booted_pods h)) (hd3.trans (booted_d3hot h)) ?_
  · exact hn.frame.trans (by rw [hn.frame])
  · have apart : ∀ o ∈ [rTick, rTick + 4, rAlign, rCfgStatus, rFunc fKeeper, rPlace], o ∉ [rFunc fPcie] ∧ o ∉ pbaRegs := by decide
    exact fun o ho => hn.regs o (apart o ho).1 (apart o ho).2

theorem pcieReset_booted {straps : BitVec 16} {cause : Nat} {s t : State} (h : Booted straps cause s t) : Booted straps cause s (pcieReset t) := by
  unfold pcieReset
  split
  · exact setFunc_pcie_booted (resetHost_booted h)
  · exact resetHost_booted h

/-- The W1CS registers lie in the ERR block. -/
theorem isSticky_bounds {o : Nat} (h : isSticky o = true) : 0x80000 ≤ o ∧ o < 0x100000 := by
  simp only [isSticky, Bool.or_eq_true, Bool.and_eq_true, decide_eq_true_eq] at h
  unfold rFaultState rFaultMore at h
  omega

/-- No register that a cold reset keeps belongs to the host's side. -/
theorem reg_pcieReset_sticky (t : State) {o : Nat} (hs : isSticky o = true) : reg (pcieReset t) o = reg t o := by
  obtain ⟨hlo, hhi⟩ := isSticky_bounds hs
  have hhost : reg (resetHost t) o = reg t o := reg_resetHost_ne t (Or.inl hhi)
  unfold pcieReset
  split
  · have hpba : o ∉ pbaRegs := by
      simp only [pbaRegs, rMsixPba, List.mem_cons, List.not_mem_nil, or_false]
      omega
    rw [reg_setFunc_ne _ _ _ _ (by unfold rFunc fPcie; omega) hpba, hhost]
  · exact hhost

/-! ## SYS_RST_N and CFG_RESET -/

theorem getF_or_low (v : Word) {m : Word} (hm : m.toNat < 2 ^ 16) : getF (v ||| m) 16 16 = getF v 16 16 := by
  unfold getF
  rw [BitVec.toNat_or, Nat.or_div_two_pow, Nat.div_eq_of_lt hm, Nat.or_zero]

/-- A write of CFG_RESET.COLD with its key: the cold reset, and the host's side with it. -/
theorem exec_cfgResetCold {v : Word} {straps : BitVec 16} {s : State} (hr : inReset s = false) (hk : getF v 16 16 = 0xC01D) :
    exec (.cfgResetCold v straps) s
      = .next (if func s fPcie = 2 then pcieReset (coldReset s straps 2) else coldReset s straps 2) := by
  have hkey : getF (v ||| 1) 16 16 = 0xC01D := (getF_or_low v (by decide)).trans hk
  have hcold : getB (v ||| 1) 0 = true := by simp [getB]
  show Host.Outcome.next (writeCfgReset s (v ||| 1) straps) = _
  unfold writeCfgReset
  rw [hkey, hr, hcold]
  rfl

/-- Without its key, or in reset, CFG_RESET takes nothing. -/
theorem writeCfgReset_refused {v m : Word} {straps : BitVec 16} {s : State} (hm : m.toNat < 2 ^ 16)
    (h : getF v 16 16 ≠ 0xC01D ∨ inReset s = true) :
    writeCfgReset s (v ||| m) straps = s := by
  unfold writeCfgReset
  rw [getF_or_low v hm, if_pos (by simpa using h)]

/-- The state once SYS_RST_N is high. -/
def rstHigh (s : State) : State := modMisc s (fun m => { m with sysRstLow := false })

theorem rstHigh_of_high {s : State} (h : s.misc.sysRstLow = false) : rstHigh s = s := by
  unfold rstHigh modMisc
  rw [← h]

/-- The rise of SYS_RST_N boots a device that is not under power-on reset. -/
theorem sysReset_of_powered {s : State} (straps : BitVec 16) (h : s.misc.porAsserted = false) : sysReset s straps = coldReset s straps 1 :=
  if_neg (by simp [h])

theorem sysReset_of_unpowered {s : State} (straps : BitVec 16) (h : s.misc.porAsserted = true) : sysReset s straps = s := if_pos h

/-- SYS_RST_N low for 1 µs, or low already. -/
theorem exec_sysRstN_long {n : Nat} {straps : BitVec 16} {s : State} (h : 1000 ≤ n ∨ s.misc.sysRstLow = true)
    (hpor : s.misc.porAsserted = false) :
    exec (.sysRstN n straps) s = .next (coldReset (rstHigh s) straps 1) :=
  (if_pos h).trans (congrArg _ (sysReset_of_powered straps (s := rstHigh s) hpor))

theorem exec_sysRstN_unpowered {n : Nat} {straps : BitVec 16} {s : State} (h : 1000 ≤ n ∨ s.misc.sysRstLow = true)
    (hpor : s.misc.porAsserted = true) :
    exec (.sysRstN n straps) s = .next (rstHigh s) :=
  (if_pos h).trans (congrArg _ (sysReset_of_unpowered straps (s := rstHigh s) hpor))

theorem exec_sysRstN_short {n : Nat} {straps : BitVec 16} {s : State} (hhigh : s.misc.sysRstLow = false) (h : n < 500) :
    exec (.sysRstN n straps) s = .next s := by
  have hlong : ¬ (1000 ≤ n ∨ s.misc.sysRstLow = true) := fun e => e.elim (by omega) (by simp [hhigh])
  exact ((if_neg hlong).trans (if_pos h)).trans (congrArg _ (rstHigh_of_high hhigh))

/-- A pulse between: a draw decides whether it resets (R453). -/
theorem exec_sysRstN_between {n : Nat} {straps : BitVec 16} {s : State} (hhigh : s.misc.sysRstLow = false) (h500 : 500 ≤ n) (h1000 : n < 1000) :
    exec (.sysRstN n straps) s = .next (if Config.shortResetSeen s.fresh then sysReset { s with fresh := s.fresh + 1 } straps
      else { s with fresh := s.fresh + 1 }) := by
  have hlong : ¬ (1000 ≤ n ∨ s.misc.sysRstLow = true) := fun e => e.elim (by omega) (by simp [hhigh])
  have hdraw : exec (.sysRstN n straps) s = .next (if Config.shortResetSeen (draw (rstHigh s)).1 then sysReset (draw (rstHigh s)).2 straps
      else (draw (rstHigh s)).2) := (if_neg hlong).trans (if_neg (by omega))
  rw [hdraw, rstHigh_of_high hhigh]
  rfl

end Sys2Proof.Machine

open Sys2Proof.Machine in
/-- Settles O8: each reset that takes place is the cold reset with its cause, and the others leave the state. -/
theorem coldResetsBoot : Obligations.ColdResetsBoot := by
  unfold Obligations.ColdResetsBoot
  refine ⟨?_, ?_, ?_, ?_, ?_, ?_⟩
  · intro n straps s _ hpor hlong
    exact ⟨_, exec_sysRstN_long hlong hpor, coldReset_booted straps (by decide) rfl rfl rfl, fun _ => reg_coldReset_sticky _ straps 1⟩
  · intro n straps s hpor hlong
    exact exec_sysRstN_unpowered (Or.inl hlong) hpor
  · intro n straps s hhigh hshort
    exact exec_sysRstN_short hhigh hshort
  · intro n straps s _ hreset h500 h1000
    obtain ⟨hpor, hhigh⟩ : s.misc.porAsserted = false ∧ s.misc.sysRstLow = false := by simpa [inReset] using hreset
    refine ⟨_, exec_sysRstN_between hhigh h500 h1000, ?_⟩
    split
    · exact Or.inr (sysReset_of_powered straps (s := { s with fresh := s.fresh + 1 }) hpor ▸ coldReset_booted straps (by decide) rfl rfl rfl)
    · exact Or.inl rfl
  · intro v straps s _ hreset hkey
    refine ⟨_, exec_cfgResetCold hreset hkey, ?_⟩
    have hboot : Sys2Proof.Claims.Booted straps 2 s (coldReset s straps 2) := coldReset_booted straps (by decide) rfl rfl rfl
    split
    · exact ⟨pcieReset_booted hboot, fun o hs ho => (reg_pcieReset_sticky _ hs).trans (reg_coldReset_sticky s straps 2 hs ho)⟩
    · exact ⟨hboot, fun o hs ho => reg_coldReset_sticky s straps 2 hs ho⟩
  · intro v straps s h
    exact congrArg _ (writeCfgReset_refused (by decide) h)
end

section
/-! A warm reset: what it restarts, and what it keeps (R381, R386). -/

namespace Sys2Proof.Machine

/-! ## What stands before the functions start -/

/-- The registers whose values a warm reset keeps. -/
def warmKept (s : State) (o : Nat) : Bool :=
  isSticky o || keptWarm o || namedBy (settingOffsets s) o || (s.clock.keeperHung && decide (o = rClkKeeper))

/-- The device laid bare but for the kept registers, of which three return to reset in part. -/
def warmBare (s : State) : State :=
  [rTimCtrl, rPstepReq, rFcountCtrl].foldl (fun t o => setReg t o (keptSetting o (reg t o))) (bareReset s (warmKept s))

/-- The same with what is no register kept. -/
def warmStart (s : State) : State :=
  { warmBare s with
    dport := s.dport, manifest := s.manifest
    time := { State.reset.time with secs := s.time.secs, ns32 := s.time.ns32, incr := reg (warmBare s) rTimIncr }
    power := { (warmBare s).power with regulators := s.power.regulators }
    misc := { (warmBare s).misc with d3hot := s.misc.d3hot }
    clock := { State.reset.clock with keeperHung := s.clock.keeperHung, refLost := s.clock.refLost } }

/-- The boot state of a warm reset, and the functions that start with it. -/
def warmBoot (s : State) (cause : Nat) : State :=
  let t := setFlag (setFlag (setField (warmStart s) rCfgStatus 20 4 cause) rCfgSelect 31 false) rDbgStatus 29 (flag s rDbgStatus 29)
  startFunctions (setKpllLock t (flag (warmStart s) rClkKeeper 29))

/-- The codes of the functions that test themselves. -/
def unitFuncs : List Nat := (upTo 12).map fRoot ++ (upTo 64).map fPod

/-- Every ROOT, POD and LINK function and MGMT, `s` being the state before the reset and `t` the state so far. -/
def warmUnits (s t : State) : State :=
  let u := unitFuncs.foldl (restartUnit s) t
  let v := if limited u then (upTo 16).foldl (fun t p => setFunc t (fLink p) 4 0) u else u
  if flag v rClkGate 0 then v else setFunc v fMgmt 4 0

theorem warmReset_eq (s : State) (cause : Nat) : warmReset s cause =
    latchEpoch { warmUnits s (warmBoot s cause) with
      clock := { (warmUnits s (warmBoot s cause)).clock with
        podMhz := pstepClockMhz (warmUnits s (warmBoot s cause)) (pstepNow (warmUnits s (warmBoot s cause))) } } := rfl

/-- A register named by the settings is one that settings may write. -/
theorem namedBy_settingOffsets (s : State) {o : Nat} (ho : o < 0x1000000) (h : isSetting o = false) : namedBy (settingOffsets s) o = false := by
  have hmem : o ∉ settingOffsets s := by
    unfold settingOffsets
    split
    · simp
    · simp [h]
  simp only [namedBy, Bool.or_eq_false_iff, Bool.and_eq_false_iff, decide_eq_false_iff_not]
  exact ⟨by simpa using hmem, Or.inl (Or.inl (by omega))⟩

/-- A register before the functions start: kept or at its reset value. -/
theorem reg_warmStart (s : State) {o : Nat} (h : o ∉ [0, 0x3000000, rTimCtrl, rPstepReq, rFcountCtrl]) :
    reg (warmStart s) o = if warmKept s o then reg s o else regDefault o := by
  simp only [List.mem_cons, List.not_mem_nil, or_false, not_or] at h
  obtain ⟨h0, h3, hTim, hPstep, hFcount⟩ := h
  have hbare : reg (warmStart s) o = reg (warmBare s) o := rfl
  rw [hbare, warmBare, List.foldl_cons, List.foldl_cons, List.foldl_cons, List.foldl_nil, reg_setReg_ne _ _ (Ne.symm hFcount),
    reg_setReg_ne _ _ (Ne.symm hPstep), reg_setReg_ne _ _ (Ne.symm hTim), reg_bareReset s _ h0 h3]

theorem reg_warmStart_kept (s : State) {o : Nat} (h : o ∉ [0, 0x3000000, rTimCtrl, rPstepReq, rFcountCtrl])
    (hk : isSticky o = true ∨ keptWarm o = true) :
    reg (warmStart s) o = reg s o := by
  rw [reg_warmStart s h, if_pos]
  rcases hk with hk | hk <;> simp [warmKept, hk]

/-- SYNCED and the other bits of TIM_CTRL clear. -/
theorem reg_warmStart_timCtrl (s : State) : reg (warmStart s) rTimCtrl = 0 := by
  have hbare : reg (warmStart s) rTimCtrl = reg (warmBare s) rTimCtrl := rfl
  rw [hbare, warmBare, List.foldl_cons, List.foldl_cons, List.foldl_cons, List.foldl_nil, reg_setReg_ne _ _ (by decide),
    reg_setReg_ne _ _ (by decide), reg_setReg]
  rfl

/-! ## The functions -/

/-- The registers of the boot state that a warm reset writes, and the functions that start with it. -/
def warmBootRegs : List Nat := [rCfgStatus, rCfgSelect, rDbgStatus, rClkStatus, rClkKeeper, rFunc fKeeper, rFunc fPcie]

/-- The readiness registers of the other functions. -/
def unitRegs : List Nat := (unitFuncs ++ (upTo 16).map fLink ++ [fMgmt]).map rFunc

/-- TICK_EPOCH and its time. -/
def epochRegs : List Nat := [rEpochTick, rEpochTick + 4, rEpochNs, rEpochNs + 4, rEpochNs + 8, rEpochNs + 12]

theorem restartUnit_noted (s t : State) (f : Nat) : Noted [rFunc f] t (restartUnit s t f) := by
  have h (st d : Nat) : Noted [rFunc f] t (setFunc t f st d) := setFunc_noted t f st d List.mem_cons_self
  unfold restartUnit
  split
  · exact h _ _
  · split
    · exact h _ _
    · exact h _ _

/-- Out of limited mode a function that has failed stays FAILED, and every other one starts. -/
theorem func_restartUnit {s t : State} {f : Nat} (hf : f < 0x100) (hl : limited t = false) :
    func (restartUnit s t f) f = if func s f = 3 then 3 else 1 := by
  unfold restartUnit
  rw [hl, if_neg Bool.false_ne_true]
  split
  · exact func_setFunc t f 3 _ hf (by decide)
  · exact func_setFunc t f 1 _ hf (by decide)

theorem limited_congr {s t : State} (h : reg t rCfgStatus = reg s rCfgStatus) : limited t = limited s := by
  unfold limited flag
  rw [h]

theorem restartUnits_noted (s t : State) (l : List Nat) : Noted (l.map rFunc) t (l.foldl (restartUnit s) t) :=
  Noted.foldl l t (fun u f hf => (restartUnit_noted s u f).mono (by simpa using ⟨f, hf, rfl⟩))

theorem func_foldl_restartUnit {s : State} {l : List Nat} (hn : l.Nodup) (hl : ∀ f ∈ l, 2 ≤ f ∧ f < 0x100) {t : State}
    (ht : limited t = false) :
    ∀ f ∈ l, func (l.foldl (restartUnit s) t) f = if func s f = 3 then 3 else 1 := by
  induction l generalizing t with
  | nil => simp
  | cons a l ih =>
    obtain ⟨ha, hn⟩ := List.nodup_cons.mp hn
    have ⟨hlo, hhi⟩ := hl a List.mem_cons_self
    intro f hf
    rcases List.mem_cons.mp hf with rfl | hf
    · have hkeep : reg (l.foldl (restartUnit s) (restartUnit s t f)) (rFunc f) = reg (restartUnit s t f) (rFunc f) := by
        refine (restartUnits_noted s _ l).regs _ ?_ (pba_ne_func f hhi)
        simp only [List.mem_map, rFunc, not_exists, not_and]
        intro g hg e
        exact ha ((show g = f by omega) ▸ hg)
      exact (field_congr hkeep 0 3).trans (func_restartUnit hhi ht)
    · have hstatus : reg (restartUnit s t a) rCfgStatus = reg t rCfgStatus := by
        refine (restartUnit_noted s t a).regs _ ?_ (by decide)
        simp only [List.mem_singleton, rFunc, rCfgStatus]
        omega
      exact ih hn (fun g hg => hl g (List.mem_cons_of_mem a hg)) ((limited_congr hstatus).trans ht) f hf

theorem unitFuncs_bounds : ∀ f ∈ unitFuncs, 2 ≤ f ∧ f < 0x60 := by
  simp only [unitFuncs, List.mem_append, List.mem_map, upTo, List.mem_range, fRoot, fPod]
  rintro f (⟨k, hk, rfl⟩ | ⟨p, hp, rfl⟩)
  · omega
  · omega

theorem unitFuncs_nodup : unitFuncs.Nodup := by
  unfold unitFuncs upTo
  refine List.Nodup.append (List.nodup_range.map ?_) (List.nodup_range.map ?_) ?_
  · exact fun a b h => Nat.add_left_cancel h
  · exact fun a b h => Nat.add_left_cancel h
  · intro f hr hp
    simp only [List.mem_map, List.mem_range, fRoot, fPod] at hr hp
    omega

theorem unitRegs_bounds : ∀ o ∈ unitRegs, 0x408 ≤ o ∧ o < 0x600 := by
  simp only [unitRegs, List.mem_map, List.mem_append, List.mem_singleton, upTo, List.mem_range, fLink, fMgmt, rFunc]
  rintro o ⟨f, (hf | ⟨p, hp, rfl⟩) | rfl, rfl⟩
  · have := unitFuncs_bounds f hf
    omega
  · omega
  · omega

theorem warmUnits_noted (s t : State) : Noted unitRegs t (warmUnits s t) := by
  have hunits : Noted unitRegs t (unitFuncs.foldl (restartUnit s) t) :=
    (restartUnits_noted s t unitFuncs).mono (List.map_subset _ (by simp))
  have hlinks (u : State) : Noted unitRegs u ((upTo 16).foldl (fun t p => setFunc t (fLink p) 4 0) u) :=
    Noted.foldl _ u (fun u p hp => setFunc_noted u _ _ _
      (List.mem_map_of_mem (List.mem_append_left _ (List.mem_append_right _ (List.mem_map_of_mem hp)))))
  have hmgmt (u : State) : Noted unitRegs u (setFunc u fMgmt 4 0) := setFunc_noted u _ _ _ (List.mem_map_of_mem (by simp))
  unfold warmUnits
  dsimp only
  split
  · split
    · exact hunits.trans (hlinks _)
    · exact (hunits.trans (hlinks _)).trans (hmgmt _)
  · split
    · exact hunits
    · exact hunits.trans (hmgmt _)

/-- Links and MGMT are none of the units, so a unit is as its restart leaves it. -/
theorem func_warmUnits {s t : State} (hl : limited t = false) {f : Nat} (hf : f ∈ unitFuncs) :
    func (warmUnits s t) f = if func s f = 3 then 3 else 1 := by
  have hb := unitFuncs_bounds f hf
  have hcodes : ∀ g ∈ unitFuncs, 2 ≤ g ∧ g < 0x100 := fun g hg => by
    have := unitFuncs_bounds g hg
    omega
  have hunit := func_foldl_restartUnit (s := s) unitFuncs_nodup hcodes hl f hf
  have hlimited : limited (unitFuncs.foldl (restartUnit s) t) = false := by
    refine (limited_congr ((restartUnits_noted s t unitFuncs).regs _ ?_ (by decide))).trans hl
    simp only [List.mem_map, rFunc, rCfgStatus, not_exists, not_and]
    intro g hg e
    have := unitFuncs_bounds g hg
    omega
  unfold warmUnits
  dsimp only
  rw [hlimited, if_neg Bool.false_ne_true]
  split
  · exact hunit
  · refine (field_congr (reg_setFunc_ne _ _ _ _ ?_ (pba_ne_func f (by omega))) 0 3).trans hunit
    unfold rFunc fMgmt
    omega

theorem warmBoot_noted (s : State) (cause : Nat) : Noted warmBootRegs (warmStart s) (warmBoot s cause) := by
  unfold warmBoot setKpllLock
  exact (((((setField_noted _ _ _ _ (by decide)).trans (setFlag_noted _ _ _ (by decide))).trans (setFlag_noted _ _ _ (by decide))).trans
    (setFlag_noted _ _ _ (by decide))).trans (setFlag_noted _ _ _ (by decide))).trans ((startFunctions_noted _).mono (by decide))

/-- CFG_STATUS has the new cause, and its other fields stay. -/
theorem reg_warmBoot_cfgStatus (s : State) (cause : Nat) : reg (warmBoot s cause) rCfgStatus = setF (reg s rCfgStatus) 20 4 cause := by
  unfold warmBoot setKpllLock
  rw [(startFunctions_noted _).regs _ (by decide) (by decide), reg_setFlag_ne _ _ _ (by decide), reg_setFlag_ne _ _ _ (by decide),
    reg_setFlag_ne _ _ _ (by decide), reg_setFlag_ne _ _ _ (by decide), reg_setField, reg_warmStart_kept s (by decide) (Or.inr (by decide))]

theorem flag_warmBoot_dbgUsed (s : State) (cause : Nat) : flag (warmBoot s cause) rDbgStatus 29 = flag s rDbgStatus 29 := by
  unfold warmBoot setKpllLock
  rw [flag, (startFunctions_noted _).regs _ (by decide) (by decide), reg_setFlag_ne _ _ _ (by decide), reg_setFlag_ne _ _ _ (by decide),
    ← flag, flag_setFlag _ _ _ _ (by decide)]

theorem limited_warmBoot (s : State) (cause : Nat) : limited (warmBoot s cause) = limited s := by
  unfold limited flag getB
  rw [reg_warmBoot_cfgStatus, getLsbD_setF_ne _ _ _ _ _ (by decide)]

/-! ## The whole reset -/

theorem latchEpoch_noted (s : State) : Noted epochRegs s (latchEpoch s) := by
  unfold latchEpoch setReg64
  exact ((((((setReg_noted _ _ (by decide)).trans (setReg_noted _ _ (by decide))).trans (setReg_noted _ _ (by decide))).trans
    (setReg_noted _ _ (by decide))).trans (setReg_noted _ _ (by decide))).trans (setReg_noted _ _ (by decide)))

/-- The clock apart, the reset changes registers alone after the functions start. -/
theorem warmReset_frame (s : State) (cause : Nat) : ∃ k, warmReset s cause = { warmStart s with
    regs := (warmReset s cause).regs, streams := (warmReset s cause).streams, out := (warmReset s cause).out, clock := k
    misc := { (warmStart s).misc with eventCount := (warmReset s cause).misc.eventCount } } := by
  rw [warmReset_eq]
  set k := pstepClockMhz (warmUnits s (warmBoot s cause)) (pstepNow (warmUnits s (warmBoot s cause)))
  have hboot := (warmBoot_noted s cause).frame
  have hunits := (warmUnits_noted s (warmBoot s cause)).frame
  have hepoch := (latchEpoch_noted { warmUnits s (warmBoot s cause) with clock := { (warmUnits s (warmBoot s cause)).clock with podMhz := k } }).frame
  exact ⟨_, by rw [hepoch, hunits, hboot]⟩

theorem reg_warmReset_units (s : State) (cause : Nat) {o : Nat} (h : o ∉ epochRegs) (hp : o ∉ pbaRegs) :
    reg (warmReset s cause) o = reg (warmUnits s (warmBoot s cause)) o := by
  rw [warmReset_eq, (latchEpoch_noted _).regs o h hp]
  rfl

theorem reg_warmReset_boot (s : State) (cause : Nat) {o : Nat} (h : o ∉ epochRegs) (hp : o ∉ pbaRegs) (hu : o ∉ unitRegs) :
    reg (warmReset s cause) o = reg (warmBoot s cause) o :=
  (reg_warmReset_units s cause h hp).trans ((warmUnits_noted _ _).regs o hu hp)

/-- What a warm reset leaves of a register that it writes in no other way. -/
theorem reg_warmReset (s : State) (cause : Nat) {o : Nat} (h : o ∉ epochRegs) (hp : o ∉ pbaRegs) (hu : o ∉ unitRegs) (hb : o ∉ warmBootRegs) :
    reg (warmReset s cause) o = reg (warmStart s) o :=
  (reg_warmReset_boot s cause h hp hu).trans ((warmBoot_noted s cause).regs o hb hp)

/-- Registers that are neither kept nor named by settings are at their reset value. -/
theorem reg_warmStart_reset (s : State) {o : Nat} (h : o ∉ [0, 0x3000000, rTimCtrl, rPstepReq, rFcountCtrl]) (hlt : o < 0x1000000)
    (hs : isSticky o = false) (hk : keptWarm o = false) (hset : isSetting o = false) (hc : o ≠ rClkKeeper) :
    reg (warmStart s) o = regDefault o := by
  rw [reg_warmStart s h, if_neg]
  simp [warmKept, hs, hk, namedBy_settingOffsets s hlt hset, hc]

/-- The registers that a warm reset writes or returns to reset in part. -/
def warmWritten : List Nat := [0, 0x3000000, rTimCtrl, rPstepReq, rFcountCtrl] ++ warmBootRegs ++ epochRegs ++ pbaRegs

/-- Registers kept through a warm reset that it does not write. -/
theorem reg_warmReset_kept (s : State) (cause : Nat) {o : Nat} (hw : o ∉ warmWritten) (hu : o ∉ unitRegs)
    (hk : isSticky o = true ∨ keptWarm o = true) : reg (warmReset s cause) o = reg s o := by
  simp only [warmWritten, List.mem_append, not_or] at hw
  obtain ⟨⟨⟨hstart, hboot⟩, hepoch⟩, hpba⟩ := hw
  rw [reg_warmReset s cause hepoch hpba hu hboot, reg_warmStart_kept s hstart hk]

theorem not_mem_unitRegs {o : Nat} (h : o < 0x408 ∨ 0x600 ≤ o) : o ∉ unitRegs := fun hu => by
  have := unitRegs_bounds o hu
  omega

theorem keptWarm_of_lockable {o : Nat} (h : isLockable o = true) : keptWarm o = true := by
  simp [keptWarm, h]

theorem isLockable_bounds {o : Nat} (h : isLockable o = true) : 0x600 ≤ o := by
  simp only [isLockable, Bool.or_eq_true, Bool.and_eq_true, decide_eq_true_eq] at h
  unfold rHoldCtrl rRootCtrl rLinkCfg rClkNoc rDroop rRepro at h
  omega

/-- Every W1CS and every lockable register keeps its value. -/
theorem reg_warmReset_sticky_or_lockable (s : State) (cause : Nat) {o : Nat} (h : isSticky o = true ∨ isLockable o = true) :
    reg (warmReset s cause) o = reg s o := by
  have apart : ∀ x ∈ warmWritten, isSticky x = false ∧ isLockable x = false := by decide
  have hw : o ∉ warmWritten := fun hx => by
    obtain ⟨hs, hl⟩ := apart o hx
    simp [hs, hl] at h
  have hu : o ∉ unitRegs := by
    refine not_mem_unitRegs (Or.inr ?_)
    rcases h with h | h
    · have := isSticky_bounds h
      omega
    · exact isLockable_bounds h
  exact reg_warmReset_kept s cause hw hu (h.imp_right keptWarm_of_lockable)

theorem manifestDigest_warmReset (s : State) (cause : Nat) : manifestDigest (warmReset s cause) = manifestDigest s := by
  have hdigest : ∀ n ∈ upTo 8, rManifestDigest + 4 * n ∉ warmWritten
      ∧ rManifestDigest + 4 * n < 0x408 ∧ keptWarm (rManifestDigest + 4 * n) = true := by
    decide
  unfold manifestDigest getDigest
  refine List.flatMap_congr (fun n hn => ?_)
  obtain ⟨hw, hu, hk⟩ := hdigest n hn
  rw [reg_warmReset_kept s cause hw (not_mem_unitRegs (Or.inl hu)) (Or.inr hk)]

/-- TICK_COUNT and DEV_ALIGN are zero. -/
theorem reg_warmReset_cleared (s : State) (cause : Nat) : ∀ o ∈ [rTick, rTick + 4, rAlign], reg (warmReset s cause) o = 0 := by
  have hall : ∀ o ∈ [rTick, rTick + 4, rAlign], o ∉ warmWritten ∧ (o < 0x408 ∨ 0x600 ≤ o) ∧ o < 0x1000000 ∧ isSticky o = false
      ∧ keptWarm o = false ∧ isSetting o = false ∧ o ≠ rClkKeeper ∧ regDefault o = 0 := by decide
  intro o ho
  obtain ⟨hw, hu, hlt, hs, hk, hset, hc, hdefault⟩ := hall o ho
  simp only [warmWritten, List.mem_append, not_or] at hw
  obtain ⟨⟨⟨hstart, hboot⟩, hepoch⟩, hpba⟩ := hw
  rw [reg_warmReset s cause hepoch hpba (not_mem_unitRegs hu) hboot, reg_warmStart_reset s hstart hlt hs hk hset hc, hdefault]

theorem tick_warmReset (s : State) (cause : Nat) : tick (warmReset s cause) = 0 := by
  unfold tick reg64
  rw [reg_warmReset_cleared s cause rTick (by simp), reg_warmReset_cleared s cause (rTick + 4) (by simp)]
  rfl

theorem aligned_warmReset (s : State) (cause : Nat) : aligned (warmReset s cause) = false := by
  unfold aligned flag
  rw [reg_warmReset_cleared s cause rAlign (by simp)]
  rfl

theorem func_warmReset_keeper (s : State) (cause : Nat) : func (warmReset s cause) fKeeper = 1 := by
  have h : reg (warmReset s cause) (rFunc fKeeper) = reg (warmBoot s cause) (rFunc fKeeper) :=
    reg_warmReset_boot s cause (by decide) (by decide) (not_mem_unitRegs (by decide))
  exact (field_congr h 0 3).trans (func_startFunctions _)

/-- Out of limited mode a ROOT or POD function that has failed stays FAILED, and the others start. -/
theorem func_warmReset_unit (s : State) (cause : Nat) (hl : limited s = false) {f : Nat} (hf : f ∈ unitFuncs) :
    func (warmReset s cause) f = if func s f = 3 then 3 else 1 := by
  have hb := unitFuncs_bounds f hf
  have hepoch : ∀ o ∈ epochRegs, 0x600 ≤ o := by decide
  have h : reg (warmReset s cause) (rFunc f) = reg (warmUnits s (warmBoot s cause)) (rFunc f) := by
    refine reg_warmReset_units s cause (fun he => ?_) (pba_ne_func f (by omega))
    have := hepoch _ he
    unfold rFunc at this
    omega
  exact (field_congr h 0 3).trans (func_warmUnits ((limited_warmBoot s cause).trans hl) hf)

theorem cause_warmReset (s : State) (cause : Nat) : field (warmReset s cause) rCfgStatus 20 4 = cause % 2 ^ 4 := by
  have h : reg (warmReset s cause) rCfgStatus = reg (warmBoot s cause) rCfgStatus :=
    reg_warmReset_boot s cause (by decide) (by decide) (not_mem_unitRegs (by decide))
  unfold field
  rw [h, reg_warmBoot_cfgStatus, getF_setF _ _ _ _ (by decide)]

theorem synced_warmReset (s : State) (cause : Nat) : flag (warmReset s cause) rTimCtrl 2 = false := by
  unfold flag
  rw [reg_warmReset s cause (by decide) (by decide) (not_mem_unitRegs (by decide)) (by decide), reg_warmStart_timCtrl]
  rfl

theorem dbgUsed_warmReset (s : State) (cause : Nat) : flag (warmReset s cause) rDbgStatus 29 = flag s rDbgStatus 29 := by
  have h : reg (warmReset s cause) rDbgStatus = reg (warmBoot s cause) rDbgStatus :=
    reg_warmReset_boot s cause (by decide) (by decide) (not_mem_unitRegs (by decide))
  unfold flag
  rw [h]
  exact flag_warmBoot_dbgUsed s cause

/-- A write of CFG_RESET.WARM with its key and without COLD. -/
theorem exec_cfgResetWarm {v : Word} {s : State} (hr : inReset s = false) (hk : getF v 16 16 = 0xC01D) (hcold : getB v 0 = false) :
    exec (.cfgResetWarm v) s = .next (warmReset s 3) := by
  have hkey : getF (v ||| 2) 16 16 = 0xC01D := (getF_or_low v (by decide)).trans hk
  have hcold' : getB (v ||| 2) 0 = false := by simpa [getB] using hcold
  have hwarm : getB (v ||| 2) 1 = true := by simp [getB]
  show Host.Outcome.next (writeCfgReset s (v ||| 2) (lastStraps s)) = _
  unfold writeCfgReset
  rw [hkey, hr, hcold', hwarm]
  rfl

end Sys2Proof.Machine

open Sys2Proof Sys2Proof.Machine

/-- Settles O9: what is no register follows from the frame of the reset, and each register is kept, cleared or written by it. -/
theorem warmResetKeepsWhatItMust : Obligations.WarmResetKeepsWhatItMust := by
  unfold Obligations.WarmResetKeepsWhatItMust
  refine ⟨fun v s _ hr hk hcold => ⟨_, exec_cfgResetWarm hr hk hcold, ?_⟩, fun v s h => congrArg _ (writeCfgReset_refused (by decide) h)⟩
  have kept {o : Nat} (hw : o ∉ warmWritten) (hu : o < 0x408) (hkept : keptWarm o = true) : reg (warmReset s 3) o = reg s o :=
    reg_warmReset_kept s 3 hw (not_mem_unitRegs (Or.inl hu)) (Or.inr hkept)
  have units {f : Nat} (hl : limited s = false) (hf : f ∈ unitFuncs) := func_warmReset_unit s 3 hl hf
  obtain ⟨k, hframe⟩ := warmReset_frame s 3
  refine ⟨fun a => ?_, ?_, ?_, ?_, ?_, tick_warmReset s 3, aligned_warmReset s 3, cause_warmReset s 3, func_warmReset_keeper s 3,
    kept (by decide) (by decide) (by decide), kept (by decide) (by decide) (by decide), manifestDigest_warmReset s 3, ?_,
    fun o => reg_warmReset_sticky_or_lockable s 3,
    fun hl => ⟨fun p => units hl (List.mem_append_right _ (List.mem_map_of_mem (List.mem_range.mpr p.isLt))),
      fun k => units hl (List.mem_append_left _ (List.mem_map_of_mem (List.mem_range.mpr k.isLt)))⟩,
    ?_, ?_, synced_warmReset s 3, ?_, ?_, dbgUsed_warmReset s 3, ?_, ?_⟩
  all_goals
    rw [hframe]
    rfl
end

section
/-! Writes of registers: their sizes and agents, the access codes, and the registers with rules of their own (R11, R415, R436 to R443). -/

namespace Sys2Proof.Machine

/-! ## Sizes and agents -/

theorem exec_registerWrite (a : Agent) (o : BitVec 26) (n : Nat) (v : Word64) (s : State) :
    exec (.registerWrite a o n v) s = .next (if agentReaches s a then writeAccess s a o.toNat n v else s) := rfl

/-- An agent that does not reach the registers writes nothing. -/
theorem exec_registerWrite_unreached {a : Agent} {s : State} (h : agentReaches s a = false) (o : BitVec 26) (n : Nat) (v : Word64) :
    exec (.registerWrite a o n v) s = .next s := by
  rw [exec_registerWrite, h]
  rfl

theorem exec_registerWrite_reached {a : Agent} {s : State} (h : agentReaches s a = true) (o : BitVec 26) (n : Nat) (v : Word64) :
    exec (.registerWrite a o n v) s = .next (writeAccess s a o.toNat n v) := by
  rw [exec_registerWrite, h]
  rfl

theorem writeAccess_word (s : State) (a : Agent) {o : Nat} (v : Word64) (h : o % 4 = 0) : writeAccess s a o 4 v = writeReg s a o (v.setWidth 32) :=
  if_pos ⟨rfl, h⟩

/-- Eight bytes are two writes in ascending order (R438). -/
theorem writeAccess_pair (s : State) (a : Agent) {o : Nat} (v : Word64) (h : o % 8 = 0) :
    writeAccess s a o 8 v = writeAccess (writeAccess s a o 4 v) a (o + 4) 4 (v >>> 32) := by
  rw [writeAccess_word _ _ _ (by omega), writeAccess_word _ _ _ (by omega)]
  exact (if_neg (by omega)).trans (if_pos ⟨rfl, h⟩)

/-- Every other write is dropped. -/
theorem writeAccess_dropped (s : State) (a : Agent) {o n : Nat} (v : Word64) (h4 : ¬ (n = 4 ∧ o % 4 = 0)) (h8 : ¬ (n = 8 ∧ o % 8 = 0)) :
    writeAccess s a o n v = s :=
  (if_neg h4).trans (if_neg h8)

/-- In reset nothing has a clock. -/
theorem refRuns_of_inReset {s : State} (h : inReset s = true) : refRuns s = false := by
  simp [refRuns, h]

/-- An aligned write of four bytes, at an offset given as a number. -/
theorem exec_registerWrite_word {a : Agent} {s : State} {o : Nat} (hr : agentReaches s a = true) (h4 : o % 4 = 0) (ho : o < 2 ^ 26) (v : Word64) :
    exec (.registerWrite a (BitVec.ofNat 26 o) 4 v) s = .next (writeReg s a o (v.setWidth 32)) := by
  rw [exec_registerWrite_reached hr, BitVec.toNat_ofNat, Nat.mod_eq_of_lt ho, writeAccess_word s a v h4]

/-! ## Which block a write reaches -/

theorem writeReg_lockable (s : State) {a : Agent} (ha : ∀ p, a ≠ .pod p) {o : Nat} (v : Word) (hg : gatedOff s o = false)
    (hl : isLockable o = true) :
    writeReg s a o v = if a ≠ .host && !committed s then writeLockable s o v else s := by
  cases a with
  | pod p => exact absurd rfl (ha p)
  | host | keeper | debug => simp [writeReg, hg, hl]

/-- A gated register takes nothing (R441). -/
theorem writeReg_gated (s : State) {a : Agent} (ha : ∀ p, a ≠ .pod p) {o : Nat} (v : Word) (hg : gatedOff s o = true) : writeReg s a o v = s := by
  cases a with
  | pod p => exact absurd rfl (ha p)
  | host | keeper | debug => simp [writeReg, hg]

/-- Of a lockable register a Pod, the host, and every agent after the commit write nothing (R384, R442). -/
theorem writeReg_locked (s : State) {a : Agent} {o : Nat} (v : Word) (hl : isLockable o = true)
    (h : a = .host ∨ (∃ p, a = .pod p) ∨ committed s = true) (ho : o < 0x1000000 ∨ 0x1400000 ≤ o) : writeReg s a o v = s := by
  by_cases hpod : ∃ p, a = .pod p
  · obtain ⟨p, rfl⟩ := hpod
    have hp := p.isLt
    exact if_neg (by omega)
  · have ha : ∀ p, a ≠ .pod p := fun p e => hpod ⟨p, e⟩
    have hno : ¬ (decide (a ≠ .host) && !committed s) = true := by
      rcases h with rfl | h | h
      · simp
      · exact absurd h hpod
      · simp [h]
    cases hg : gatedOff s o with
    | true => exact writeReg_gated s ha v hg
    | false => exact (writeReg_lockable s ha v hg hl).trans (if_neg hno)

theorem writeReg_host (s : State) {o : Nat} (v : Word) (hg : gatedOff s o = false) (hl : isLockable o = false) :
    writeReg s .host o v =
      if o < 0x80000 then writeSystem s o v
      else if o < 0x100000 then writeErrBlock s o v
      else if o < 0x200000 then writeHostBlock s o v
      else if o < 0x202000 then writeFabric s o v
      else if 0x1000000 ≤ o ∧ o < 0x1400000 then writePodReg s (toPod ((o - 0x1000000) / 0x10000)) false (o % 0x10000) v
      else s := by
  simp [writeReg, hg, hl]

/-! ## Access codes -/

/-- Writing what a register reads changes no reading. -/
theorem setReg_self (s : State) {o : Nat} {v : Word} (h : v = reg s o) : OnlyRegs [] s (setReg s o v) := by
  refine ⟨rfl, fun x _ _ => ?_⟩
  rw [reg_setReg_if]
  split
  next e => rw [h, e]
  next => rfl

theorem reg_writeMask (s : State) (o m : Nat) (v : Word) :
    reg (writeMask s o m v) o = (reg s o &&& ~~~ BitVec.ofNat 32 m) ||| (v &&& BitVec.ofNat 32 m) := reg_setReg s o _

theorem reg_clearMask (s : State) (o m : Nat) (v : Word) : reg (clearMask s o m v) o = reg s o &&& ~~~ (v &&& BitVec.ofNat 32 m) := reg_setReg s o _

theorem writeMask_only {l : List Nat} (s : State) {o : Nat} (m : Nat) (v : Word) (ho : o ∈ l) : OnlyRegs l s (writeMask s o m v) :=
  setReg_only s _ ho

theorem clearMask_only {l : List Nat} (s : State) {o : Nat} (m : Nat) (v : Word) (ho : o ∈ l) : OnlyRegs l s (clearMask s o m v) :=
  setReg_only s _ ho

/-- A register without writable bits. -/
theorem writeMask_none (s : State) (o : Nat) (v : Word) : OnlyRegs [] s (writeMask s o 0 v) := by
  have h : (reg s o &&& ~~~ BitVec.ofNat 32 0) ||| (v &&& BitVec.ofNat 32 0) = reg s o := by
    rw [BitVec.not_zero, BitVec.and_allOnes, BitVec.and_zero, BitVec.or_zero]
  exact setReg_self s h

theorem clearMask_none (s : State) (o : Nat) (v : Word) : OnlyRegs [] s (clearMask s o 0 v) := by
  have h : reg s o &&& ~~~ (v &&& BitVec.ofNat 32 0) = reg s o := by rw [BitVec.and_zero, BitVec.not_zero, BitVec.and_allOnes]
  exact setReg_self s h

/-- A register all of whose bits are writable. -/
theorem reg_writeMask_all (s : State) (o : Nat) (v : Word) : reg (writeMask s o 0xFFFFFFFF v) o = v := by
  have hall : BitVec.ofNat 32 0xFFFFFFFF = BitVec.allOnes 32 := rfl
  rw [reg_writeMask, hall, BitVec.not_allOnes, BitVec.and_zero, BitVec.zero_or, BitVec.and_allOnes]

/-- The registers of the blocks below ERR that have a rule of their own. -/
def systemRules : List Nat :=
  [rSnapCtrl, rClkKeeper, rClkGate, rClkRefout, rFcountCtrl, rPstepReq, rPwrCap, rPwrPrio, rTimIncr, rTimCtrl, rCfgSelect, rCfgReset,
    rCfgIdentity, rPair]

theorem writeSystem_plain (s : State) {o : Nat} (v : Word) (h : o ∉ systemRules) :
    writeSystem s o v = clearMask (writeMask s o (plainMask o) v) o (onesMask o) v := by
  simp only [systemRules, List.mem_cons, List.not_mem_nil, or_false, not_or] at h
  simp [writeSystem, h]

/-- Registers of the ERR block whose bits are no errors. -/
theorem writeErrBlock_plain (s : State) {o : Nat} (v : Word) (hp : o ≠ rErrPwr) (hc : o < 0x80800)
    (he : (upTo 19).any (fun b => (errRegs b).contains o) = false) :
    writeErrBlock s o v = writeMask s o (plainMask o) v := by
  unfold writeErrBlock
  rw [if_neg hp, if_neg (by omega), he]
  rfl

theorem writeFabric_plain (s : State) {o : Nat} (v : Word) (h : o ∉ [rPortMapLo, rPortMapHi]) (hp : o < 0x201000) :
    writeFabric s o v = clearMask s o (onesMask o) v := by
  simp only [List.mem_cons, List.not_mem_nil, or_false, not_or] at h
  unfold writeFabric
  rw [if_neg h.1, if_neg h.2, if_neg (by omega)]

/-! ## Registers that the host writes as they stand, and registers that nobody writes -/

/-- The registers of access RW that the host writes whole. -/
def plainRegs : List Nat := [rSnapAtLo, rSnapAtLo + 4, rSetNs, rTimOffset, rPtpLat, rPairCap, rRestart]

theorem writeReg_host_plain (s : State) {o : Nat} (v : Word) (hg : gatedOff s o = false) (ho : o ∈ plainRegs) :
    reg (writeReg s .host o v) o = v ∧ OnlyRegs [o] s (writeReg s .host o v) := by
  have hall : ∀ o ∈ plainRegs, o % 4 = 0 ∧ isLockable o = false ∧ plainMask o = 0xFFFFFFFF ∧ onesMask o = 0
      ∧ o ∉ systemRules ∧ o < 0x80800 ∧ o ≠ rErrPwr ∧ (upTo 19).any (fun b => (errRegs b).contains o) = false := by decide
  obtain ⟨h4, hl, hmask, hones, hrules, hcap, hpwr, herr⟩ := hall o ho
  have hmem : o ∈ [o] := List.mem_cons_self
  rw [writeReg_host s v hg hl]
  split
  · have hw := writeMask_only s 0xFFFFFFFF v hmem
    have hc := clearMask_none (writeMask s o 0xFFFFFFFF v) o v
    rw [writeSystem_plain s v hrules, hmask, hones]
    exact ⟨(hc.2 o h4 List.not_mem_nil).trans (reg_writeMask_all s o v), hw.trans ⟨hc.1, hc.2.mono (by simp)⟩⟩
  · rw [if_pos (by omega), writeErrBlock_plain s v hpwr hcap herr, hmask]
    exact ⟨reg_writeMask_all s o v, writeMask_only s _ v hmem⟩

/-- Registers without a writable bit, and a reserved offset. -/
def readOnlyRegs : List Nat := [rDevId, rTick, rStake, rReady, rWeaveState, rFaultStake, rCfgStatus, 0xBFFFFC]

theorem writeReg_host_readOnly (s : State) {o : Nat} (v : Word) (ho : o ∈ readOnlyRegs) : OnlyRegs [] s (writeReg s .host o v) := by
  have hall : ∀ o ∈ readOnlyRegs, isLockable o = false ∧ plainMask o = 0 ∧ onesMask o = 0
      ∧ o ∉ [rFcountCtrl, rFcount, rPtpCtrl, rPtpLat] ∧ o ∉ systemRules ∧ o ≠ rErrPwr ∧ (o < 0x100000 → o < 0x80800)
      ∧ (upTo 19).any (fun b => (errRegs b).contains o) = false ∧ (o < 0x100000 ∨ 0x200000 ≤ o)
      ∧ o ∉ [rPortMapLo, rPortMapHi] ∧ (o < 0x202000 → o < 0x201000) ∧ o < 0x1000000 := by decide
  obtain ⟨hl, hmask, hones, hgate, hrules, hpwr, hcap, herr, hhost, hmap, hport, hpod⟩ := hall o ho
  have hg : gatedOff s o = false := by
    simp only [List.mem_cons, List.not_mem_nil, or_false, not_or] at hgate
    simp [gatedOff, hgate]
  rw [writeReg_host s v hg hl]
  split
  · rw [writeSystem_plain s v hrules, hmask, hones]
    exact (writeMask_none s o v).trans (clearMask_none _ o v)
  · split
    next hlt =>
      rw [writeErrBlock_plain s v hpwr (hcap hlt) herr, hmask]
      exact writeMask_none s o v
    · rw [if_neg (by omega)]
      split
      next hlt =>
        rw [writeFabric_plain s v hmap (hport hlt), hones]
        exact clearMask_none s o v
      · rw [if_neg (by omega)]
        exact OnlyRegs.refl [] s

/-! ## DEV_SNAP_CTRL (R436) -/

theorem exec_devSnapArm (v : Word) (s : State) : exec (.devSnapArm v) s = .next (writeSnap s (v ||| 0x80000000)) := rfl

theorem exec_release (v : Word) (s : State) : exec (.release v) s = .next (writeSnap s (v ||| 0x40000000)) := rfl

/-- The state after LATE and HELD have been cleared as a write asks. -/
def snapCleared (s : State) (v : Word) : State :=
  let s1 := clearMask s rSnapCtrl 0x08000000 v
  if getB v 30 then setFlag s1 rSnapCtrl 28 false else s1

theorem snapCleared_only (s : State) (v : Word) : OnlyRegs [rSnapCtrl] s (snapCleared s v) := by
  have h : OnlyRegs [rSnapCtrl] s (clearMask s rSnapCtrl 0x08000000 v) := clearMask_only s _ v (by decide)
  unfold snapCleared
  dsimp only
  split
  · exact h.setReg _ (by decide)
  · exact h

/-- The stake that DEV_SNAP_AT names, and the present one, are as before. -/
theorem snapCleared_stakes (s : State) (v : Word) :
    reg64 (snapCleared s v) rSnapAtLo = reg64 s rSnapAtLo ∧ stakeNo (snapCleared s v) = stakeNo s := by
  have h := (snapCleared_only s v).2
  exact ⟨reg64_congr (h _ (by decide) (by decide)) (h _ (by decide) (by decide)),
    reg64_congr (h _ (by decide) (by decide)) (h _ (by decide) (by decide))⟩

theorem writeSnap_eq (s : State) (v : Word) : writeSnap s v =
    if !getB v 31 then snapCleared s v
    else if reg64 (snapCleared s v) rSnapAtLo < stakeNo (snapCleared s v) + 2 then setFlag (snapCleared s v) rSnapCtrl 27 true
    else setFlag (modMisc (snapCleared s v) (fun m => { m with snapStake := reg64 (snapCleared s v) rSnapAtLo })) rSnapCtrl 29 true := rfl

theorem writeSnap_idle (s : State) {v : Word} (h : getB v 31 = false) : writeSnap s v = snapCleared s v := by
  rw [writeSnap_eq, h]
  rfl

theorem writeSnap_late (s : State) {v : Word} (h : getB v 31 = true) (hl : reg64 s rSnapAtLo < stakeNo s + 2) :
    writeSnap s v = setFlag (snapCleared s v) rSnapCtrl 27 true := by
  obtain ⟨hat, hnow⟩ := snapCleared_stakes s v
  rw [writeSnap_eq, h, hat, hnow]
  exact (if_neg (by decide)).trans (if_pos hl)

theorem writeSnap_arms (s : State) {v : Word} (h : getB v 31 = true) (hl : stakeNo s + 2 ≤ reg64 s rSnapAtLo) :
    writeSnap s v = setFlag (modMisc (snapCleared s v) (fun m => { m with snapStake := reg64 s rSnapAtLo })) rSnapCtrl 29 true := by
  obtain ⟨hat, hnow⟩ := snapCleared_stakes s v
  rw [writeSnap_eq, h, hat, hnow]
  exact (if_neg (by decide)).trans (if_neg (by omega))

/-- Without RELEASE, HELD stays. -/
theorem flag_snapCleared_held (s : State) {v : Word} (h : getB v 30 = false) : flag (snapCleared s v) rSnapCtrl 28 = flag s rSnapCtrl 28 := by
  unfold snapCleared
  dsimp only
  rw [h, if_neg Bool.false_ne_true]
  unfold flag getB
  rw [reg_clearMask]
  simp

/-- RELEASE clears HELD. -/
theorem flag_snapCleared_released (s : State) {v : Word} (h : getB v 30 = true) : flag (snapCleared s v) rSnapCtrl 28 = false := by
  unfold snapCleared
  dsimp only
  rw [h, if_pos rfl]
  exact flag_setFlag _ _ _ _ (by decide)

/-- Arming changes the stake of the snapshot beside DEV_SNAP_CTRL. -/
theorem snapArmed_frame {s c : State} (h : OnlyRegs [rSnapCtrl] s c) (n : Nat) :
    (setFlag (modMisc c (fun m => { m with snapStake := n })) rSnapCtrl 29 true).misc = { s.misc with snapStake := n }
      ∧ OnlyRegs [rSnapCtrl] { s with misc := { s.misc with snapStake := n } }
          (setFlag (modMisc c (fun m => { m with snapStake := n })) rSnapCtrl 29 true) := by
  obtain ⟨hc, hregs⟩ := h
  generalize c.regs = r at hc
  subst hc
  exact ⟨rfl, rfl, RegsBut.setReg (l := [rSnapCtrl]) hregs _ (by decide)⟩

/-- A bit apart from the one written stays. -/
theorem flag_setFlag_ne (s : State) (o : Nat) {i j : Nat} (b : Bool) (h : i ≠ j) : flag (setFlag s o i b) o j = flag s o j := by
  unfold flag setFlag getB
  rw [reg_setField, getLsbD_setF_ne _ _ _ _ _ (by omega)]

/-! ## Captures (R415) -/

theorem regDefault_cap (g : Fin 19) : ∀ o ∈ capRegs g.val, regDefault o = 0 := by
  revert g
  decide

theorem mem_capRegs_iff {b o : Nat} (h4 : o % 4 = 0) : o ∈ capRegs b ↔ rCap b ≤ o ∧ o < rCap b + 0x20 := by
  simp only [capRegs, upTo, List.mem_map, List.mem_range]
  constructor
  · rintro ⟨i, hi, rfl⟩
    omega
  · intro h
    refine ⟨(o - rCap b) / 4, by omega, ?_⟩
    unfold rCap at h ⊢
    omega

/-- A record written with VALID is cleared. -/
theorem writeCap_clears (s : State) (g : Fin 19) {v : Word} (h : getB v 31 = true) :
    (∀ o ∈ capRegs g.val, reg (writeCap s g.val v) o = 0) ∧ OnlyRegs (capRegs g.val) s (writeCap s g.val v) := by
  have hw : writeCap s g.val v = resetRange s (rCap g.val) (rCap g.val + 0x20) := if_pos h
  rw [hw]
  refine ⟨fun o ho => ?_, rfl, fun o h4 ho => ?_⟩
  · have h4 : o % 4 = 0 := by
      simp only [capRegs, List.mem_map] at ho
      obtain ⟨i, -, rfl⟩ := ho
      unfold rCap
      omega
    rw [reg_resetRange s ((mem_capRegs_iff h4).mp ho), regDefault_cap g o ho]
  · rw [mem_capRegs_iff h4] at ho
    exact reg_resetRange_ne s (by omega)

/-! ## Pods: POD_EGRESS and POD_TE_CFG (R80, R341) -/

theorem modPod_podOnly (s : State) (p : PodId) (f : Pod → Pod) : Sys2Proof.Claims.PodOnly s (modPod s p f) p :=
  ⟨rfl, fun _ hq => pod_modPod_ne s f (Ne.symm hq)⟩

theorem writeEgress_posts (s : State) (p : PodId) (v : Word) :
    (pod (writeEgress s p v) p).posts = (pod s p).posts ++ postOf s p v := by
  unfold writeEgress
  rw [pod_modPod]

theorem exec_podTeCfgWrite (p : PodId) (v : Word) (s : State) : exec (.podTeCfgWrite p v) s = .next (writeTeCfg s p v) := rfl

/-- A write of POD_TE_CFG that waits for the engine. -/
def holdTeCfg (s : State) (p : PodId) (v : Word) : State := modPod s p (fun x => { x with te := { x.te with heldCfg := some v } })

theorem teBusy_holdTeCfg (s : State) (p : PodId) (v : Word) : teBusy (pod (holdTeCfg s p v) p) = teBusy (pod s p) := by
  unfold holdTeCfg
  rw [pod_modPod]
  rfl

theorem heldCfg_holdTeCfg (s : State) (p : PodId) (v : Word) : (pod (holdTeCfg s p v) p).te.heldCfg = some v := by
  unfold holdTeCfg
  rw [pod_modPod]

theorem writeTeCfg_busy {s : State} {p : PodId} (v : Word) (h : teBusy (pod s p) = true) : writeTeCfg s p v = holdTeCfg s p v := by
  show settleTeCfg (holdTeCfg s p v) p = _
  unfold settleTeCfg
  dsimp only
  rw [heldCfg_holdTeCfg, teBusy_holdTeCfg, h]
  rfl

theorem writeTeCfg_idle {s : State} {p : PodId} (v : Word) (h : teBusy (pod s p) = false) : writeTeCfg s p v =
    setReg (setPod (holdTeCfg s p v) p { pod (holdTeCfg s p v) p with te := { (pod (holdTeCfg s p v) p).te with heldCfg := none } })
      (rPod p.val 0x500) (v &&& 0x07FFFF01) := by
  show settleTeCfg (holdTeCfg s p v) p = _
  unfold settleTeCfg
  dsimp only
  rw [heldCfg_holdTeCfg, teBusy_holdTeCfg, h]
  rfl

/-- ROOT_CTRL before the commit: INTERVAL is at least a stake of refresh (R194). -/
theorem writeReg_rootCtrl (s : State) {a : Agent} (v : Word) (ha : a = .keeper ∨ a = .debug) (hc : committed s = false) :
    writeReg s a rRootCtrl v = setReg s rRootCtrl (BitVec.ofNat 32 (max 9216 (getF v 0 24))) := by
  have hg : gatedOff s rRootCtrl = false := by simp [gatedOff, rRootCtrl, rFcountCtrl, rFcount, rPtpCtrl, rPtpLat]
  have hlock : writeLockable s rRootCtrl v = setReg s rRootCtrl (BitVec.ofNat 32 (max 9216 (getF v 0 24))) := rfl
  rcases ha with rfl | rfl <;> rw [writeReg_lockable s (by simp) v hg (by decide), hc, hlock] <;> rfl

/-- Ones written to HOLD_CAUSE clear its bits. -/
theorem writeReg_holdCause (s : State) (v : Word) : writeReg s .host rHoldCause v = clearMask s rHoldCause 0xF v := by
  have hg : gatedOff s rHoldCause = false := by simp [gatedOff, rHoldCause, rFcountCtrl, rFcount, rPtpCtrl, rPtpLat]
  rw [writeReg_host s v hg (by decide)]
  exact writeFabric_plain s (o := rHoldCause) v (by decide) (by decide)

theorem getF_setWidth (v : Word64) {lo len : Nat} (h : lo + len ≤ 32) : getF (v.setWidth 32) lo len = getF v lo len := by
  unfold getF
  apply Nat.eq_of_testBit_eq
  intro i
  simp only [BitVec.toNat_setWidth, Nat.testBit_mod_two_pow, Nat.testBit_div_two_pow]
  by_cases hi : i < len
  · simp [hi]
    omega
  · simp [hi]

end Sys2Proof.Machine

open Sys2Proof Sys2Proof.Machine

/-- Settles O53: sizes and agents first, then each access code and each register with a rule of its own. -/
theorem registersAreWrittenByTheirRules : Obligations.RegistersAreWrittenByTheirRules := by
  unfold Obligations.RegistersAreWrittenByTheirRules
  refine ⟨?sizes, ?agents, ?pair, ?plain, ?readOnly, ?locked, ?beforeCommit, ?ones, ?arm, ?late, ?release, ?capture, ?egress, ?teIdle, ?teBusy⟩
  case sizes =>
    intro a o n v s
    by_cases h4 : n = 4 ∧ o.toNat % 4 = 0
    · exact Or.inl h4
    by_cases h8 : n = 8 ∧ o.toNat % 8 = 0
    · exact Or.inr (Or.inl h8)
    refine Or.inr (Or.inr ?_)
    rw [exec_registerWrite, writeAccess_dropped s a v h4 h8, ite_self]
  case agents =>
    intro o n v s
    refine ⟨fun h => exec_registerWrite_unreached (a := .host) h o n v,
      fun h => exec_registerWrite_unreached (a := .keeper) h o n v, fun h p => ?_⟩
    have hr : (!inReset s) = false := by rw [h]; rfl
    exact ⟨exec_registerWrite_unreached (a := .debug) hr o n v, exec_registerWrite_unreached (a := .pod p) hr o n v⟩
  case pair =>
    intro a o v s t h8 hlt ht hreach
    have ho : (o + 4).toNat = o.toNat + 4 := by
      rw [BitVec.toNat_add]
      exact Nat.mod_eq_of_lt hlt
    cases hr : agentReaches s a with
    | false =>
      rw [exec_registerWrite_unreached hr] at ht ⊢
      cases ht
      exact (exec_registerWrite_unreached hr _ _ _).symm
    | true =>
      rw [exec_registerWrite_reached hr] at ht ⊢
      cases ht
      rw [exec_registerWrite_reached (hreach.trans hr), ho, writeAccess_pair s a v h8]
  case plain =>
    intro v s _ o ho hg hr
    have hall : ∀ o ∈ plainRegs, o % 4 = 0 ∧ o < 2 ^ 26 := by decide
    obtain ⟨hreg, honly⟩ := writeReg_host_plain s (v.setWidth 32) hg ho
    exact ⟨_, exec_registerWrite_word (a := .host) hr (hall o ho).1 (hall o ho).2 v, hreg, honly⟩
  case readOnly =>
    intro v s o ho
    have hall : ∀ o ∈ readOnlyRegs, o % 4 = 0 ∧ o < 2 ^ 26 := by decide
    cases hr : pcieRuns s with
    | false => exact ⟨s, exec_registerWrite_unreached (a := .host) hr _ _ _, OnlyRegs.refl [] s⟩
    | true => exact ⟨_, exec_registerWrite_word (a := .host) hr (hall o ho).1 (hall o ho).2 v, writeReg_host_readOnly s _ ho⟩
  case locked =>
    intro a v s ha o ho
    have hall : ∀ o ∈ [rHoldCtrl, rRootCtrl, rLinkCfg, rClkNoc, rDroop, rRepro], o % 4 = 0 ∧ o < 2 ^ 26 ∧ isLockable o = true
        ∧ (o < 0x1000000 ∨ 0x1400000 ≤ o) := by decide
    obtain ⟨h4, hlt, hl, hpod⟩ := hall o ho
    cases hr : agentReaches s a with
    | false => exact exec_registerWrite_unreached hr _ _ _
    | true => rw [exec_registerWrite_word hr h4 hlt, writeReg_locked s _ hl ha hpod]
  case beforeCommit =>
    intro a v s _ ha hr hc
    refine ⟨_, (exec_registerWrite_word hr (by decide) (by decide) v).trans (congrArg _ (writeReg_rootCtrl s _ ha hc)), ?_,
      setReg_only s _ (by decide)⟩
    rw [reg_setReg, getF_setWidth v (by decide)]
  case ones =>
    intro v s _ hr
    exact ⟨_, (exec_registerWrite_word (a := .host) hr (by decide) (by decide) v).trans (congrArg _ (writeReg_holdCause s _)),
      reg_clearMask s _ _ _, clearMask_only s _ _ (by decide)⟩
  case arm =>
    intro v s _ hrel hat
    have harm : getB (v ||| 0x80000000) 31 = true := by simp [getB]
    have hrel' : getB (v ||| 0x80000000) 30 = false := by simpa [getB] using hrel
    obtain ⟨hmisc, honly⟩ := snapArmed_frame (snapCleared_only s (v ||| 0x80000000)) (reg64 s rSnapAtLo)
    exact ⟨_, (exec_devSnapArm v s).trans (congrArg _ (writeSnap_arms s harm hat)), flag_setFlag _ _ _ _ (by decide),
      (flag_setFlag_ne _ _ _ (by decide)).trans (flag_snapCleared_held s hrel'), hmisc, hmisc ▸ honly⟩
  case late =>
    intro v s _ hat
    have harm : getB (v ||| 0x80000000) 31 = true := by simp [getB]
    exact ⟨_, (exec_devSnapArm v s).trans (congrArg _ (writeSnap_late s harm hat)), flag_setFlag _ _ _ _ (by decide),
      (snapCleared_only s _).setReg _ (by decide)⟩
  case release =>
    intro v s _ harm
    have harm' : getB (v ||| 0x40000000) 31 = false := by simpa [getB] using harm
    have hrel : getB (v ||| 0x40000000) 30 = true := by simp [getB]
    exact ⟨_, (exec_release v s).trans (congrArg _ (writeSnap_idle s harm')), flag_snapCleared_released s hrel, snapCleared_only s _⟩
  case capture =>
    intro g v s _
    have hvalid : getB (v ||| 0x80000000) 31 = true := by simp [getB]
    exact ⟨_, rfl, writeCap_clears s g hvalid⟩
  case egress =>
    intro p v s
    exact ⟨_, rfl, writeEgress_posts s p v, modPod_podOnly s p _⟩
  case teIdle =>
    intro p v s _ h
    refine ⟨_, (exec_podTeCfgWrite p v s).trans (congrArg _ (writeTeCfg_idle v h)), reg_setReg _ _ _, ?_, ?_, fun a => memByte_congr ?_ a⟩
    · rw [pod_setReg, pod, setPod, vget_vput]
    · refine RegsBut.setReg (fun o _ _ => ?_) _ List.mem_cons_self
      rw [reg_setPod, holdTeCfg, reg_modPod]
    · rw [setReg_mem, setPod_mem, holdTeCfg, modPod_mem]
  case teBusy =>
    intro p v s h
    exact ⟨_, (exec_podTeCfgWrite p v s).trans (congrArg _ (writeTeCfg_busy v h)), heldCfg_holdTeCfg s p v, rfl, modPod_podOnly s p _⟩
end

section
/-! What the device holds at reset, and what an empty queue does: one tick of the reference. -/

namespace Sys2Proof.Machine

/-! ## The registers at reset -/

theorem reg_reset {o : Nat} (h0 : o ≠ 0) (h3 : o ≠ 0x3000000) : reg State.reset o = regDefault o := by
  rw [reg]
  show tabGet (regDefault o) [(0x0, 0x8240B000), (0x3000000, 0x80000000)] o = regDefault o
  simp only [tabGet, if_neg h0.symm, if_neg h3.symm]

theorem vget_replicate {α : Type} {n : Nat} (a : α) (i : Fin n) : vget (Vector.replicate n a) i = a := by
  simp [vget]

theorem pod_reset (p : PodId) : pod State.reset p = Pod.reset := vget_replicate ..

theorem pReg_reset (p : PodId) {o : Nat} (ho : o < 0x10000) : pReg State.reset p o = regDefault (rPod p o) :=
  reg_reset (by unfold rPod; omega) (by unfold rPod; omega)

/-- No rule of the register table names the control status or the code length of a Pod. -/
theorem regDefault_podControl (p : PodId) : regDefault (rPod p 0x100) = 0 ∧ regDefault (rPod p 0x108) = 0 := by
  revert p
  decide +kernel

theorem regDefault_portState (p : PortId) : regDefault (rPort p 0x04) = 0 := by
  revert p
  decide +kernel

theorem regDefault_streamStatus (i : StreamId) : regDefault (rStream i 0x34) = 0 := by
  revert i
  decide +kernel

theorem sReg_reset (i : BitVec 5) : sReg Pod.reset i = 0 := by
  unfold sReg
  split
  · rfl
  · exact vget_replicate ..

theorem lstate_reset (p : PortId) : lstate State.reset p = 0 := by
  rw [lstate, field, reg_reset (by unfold rPort; omega) (by unfold rPort; omega), regDefault_portState]
  rfl

theorem strmState_reset (i : StreamId) : strmState State.reset i = 0 := by
  rw [strmState, field, reg_reset (by unfold rStream; omega) (by unfold rStream; omega), regDefault_streamStatus]
  rfl

theorem podRunning_reset (p : PodId) : podRunning State.reset p = false := by
  rw [podRunning, pReg_reset p (by decide), (regDefault_podControl p).1]
  rfl

theorem hasCode_reset (p : PodId) : hasCode State.reset p = false := by
  rw [hasCode, pReg_reset p (by decide), (regDefault_podControl p).2]
  rfl

end Sys2Proof.Machine

/-- Settles O6: each register is one of the table of reset values, and each Pod, port and stream stands in its unit's reset state. -/
theorem resetValuesOfTheDevice : Obligations.ResetValuesOfTheDevice := by
  unfold Obligations.ResetValuesOfTheDevice
  open Sys2Proof.Machine in
  refine ⟨fun _ => rfl, rfl, rfl, rfl, fun p => ⟨podRunning_reset p, hasCode_reset p, ?_, ?_, ?_⟩, lstate_reset, strmState_reset,
    rfl, rfl, rfl, rfl, rfl, rfl, rfl, rfl, rfl, rfl, rfl, rfl, rfl, rfl, rfl, rfl⟩
  · rw [pod_reset]; exact sReg_reset
  · rw [pod_reset]; exact fun i => vget_replicate ..
  · rw [pod_reset]; rfl
end

section
namespace Sys2Proof.Machine

/-! ## One tick of the reference -/

theorem answerDoe_none {s : State} (h : s.doe.request = none) : answerDoe s = s := by
  unfold answerDoe
  rw [h]

/-- The Keeper's beat moves its own register and count alone. -/
theorem keeperTick_frame (s : State) : keeperTick s = { s with regs := (keeperTick s).regs, clock := (keeperTick s).clock }
    ∧ ∀ o, o ≠ rClkBeat → reg (keeperTick s) o = reg s o := by
  unfold keeperTick
  generalize s.clock.beatTicks + (if flag s rClkKeeper 0 then 5 else 1) = n
  by_cases hk : keeperRuns s = true
  · rw [if_pos hk]
    dsimp only
    split
    · exact ⟨rfl, fun o ho => tabGet_set_ne s.regs ho.symm _ _ _⟩
    · exact ⟨rfl, fun _ _ => rfl⟩
  · rw [if_neg hk]
    exact ⟨rfl, fun _ _ => rfl⟩

theorem keeperTick_misc (s : State) : (keeperTick s).misc = s.misc := by
  rw [(keeperTick_frame s).1]

theorem fabricRuns_keeperTick (s : State) : fabricRuns (keeperTick s) = fabricRuns s := by
  have h : reg (keeperTick s) rClkStatus = reg s rClkStatus := (keeperTick_frame s).2 _ (by decide)
  simp only [fabricRuns, refRuns, inReset, flag, h, keeperTick_misc]

/-- A tick while the fabric clock runs. -/
theorem passTick_running {s : State} (h : fabricRuns s = true) :
    passTick s = add64 { keeperTick s with time := addTime s.time s.time.incr.toNat } rTick 1 := by
  have ht : (keeperTick s).time = s.time := by rw [(keeperTick_frame s).1]
  unfold passTick
  dsimp only
  rw [fabricRuns_keeperTick, if_pos h, ht]

theorem passTick_frame {s : State} (h : fabricRuns s = true) : passTick s = { s with
      regs := (passTick s).regs, clock := (passTick s).clock, time := addTime s.time s.time.incr.toNat } := by
  rw [passTick_running h, (keeperTick_frame s).1]
  rfl

theorem passTick_regs {s : State} (h : fabricRuns s = true) {o : Nat} (h0 : o ≠ rTick) (h4 : o ≠ rTick + 4) (hb : o ≠ rClkBeat) :
    reg (passTick s) o = reg s o := by
  rw [passTick_running h, add64, reg_setReg64_ne _ _ h0.symm h4.symm]
  exact (keeperTick_frame s).2 o hb

theorem tick_passTick {s : State} (h : fabricRuns s = true) : tick (passTick s) = (tick s + 1) % 2 ^ 64 := by
  have ht : reg64 { keeperTick s with time := addTime s.time s.time.incr.toNat } rTick = tick s :=
    reg64_congr ((keeperTick_frame s).2 _ (by decide)) ((keeperTick_frame s).2 _ (by decide))
  rw [passTick_running h, tick, reg64_add64, ht]

/-- Device time counts modulo 2^48 seconds. -/
theorem timeUnits_addTime (t : TimeState) (n : Nat) : Sys2Proof.Claims.timeUnits (addTime t n)
    = (Sys2Proof.Claims.timeUnits t + n) % (2 ^ 48 * secondNs32) := by
  have hsum : Sys2Proof.Claims.timeUnits t + n = (t.ns32 + n) + secondNs32 * t.secs.toNat := by
    unfold Sys2Proof.Claims.timeUnits
    rw [Nat.mul_comm]
    omega
  rw [hsum, Nat.mul_comm (2 ^ 48), Nat.mod_mul, Nat.add_mul_mod_self_left, Nat.add_mul_div_left _ _ (by decide)]
  simp only [Sys2Proof.Claims.timeUnits, addTime, BitVec.toNat_add, BitVec.toNat_ofNat]
  rw [Nat.add_mod_mod, Nat.add_comm t.secs.toNat]
  ring

/-! ## What holds a stake is judged as the tick begins -/

/-- A state whose judgement of the check point alone differs. -/
def withJudged (s : State) (j : Option (Nat × Nat)) : State := { s with stake := { s.stake with judged := j } }

theorem holdCauses_withJudged (s : State) (j : Option (Nat × Nat)) : holdCauses (withJudged s j) = holdCauses s := rfl

theorem checkDue_withJudged (s : State) (j : Option (Nat × Nat)) : checkDue (withJudged s j) = checkDue s := rfl

theorem judgeTick_eq (s : State) : judgeTick s = withJudged s (if checkDue s = true then some (judge s) else s.stake.judged) := by
  unfold judgeTick withJudged
  split <;> rfl

end Sys2Proof.Machine

/-- Settles O2: the tick is passTick alone, and judging it writes the judgement alone. -/
theorem emptyQueuePassesOneTick : Obligations.EmptyQueuePassesOneTick := by
  unfold Obligations.EmptyQueuePassesOneTick
  open Sys2Proof.Machine in
  intro s _ hp hd hf _
  have hstep : step s = .next (withJudged (passTick s) (if checkDue (passTick s) = true then some (judge (passTick s)) else s.stake.judged)) := by
    have hj : (passTick s).stake = s.stake := by rw [passTick_frame hf]
    unfold step
    rw [hp]
    dsimp only
    rw [idleTick, answerDoe_none hd, judgeTick_eq, hj]
  have hframe := passTick_frame hf
  refine ⟨_, hstep, tick_passTick hf, ?_, ?_, ?_, ?_, ?_, ?_, ?_, ?_⟩
  · show Sys2Proof.Claims.timeUnits (passTick s).time = _
    rw [hframe]
    exact timeUnits_addTime _ _
  · exact fun a => memByte_congr (congrArg State.mem hframe) a
  · exact (congrArg State.pods hframe :)
  · exact (congrArg State.ports hframe :)
  · intro o _ ho
    simp only [List.mem_cons, List.not_mem_nil, or_false, not_or] at ho
    exact passTick_regs hf ho.1 ho.2.1 ho.2.2
  · have hj : (passTick s).stake = s.stake := by rw [hframe]
    rw [withJudged, hj]
  · intro hc
    have hc' : checkDue (passTick s) = true := hc
    exact ⟨(judge (passTick s)).2, if_pos hc'⟩
  · intro hc
    have hc' : checkDue (passTick s) = false := hc
    exact if_neg (by rw [hc']; decide)
end

section
/-! Changes of the P-step: the request register, the request's checks, the switch and the two voltage steps (R24, R361 to R363). -/

namespace Sys2Proof.Machine

/-! ## Bits of a register word -/

/-- A field depends on its own bits alone. -/
theorem getF_congr {x y : Word} {lo len : Nat} (h : ∀ i, i < len → x.getLsbD (i + lo) = y.getLsbD (i + lo)) : getF x lo len = getF y lo len := by
  apply Nat.eq_of_testBit_eq
  intro i
  unfold getF
  rw [Nat.testBit_mod_two_pow, Nat.testBit_div_two_pow, Nat.testBit_mod_two_pow, Nat.testBit_div_two_pow]
  by_cases hi : i < len
  · have hb := h i hi
    rw [BitVec.getLsbD, BitVec.getLsbD] at hb
    rw [hb]
  · simp [hi]

theorem getB_setB_ne (x : Word) {i j : Nat} (b : Bool) (h : i ≠ j) : getB (setB x i b) j = getB x j :=
  getLsbD_setF_ne x i 1 b.toNat j (by omega)

/-! ## The request register -/

/-- CLK_PSTEP_REQ with the target of a write taken and the flags cleared that it names, before ARM and CANCEL act. -/
def pstepWritten (s : State) (v : Word) : State :=
  modReg (setField s rPstepReq 0 3 (getF v 0 3)) rPstepReq (fun w => w &&& ~~~ (v &&& 0x18000000))

theorem reg_pstepWritten (s : State) (v : Word) :
    reg (pstepWritten s v) rPstepReq = setF (reg s rPstepReq) 0 3 (getF v 0 3) &&& ~~~ (v &&& 0x18000000) := by
  unfold pstepWritten modReg
  rw [reg_setReg, reg_setField]

theorem pstepWritten_only (s : State) (v : Word) : OnlyRegs [rPstepReq] s (pstepWritten s v) :=
  ((OnlyRegs.refl _ s).setReg _ List.mem_cons_self).setReg _ List.mem_cons_self

theorem pending_pstepWritten (s : State) (v : Word) : flag (pstepWritten s v) rPstepReq 29 = flag s rPstepReq 29 := by
  rw [flag, reg_pstepWritten, getB, BitVec.getLsbD_and, getLsbD_setF_ne _ _ _ _ _ (by omega), BitVec.getLsbD_not, BitVec.getLsbD_and]
  simp [flag, getB]

theorem target_pstepWritten (s : State) (v : Word) : field (pstepWritten s v) rPstepReq 0 3 = getF v 0 3 := by
  have hlow : field (pstepWritten s v) rPstepReq 0 3 = getF (setF (reg s rPstepReq) 0 3 (getF v 0 3)) 0 3 := by
    rw [field, reg_pstepWritten]
    refine getF_congr (fun i hi => ?_)
    have hm : (0x18000000 : Word).getLsbD (i + 0) = false := by
      have : i = 0 ∨ i = 1 ∨ i = 2 := by omega
      rcases this with rfl | rfl | rfl <;> decide
    rw [BitVec.getLsbD_and, BitVec.getLsbD_not, BitVec.getLsbD_and, hm]
    simp
    omega
  rw [hlow, getF_setF _ _ _ _ (by decide)]
  exact Nat.mod_eq_of_lt (getF_lt v 0 3)

theorem armPstep_fields (s : State) (v : Word) : reg64 (pstepWritten s v) rPstepAt = reg64 s rPstepAt
    ∧ stakeNo (pstepWritten s v) = stakeNo s ∧ (pstepWritten s v).clock = s.clock := by
  obtain ⟨hframe, hregs⟩ := pstepWritten_only s v
  exact ⟨reg64_congr (hregs _ (by decide) (by decide)) (hregs _ (by decide) (by decide)),
    reg64_congr (hregs _ (by decide) (by decide)) (hregs _ (by decide) (by decide)), by rw [hframe]⟩

/-! ## ARM and CANCEL -/

theorem exec_arm {v : Word} (s : State) (h : getB v 30 = false) : exec (.arm v) s = .next (armPstep (pstepWritten s (v ||| 0x80000000))) := by
  have harm : getB (v ||| 0x80000000) 31 = true := by simp [getB]
  have hcancel : getB (v ||| 0x80000000) 30 = false := by simpa [getB] using h
  show Host.Outcome.next (writePstepReq s (v ||| 0x80000000)) = _
  unfold writePstepReq
  dsimp only
  rw [if_pos harm, hcancel]
  rfl

theorem exec_cancel {v : Word} (s : State) (h : getB v 31 = false) : exec (.cancel v) s = .next (cancelPstep (pstepWritten s (v ||| 0x40000000))) := by
  have hcancel : getB (v ||| 0x40000000) 30 = true := by simp [getB]
  have harm : getB (v ||| 0x40000000) 31 = false := by simpa [getB] using h
  show Host.Outcome.next (writePstepReq s (v ||| 0x40000000)) = _
  unfold writePstepReq
  dsimp only
  rw [if_pos hcancel, harm]
  rfl

theorem target_of_arm (v : Word) : getF (v ||| 0x80000000) 0 3 = getF v 0 3 := by
  refine getF_congr (fun i hi => ?_)
  have : i = 0 ∨ i = 1 ∨ i = 2 := by omega
  rcases this with rfl | rfl | rfl <;> simp

theorem armPstep_pending {s : State} (h : flag s rPstepReq 29 = true) : armPstep s = s := if_pos h

theorem armPstep_late {s : State} (h : flag s rPstepReq 29 = false) (hn : reg64 s rPstepAt < stakeNo s + 128) :
    armPstep s = setFlag s rPstepReq 28 true := by
  unfold armPstep
  dsimp only
  rw [h, if_neg Bool.false_ne_true, if_pos hn]

/-- The request in the clock's own state, not yet checked. -/
def withRequest (s : State) (r : Option (Nat × Nat)) : State := { s with clock := { s.clock with request := r, finalPassed := false } }

theorem armPstep_takes {s : State} (h : flag s rPstepReq 29 = false) (hn : stakeNo s + 128 ≤ reg64 s rPstepAt) : armPstep s =
    setFlag (withRequest s (some (reg64 s rPstepAt, field s rPstepReq 0 3))) rPstepReq 29 true := by
  unfold armPstep
  dsimp only
  rw [h, if_neg Bool.false_ne_true, if_neg (by omega)]
  rfl

theorem cancelPstep_of_request {s : State} {n k : Nat} (h : s.clock.request = some (n, k)) :
    cancelPstep s = if stakeNo s + 9 ≤ n then dropRequest s else s := by
  unfold cancelPstep
  rw [h]

/-- Registers of `l`, and the clock's own state. -/
def ClockOnly (l : List Nat) (s t : State) : Prop := t = { s with regs := t.regs, clock := t.clock } ∧ RegsBut l s t

theorem ClockOnly.trans {l : List Nat} {s t u : State} (h : ClockOnly l s t) (g : ClockOnly l t u) : ClockOnly l s u :=
  ⟨by rw [g.1, h.1], h.2.trans g.2⟩

theorem OnlyRegs.clockOnly {l : List Nat} {s t : State} (h : OnlyRegs l s t) : ClockOnly l s t := ⟨by rw [h.1], h.2⟩

theorem reg_withClock (s : State) (c : ClockState) (o : Nat) : reg { s with clock := c } o = reg s o := rfl

theorem withClock_only (l : List Nat) (s : State) (c : ClockState) : ClockOnly l s { s with clock := c } := ⟨rfl, fun _ _ _ => rfl⟩

theorem dropRequest_only (s : State) : ClockOnly [rPstepReq] s (dropRequest s) :=
  (withClock_only _ s _).trans (setReg_only _ _ List.mem_cons_self).clockOnly

theorem pending_dropRequest (s : State) : flag (dropRequest s) rPstepReq 29 = false := flag_setFlag _ _ _ _ (by decide)

theorem clock_dropRequest (s : State) : (dropRequest s).clock = { s.clock with request := none, finalPassed := false } := rfl

/-! ## The rails -/

theorem foldl_emit {α : Type} (f : α → Output) (l : List α) (s : State) :
    l.foldl (fun t a => emit t (f a)) s = { s with out := s.out ++ l.map f } := by
  induction l generalizing s with
  | nil => simp
  | cons a l ih =>
    rw [List.foldl_cons, ih]
    simp only [List.map_cons, emit, List.append_assoc, List.singleton_append]

theorem writeRails_eq (s : State) (mv : Nat) : writeRails s mv =
    { s with out := s.out ++ if busRuns s 3 then (List.finRange 4).map (fun r => .avs r mv) else [] } := by
  unfold writeRails
  split
  · exact foldl_emit _ _ s
  · simp

theorem exec_pstepVoltageRaise {n k : Nat} {s : State} (h : s.clock.request = some (n, k)) : exec .pstepVoltageRaise s =
    .next (if raisesVoltage s k && decide (stakeNo s + 64 = n) then writeRails s (pstepMv s k) else s) := by
  show execPstepVoltageRaise s = _
  unfold execPstepVoltageRaise
  rw [h]

theorem raisesVoltage_iff {s : State} {k : Nat} : raisesVoltage s k = true ↔ pstepMv s (pstepNow s) < pstepMv s k := decide_eq_true_iff

/-! ## The final check and the switch -/

theorem exec_pstepFinalCheck {n k : Nat} {s : State} (h : s.clock.request = some (n, k)) (l : BitVec 16) (mv : List Nat) :
    exec (.pstepFinalCheck l mv) s = .next (if stakeNo s + 8 ≠ n then s
      else if finalCheck s k l mv then { s with clock := { s.clock with finalPassed := true } }
      else raiseErr (dropRequest s) 15 rErrClk 2 0xFF 0) := by
  show execPstepFinalCheck l mv s = _
  unfold execPstepFinalCheck
  rw [h]

theorem railNear_iff {mv want : Nat} : railNear mv want = true ↔ mv ≤ want + 10 ∧ want ≤ mv + 10 := by
  simp [railNear]

/-- What the final check asks. -/
theorem finalCheck_iff {s : State} {k : Nat} {l : BitVec 16} {mv : List Nat} : finalCheck s k l mv = true ↔ l = 0xFFFF
    ∧ (pstepMv s (pstepNow s) < pstepMv s k → busRuns s 3 = true
      ∧ ∀ i, i < 4 → mv.getD i 0 ≤ pstepMv s k + 10 ∧ pstepMv s k ≤ mv.getD i 0 + 10) := by
  have hrails : (upTo 4).all (fun i => railNear (mv.getD i 0) (pstepMv s k)) = true
      ↔ ∀ i, i < 4 → mv.getD i 0 ≤ pstepMv s k + 10 ∧ pstepMv s k ≤ mv.getD i 0 + 10 := by
    simp only [List.all_eq_true, upTo, List.mem_range, railNear_iff]
  rw [finalCheck, Bool.and_eq_true, decide_eq_true_iff, Bool.or_eq_true, Bool.not_eq_true', Bool.and_eq_true, hrails,
    ← Bool.not_eq_true, raisesVoltage_iff, Decidable.imp_iff_not_or]

/-- A request that the final check drops. -/
theorem dropped_request (s : State) : ∃ t, t = raiseErr (dropRequest s) 15 rErrClk 2 0xFF 0
    ∧ t.clock = { s.clock with request := none, finalPassed := false } ∧ flag t rPstepReq 29 = false ∧ flag t rErrClk 2 = true
    ∧ MemSame s t ∧ t.pods = s.pods ∧ field t rPstepReq 8 3 = field s rPstepReq 8 3 := by
  obtain ⟨hframe, hregs, -⟩ := raiseErr_notified (l := rErrClk :: capRegs 15) (dropRequest s) 15 rErrClk 2 0xFF 0
    List.mem_cons_self (fun _ h => List.mem_cons_of_mem _ h)
  have hreq : reg (raiseErr (dropRequest s) 15 rErrClk 2 0xFF 0) rPstepReq = reg (dropRequest s) rPstepReq := hregs _ (by decide) (by decide)
  refine ⟨_, rfl, ?_, ?_, flag_raiseErr _ _ _ _ _ _ (by decide) (by decide) (by decide) (by decide), fun a => memByte_congr ?_ a, ?_, ?_⟩
  · rw [hframe, clock_dropRequest]
  · rw [flag, hreq]; exact pending_dropRequest s
  · rw [hframe]; rfl
  · rw [hframe]; rfl
  · rw [field, hreq]; exact field_setField_ne _ _ _ _ _ (by decide)

theorem exec_pstepSwitch {n k : Nat} {s : State} (h : s.clock.request = some (n, k)) : exec .pstepSwitch s =
    .next (if decide (stakeNo s + 1 = n) && atFinalCheck s && s.clock.finalPassed then switchPstep s n k else s) := by
  show execPstepSwitch s = _
  unfold execPstepSwitch
  rw [h]

/-- A switch writes the request register as the end of a request does, and the rest of the clock's own state. -/
theorem switchPstep_eq (s : State) (n k : Nat) : ∃ c, switchPstep s n k = { dropRequest (setField s rPstepReq 8 3 k) with clock := c }
    ∧ c.request = none ∧ c.podMhz = pstepClockMhz s k
    ∧ c.lowerAt = if pstepMv s k < pstepMv s (pstepNow s) then some (n + 1, pstepMv s k) else none := by
  unfold switchPstep
  dsimp only
  exact ⟨_, rfl, rfl, rfl, rfl⟩

theorem pstepSwitched_only (s : State) (k : Nat) : ClockOnly [rPstepReq] s (dropRequest (setField s rPstepReq 8 3 k)) :=
  (setReg_only s _ List.mem_cons_self).clockOnly.trans (dropRequest_only _)

theorem stepNow_pstepSwitched (s : State) (k : Nat) : field (dropRequest (setField s rPstepReq 8 3 k)) rPstepReq 8 3 = k % 8 :=
  (field_setField_ne _ _ _ _ _ (by decide)).trans (field_setField s _ _ _ _ (by decide))

theorem exec_pstepVoltageLower {n mv : Nat} {s : State} (h : s.clock.lowerAt = some (n, mv)) : exec .pstepVoltageLower s =
    .next (if stakeNo s = n then { writeRails s mv with clock := { (writeRails s mv).clock with lowerAt := none } } else s) := by
  show execPstepVoltageLower s = _
  unfold execPstepVoltageLower
  rw [h]

end Sys2Proof.Machine

open Sys2Proof.Machine in
/-- Settles O17: each row by the equation of its own stake. -/
theorem pstepsAreRequestedAndChanged : Obligations.PstepsAreRequestedAndChanged := by
  unfold Obligations.PstepsAreRequestedAndChanged
  refine ⟨?arm, ?late, ?pending, ?cancel, ?cancelLate, ?raise, ?raiseIdle, ?checkFalling, ?checkRails, ?drop, ?checkIdle, ?switch, ?switchIdle,
    ?lower, ?lowerIdle, ?none⟩
  case arm =>
    intro v s _ hv hpend hn
    obtain ⟨hat, hno, hclock⟩ := armPstep_fields s (v ||| 0x80000000)
    have hp := pending_pstepWritten s (v ||| 0x80000000)
    have ht := target_pstepWritten s (v ||| 0x80000000)
    refine ⟨_, (exec_arm s hv).trans (congrArg _ (armPstep_takes (hp.trans hpend) (by omega))), ?_, flag_setFlag _ _ _ _ (by decide),
      ((pstepWritten_only s _).clockOnly.trans (withClock_only _ _ _)).trans (setReg_only _ _ List.mem_cons_self).clockOnly⟩
    rw [hat, ht, target_of_arm, setFlag, setField, setReg_clock, withRequest, hclock]
  case late =>
    intro v s _ hv hpend hn
    obtain ⟨hat, hno, -⟩ := armPstep_fields s (v ||| 0x80000000)
    have hp := pending_pstepWritten s (v ||| 0x80000000)
    exact ⟨_, (exec_arm s hv).trans (congrArg _ (armPstep_late (hp.trans hpend) (by omega))), flag_setFlag _ _ _ _ (by decide),
      (flag_setFlag_ne _ _ _ (by decide)).trans (hp.trans hpend), (pstepWritten_only s _).setReg _ List.mem_cons_self⟩
  case pending =>
    intro v s _ hv hpend
    have hp := (pending_pstepWritten s (v ||| 0x80000000)).trans hpend
    exact ⟨_, (exec_arm s hv).trans (congrArg _ (armPstep_pending hp)), hp, pstepWritten_only s _⟩
  case cancel =>
    intro v n k s _ hv hreq hn
    obtain ⟨-, hno, hclock⟩ := armPstep_fields s (v ||| 0x40000000)
    refine ⟨_, (exec_cancel s hv).trans (congrArg _ ((cancelPstep_of_request (hclock ▸ hreq)).trans (if_pos (by omega)))), ?_,
      pending_dropRequest _, (pstepWritten_only s _).clockOnly.trans (dropRequest_only _)⟩
    rw [clock_dropRequest, hclock]
  case cancelLate =>
    intro v n k s _ hv hreq hn
    obtain ⟨-, hno, hclock⟩ := armPstep_fields s (v ||| 0x40000000)
    exact ⟨_, (exec_cancel s hv).trans (congrArg _ ((cancelPstep_of_request (hclock ▸ hreq)).trans (if_neg (by omega)))),
      pending_pstepWritten s _, pstepWritten_only s _⟩
  case raise =>
    intro n k s hreq hn hbus hmv
    rw [exec_pstepVoltageRaise hreq, raisesVoltage_iff.2 hmv, decide_eq_true hn, writeRails_eq, hbus]
    rfl
  case raiseIdle =>
    intro n k s hreq h
    rw [exec_pstepVoltageRaise hreq]
    split
    next hc =>
      obtain ⟨hr, hn⟩ := Bool.and_eq_true_iff.1 hc
      have hbus : busRuns s 3 = false := by
        rcases h with h | h | h
        · exact absurd (of_decide_eq_true hn) h
        · exact absurd (raisesVoltage_iff.1 hr) (by omega)
        · exact h
      rw [writeRails_eq, hbus]
      simp
    next => rfl
  case checkFalling =>
    intro n k mv s hreq hn hmv
    rw [exec_pstepFinalCheck hreq, if_neg (not_not_intro hn), if_pos (finalCheck_iff.2 ⟨rfl, fun h => absurd h (by omega)⟩)]
  case checkRails =>
    intro n k mv s hreq hn hbus hrails
    rw [exec_pstepFinalCheck hreq, if_neg (not_not_intro hn), if_pos (finalCheck_iff.2 ⟨rfl, fun _ => ⟨hbus, hrails⟩⟩)]
  case drop =>
    intro n k l mv s _ hreq hn h
    have hfails : ¬ finalCheck s k l mv = true := by
      rw [finalCheck_iff]
      rintro ⟨hl, hrails⟩
      rcases h with h | ⟨hmv, h⟩
      · exact h hl
      · obtain ⟨hbus, hnear⟩ := hrails hmv
        rcases h with h | ⟨i, hi, h⟩
        · exact Bool.false_ne_true (h.symm.trans hbus)
        · exact h (hnear i hi)
    obtain ⟨t, ht, hrest⟩ := dropped_request s
    exact ⟨t, by rw [exec_pstepFinalCheck hreq, if_neg (not_not_intro hn), if_neg hfails, ht], hrest⟩
  case checkIdle =>
    intro n k l mv s hreq hn
    rw [exec_pstepFinalCheck hreq, if_pos hn]
  case switch =>
    intro n k s _ hreq hn hfinal hpassed
    have hexec : exec .pstepSwitch s = .next (switchPstep s n k) := by
      rw [exec_pstepSwitch hreq, decide_eq_true hn, hfinal, hpassed]
      rfl
    obtain ⟨c, hc, hnone, hmhz, hlower⟩ := switchPstep_eq s n k
    refine ⟨_, hexec, ?_, ?_, ?_, ?_, ?_, ?_⟩ <;> rw [hc]
    · exact stepNow_pstepSwitched s k
    · exact pending_dropRequest _
    · exact hnone
    · exact hmhz
    · exact hlower
    · exact (pstepSwitched_only s k).trans (withClock_only _ _ c)
  case switchIdle =>
    intro n k s hreq h
    rw [exec_pstepSwitch hreq, if_neg]
    rw [Bool.and_eq_true, Bool.and_eq_true, decide_eq_true_iff]
    rintro ⟨⟨hn, hfinal⟩, hpassed⟩
    rcases h with h | h | h
    · exact h hn
    · exact Bool.false_ne_true (h.symm.trans hfinal)
    · exact Bool.false_ne_true (h.symm.trans hpassed)
  case lower =>
    intro n mv s hat hn
    rw [exec_pstepVoltageLower hat, if_pos hn, writeRails_eq]
  case lowerIdle =>
    intro n mv s hat hn
    rw [exec_pstepVoltageLower hat, if_neg hn]
  case none =>
    intro s hreq
    constructor
    · show execPstepVoltageRaise s = _
      unfold execPstepVoltageRaise
      rw [hreq]
    · show execPstepSwitch s = _
      unfold execPstepSwitch
      rw [hreq]
end

section
/-! What a machine fault changes (R416 to R419): its own registers, the Pods and streams that stop, the notices of the ports, and what the device
sends; memory, Pods' state, stake and every other register stay. -/

namespace Sys2Proof.Machine

/-- The registers that stopping the weave and telling the host may write. -/
def FaultWritten (o : Nat) : Prop :=
  o = rWeaveState ∨ o ∈ pbaRegs ∨ (0x102000 ≤ o ∧ o < 0x103000) ∨ ∃ p : PodId, o = rPod p.val 0x100

/-- The registers that record a machine fault (R416). -/
def faultRegs : List Nat := [rFaultState, rFaultOrigin, rFaultStake, rFaultStake + 4, rFaultMore]

/-- A machine fault may lie between the two states: registers of `l` and those of FaultWritten may have changed, the notices of the ports, the
streams, the pending load, the faults seen, the alert, events, and what the device has sent. -/
structure Faulting (l : List Nat) (s t : State) : Prop where
  frame : t = { s with regs := t.regs, ports := t.ports, streams := t.streams, loaded := t.loaded, out := t.out, misc := { s.misc with
    seenFaults := t.misc.seenFaults, faultCleanup := t.misc.faultCleanup, alertLow := t.misc.alertLow, eventCount := t.misc.eventCount } }
  regs : ∀ o, o ∉ l → ¬ FaultWritten o → reg t o = reg s o
  ports : ∀ p, port t p = { port s p with txNotices := (port t p).txNotices }

theorem Faulting.refl (l : List Nat) (s : State) : Faulting l s s := ⟨rfl, fun _ _ _ => rfl, fun _ => rfl⟩

theorem Faulting.trans {l : List Nat} {s t u : State} (h : Faulting l s t) (g : Faulting l t u) : Faulting l s u :=
  ⟨by rw [g.frame, h.frame], fun o ho hf => (g.regs o ho hf).trans (h.regs o ho hf), fun p => by rw [g.ports p, h.ports p]⟩

theorem Faulting.mono {l m : List Nat} {s t : State} (h : Faulting l s t) (hl : l ⊆ m) : Faulting m s t :=
  ⟨h.frame, fun o ho hf => h.regs o (fun hm => ho (hl hm)) hf, h.ports⟩

theorem Faulting.mem {l : List Nat} {s t : State} (h : Faulting l s t) : MemSame s t :=
  fun a => memByte_congr (congrArg State.mem h.frame :) a

theorem Faulting.foldl {α : Type} {l : List Nat} {f : State → α → State} (xs : List α) (s : State) (hf : ∀ t, ∀ a ∈ xs, Faulting l t (f t a)) :
    Faulting l s (xs.foldl f s) := by
  induction xs generalizing s with
  | nil => exact Faulting.refl l s
  | cons a xs ih =>
    exact (hf s a List.mem_cons_self).trans (ih (f s a) (fun t b hb => hf t b (List.mem_cons_of_mem a hb)))

theorem Noted.faulting {l : List Nat} {s t : State} (h : Noted l s t) : Faulting l s t :=
  ⟨by rw [h.frame], fun o ho hf => h.regs o ho (fun hp => hf (Or.inr (Or.inl hp))), fun p => by rw [port, h.frame]; rfl⟩

theorem setReg_faulting (l : List Nat) (s : State) {o : Nat} (v : Word) (ho : FaultWritten o) : Faulting l s (setReg s o v) :=
  ⟨rfl, fun _ _ hf => reg_setReg_ne s v (fun e => hf (e ▸ ho)), fun _ => rfl⟩

theorem setField_faulting (l : List Nat) (s : State) {o : Nat} (lo len v : Nat) (ho : FaultWritten o) : Faulting l s (setField s o lo len v) :=
  setReg_faulting l s _ ho

theorem faultSeen_faulting (l : List Nat) (s : State) (k : List SeenFault) : Faulting l s (modMisc s (fun m => { m with seenFaults := k })) :=
  ⟨rfl, fun _ _ _ => rfl, fun _ => rfl⟩

theorem emit_faulting (l : List Nat) (s : State) (x : Output) : Faulting l s (emit s x) := ⟨rfl, fun _ _ _ => rfl, fun _ => rfl⟩

theorem modStrm_faulting (l : List Nat) (s : State) (i : StreamId) (f : Stream → Stream) : Faulting l s (modStrm s i f) :=
  ⟨rfl, fun _ _ _ => rfl, fun _ => rfl⟩

theorem msix_noted (l : List Nat) (s : State) {v : Nat} (hv : v < 96) : Noted l s (msix s v) :=
  ⟨(msix_notified l s hv).1, fun _ _ hp => reg_msix_ne s hv hp⟩

theorem postEvent_noted (l : List Nat) (s : State) (k a b : Nat) (d : List Byte) : Noted l s (postEvent s k a b d) :=
  ⟨(postEvent_notified l s k a b d).1, fun o _ _ => by rw [reg, postEvent_regs, ← reg]⟩

/-! ## The parts of a fault -/

theorem faultWritten_stream (i : StreamId) {o : Nat} (h : o < 0x40) : FaultWritten (rStream i o) := by
  refine Or.inr (Or.inr (Or.inl ?_))
  unfold rStream
  omega

theorem faultWritten_pod (p : PodId) : FaultWritten (rPod p 0x100) := Or.inr (Or.inr (Or.inr ⟨p, rfl⟩))

theorem endStream_faulting (l : List Nat) (s : State) (i : StreamId) (st : BitVec 7) : Faulting l s (endStream s i st) := by
  have h : Faulting l s (modStrm s i (fun x => endSubmissions x st (weaveMask s))) := modStrm_faulting ..
  unfold endStream
  dsimp only
  split
  · exact h.trans (setField_faulting _ _ _ _ _ (faultWritten_stream i (by decide)))
  · exact h

theorem faultStreams_faulting (l : List Nat) (s : State) : Faulting l s (faultStreams s) := by
  refine Faulting.foldl _ _ (fun t i _ => ?_)
  split
  · exact Faulting.refl l t
  · refine Faulting.trans ?_ (endStream_faulting ..)
    split
    · exact setField_faulting _ _ _ _ _ (faultWritten_stream i (by decide))
    · exact Faulting.refl l t

theorem loadCancelled_faulting (l : List Nat) (s : State) (b : Bool) :
    Faulting l s { s with loaded := none, misc := { s.misc with faultCleanup := b } } := ⟨rfl, fun _ _ _ => rfl, fun _ => rfl⟩

theorem faultWeave_faulting (l : List Nat) (s : State) : Faulting l s (faultWeave s) := by
  unfold faultWeave
  split
  · have hpods : Faulting l s (forEach allPods s (fun t p => setFlag t (rPod p 0x100) 31 false)) :=
      Faulting.foldl _ _ (fun t p _ => setField_faulting _ _ _ _ _ (faultWritten_pod p))
    exact ((hpods.trans (setField_faulting _ _ _ _ _ (Or.inl rfl))).trans (loadCancelled_faulting ..)).trans (faultStreams_faulting ..)
  · exact Faulting.refl l s

theorem raiseAlert_frame (s : State) : ∃ b o, raiseAlert s = { s with misc := { s.misc with alertLow := b }, out := o } := by
  have alert : ∃ b, (if flag s rClkGate 5 then modMisc s (fun m => { m with alertLow := true }) else s)
      = { s with misc := { s.misc with alertLow := b } } := by
    split
    · exact ⟨_, rfl⟩
    · exact ⟨_, rfl⟩
  have sent (t : State) (c : Prop) [Decidable c] (x : Output) : ∃ o, (if c then emit t x else t) = { t with out := o } := by
    split
    · exact ⟨_, rfl⟩
    · exact ⟨_, rfl⟩
  obtain ⟨b, hb⟩ := alert
  unfold raiseAlert
  dsimp only
  rw [hb]
  obtain ⟨o1, h1⟩ := sent { s with misc := { s.misc with alertLow := b } } (busRuns s 5 = true) (.alert true)
  rw [h1]
  obtain ⟨o2, h2⟩ := sent { s with misc := { s.misc with alertLow := b }, out := o1 } (busRuns s 4 = true) .inBandIrq
  exact ⟨b, o2, h2⟩

theorem raiseAlert_faulting (l : List Nat) (s : State) : Faulting l s (raiseAlert s) := by
  obtain ⟨b, o, h⟩ := raiseAlert_frame s
  rw [h]
  exact ⟨rfl, fun _ _ _ => rfl, fun _ => rfl⟩

theorem floodNotice_faulting (l : List Nat) (s : State) (k : Packet) (e : Option PortId) : Faulting l s (floodNotice s k e) := by
  refine Faulting.foldl _ _ (fun t p _ => ?_)
  split
  · refine ⟨rfl, fun _ _ _ => rfl, fun q => ?_⟩
    by_cases h : p = q
    · subst h; rw [port_modPort]
    · rw [port_modPort_ne _ _ h]
  · exact Faulting.refl l t

/-! ## The fault itself -/

/-- The registers of a first fault, before the weave stops and the host is told. -/
def faultRecorded (s : State) (isLocal : Bool) (failStake reporter errOffset bit unit : Nat) : State :=
  let s1 := setReg s rFaultState (BitVec.ofNat 32 (0x80000000 + (if isLocal then 0x40000000 else 0) + errOffset % 0x10000))
  let s2 := setReg s1 rFaultOrigin (BitVec.ofNat 32 (reporter % 0x8000 * 0x10000 + bit % 256 * 256 + unit % 256))
  setReg (setReg64 s2 rFaultStake failStake) rFaultMore 0

theorem setReg_faulting_mem {l : List Nat} (s : State) {o : Nat} (v : Word) (ho : o ∈ l) : Faulting l s (setReg s o v) :=
  (setReg_noted s v ho).faulting

theorem faultRecorded_faulting (s : State) (b : Bool) (k r e i u : Nat) : Faulting faultRegs s (faultRecorded s b k r e i u) :=
  ((((setReg_faulting_mem s _ (by decide)).trans (setReg_faulting_mem _ _ (by decide))).trans
    (setReg_faulting_mem _ _ (by decide))).trans (setReg_faulting_mem _ _ (by decide))).trans (setReg_faulting_mem _ _ (by decide))

theorem flag_faultRecorded (s : State) (b : Bool) (k r e i u : Nat) : flag (faultRecorded s b k r e i u) rFaultState 31 = true := by
  have hreg : reg (faultRecorded s b k r e i u) rFaultState = BitVec.ofNat 32 (0x80000000 + (if b then 0x40000000 else 0) + e % 0x10000) := by
    unfold faultRecorded
    rw [reg_setReg_ne _ _ (by decide), reg_setReg64_ne _ _ (by decide) (by decide), reg_setReg_ne _ _ (by decide), reg_setReg]
  rw [flag, hreg, getB, BitVec.getLsbD_ofNat, Nat.testBit_eq_decide_div_mod_eq]
  have : e % 0x10000 < 0x10000 := Nat.mod_lt _ (by decide)
  cases b <;> simp <;> omega

theorem rFaultState_not_written : ¬ FaultWritten rFaultState := by
  unfold FaultWritten
  decide

theorem enterFaulted_first {s : State} (h : flag s rFaultState 31 = false) (b : Bool) (k r e i u : Nat) : ∃ d, enterFaulted s b k r e i u
    = raiseAlert (msix (postEvent (faultWeave (faultRecorded s b k r e i u)) 5 e d []) 64) := by
  unfold enterFaulted
  rw [h, if_neg Bool.false_ne_true]
  exact ⟨_, rfl⟩

theorem enterFaulted_again {s : State} (h : flag s rFaultState 31 = true) (k r e i u : Nat) : enterFaulted s true k r e i u = s := by
  unfold enterFaulted
  rw [if_pos h]
  rfl

/-- After a fault that this device has detected it is FAULTED. -/
theorem enterFaulted_local (s : State) (k r e i u : Nat) :
    Faulting faultRegs s (enterFaulted s true k r e i u) ∧ flag (enterFaulted s true k r e i u) rFaultState 31 = true := by
  cases h : flag s rFaultState 31 with
  | true =>
    rw [enterFaulted_again h]
    exact ⟨Faulting.refl _ s, h⟩
  | false =>
    obtain ⟨d, hd⟩ := enterFaulted_first h true k r e i u
    rw [hd]
    have hstop (l : List Nat) : Faulting l (faultRecorded s true k r e i u)
        (raiseAlert (msix (postEvent (faultWeave (faultRecorded s true k r e i u)) 5 e d []) 64)) :=
      (((faultWeave_faulting l _).trans (postEvent_noted l _ _ _ _ _).faulting).trans (msix_noted l _ (by decide)).faulting).trans
        (raiseAlert_faulting l _)
    refine ⟨(faultRecorded_faulting s true k r e i u).trans (hstop _), ?_⟩
    rw [flag, (hstop []).regs _ (List.not_mem_nil) rFaultState_not_written]
    exact flag_faultRecorded s true k r e i u

theorem machineFault_local (s : State) (e i u : Nat) :
    Faulting faultRegs s (machineFault s e i u) ∧ flag (machineFault s e i u) rFaultState 31 = true := by
  obtain ⟨hframe, hflag⟩ := enterFaulted_local (floodNotice (modMisc s (fun m => { m with seenFaults := (deviceCoord s, stakeNo s, e, i) :: m.seenFaults }))
    (noticePacket (modMisc s (fun m => { m with seenFaults := (deviceCoord s, stakeNo s, e, i) :: m.seenFaults }))
      (faultPayload (stakeNo s) (deviceCoord s) e i u)) none) (stakeNo s) (deviceCoord s) e i u
  exact ⟨((faultSeen_faulting _ s _).trans (floodNotice_faulting ..)).trans hframe, hflag⟩

/-- An error that faults the machine. -/
theorem raiseFault_faulting {l : List Nat} (s : State) (b off bit unit addr : Nat) (ho : off ∈ l) (hl : capRegs b ⊆ l) :
    Faulting (l ++ faultRegs) s (raiseFault s b off bit unit addr) :=
  ((raiseErr_noted s b off bit unit addr ho hl).faulting.mono (List.subset_append_left _ _)).trans
    ((machineFault_local ..).1.mono (List.subset_append_right _ _))

theorem faulted_raiseFault (s : State) (b off bit unit addr : Nat) : flag (raiseFault s b off bit unit addr) rFaultState 31 = true :=
  (machineFault_local ..).2

/-- The error bit that has faulted the machine reads 1. -/
theorem flag_raiseFault (s : State) (b off bit unit addr : Nat) (hb : bit < 32) (h4 : off % 4 = 0) (h1 : off ∉ capRegs b) (h2 : off ∉ faultRegs)
    (h3 : ¬ FaultWritten off) : flag (raiseFault s b off bit unit addr) off bit = true := by
  rw [flag, raiseFault, (machineFault_local ..).1.regs _ h2 h3]
  exact flag_raiseErr s b off bit unit addr hb h4 h1 (fun h => h3 (Or.inr (Or.inl h)))

end Sys2Proof.Machine
end

section
/-! The commit point: a stake is extended by a quantum, ends, or faults the machine (R28, R31, R32). -/

namespace Sys2Proof.Machine

theorem commitDue_of {s : State} (hf : fabricRuns s = true) (ho : stakeOffset s = 36288 + 9216 * s.stake.round) (hc : s.stake.committed = false) :
    commitDue s = true := by
  rw [commitDue, hf, hc, decide_eq_true (show stakeOffset s = commitOffset s from ho)]
  rfl

theorem exec_commitPoint {s : State} (h : commitDue s = true) : exec .commitPoint s = .next (if s.stake.held = false then endStake s
    else if field s rHoldStatus 0 24 < field s rHoldCtrl 0 24 then extendStake s
    else raiseFault (endStake s) 0 rErrStake 0 0xFF (field s rHoldStatus 0 24)) := by
  show Host.Outcome.next (commitPoint s) = _
  unfold commitPoint
  rw [h]
  cases s.stake.held <;> rfl

/-- Registers of `l`, and the stake timer's own state. -/
def StakeOnly (l : List Nat) (s t : State) : Prop := t = { s with regs := t.regs, stake := t.stake } ∧ RegsBut l s t

theorem OnlyRegs.withStake {l : List Nat} {s t : State} (h : OnlyRegs l s t) (x : StakeState) : StakeOnly l s { t with stake := x } :=
  ⟨by rw [h.1], h.2⟩

/-- The registers of a stake that is extended. -/
def quantumCounted (s : State) : State :=
  add64 (setFlag (setFlag (setField s rHoldStatus 0 24 (field s rHoldStatus 0 24 + 1)) rHoldStatus 31 true) rHoldStatus 30 false) rHoldTotal 1

theorem extendStake_eq (s : State) : extendStake s = { quantumCounted s with stake := { s.stake with
    round := s.stake.round + 1, held := false, checked := false, committed := false, refusedRound := none, judged := none } } := rfl

theorem quantumCounted_only (s : State) : OnlyRegs [rHoldStatus, rHoldTotal, rHoldTotal + 4] s (quantumCounted s) :=
  ((((setReg_only s _ (by decide)).setReg _ (by decide)).setReg _ (by decide)).setReg _ (by decide)).setReg _ (by decide)

theorem reg_quantumCounted (s : State) : reg (quantumCounted s) rHoldStatus = setB (setB (setF (reg s rHoldStatus) 0 24
    (field s rHoldStatus 0 24 + 1)) 31 true) 30 false := by
  unfold quantumCounted add64 setFlag setB
  rw [reg_setReg64_ne _ _ (by decide) (by decide), reg_setField, reg_setField, reg_setField]

theorem holds_quantumCounted {s : State} {n : Nat} (h : field s rHoldStatus 0 24 < n) (hn : n < 2 ^ 24) :
    field (quantumCounted s) rHoldStatus 0 24 = field s rHoldStatus 0 24 + 1 := by
  rw [field, reg_quantumCounted, setB, getF_setF_ne _ _ _ _ _ _ (by decide), setB, getF_setF_ne _ _ _ _ _ _ (by decide),
    getF_setF _ _ _ _ (by decide)]
  exact Nat.mod_eq_of_lt (by omega)

theorem flags_quantumCounted (s : State) : flag (quantumCounted s) rHoldStatus 31 = true ∧ flag (quantumCounted s) rHoldStatus 30 = false := by
  rw [flag, flag, reg_quantumCounted]
  exact ⟨(getB_setB_ne _ _ (by decide)).trans (getB_setB _ _ _ (by decide)), getB_setB _ _ _ (by decide)⟩

theorem total_quantumCounted (s : State) : reg64 (quantumCounted s) rHoldTotal = (reg64 s rHoldTotal + 1) % 2 ^ 64 := by
  have hne (t : State) (lo len v : Nat) : reg64 (setField t rHoldStatus lo len v) rHoldTotal = reg64 t rHoldTotal :=
    reg64_congr (reg_setReg_ne _ _ (by decide)) (reg_setReg_ne _ _ (by decide))
  unfold quantumCounted setFlag
  rw [reg64_add64, hne, hne, hne]

theorem boundaryDue_of_open {s : State} (h : s.stake.committed = false) : boundaryDue s = false := by
  rw [boundaryDue, h, Bool.and_false]

theorem boundaryDue_of_committed {s : State} (h : s.stake.committed = true) :
    boundaryDue s = true ↔ fabricRuns s = true ∧ stakeOffset s = 36864 + 9216 * s.stake.round := by
  rw [boundaryDue, h, Bool.and_true, Bool.and_eq_true, decide_eq_true_iff, endOffset]

theorem endStake_only (s : State) : StakeOnly [rHoldStatus] s (endStake s) := (setReg_only s _ List.mem_cons_self).withStake _

theorem holds_endStake (s : State) : field (endStake s) rHoldStatus 0 24 = field s rHoldStatus 0 24 := field_setField_ne s _ _ _ _ (by decide)

end Sys2Proof.Machine

open Sys2Proof.Machine in
/-- Settles O22: the three outcomes of a commit point, by its hold and HOLD_LIMIT. -/
theorem commitPointExtendsOrEnds : Obligations.CommitPointExtendsOrEnds := by
  unfold Obligations.CommitPointExtendsOrEnds
  refine ⟨fun s _ hf ho hc hheld hlim => ?quantum, fun s _ hf ho hc hheld => ?ends, fun s _ hf ho hc hheld hlim => ?limit⟩
  case quantum =>
    have hexec : exec .commitPoint s = .next (extendStake s) := by
      rw [exec_commitPoint (commitDue_of hf ho hc), hheld, if_neg (by decide), if_pos hlim]
    exact ⟨_, hexec, rfl, rfl, rfl, rfl, holds_quantumCounted hlim (getF_lt _ _ _), (flags_quantumCounted s).1, (flags_quantumCounted s).2,
      total_quantumCounted s, fun u hu => boundaryDue_of_open (by rw [hu]; rfl), (quantumCounted_only s).withStake _⟩
  case ends =>
    have hexec : exec .commitPoint s = .next (endStake s) := by
      rw [exec_commitPoint (commitDue_of hf ho hc), if_pos hheld]
    refine ⟨_, hexec, rfl, fun u hu => ?_, rfl, rfl, holds_endStake s, endStake_only s⟩
    have hround : u.stake.round = s.stake.round := by rw [hu]; rfl
    rw [boundaryDue_of_committed (by rw [hu]; rfl), hround]
  case limit =>
    have hexec : exec .commitPoint s = .next (raiseFault (endStake s) 0 rErrStake 0 0xFF (field s rHoldStatus 0 24)) := by
      rw [exec_commitPoint (commitDue_of hf ho hc), hheld, if_neg (by decide), if_neg (by omega)]
    have hfault := raiseFault_faulting (l := rErrStake :: capRegs 0) (endStake s) 0 rErrStake 0 0xFF (field s rHoldStatus 0 24)
      List.mem_cons_self (List.subset_cons_self ..)
    refine ⟨_, hexec, flag_raiseFault _ _ _ _ _ _ (by decide) (by decide) (by decide) (by decide) (by unfold FaultWritten; decide),
      faulted_raiseFault .., ?_, hfault.mem⟩
    rw [hfault.frame]
    rfl
end

section
/-! Check points: the causes of a hold, each by its own condition, and the hold that is asserted for them (R20, R23, R25). -/

namespace Sys2Proof.Machine

/-! ## The causes -/

/-- Four bits of a number that is written with them. -/
theorem testBit_of_bits : ∀ a b c d : Bool, (b2n a + 2 * b2n b + 4 * b2n c + 8 * b2n d).testBit 0 = a
    ∧ (b2n a + 2 * b2n b + 4 * b2n c + 8 * b2n d).testBit 1 = b ∧ (b2n a + 2 * b2n b + 4 * b2n c + 8 * b2n d).testBit 2 = c
    ∧ (b2n a + 2 * b2n b + 4 * b2n c + 8 * b2n d).testBit 3 = d ∧ b2n a + 2 * b2n b + 4 * b2n c + 8 * b2n d < 16 := by decide

theorem any_allPods (f : PodId → Bool) : allPods.any f = true ↔ ∃ p, f p = true := by
  simp [allPods, List.any_eq_true]

theorem any_allFsqs (g : FsqId → Bool) : allFsqs.any g = true ↔ ∃ f, g f = true := by
  simp [allFsqs, List.any_eq_true]

theorem any_allPorts (f : PortId → Bool) : allPorts.any f = true ↔ ∃ p, f p = true := by
  simp [allPorts, List.any_eq_true]

theorem isEmpty_not_iff {α : Type} (l : List α) : (!l.isEmpty) = true ↔ l ≠ [] := by
  cases l <;> simp

theorem noticeQuiets_iff (s : State) : noticeQuiets s = false ↔ noticeHeld s = false ∨ s.stake.round ≤ s.stake.noticeRound := by
  rw [noticeQuiets, Bool.and_eq_false_iff, decide_eq_false_iff_not, Nat.not_lt]

theorem noticeDue_iff (s : State) : (!(noticeDue s).isEmpty) = true ↔ ∃ n ∈ s.stake.noticesAgain, n.failStake ≤ stakeNo s := by
  rw [isEmpty_not_iff, noticeDue, Ne, List.filter_eq_nil_iff]
  simp

theorem warpOpen_iff (s : State) : warpOpen s = true ↔
    (∃ f : FsqId, (fsq s f).missing ≠ [] ∨ (fsq s f).halves ≠ [] ∨ (fsq s f).lateReads ≠ [] ∨ (fsq s f).arriving ≠ [])
      ∨ (∃ i ∈ s.txItems, i.pkt.type = 1 ∨ i.pkt.type = 2)
      ∨ ∃ p : PortId, (∃ c ∈ (port s p).copies, c.scheduled = true ∨ (c.naked = true ∧ c.retryPick = none) ∨ (lstate s p = 6 ∧ c.decided = false))
          ∨ (port s p).lost ≠ [] ∨ ∃ k ∈ (port s p).txWarpExtra, k.type = 1 ∨ k.type = 2 := by
  unfold warpOpen
  rw [Bool.or_eq_true, Bool.or_eq_true, any_allFsqs, any_allPorts, or_assoc]
  refine or_congr ?_ (or_congr ?_ ?_)
  · simp only [Bool.or_eq_true, isEmpty_not_iff, or_assoc]
  · simp only [List.any_eq_true, isWarpData, Bool.or_eq_true, decide_eq_true_iff]
  · simp only [Bool.or_eq_true, List.isEmpty_eq_false_iff, List.any_eq_true, isWarpData, decide_eq_true_iff, Bool.and_eq_true, Option.isNone_iff_eq_none,
      Bool.not_eq_true', or_assoc]

/-- The four conditions, each in its bit. -/
theorem testBit_holdCauses (s : State) :
    ((holdCauses s).testBit 0 = true ↔ faulted s = false ∧ ∃ p : PodId, podNotReady s p = true)
      ∧ ((holdCauses s).testBit 1 = true ↔ Sys2Proof.Claims.SpareOpen s)
      ∧ ((holdCauses s).testBit 2 = true ↔ faulted s = false ∧ ∃ p : PodId, rootWaits s p = true)
      ∧ ((holdCauses s).testBit 3 = true ↔ faulted s = false ∧ ∃ p : PodId, debugHold s p = true) ∧ holdCauses s < 16 := by
  obtain ⟨h0, h1, h2, h3, hlt⟩ := testBit_of_bits (!faulted s && allPods.any (podNotReady s))
    (weaveActive s && ((!noticeQuiets s && warpOpen s) || !(noticeDue s).isEmpty)) (!faulted s && allPods.any (rootWaits s))
    (!faulted s && allPods.any (debugHold s))
  refine ⟨?_, ?_, ?_, ?_, hlt⟩
  · rw [holdCauses, h0, Bool.and_eq_true, Bool.not_eq_true', any_allPods]
  · rw [holdCauses, h1, Bool.and_eq_true, Bool.or_eq_true, Bool.and_eq_true, Bool.not_eq_true', noticeQuiets_iff, noticeDue_iff, warpOpen_iff]
    rfl
  · rw [holdCauses, h2, Bool.and_eq_true, Bool.not_eq_true', any_allPods]
  · rw [holdCauses, h3, Bool.and_eq_true, Bool.not_eq_true', any_allPods]

theorem checkCauses_unaligned {s : State} (h : aligned s = false) : (checkCauses s).1 = 0 := by
  unfold checkCauses
  dsimp only
  rw [h]
  rfl

theorem checkCauses_aligned {s : State} (h : aligned s = true) :
    (checkCauses s).1 = Nat.lor (s.stake.judged.getD (judge s)).1 (if faulted s then 0 else s.stake.arisen) := by
  unfold checkCauses
  dsimp only
  rw [if_pos h]

theorem checkCauses_unjudged {s : State} (h : aligned s = true) (hj : s.stake.judged = none) :
    (checkCauses s).1 = Nat.lor (holdCauses s) (if faulted s then 0 else s.stake.arisen) := by
  rw [checkCauses_aligned h, hj]
  rfl

/-- A cause of the state is one for which a hold is asserted. -/
theorem testBit_checkCauses {s : State} (h : aligned s = true) (hj : s.stake.judged = none) {i : Nat} (hi : (holdCauses s).testBit i = true) :
    (checkCauses s).1.testBit i = true := by
  rw [checkCauses_unjudged h hj]
  show (holdCauses s ||| _).testBit i = true
  rw [Nat.testBit_or, hi, Bool.true_or]

/-! ## The check point -/

theorem checkDue_of {s : State} (hf : fabricRuns s = true) (ho : stakeOffset s = 33408 + 9216 * s.stake.round) (hc : s.stake.checked = false) :
    checkDue s = true := by
  rw [checkDue, hf, hc, decide_eq_true (show stakeOffset s = checkOffset s from ho)]
  rfl

theorem checkDue_false {s : State} (h : fabricRuns s = false ∨ stakeOffset s ≠ 33408 + 9216 * s.stake.round ∨ s.stake.checked = true) :
    checkDue s = false := by
  rw [checkDue, Bool.and_eq_false_iff, Bool.and_eq_false_iff, decide_eq_false_iff_not, Bool.not_eq_false', or_assoc]
  exact h

theorem commitDue_false {s : State} (h : fabricRuns s = false ∨ stakeOffset s ≠ 36288 + 9216 * s.stake.round ∨ s.stake.committed = true) :
    commitDue s = false := by
  rw [commitDue, Bool.and_eq_false_iff, Bool.and_eq_false_iff, decide_eq_false_iff_not, Bool.not_eq_false', or_assoc]
  exact h

/-- The round is judged. -/
def checkPassed (s : State) : State := sendAgain { s with stake := { s.stake with checked := true, judged := none, arisen := 0 } }

theorem exec_checkPoint {s : State} (h : checkDue s = true) :
    exec .checkPoint s = .next (if (checkCauses s).1 = 0 then checkPassed s else assertHold (checkPassed s) (checkCauses s)) := by
  show Host.Outcome.next (checkPoint s) = _
  unfold checkPoint
  rw [h]
  rfl

theorem floodNotice_frame (s : State) (k : Packet) (e : Option PortId) : floodNotice s k e = { s with ports := (floodNotice s k e).ports } := by
  unfold floodNotice forEach
  generalize allPorts = l
  induction l generalizing s with
  | nil => rfl
  | cons p l ih =>
    rw [List.foldl_cons, ih]
    split <;> rfl

/-- Notices that are sent again change the ports and the timer's list of them. -/
theorem checkPassed_frame (s : State) : ∃ ports l, checkPassed s = { s with
    ports := ports, stake := { s.stake with checked := true, judged := none, arisen := 0, noticesAgain := l } } := by
  have hflood (l : List Notice) (t : State) : ∃ ports, l.foldl (fun t n => floodNotice t (noticePacket t (noticePayload n)) none) t = { t with ports := ports } := by
    induction l generalizing t with
    | nil => exact ⟨_, rfl⟩
    | cons n l ih =>
      obtain ⟨ports, h⟩ := ih (floodNotice t (noticePacket t (noticePayload n)) none)
      refine ⟨ports, ?_⟩
      rw [List.foldl_cons, h, floodNotice_frame]
  obtain ⟨ports, h⟩ := hflood (noticeDue { s with stake := { s.stake with checked := true, judged := none, arisen := 0 } })
    { s with stake := { s.stake with checked := true, judged := none, arisen := 0 } }
  unfold checkPassed sendAgain
  dsimp only
  rw [h]
  exact ⟨_, _, rfl⟩

theorem causes_low (a b : Nat) {i : Nat} (hi : i < 4) : (a % 16 + b * 1024).testBit i = a.testBit i := by
  have h : i = 0 ∨ i = 1 ∨ i = 2 ∨ i = 3 := by omega
  rcases h with rfl | rfl | rfl | rfl <;> rw [Nat.testBit_eq_decide_div_mod_eq, Nat.testBit_eq_decide_div_mod_eq, decide_eq_decide] <;> omega

theorem assertHold_only (s : State) (j : Nat × Nat) : StakeOnly [rHoldStatus, rHoldCause] s (assertHold s j) :=
  ⟨rfl, ((RegsBut.refl _ s).setReg _ (by decide)).setReg _ (by decide)⟩

theorem flag_assertHold (s : State) (j : Nat × Nat) : flag (assertHold s j) rHoldStatus 30 = true := by
  have hreg : reg (assertHold s j) rHoldStatus = reg (setFlag s rHoldStatus 30 true) rHoldStatus := reg_setReg_ne _ _ (by decide)
  rw [flag, hreg]
  exact flag_setFlag _ _ _ _ (by decide)

theorem cause_assertHold (s : State) (j : Nat × Nat) {i : Nat} (hi : i < 4) : flag (assertHold s j) rHoldCause i = j.1.testBit i := by
  have hreg : reg (assertHold s j) rHoldCause = BitVec.ofNat 32 (j.1 % 16 + (if j.1 % 2 = 1 then j.2 % 64 else 0) * 1024) := by
    refine (reg_setReg _ _ _).trans ?_
    split <;> simp
  rw [flag, hreg, getB, BitVec.getLsbD_ofNat, causes_low _ _ hi, decide_eq_true (show i < 32 by omega), Bool.true_and]

end Sys2Proof.Machine

open Sys2Proof.Machine in
/-- Settles O21: the check point by its causes, and each cause by its condition. -/
theorem checkPointAssertsHolds : Obligations.CheckPointAssertsHolds := by
  unfold Obligations.CheckPointAssertsHolds
  refine ⟨?quiet, ?asserts, ?causes, ?judged, ?idle, ?nonzero, ?unjudged, testBit_holdCauses, ?commitIdle, fun _ => rfl⟩
  case quiet =>
    intro s hf ho hc h
    have hzero : (checkCauses s).1 = 0 := h.elim checkCauses_unaligned id
    obtain ⟨ports, l, ht⟩ := checkPassed_frame s
    refine ⟨checkPassed s, by rw [exec_checkPoint (checkDue_of hf ho hc), if_pos hzero], ?_⟩
    rw [ht]
    exact ⟨rfl, rfl, rfl, fun _ => rfl, rfl⟩
  case asserts =>
    intro s _ hf ho hc _ hcause
    obtain ⟨ports, l, ht⟩ := checkPassed_frame s
    refine ⟨assertHold (checkPassed s) (checkCauses s), by rw [exec_checkPoint (checkDue_of hf ho hc), if_neg hcause], ?_, rfl,
      flag_assertHold .., fun i hi => cause_assertHold _ _ hi, ?_, ?_, ?_⟩ <;> rw [ht]
    · rfl
    · exact (assertHold_only _ _).2
    · exact fun _ => rfl
    · rfl
  case causes =>
    intro p s ha hf hj
    obtain ⟨h0, -, h2, h3, -⟩ := testBit_holdCauses s
    exact ⟨fun h => testBit_checkCauses ha hj (h0.2 ⟨hf, p, h⟩), fun h => testBit_checkCauses ha hj (h2.2 ⟨hf, p, h⟩),
      fun h => testBit_checkCauses ha hj (h3.2 ⟨hf, p, h⟩)⟩
  case judged =>
    intro j s ha hf hj
    rw [checkCauses_aligned ha, hj, hf]
    rfl
  case idle =>
    intro s h
    show Host.Outcome.next (checkPoint s) = _
    unfold checkPoint
    rw [checkDue_false h]
    rfl
  case nonzero =>
    intro p s hf h hzero
    obtain ⟨h0, -, h2, h3, -⟩ := testBit_holdCauses s
    rw [hzero] at h0 h2 h3
    rcases h with h | h | h
    · exact absurd (h0.2 ⟨hf, p, h⟩) (by decide)
    · exact absurd (h2.2 ⟨hf, p, h⟩) (by decide)
    · exact absurd (h3.2 ⟨hf, p, h⟩) (by decide)
  case unjudged => exact fun s hj ha => checkCauses_unjudged ha hj
  case commitIdle =>
    intro s h
    show Host.Outcome.next (commitPoint s) = _
    unfold commitPoint
    rw [commitDue_false h]
    rfl
end

section
/-! The stake boundary: what is read, applied and latched at the first tick of a stake, and where a running weave stands (R18, R182, R207, R226, R406). -/

namespace Sys2Proof.Machine

/-! ## Temperatures -/

/-- Temperatures may have been read between the two states: registers of `l` and MSI-X pending bits, the power unit, the pins that warn of heat,
events, and what the device has sent. -/
structure Heated (l : List Nat) (s t : State) : Prop where
  frame : t = { s with regs := t.regs, power := t.power, streams := t.streams, out := t.out, misc := { s.misc with
    thermtripLow := t.misc.thermtripLow, alertLow := t.misc.alertLow, eventCount := t.misc.eventCount } }
  regs : ∀ o, o ∉ l → o ∉ pbaRegs → reg t o = reg s o

theorem Heated.refl (l : List Nat) (s : State) : Heated l s s := ⟨rfl, fun _ _ _ => rfl⟩

theorem Heated.trans {l : List Nat} {s t u : State} (h : Heated l s t) (g : Heated l t u) : Heated l s u :=
  ⟨by rw [g.frame, h.frame], fun o ho hp => (g.regs o ho hp).trans (h.regs o ho hp)⟩

theorem Heated.mono {l m : List Nat} {s t : State} (h : Heated l s t) (hl : l ⊆ m) : Heated m s t :=
  ⟨h.frame, fun o ho hp => h.regs o (fun hm => ho (hl hm)) hp⟩

theorem Noted.heated {l : List Nat} {s t : State} (h : Noted l s t) : Heated l s t := ⟨by rw [h.frame], h.regs⟩

theorem withPower_heated (l : List Nat) (s : State) (x : PowerState) : Heated l s { s with power := x } := ⟨rfl, fun _ _ _ => rfl⟩

theorem raiseAlert_heated (l : List Nat) (s : State) : Heated l s (raiseAlert s) := by
  obtain ⟨b, o, h⟩ := raiseAlert_frame s
  rw [h]
  exact ⟨rfl, fun _ _ _ => rfl⟩

theorem thermtrip_heated (l : List Nat) (s : State) : Heated l s (thermtrip s) := by
  unfold thermtrip
  dsimp only
  split
  · exact withPower_heated l s _
  · split
    · exact ⟨rfl, fun _ _ _ => rfl⟩
    · exact ⟨rfl, fun _ _ _ => rfl⟩

/-- The registers that the thermal ceiling writes. -/
def heatRegs : List Nat := [rPwrStatus, rErrPwr] ++ capRegs 16

theorem thermalCeiling_heated (s : State) (l : List Nat) : Heated heatRegs s (thermalCeiling s l) := by
  have hwarn (t : State) (i : Nat) (b : Bool) : Heated heatRegs t (setFlag t rPwrStatus i b) :=
    (setFlag_noted t i b (List.mem_cons_self)).heated
  unfold thermalCeiling
  dsimp only
  split
  · exact (hwarn ..).trans (withPower_heated ..)
  · split
    · exact Heated.refl _ s
    · split
      · split
        · exact (hwarn ..).trans (withPower_heated ..)
        · exact ((hwarn ..).trans (withPower_heated ..)).trans (raiseAlert_heated ..)
      · have herr (t : State) (u : Nat) : Heated heatRegs t (raiseErr t 16 rErrPwr 2 u 0) :=
          (raiseErr_noted t 16 rErrPwr 2 u 0 (by decide) (List.subset_append_right _ _)).heated
        split
        · exact ((withPower_heated ..).trans (herr ..)).trans (thermtrip_heated ..)
        · exact (withPower_heated ..).trans (herr ..)

theorem readJunctions_heated (s : State) (cds ios : List Byte) : Heated ([rPwrTemp, rPwrTempIo] ++ heatRegs) s (readJunctions s cds ios) :=
  ((setReg_noted s _ (List.mem_append_left _ List.mem_cons_self)).heated.trans
    (setReg_noted _ _ (List.mem_append_left _ (List.mem_cons_of_mem _ List.mem_cons_self))).heated).trans
    ((thermalCeiling_heated ..).mono (List.subset_append_right _ _))

theorem reg_readJunctions (s : State) (cds ios : List Byte) : reg (readJunctions s cds ios) rPwrTemp = BitVec.ofNat 32 (numAt cds 0 4)
    ∧ reg (readJunctions s cds ios) rPwrTempIo = BitVec.ofNat 32 (numAt ios 0 2) := by
  unfold readJunctions
  dsimp only
  constructor
  · rw [(thermalCeiling_heated _ _).regs _ (by decide) (by decide), reg_setReg_ne _ _ (by decide)]
    exact reg_setReg _ _ _
  · rw [(thermalCeiling_heated _ _).regs _ (by decide) (by decide)]
    exact reg_setReg _ _ _

/-! ## Stacks -/

/-- The registers of the stacks' temperatures. -/
def stackRegs : List Nat := rRefresh :: (upTo 12).map rStackTemp

theorem rStackTemp_mem {k : Nat} (h : k < 12) : rStackTemp k ∈ stackRegs :=
  List.mem_cons_of_mem _ (List.mem_map_of_mem (List.mem_range.2 h))

theorem readStack_heated (s : State) {k : Nat} (x : Byte) (h : k < 12) : Heated stackRegs s (readStack s k x) :=
  ((setReg_noted s _ (rStackTemp_mem h)).trans (setFlag_noted _ _ _ List.mem_cons_self)).heated

theorem foldl_heated {α : Type} {l : List Nat} {f : State → α → State} (xs : List α) (s : State) (hf : ∀ t, ∀ a ∈ xs, Heated l t (f t a)) :
    Heated l s (xs.foldl f s) := by
  induction xs generalizing s with
  | nil => exact Heated.refl l s
  | cons a xs ih =>
    exact (hf s a List.mem_cons_self).trans (ih (f s a) (fun t b hb => hf t b (List.mem_cons_of_mem a hb)))

theorem readStacks_heated (s : State) (temps : List Byte) : Heated stackRegs s (readStacks s temps) :=
  foldl_heated _ s (fun t _ hk => readStack_heated t _ (List.mem_range.1 hk))

/-- What a stack shows of temperature `x`. -/
def StackShows (s : State) (k : Nat) (x : Byte) : Prop :=
  field s (rStackTemp k) 0 8 = x.toNat ∧ (85 < x.toNat → flag s rRefresh k = true) ∧ (x.toNat ≤ 82 → flag s rRefresh k = false)

theorem StackShows.congr {s t : State} {k : Nat} {x : Byte} (h : StackShows s k x) (ht : reg t (rStackTemp k) = reg s (rStackTemp k))
    (hr : flag t rRefresh k = flag s rRefresh k) : StackShows t k x := by
  unfold StackShows
  rw [field_congr ht, hr]
  exact h

theorem rStackTemp_ne_rRefresh (k : Nat) : rStackTemp k ≠ rRefresh := by
  unfold rStackTemp rRefresh
  omega

theorem readStack_shows (s : State) {k : Nat} (x : Byte) (hk : k < 12) : StackShows (readStack s k x) k x := by
  unfold readStack StackShows
  dsimp only
  refine ⟨?_, fun h => ?_, fun h => ?_⟩
  · have hx : x.toNat < 256 := x.isLt
    rw [field, reg_setFlag_ne _ _ _ (rStackTemp_ne_rRefresh k).symm, reg_setReg, getF, BitVec.toNat_ofNat]
    generalize b2n _ = r
    omega
  · rw [flag_setFlag _ _ _ _ (by omega), if_pos h]
  · rw [flag_setFlag _ _ _ _ (by omega), if_neg (by omega), if_pos h]

theorem readStack_other (s : State) {j k : Nat} (x : Byte) (hj : j ≠ k) : reg (readStack s j x) (rStackTemp k) = reg s (rStackTemp k)
    ∧ flag (readStack s j x) rRefresh k = flag s rRefresh k := by
  have hne : rStackTemp j ≠ rStackTemp k := by
    unfold rStackTemp
    omega
  unfold readStack
  dsimp only
  constructor
  · rw [reg_setFlag_ne _ _ _ (rStackTemp_ne_rRefresh k).symm, reg_setReg_ne _ _ hne]
  · rw [flag_setFlag_ne _ _ _ hj, flag, reg_setReg_ne _ _ (rStackTemp_ne_rRefresh j), ← flag]

theorem readStacks_shows (s : State) (temps : List Byte) {k : Nat} (hk : k < 12) : StackShows (readStacks s temps) k (temps.getD k 0) := by
  have later (l : List Nat) (t : State) (hl : k ∉ l) (h : StackShows t k (temps.getD k 0)) :
      StackShows (l.foldl (fun t k => readStack t k (temps.getD k 0)) t) k (temps.getD k 0) := by
    induction l generalizing t with
    | nil => exact h
    | cons j l ih =>
      obtain ⟨hj, hl⟩ := not_or.1 (fun h => hl (List.mem_cons.2 h))
      obtain ⟨ht, hr⟩ := readStack_other t (temps.getD j 0) (Ne.symm hj)
      exact ih _ hl (h.congr ht hr)
  have fold (l : List Nat) (t : State) (hn : l.Nodup) (hl : k ∈ l) :
      StackShows (l.foldl (fun t k => readStack t k (temps.getD k 0)) t) k (temps.getD k 0) := by
    induction l generalizing t with
    | nil => cases hl
    | cons j l ih =>
      obtain ⟨hj, hn⟩ := List.nodup_cons.1 hn
      rcases List.mem_cons.1 hl with rfl | hl
      · exact later l _ hj (readStack_shows t _ hk)
      · exact ih _ hn hl
  exact fold _ s List.nodup_range (List.mem_range.2 hk)

/-! ## The new stake and its time -/

/-- The registers of the next stake: its number, its first tick, no holds. -/
def stakeNumbered (s : State) : State := setReg (setReg64 (setReg64 s rStake (stakeNo s + 1)) rStakeStart (tick s)) rHoldStatus 0

theorem newStake_eq (s : State) : ∃ x, newStake s = { stakeNumbered s with stake := x } ∧ x.round = 0 ∧ x.held = false ∧ x.checked = false
    ∧ x.committed = false := by
  unfold newStake stakeNumbered
  exact ⟨_, rfl, rfl, rfl, rfl, rfl⟩

/-- The registers that a new stake writes. -/
def stakeRegs : List Nat := [rStake, rStake + 4, rStakeStart, rStakeStart + 4, rHoldStatus]

theorem stakeNumbered_only (s : State) : Noted stakeRegs s (stakeNumbered s) :=
  ((((setReg_noted s _ (by decide)).trans (setReg_noted _ _ (by decide))).trans (setReg_noted _ _ (by decide))).trans
    (setReg_noted _ _ (by decide))).trans (setReg_noted _ _ (by decide))

theorem reg64_setReg64_ne (s : State) {o o' : Nat} (v : Nat) (h : o' + 4 < o ∨ o + 4 < o') : reg64 (setReg64 s o v) o' = reg64 s o' :=
  reg64_congr (reg_setReg64_ne _ _ (by omega) (by omega)) (reg_setReg64_ne _ _ (by omega) (by omega))

theorem reg64_setReg_ne (s : State) {o o' : Nat} (v : Word) (h : o ≠ o') (h4 : o ≠ o' + 4) : reg64 (setReg s o v) o' = reg64 s o' :=
  reg64_congr (reg_setReg_ne _ _ h) (reg_setReg_ne _ _ h4)

theorem reg64_lt (s : State) (o : Nat) : reg64 s o < 2 ^ 64 := by
  have h0 := (reg s o).isLt
  have h4 := (reg s (o + 4)).isLt
  unfold reg64
  omega

theorem stakeNumbered_regs (s : State) : stakeNo (stakeNumbered s) = (stakeNo s + 1) % 2 ^ 64 ∧ reg64 (stakeNumbered s) rStakeStart = tick s
    ∧ reg (stakeNumbered s) rHoldStatus = 0 := by
  unfold stakeNumbered
  refine ⟨?_, ?_, reg_setReg _ _ _⟩
  · rw [stakeNo, reg64_setReg_ne _ _ (by decide) (by decide), reg64_setReg64_ne _ _ (by decide), reg64_setReg64]
  · rw [reg64_setReg_ne _ _ (by decide) (by decide), reg64_setReg64]
    exact Nat.mod_eq_of_lt (reg64_lt s rTick)

theorem applyTimeWrites_eq (s : State) : ∃ t, applyTimeWrites s = { s with time := t } ∧ t.incr = reg s rTimIncr ∧ t.setPending = false
    ∧ t.offsetPending = false := ⟨_, rfl, rfl, rfl, rfl⟩

theorem epochTick_latchEpoch (s : State) : reg64 (latchEpoch s) rEpochTick = tick s := by
  unfold latchEpoch
  dsimp only
  rw [reg64_setReg_ne _ _ (by decide) (by decide), reg64_setReg_ne _ _ (by decide) (by decide), reg64_setReg_ne _ _ (by decide) (by decide),
    reg64_setReg_ne _ _ (by decide) (by decide), reg64_setReg64]
  exact Nat.mod_eq_of_lt (reg64_lt s rTick)

/-! ## The warp copies -/

theorem foldl_modPort (f : Port → Port) (l : List PortId) (hn : l.Nodup) (s : State) (p : PortId) :
    port (l.foldl (fun t p => modPort t p f) s) p = if p ∈ l then f (port s p) else port s p := by
  induction l generalizing s with
  | nil => rfl
  | cons q l ih =>
    obtain ⟨hq, hn⟩ := List.nodup_cons.1 hn
    rw [List.foldl_cons, ih hn]
    by_cases h : q = p
    · subst h
      rw [if_neg hq, if_pos List.mem_cons_self, port_modPort]
    · rw [port_modPort_ne _ _ h]
      simp only [List.mem_cons, Ne.symm h, false_or]

/-- Every port changed in one way. -/
theorem port_allPorts (f : Port → Port) (s : State) (p : PortId) : port (forEach allPorts s (fun t p => modPort t p f)) p = f (port s p) := by
  unfold forEach allPorts
  rw [foldl_modPort f _ (List.nodup_finRange 16) s p, if_pos (List.mem_finRange p)]

theorem forEach_modPort_frame (f : State → PortId → Port → Port) (l : List PortId) (s : State) :
    ∃ ports, l.foldl (fun t p => modPort t p (f t p)) s = { s with ports := ports } := by
  induction l generalizing s with
  | nil => exact ⟨_, rfl⟩
  | cons p l ih =>
    obtain ⟨ports, h⟩ := ih (modPort s p (f s p))
    exact ⟨ports, by rw [List.foldl_cons, h]; rfl⟩

theorem freeWarp_frame (s : State) : ∃ ports, freeWarp s = { s with ports := ports } := forEach_modPort_frame _ _ s

theorem freeWarp_freed (s : State) (p : PortId) : (port (freeWarp s) p).copies = [] ∧ (port (freeWarp s) p).lost = [] := by
  rw [freeWarp, port_allPorts]
  exact ⟨rfl, rfl⟩

end Sys2Proof.Machine
end

section
/-! The weave at a stake boundary, and the boundary as a whole (R207, R225, R226, R228, R230). -/

namespace Sys2Proof.Machine

/-- The registers that the weave's part of a boundary writes. -/
def weaveRegs : List Nat := [rWeaveState, rSplice, rPwrEnvelope, rPairStatus, rWeaveStake, rWeaveStake + 4]

/-- The weave's part of a boundary may lie between the two states. -/
structure Weaving (s t : State) : Prop where
  frame : t = { s with regs := t.regs, pods := t.pods, fsqs := t.fsqs, active := t.active, loaded := t.loaded, misc := t.misc, txItems := t.txItems }
  regs : ∀ o, o ∉ weaveRegs → reg t o = reg s o

theorem Weaving.refl (s : State) : Weaving s s := ⟨rfl, fun _ _ => rfl⟩

theorem Weaving.trans {s t u : State} (h : Weaving s t) (g : Weaving t u) : Weaving s u :=
  ⟨by rw [g.frame, h.frame], fun o ho => (g.regs o ho).trans (h.regs o ho)⟩

theorem Weaving.foldl {α : Type} {f : State → α → State} (xs : List α) (s : State) (hf : ∀ t a, Weaving t (f t a)) : Weaving s (xs.foldl f s) := by
  induction xs generalizing s with
  | nil => exact Weaving.refl s
  | cons a xs ih => exact (hf s a).trans (ih (f s a))

theorem setReg_weaving (s : State) {o : Nat} (v : Word) (ho : o ∈ weaveRegs) : Weaving s (setReg s o v) :=
  ⟨rfl, fun _ hx => reg_setReg_ne s v (fun e => hx (e ▸ ho))⟩

theorem setField_weaving (s : State) {o : Nat} (lo len v : Nat) (ho : o ∈ weaveRegs) : Weaving s (setField s o lo len v) := setReg_weaving s _ ho

theorem setFlag_weaving (s : State) {o : Nat} (i : Nat) (b : Bool) (ho : o ∈ weaveRegs) : Weaving s (setFlag s o i b) := setReg_weaving s _ ho

theorem setReg64_weaving (s : State) {o : Nat} (v : Nat) (ho : o ∈ weaveRegs) (h4 : o + 4 ∈ weaveRegs) : Weaving s (setReg64 s o v) :=
  (setReg_weaving s _ ho).trans (setReg_weaving _ _ h4)

theorem modFsq_weaving (s : State) (f : FsqId) (g : Fsq → Fsq) : Weaving s (modFsq s f g) := ⟨rfl, fun _ _ => rfl⟩

theorem modCore_weaving (s : State) (p : PodId) (f : Core → Core) : Weaving s (modCore s p f) := ⟨rfl, fun _ _ => rfl⟩

theorem modMisc_weaving (s : State) (f : Misc → Misc) : Weaving s (modMisc s f) := ⟨rfl, fun _ _ => rfl⟩

theorem withActive_weaving (s : State) (w : Option Weave) : Weaving s { s with active := w } := ⟨rfl, fun _ _ => rfl⟩

theorem withLoaded_weaving (s : State) (w : Option Weave) : Weaving s { s with loaded := w } := ⟨rfl, fun _ _ => rfl⟩

theorem withTxItems_weaving (s : State) (l : List TxItem) : Weaving s { s with txItems := l } := ⟨rfl, fun _ _ => rfl⟩

theorem clearWeave_weaving (s : State) : Weaving s (clearWeave s) := by
  have hfsqs (t : State) : Weaving t (forEach allFsqs t (fun t f => modFsq t f emptyFsq)) := Weaving.foldl _ t (fun t f => modFsq_weaving t f _)
  unfold clearWeave
  dsimp only
  exact (((((setReg_weaving s _ (by decide)).trans (setReg_weaving _ _ (by decide))).trans (setReg_weaving _ _ (by decide))).trans (hfsqs _)).trans
    (withActive_weaving _ none)).trans (setFlag_weaving _ _ _ (by decide))

theorem startPair_weaving (s : State) : Weaving s (startPair s) := by
  have h : Weaving s (setField (setFlag s rPairStatus 31 (flag s rPair 31)) rPairStatus 0 28 0) :=
    (setFlag_weaving s _ _ (by decide)).trans (setField_weaving _ _ _ _ (by decide))
  unfold startPair
  dsimp only
  split
  · exact h
  · exact h.trans (setField_weaving _ _ _ _ (by decide))

theorem beginWeave_weaving (s : State) (w : Weave) : Weaving s (beginWeave s w) := by
  unfold beginWeave
  dsimp only
  exact ((((setReg_weaving s _ (by decide)).trans (setReg64_weaving _ _ (by decide) (by decide))).trans (setReg_weaving _ _ (by decide))).trans
    (withLoaded_weaving _ none)).trans (startPair_weaving _)

theorem loadingPods_weaving (c : State → PodId → Bool) (s : State) : Weaving s
    (forEach allPods s (fun t p => if c t p = true then modCore t p (fun k => { k with loading := true }) else t)) := by
  refine Weaving.foldl _ s (fun t p => ?_)
  split
  · exact modCore_weaving t p _
  · exact Weaving.refl t

theorem beginQuiet_weaving (s : State) (w : Weave) : Weaving s (beginQuiet s w) := by
  have hpods (t : State) : Weaving t (forEach allPods t (fun t p =>
      if tabGet [] w.code p.val ≠ [] then modCore t p (fun k => { k with loading := true }) else t)) := by
    refine Weaving.foldl _ t (fun t p => ?_)
    split
    · exact modCore_weaving t p _
    · exact Weaving.refl t
  exact ((clearWeave_weaving s).trans (setFlag_weaving _ _ _ (by decide))).trans (hpods _)

theorem beginRecovery_weaving (s : State) (w : Weave) (n : Notice) : Weaving s (beginRecovery s w n) := by
  unfold beginRecovery
  dsimp only
  exact (((((setFlag_weaving s _ _ (by decide)).trans (setFlag_weaving _ _ _ (by decide))).trans (setFlag_weaving _ _ _ (by decide))).trans
    (setField_weaving _ _ _ _ (by decide))).trans (setReg_weaving _ _ (by decide))).trans (loadingPods_weaving _ _)

theorem nextWeaveStake_weaving (s : State) (w : Weave) : Weaving s (nextWeaveStake s w) :=
  ((setFlag_weaving s _ _ (by decide)).trans (setReg64_weaving _ _ (by decide) (by decide))).trans (setField_weaving _ _ _ _ (by decide))

theorem runningStake_weaving (s : State) (w : Weave) (failed : Option Notice) : Weaving s (runningStake s w failed) := by
  cases failed with
  | some n => exact beginRecovery_weaving s w n
  | none => exact nextWeaveStake_weaving s w

theorem weaveBoundary_weaving (s : State) (n : Nat) (failed : Option Notice) : Weaving s (weaveBoundary s n failed) := by
  have hclean : Weaving s (if s.misc.faultCleanup then cleanFault s else s) := by
    split
    · exact (clearWeave_weaving s).trans (modMisc_weaving _ _)
    · exact Weaving.refl s
  have hite (c : Prop) [Decidable c] {t u v : State} (h : Weaving t u) (g : Weaving t v) : Weaving t (if c then u else v) := by
    split
    · exact h
    · exact g
  unfold weaveBoundary
  dsimp only
  refine hclean.trans ?_
  generalize (if s.misc.faultCleanup then cleanFault s else s) = t
  split
  · exact hite _ (beginWeave_weaving ..) (hite _ (beginQuiet_weaving ..) (hite _ (runningStake_weaving ..) (Weaving.refl t)))
  · exact hite _ (beginQuiet_weaving ..) (Weaving.refl t)
  · exact hite _ (clearWeave_weaving t) (hite _ (runningStake_weaving ..) (Weaving.refl t))
  · exact hite _ (clearWeave_weaving t) (Weaving.refl t)

theorem clearFsq_weaving (s : State) : Weaving s (clearFsq s) := by
  unfold clearFsq
  dsimp only
  exact (withTxItems_weaving s []).trans (Weaving.foldl _ _ (fun t f => modFsq_weaving t f _))

theorem clearFsq_regs (s : State) : (clearFsq s).regs = s.regs ∧ (clearFsq s).txItems = [] := by
  have hfold (g : Fsq → Fsq) (l : List FsqId) (t : State) : (l.foldl (fun u f => modFsq u f g) t).regs = t.regs
      ∧ (l.foldl (fun u f => modFsq u f g) t).txItems = t.txItems := by
    induction l generalizing t with
    | nil => exact ⟨rfl, rfl⟩
    | cons f l ih => exact ⟨(ih _).1.trans rfl, (ih _).2.trans rfl⟩
  exact ⟨(hfold ..).1, (hfold ..).2⟩

/-! ## A held notice -/

theorem holdNotice_frame (s : State) : ∃ b ports l, holdNotice s = { setFlag s rWeaveState 25 b with ports := ports, txItems := l }
    ∧ (s.txItems = [] → l = []) ∧ ∀ p, (vget ports p).lost = (port s p).lost ∧ ((port s p).copies = [] → (vget ports p).copies = []) := by
  unfold holdNotice
  split
  · dsimp only
    have hstopped (p : PortId) := port_allPorts (fun x => { x with
      copies := x.copies.map (fun c => { c with scheduled := false }), txWarpExtra := [] }) (setFlag s rWeaveState 25 true) p
    obtain ⟨ports, h⟩ := forEach_modPort_frame (fun _ _ x => { x with
      copies := x.copies.map (fun c => { c with scheduled := false }), txWarpExtra := [] }) allPorts (setFlag s rWeaveState 25 true)
    refine ⟨true, ports, s.txItems.filter (fun i => i.atPick.isSome), ?_, fun hl => by rw [hl]; rfl, fun p => ?_⟩
    · unfold forEach
      rw [h]
      rfl
    · have hp := hstopped p
      unfold forEach at hp
      rw [h] at hp
      have hport : vget ports p = { port s p with copies := (port s p).copies.map (fun c => { c with scheduled := false }), txWarpExtra := [] } := hp
      rw [hport]
      exact ⟨rfl, fun hc => by rw [hc]; rfl⟩
  · exact ⟨false, s.ports, s.txItems, rfl, id, fun p => ⟨rfl, id⟩⟩

end Sys2Proof.Machine
end

section
/-! STAKE_BOUNDARY as a whole, from the state tempsRead at the first tick of the stake. -/

namespace Sys2Proof.Machine

/-- The new stake with its temperatures read. -/
def tempsRead (s : State) (st cd io : List Byte) : State := readJunctions (readStacks (newStake s) st) cd io

/-- The registers that measuring writes. -/
def tempRegs : List Nat := stackRegs ++ ([rPwrTemp, rPwrTempIo] ++ heatRegs)

theorem tempsRead_heated (s : State) (st cd io : List Byte) : Heated tempRegs (newStake s) (tempsRead s st cd io) :=
  ((readStacks_heated _ st).mono (List.subset_append_left _ _)).trans ((readJunctions_heated _ cd io).mono (List.subset_append_right _ _))

theorem newStake_regs (s : State) (o : Nat) : reg (newStake s) o = reg (stakeNumbered s) o := by
  obtain ⟨x, h, -⟩ := newStake_eq s
  rw [h]
  rfl

/-- What measuring does not write reads as the new stake has it. -/
theorem reg_tempsRead (s : State) (st cd io : List Byte) {o : Nat} (h : o ∉ tempRegs) (hp : o ∉ pbaRegs) :
    reg (tempsRead s st cd io) o = reg (stakeNumbered s) o :=
  ((tempsRead_heated s st cd io).regs o h hp).trans (newStake_regs s o)

/-- What neither measuring nor the new stake writes reads as before the boundary. -/
theorem reg_tempsRead_old (s : State) (st cd io : List Byte) {o : Nat} (h : o ∉ tempRegs) (hs : o ∉ stakeRegs) (hp : o ∉ pbaRegs) :
    reg (tempsRead s st cd io) o = reg s o :=
  (reg_tempsRead s st cd io h hp).trans ((stakeNumbered_only s).regs o hs hp)

theorem reg64_tempsRead_old (s : State) (st cd io : List Byte) {o : Nat} (h : o ∉ tempRegs ∧ o + 4 ∉ tempRegs)
    (hs : o ∉ stakeRegs ∧ o + 4 ∉ stakeRegs) (hp : o ∉ pbaRegs ∧ o + 4 ∉ pbaRegs) : reg64 (tempsRead s st cd io) o = reg64 s o :=
  reg64_congr (reg_tempsRead_old s st cd io h.1 hs.1 hp.1) (reg_tempsRead_old s st cd io h.2 hs.2 hp.2)

theorem tempsRead_stack (s : State) (st cd io : List Byte) {k : Nat} (hk : k < 12) : StackShows (tempsRead s st cd io) k (st.getD k 0) := by
  have hdisjoint : ∀ o ∈ stackRegs, o ∉ [rPwrTemp, rPwrTempIo] ++ heatRegs ∧ o ∉ pbaRegs := by decide
  have hsame {o : Nat} (ho : o ∈ stackRegs) : reg (tempsRead s st cd io) o = reg (readStacks (newStake s) st) o :=
    (readJunctions_heated _ cd io).regs o (hdisjoint o ho).1 (hdisjoint o ho).2
  refine (readStacks_shows (newStake s) st hk).congr (hsame (rStackTemp_mem hk)) ?_
  rw [flag, hsame List.mem_cons_self, ← flag]

/-- The rest of the device at the first tick, before the weave moves. -/
theorem tempsRead_frame (s : State) (st cd io : List Byte) : ∃ x, (tempsRead s st cd io).stake = x ∧ x.round = 0 ∧ x.held = false ∧ x.checked = false
    ∧ x.committed = false ∧ (tempsRead s st cd io).mem = s.mem ∧ (tempsRead s st cd io).active = s.active ∧ (tempsRead s st cd io).loaded = s.loaded
    ∧ (tempsRead s st cd io).misc.faultCleanup = s.misc.faultCleanup := by
  obtain ⟨x, h, hx⟩ := newStake_eq s
  have hm := (tempsRead_heated s st cd io).frame
  rw [h] at hm
  obtain ⟨hr, hh, hc, hcm⟩ := hx
  refine ⟨x, ?_, hr, hh, hc, hcm, ?_, ?_, ?_, ?_⟩ <;> rw [hm] <;> rfl

/-- The state in which the weave's part of a boundary begins. -/
def firstTick (s : State) (st cd io : List Byte) : State := freeWarp (latchEpoch (applyTimeWrites (tempsRead s st cd io)))

theorem latchEpoch_stakeNo (s : State) : stakeNo (latchEpoch s) = stakeNo s :=
  reg64_congr ((latchEpoch_noted s).regs _ (by decide) (by decide)) ((latchEpoch_noted s).regs _ (by decide) (by decide))

/-- The notice whose failure stake ends at this boundary. -/
def failedNotice (s : State) : Option Notice :=
  if weaveActive s && !faulted s then s.stake.notices.find? (fun n => n.failStake = stakeNo s) else none

theorem exec_stakeBoundary {s : State} (h : boundaryDue s = true) (st cd io : List Byte) : exec (.stakeBoundary st cd io) s =
    .next (holdNotice (clearFsq (weaveBoundary (firstTick s st cd io) (stakeNo (latchEpoch (applyTimeWrites (tempsRead s st cd io)))) (failedNotice s)))) := by
  show Host.Outcome.next (stakeBoundary s st cd io) = _
  unfold stakeBoundary
  rw [h]
  rfl

theorem firstTick_frame (s : State) (st cd io : List Byte) : ∃ ports t, firstTick s st cd io
      = { tempsRead s st cd io with ports := ports, time := t, regs := (firstTick s st cd io).regs }
    ∧ t.incr = reg (tempsRead s st cd io) rTimIncr ∧ t.setPending = false ∧ t.offsetPending = false
    ∧ ∀ p, (vget ports p).copies = [] ∧ (vget ports p).lost = [] := by
  obtain ⟨t, ht, hincr, hset, hoffset⟩ := applyTimeWrites_eq (tempsRead s st cd io)
  obtain ⟨ports, hports⟩ := freeWarp_frame (latchEpoch (applyTimeWrites (tempsRead s st cd io)))
  have hepoch := (latchEpoch_noted { tempsRead s st cd io with time := t }).frame
  have hlatch : latchEpoch { tempsRead s st cd io with time := t }
      = { tempsRead s st cd io with time := t, regs := (latchEpoch { tempsRead s st cd io with time := t }).regs } := by
    unfold latchEpoch setReg64 setReg
    rfl
  refine ⟨ports, t, ?_, hincr, hset, hoffset, fun p => ?_⟩
  · rw [firstTick, hports, ht, hlatch]
  · have hp := freeWarp_freed (latchEpoch (applyTimeWrites (tempsRead s st cd io))) p
    rw [hports] at hp
    exact hp

theorem reg_withPorts (s : State) (ports : Vector Port 16) (o : Nat) : reg { s with ports := ports } o = reg s o := rfl

theorem reg_withTime (s : State) (t : TimeState) (o : Nat) : reg { s with time := t } o = reg s o := rfl

theorem reg64_withPorts (s : State) (ports : Vector Port 16) (o : Nat) : reg64 { s with ports := ports } o = reg64 s o := rfl

theorem tick_withTime (s : State) (t : TimeState) : tick { s with time := t } = tick s := rfl

theorem reg_firstTick (s : State) (st cd io : List Byte) {o : Nat} (h : o ∉ epochRegs) (hp : o ∉ pbaRegs) :
    reg (firstTick s st cd io) o = reg (tempsRead s st cd io) o := by
  obtain ⟨ports, hports⟩ := freeWarp_frame (latchEpoch (applyTimeWrites (tempsRead s st cd io)))
  obtain ⟨t, ht, -⟩ := applyTimeWrites_eq (tempsRead s st cd io)
  rw [firstTick, hports, reg_withPorts, (latchEpoch_noted _).regs o h hp, ht, reg_withTime]

theorem epochTick_firstTick (s : State) (st cd io : List Byte) : reg64 (firstTick s st cd io) rEpochTick = tick s := by
  obtain ⟨ports, hports⟩ := freeWarp_frame (latchEpoch (applyTimeWrites (tempsRead s st cd io)))
  obtain ⟨t, ht, -⟩ := applyTimeWrites_eq (tempsRead s st cd io)
  rw [firstTick, hports, reg64_withPorts, epochTick_latchEpoch, ht, tick_withTime]
  exact reg64_tempsRead_old s st cd io (by decide) (by decide) (by decide)

/-- The weave as it stands once the boundary's part of it is done. -/
def weaveMoved (s : State) (st cd io : List Byte) : State :=
  weaveBoundary (firstTick s st cd io) (stakeNo (latchEpoch (applyTimeWrites (tempsRead s st cd io)))) (failedNotice s)

/-- What the boundary leaves: the notice of failure, if one is held, shows in FSQ_WEAVE_STATE and stops what waits to be sent. -/
theorem stakeBoundary_ends {s : State} (h : boundaryDue s = true) (st cd io : List Byte) : ∃ t b, exec (.stakeBoundary st cd io) s = .next t
    ∧ (∀ o, reg t o = reg (setFlag (weaveMoved s st cd io) rWeaveState 25 b) o) ∧ t.stake = (tempsRead s st cd io).stake ∧ t.mem = (tempsRead s st cd io).mem
    ∧ t.time = (firstTick s st cd io).time ∧ t.txItems = [] ∧ ∀ p : PortId, (port t p).copies = [] ∧ (port t p).lost = [] := by
  obtain ⟨ports, tm, hfirst, -, -, -, hfreed⟩ := firstTick_frame s st cd io
  have hweave : Weaving (firstTick s st cd io) (clearFsq (weaveMoved s st cd io)) :=
    (weaveBoundary_weaving ..).trans (clearFsq_weaving _)
  have hframe := hweave.frame
  rw [hfirst] at hframe
  obtain ⟨hregs, hitems⟩ := clearFsq_regs (weaveMoved s st cd io)
  obtain ⟨b, q, l, hhold, hl, hq⟩ := holdNotice_frame (clearFsq (weaveMoved s st cd io))
  have hport (p : PortId) : port (clearFsq (weaveMoved s st cd io)) p = vget ports p := by rw [hframe]; rfl
  refine ⟨_, b, (exec_stakeBoundary h st cd io).trans (congrArg _ hhold), fun o => ?_, ?_, ?_, ?_, hl hitems, fun p => ⟨?_, ?_⟩⟩
  · show tabGet (regDefault o) (setFlag (clearFsq (weaveMoved s st cd io)) rWeaveState 25 b).regs o = _
    have hsame : reg (clearFsq (weaveMoved s st cd io)) rWeaveState = reg (weaveMoved s st cd io) rWeaveState := by rw [reg, hregs, ← reg]
    unfold setFlag setField
    rw [hsame]
    unfold setReg reg
    rw [hregs]
  · exact (congrArg State.stake hframe :)
  · exact (congrArg State.mem hframe :)
  · rw [hfirst]
    exact (congrArg State.time hframe :)
  · exact (hq p).2 (by rw [hport]; exact (hfreed p).1)
  · exact (hq p).1.trans (by rw [hport]; exact (hfreed p).2)

/-- A register that the weave's part does not write. -/
theorem reg_weaveMoved (s : State) (st cd io : List Byte) {o : Nat} (h : o ∉ epochRegs) (hp : o ∉ pbaRegs) (hw : o ∉ weaveRegs) :
    reg (weaveMoved s st cd io) o = reg (tempsRead s st cd io) o :=
  ((weaveBoundary_weaving ..).regs o hw).trans (reg_firstTick s st cd io h hp)

end Sys2Proof.Machine
end

section
/-! STAKE_BOUNDARY as its statement has it. -/

namespace Sys2Proof.Machine

/-- A register after one of its bits is written. -/
theorem reg_setFlag (s : State) (o i : Nat) (b : Bool) : reg (setFlag s o i b) o = setB (reg s o) i b := reg_setReg s o _

theorem boundaryDue_false {s : State} (h : fabricRuns s = false ∨ stakeOffset s ≠ 36864 + 9216 * s.stake.round ∨ s.stake.committed = false) :
    boundaryDue s = false := by
  rw [boundaryDue, Bool.and_eq_false_iff, Bool.and_eq_false_iff, decide_eq_false_iff_not, or_assoc]
  exact h

/-- A register apart from the weave's and the epoch's, after the boundary. -/
theorem reg_of_ends {s t : State} {st cd io : List Byte} {b : Bool}
    (h : ∀ o, reg t o = reg (setFlag (weaveMoved s st cd io) rWeaveState 25 b) o) {o : Nat} (he : o ∉ epochRegs) (hp : o ∉ pbaRegs) (hw : o ∉ weaveRegs) :
    reg t o = reg (tempsRead s st cd io) o := by
  rw [h, reg_setFlag_ne _ _ _ (ne_of_mem_of_not_mem List.mem_cons_self hw), reg_weaveMoved s st cd io he hp hw]

theorem reg64_of_ends {s t : State} {st cd io : List Byte} {b : Bool}
    (h : ∀ o, reg t o = reg (setFlag (weaveMoved s st cd io) rWeaveState 25 b) o) {o : Nat} (he : o ∉ epochRegs ∧ o + 4 ∉ epochRegs)
    (hp : o ∉ pbaRegs ∧ o + 4 ∉ pbaRegs) (hw : o ∉ weaveRegs ∧ o + 4 ∉ weaveRegs) : reg64 t o = reg64 (tempsRead s st cd io) o :=
  reg64_congr (reg_of_ends h he.1 hp.1 hw.1) (reg_of_ends h he.2 hp.2 hw.2)

theorem epochTick_of_ends {s t : State} {st cd io : List Byte} {b : Bool}
    (h : ∀ o, reg t o = reg (setFlag (weaveMoved s st cd io) rWeaveState 25 b) o) : reg64 t rEpochTick = tick s := by
  have hsame {o : Nat} (hw : o ∉ weaveRegs) : reg t o = reg (firstTick s st cd io) o := by
    rw [h, reg_setFlag_ne _ _ _ (ne_of_mem_of_not_mem List.mem_cons_self hw)]
    exact (weaveBoundary_weaving ..).regs o hw
  exact (reg64_congr (hsame (by decide)) (hsame (by decide))).trans (epochTick_firstTick s st cd io)

theorem stackShows_of_ends {s t : State} {st cd io : List Byte} {b : Bool}
    (h : ∀ o, reg t o = reg (setFlag (weaveMoved s st cd io) rWeaveState 25 b) o) (k : StackId) : StackShows t k.val (st.getD k.val 0) := by
  have hapart : ∀ o ∈ stackRegs, o ∉ epochRegs ∧ o ∉ pbaRegs ∧ o ∉ weaveRegs := by decide
  have hsame {o : Nat} (ho : o ∈ stackRegs) : reg t o = reg (tempsRead s st cd io) o :=
    reg_of_ends h (hapart o ho).1 (hapart o ho).2.1 (hapart o ho).2.2
  refine (tempsRead_stack s st cd io k.isLt).congr (hsame (rStackTemp_mem k.isLt)) ?_
  rw [flag, hsame List.mem_cons_self, ← flag]

/-! ## The next weave stake -/

theorem weaveBoundary_running {s : State} {w : Weave} (hc : s.misc.faultCleanup = false) (hl : s.loaded = none) (ha : s.active = some w)
    (hq : quiet s = false) (hw : weaveActive s = true) (n : Nat) : weaveBoundary s n none = nextWeaveStake s w := by
  unfold weaveBoundary
  rw [hc, if_neg Bool.false_ne_true]
  dsimp only
  rw [hl, ha]
  dsimp only
  rw [hq, hw]
  rfl

theorem failedNotice_none {s : State} (h : ∀ n ∈ s.stake.notices, n.failStake ≠ stakeNo s) : failedNotice s = none := by
  unfold failedNotice
  split
  · exact List.find?_eq_none.2 (fun n hn => by rw [decide_eq_true_iff]; exact h n hn)
  · rfl

theorem nextWeaveStake_regs (s : State) (w : Weave) : reg64 (nextWeaveStake s w) rWeaveStake = (weaveStake s + 1) % 2 ^ 64
    ∧ reg (nextWeaveStake s w) rWeaveState = setF (setB (reg s rWeaveState) 28 false) 12 12 ((weaveStake s + 1) % w.period) := by
  unfold nextWeaveStake
  dsimp only
  constructor
  · rw [setField, reg64_setReg_ne _ _ (by decide) (by decide), reg64_setReg64]
  · rw [reg_setField, reg_setReg64_ne _ _ (by decide) (by decide), reg_setFlag]

end Sys2Proof.Machine

open Sys2Proof.Machine in
/-- Settles O20: the registers by what each part of the boundary writes, and a running weave by the next weave stake. -/
theorem stakeBoundaryBeginsAStake : Obligations.StakeBoundaryBeginsAStake := by
  unfold Obligations.StakeBoundaryBeginsAStake
  refine ⟨fun st cd io s _ hf ho hc => ?begins, fun st cd io s h => ?idle, fun st cd io w s _ hdue hw ha hl hq hclean hnotice => ?weave⟩
  case begins =>
    have hdue : boundaryDue s = true := (boundaryDue_of_committed hc).2 ⟨hf, ho⟩
    obtain ⟨t, b, hexec, hreg, hstake, hmem, htime, hitems, hports⟩ := stakeBoundary_ends hdue st cd io
    obtain ⟨x, hx, hround, hheld, hchecked, hcommitted, hmem', -⟩ := tempsRead_frame s st cd io
    obtain ⟨ports, tm, hfirst, hincr, hset, hoffset, -⟩ := firstTick_frame s st cd io
    obtain ⟨hno, hstart, hholds⟩ := stakeNumbered_regs s
    have htm : t.time = tm := htime.trans (by rw [hfirst])
    have htemps := reg_readJunctions (readStacks (newStake s) st) cd io
    refine ⟨t, hexec, ?_, ?_, ?_, ?_, ?_, ?_, ?_, ?_, epochTick_of_ends hreg, ?_, ?_, ?_, ?_, ?_, stackShows_of_ends hreg, hports, hitems,
      fun a => memByte_congr (hmem.trans hmem') a⟩
    · exact (reg64_of_ends hreg (by decide) (by decide) (by decide)).trans
        ((reg64_congr (reg_tempsRead s st cd io (by decide) (by decide)) (reg_tempsRead s st cd io (by decide) (by decide))).trans hno)
    · exact (reg64_of_ends hreg (by decide) (by decide) (by decide)).trans
        ((reg64_congr (reg_tempsRead s st cd io (by decide) (by decide)) (reg_tempsRead s st cd io (by decide) (by decide))).trans hstart)
    · exact (reg64_of_ends hreg (by decide) (by decide) (by decide)).trans (reg64_tempsRead_old s st cd io (by decide) (by decide) (by decide))
    · exact (reg_of_ends hreg (by decide) (by decide) (by decide)).trans ((reg_tempsRead s st cd io (by decide) (by decide)).trans hholds)
    · rw [hstake, hx, hround]
    · rw [hstake, hx, hheld]
    · rw [hstake, hx, hchecked]
    · rw [hstake, hx, hcommitted]
    · rw [htm, hincr]
      exact reg_tempsRead_old s st cd io (by decide) (by decide) (by decide)
    · rw [htm, hset]
    · rw [htm, hoffset]
    · exact (reg_of_ends hreg (by decide) (by decide) (by decide)).trans htemps.1
    · exact (reg_of_ends hreg (by decide) (by decide) (by decide)).trans htemps.2
  case idle =>
    show Host.Outcome.next (stakeBoundary s st cd io) = _
    unfold stakeBoundary
    rw [boundaryDue_false h]
    rfl
  case weave =>
    obtain ⟨t, b, hexec, hreg, -⟩ := stakeBoundary_ends hdue st cd io
    obtain ⟨x, -, -, -, -, -, -, hactive, hloaded, hcleanup⟩ := tempsRead_frame s st cd io
    obtain ⟨ports, tm, hfirst, -⟩ := firstTick_frame s st cd io
    have hold {o : Nat} (hm : o ∉ tempRegs) (hs : o ∉ stakeRegs) (he : o ∉ epochRegs) (hp : o ∉ pbaRegs) :
        reg (firstTick s st cd io) o = reg s o := (reg_firstTick s st cd io he hp).trans (reg_tempsRead_old s st cd io hm hs hp)
    have hstate : reg (firstTick s st cd io) rWeaveState = reg s rWeaveState := hold (by decide) (by decide) (by decide) (by decide)
    have hno : weaveStake (firstTick s st cd io) = weaveStake s :=
      reg64_congr (hold (by decide) (by decide) (by decide) (by decide)) (hold (by decide) (by decide) (by decide) (by decide))
    have hmoved : weaveMoved s st cd io = nextWeaveStake (firstTick s st cd io) w := by
      rw [weaveMoved, failedNotice_none hnotice]
      refine weaveBoundary_running ?_ ?_ ?_ ?_ ?_ _
      · rw [hfirst]; exact hcleanup.trans hclean
      · rw [hfirst]; exact hloaded.trans hl
      · rw [hfirst]; exact hactive.trans ha
      · rw [quiet, flag, hstate]; exact hq
      · rw [weaveActive, flag, hstate]; exact hw
    obtain ⟨hstake, hword⟩ := nextWeaveStake_regs (firstTick s st cd io) w
    have hfinal : reg t rWeaveState = setB (setF (setB (reg s rWeaveState) 28 false) 12 12 ((weaveStake s + 1) % w.period)) 25 b := by
      rw [hreg, reg_setFlag, hmoved, hword, hstate, hno]
    refine ⟨t, hexec, ?_, ?_, ?_, ?_⟩
    · have hne {o : Nat} (ho : rWeaveState ≠ o) : reg t o = reg (nextWeaveStake (firstTick s st cd io) w) o := by
        rw [hreg, reg_setFlag_ne _ _ _ ho, hmoved]
      rw [weaveStake, reg64_congr (hne (by decide)) (hne (by decide)), hstake, hno]
    · rw [position, field, hfinal, setB, getF_setF_ne _ _ _ _ _ _ (by decide)]
      exact getF_setF _ _ _ _ (by decide)
    · rw [weaveActive, flag, hfinal, getB_setB_ne _ _ (by decide), getB, getLsbD_setF_ne _ _ _ _ _ (by decide)]
      exact (getB_setB_ne _ _ (by decide)).trans hw
    · rw [recovering, flag, hfinal, getB_setB_ne _ _ (by decide), getB, getLsbD_setF_ne _ _ _ _ _ (by decide)]
      exact getB_setB _ _ _ (by decide)
end

section
/-! What the work between the frames of the Pods leaves alone: the frame numbers, the weights, the code of the Pods and the Fabric Sequencers, and but
for the writes of commits the memory. -/

namespace Sys2Proof.Machine

/-- Work of the on-die network, the twine plane, the streams or an error may lie between the two states; with `k`, memory stays as well. -/
structure Calm (k : Bool) (s t : State) : Prop where
  stake : t.stake = { s.stake with arisen := t.stake.arisen }
  mem : k = true → t.mem = s.mem
  fsqs : t.fsqs = s.fsqs
  weights : t.misc.weightNow = s.misc.weightNow ∧ t.misc.weightNext = s.misc.weightNext
  code : ∀ p : PodId, reg t (rPod p.val 0x108) = reg s (rPod p.val 0x108)

theorem Calm.refl (k : Bool) (s : State) : Calm k s s := ⟨rfl, fun _ => rfl, rfl, ⟨rfl, rfl⟩, fun _ => rfl⟩

theorem Calm.trans {k : Bool} {s t u : State} (h : Calm k s t) (g : Calm k t u) : Calm k s u :=
  ⟨by rw [g.stake, h.stake], fun hk => (g.mem hk).trans (h.mem hk), g.fsqs.trans h.fsqs, ⟨g.weights.1.trans h.weights.1, g.weights.2.trans h.weights.2⟩,
    fun p => (g.code p).trans (h.code p)⟩

theorem Calm.foldl {α : Type} {k : Bool} {f : State → α → State} (xs : List α) (s : State) (hf : ∀ t a, Calm k t (f t a)) : Calm k s (xs.foldl f s) := by
  induction xs generalizing s with
  | nil => exact Calm.refl k s
  | cons a xs ih => exact (hf s a).trans (ih (f s a))

theorem Calm.forEach {α : Type} {k : Bool} {f : State → α → State} {xs : List α} {s t : State} (h : Calm k s t) (hf : ∀ t a, Calm k t (f t a)) :
    Calm k s (Machine.forEach xs t f) := h.trans (Calm.foldl xs t hf)

theorem ite_calm {k : Bool} {c : Prop} [Decidable c] {s t u : State} (h : Calm k s t) (g : Calm k s u) : Calm k s (if c then t else u) := by
  split
  · exact h
  · exact g

/-- A change under a condition only. -/
theorem when_calm {k : Bool} {c : Prop} [Decidable c] {s t u : State} (h : Calm k s t) (g : Calm k t u) : Calm k s (if c then u else t) :=
  ite_calm (h.trans g) h

theorem Calm.memSame {s t : State} (h : Calm true s t) : MemSame s t := fun a => memByte_congr (h.mem rfl) a

/-! ## Registers and records -/

/-- The offset is no Pod's code length. -/
def NoCode (o : Nat) : Prop := ∀ p : PodId, o ≠ rPod p.val 0x108

theorem noCode_of_low {o : Nat} (h : o < 0x1000000) : NoCode o := fun p => by unfold rPod; omega

theorem noCode_of_high {o : Nat} (h : 0x1400000 ≤ o) : NoCode o := fun p => by unfold rPod; omega

theorem noCode_pod (p : PodId) {x : Nat} (h : x < 0x10000) (hx : x ≠ 0x108) : NoCode (rPod p.val x) := fun q => by unfold rPod; omega

section
variable (k : Bool) (s : State)

theorem setReg_calm {o : Nat} (v : Word) (h : NoCode o) : Calm k s (setReg s o v) :=
  ⟨rfl, fun _ => rfl, rfl, ⟨rfl, rfl⟩, fun p => reg_setReg_ne s v (h p)⟩

theorem setReg64_calm {o : Nat} (v : Nat) (h : NoCode o) (h4 : NoCode (o + 4)) : Calm k s (setReg64 s o v) :=
  (setReg_calm k s _ h).trans (setReg_calm k _ _ h4)

theorem setField_calm {o : Nat} (lo len v : Nat) (h : NoCode o) : Calm k s (setField s o lo len v) := setReg_calm k s _ h

theorem setFlag_calm {o : Nat} (i : Nat) (b : Bool) (h : NoCode o) : Calm k s (setFlag s o i b) := setReg_calm k s _ h

theorem addSat_calm {o : Nat} (n : Nat) (h : NoCode o) : Calm k s (addSat s o n) := setReg_calm k s _ h

theorem add64_calm {o : Nat} (n : Nat) (h : NoCode o) (h4 : NoCode (o + 4)) : Calm k s (add64 s o n) := setReg64_calm k s _ h h4

theorem setPod_calm (p : PodId) (x : Pod) : Calm k s (setPod s p x) := ⟨rfl, fun _ => rfl, rfl, ⟨rfl, rfl⟩, fun _ => rfl⟩

theorem modPod_calm (p : PodId) (f : Pod → Pod) : Calm k s (modPod s p f) := ⟨rfl, fun _ => rfl, rfl, ⟨rfl, rfl⟩, fun _ => rfl⟩

theorem modPort_calm (p : PortId) (f : Port → Port) : Calm k s (modPort s p f) := ⟨rfl, fun _ => rfl, rfl, ⟨rfl, rfl⟩, fun _ => rfl⟩

theorem modStrm_calm (i : StreamId) (f : Stream → Stream) : Calm k s (modStrm s i f) := ⟨rfl, fun _ => rfl, rfl, ⟨rfl, rfl⟩, fun _ => rfl⟩

theorem emit_calm (x : Output) : Calm k s (emit s x) := ⟨rfl, fun _ => rfl, rfl, ⟨rfl, rfl⟩, fun _ => rfl⟩

theorem modMisc_calm (f : Misc → Misc) (h : (f s.misc).weightNow = s.misc.weightNow ∧ (f s.misc).weightNext = s.misc.weightNext) :
    Calm k s (modMisc s f) := ⟨rfl, fun _ => rfl, rfl, h, fun _ => rfl⟩

theorem memWrite_calm (a : Nat) (b : List Byte) : Calm false s (memWrite s a b) := ⟨rfl, fun h => absurd h (by decide), rfl, ⟨rfl, rfl⟩, fun _ => rfl⟩

/-! ## Errors -/

theorem Noted.calm {l : List Nat} {s t : State} (h : Noted l s t) (hl : ∀ o ∈ l, o < 0x1000000) : Calm k s t := by
  refine ⟨by rw [h.frame], fun _ => by rw [h.frame], by rw [h.frame], by rw [h.frame]; exact ⟨rfl, rfl⟩, fun p => h.regs _ (fun hm => ?_) (fun hm => ?_)⟩
  · exact noCode_of_low (hl _ hm) p rfl
  · exact noCode_of_low ((by decide : ∀ o ∈ pbaRegs, o < 0x1000000) _ hm) p rfl

theorem Faulting.calm {l : List Nat} {s t : State} (h : Faulting l s t) (hl : ∀ o ∈ l, o < 0x1000000) : Calm k s t := by
  refine ⟨by rw [h.frame], fun _ => by rw [h.frame], by rw [h.frame], by rw [h.frame]; exact ⟨rfl, rfl⟩, fun p => h.regs _ (fun hm => ?_) ?_⟩
  · exact noCode_of_low (hl _ hm) p rfl
  · rintro (hw | hp | hs | ⟨q, hq⟩)
    · exact noCode_of_low (o := rWeaveState) (by decide) p hw.symm
    · exact noCode_of_low ((by decide : ∀ o ∈ pbaRegs, o < 0x1000000) _ hp) p rfl
    · unfold rPod at hs
      omega
    · unfold rPod at hq
      omega

theorem capRegs_low {b : Nat} (h : b < 19) : ∀ o ∈ capRegs b, o < 0x1000000 := by
  intro o ho
  simp only [capRegs, upTo, List.mem_map, List.mem_range] at ho
  obtain ⟨i, hi, rfl⟩ := ho
  unfold rCap
  omega

theorem errRegs_low {b off : Nat} (hb : b < 19) (ho : off < 0x1000000) : ∀ o ∈ off :: capRegs b, o < 0x1000000 := by
  intro o hm
  rcases List.mem_cons.1 hm with rfl | hm
  · exact ho
  · exact capRegs_low hb o hm

theorem raiseErr_calm {b off : Nat} (bit unit addr : Nat) (hb : b < 19) (ho : off < 0x1000000) : Calm k s (raiseErr s b off bit unit addr) :=
  (raiseErr_noted s b off bit unit addr List.mem_cons_self (List.subset_cons_self ..)).calm k (errRegs_low hb ho)

theorem machineFault_calm (e i u : Nat) : Calm k s (machineFault s e i u) := (machineFault_local s e i u).1.calm k (by decide)

theorem raiseFault_calm {b off : Nat} (bit unit addr : Nat) (hb : b < 19) (ho : off < 0x1000000) : Calm k s (raiseFault s b off bit unit addr) :=
  (raiseErr_calm k s bit unit addr hb ho).trans (machineFault_calm k _ _ _ _)

theorem raisePodErr_calm {b off : Nat} (p : PodId) (addr : Nat) (f : Bool) (hb : b < 19) (ho : off + 4 < 0x1000000) :
    Calm k s (raisePodErr s b off p addr f) := by
  have h : off + 4 * (p.val / 32) < 0x1000000 := by omega
  unfold raisePodErr
  dsimp only
  exact ite_calm (raiseFault_calm k s _ _ _ hb h) (raiseErr_calm k s _ _ _ hb h)

theorem postEvent_calm (kind a b : Nat) (d : List Byte) : Calm k s (postEvent s kind a b d) :=
  (postEvent_noted [] s kind a b d).calm k (fun _ h => absurd h List.not_mem_nil)

/-! ## Reads and transfers at the banks -/

theorem storeRead_calm (p : PodId) (o n : Nat) : Calm k s (storeRead s p o n).1 := by
  have hcount (l : List Nat) : Calm k s
      (forEach l s (fun t w => addSat t (rPod p (if w < podAddr p 0x1000000 then 0x700 else 0x704)) 1)) := by
    refine (Calm.refl k s).forEach (fun t w => addSat_calm k t _ (noCode_pod p ?_ ?_)) <;> split <;> decide
  unfold storeRead
  dsimp only
  split
  · exact (hcount _).trans (raisePodErr_calm k _ _ _ _ (by decide) (by decide))
  · exact hcount _

theorem countRoot_calm (n : Nat) : Calm k s (countRoot s n) := ⟨rfl, fun _ => rfl, rfl, ⟨rfl, rfl⟩, fun _ => rfl⟩

theorem rootRead_calm (a n : Nat) : Calm k s (rootRead s a n).1 := by
  unfold rootRead
  dsimp only
  refine Calm.forEach (Calm.forEach (countRoot_calm k s n) (fun t w => addSat_calm k t _ (noCode_of_high ?_)))
    (fun t w => raiseFault_calm k t _ _ _ (by decide) (by decide))
  unfold rRootEcc
  omega

theorem netStream_calm (p : PodId) (op : Nat) (write : Bool) (o n : Nat) : Calm k s (netStream s p op write o n) := by
  unfold netStream
  dsimp only
  refine modMisc_calm k s _ ?_
  exact ⟨rfl, rfl⟩

theorem closeJob_calm (key : NetKey) : Calm k s (closeJob s key) := modMisc_calm k s _ ⟨rfl, rfl⟩

theorem askRead_calm (p : PodId) (key : NetKey) (pieces : List (Nat × Nat)) : Calm k s (askRead s p key pieces) := by
  unfold askRead
  dsimp only
  exact ((Calm.refl k s).forEach (fun t e => netStream_calm k t p _ _ _ _)).trans (modMisc_calm k _ _ ⟨rfl, rfl⟩)

theorem startWrite_calm (p : PodId) (key : NetKey) (o n : Nat) (w : List (Nat × List Byte)) : Calm k s (startWrite s p key o n w) :=
  ((netStream_calm k s p _ _ _ _).trans (modMisc_calm k _ _ ⟨rfl, rfl⟩)).trans (modPod_calm k _ p _)

theorem askWrite_calm (p : PodId) (key : NetKey) (o : Nat) (b : List Byte) : Calm k s (askWrite s p key o b) := by
  have hlost (n : Nat) : Calm k s (if n = 0 then s else addSat s (rPod p 0x884) n) :=
    ite_calm (Calm.refl k s) (addSat_calm k s _ (noCode_pod p (by decide) (by decide)))
  unfold askWrite
  generalize keptUnits s p o b = kept
  dsimp only
  generalize ceilDiv b.length 64 - kept.length = n
  split
  · exact hlost n
  · exact (hlost n).trans (startWrite_calm k _ p key o _ kept)

theorem netRead_calm (p : PodId) (key : NetKey) (pieces : List (Nat × Nat)) : Calm k s (netRead s p key pieces).1 := by
  have hcount : Calm k s (forEach pieces s (fun t e => (storeRead t p e.1 e.2).1)) :=
    (Calm.refl k s).forEach (fun t e => storeRead_calm k t p e.1 e.2)
  unfold netRead
  split
  · exact hcount.trans (askRead_calm k _ p key pieces)
  · split
    · exact closeJob_calm k s key
    · exact Calm.refl k s

theorem netPut_calm (p : PodId) (key : NetKey) (o : Nat) (b : List Byte) : Calm k s (netPut s p key o b).1 := by
  unfold netPut
  split
  · exact askWrite_calm k s p key o b
  · split
    · exact closeJob_calm k s key
    · exact Calm.refl k s

theorem hostGet_calm (key : NetKey) (a n : Nat) : Calm k s (hostGet s key a n).1 := by
  unfold hostGet
  split
  · exact netRead_calm k s _ key _
  · split
    · exact rootRead_calm k s a n
    · exact Calm.refl k s

/-! ## Queues -/

theorem noteDepth_calm (p : PodId) {q : Nat} (depth : Nat) (h : q < 16) : Calm k s (noteDepth s p q depth) :=
  ite_calm (setField_calm k s _ _ _ (noCode_pod p (by omega) (by omega))) (Calm.refl k s)

theorem acceptEntry_calm (p : PodId) (q : Fin 8) (bytes : List Byte) (str : Option (StreamId × Nat)) : Calm k s (acceptEntry s p q bytes str) :=
  (modPod_calm k s p _).trans (noteDepth_calm k _ p _ (by omega))

theorem refuseEntry_calm (p : PodId) : Calm k s (refuseEntry s p) := addSat_calm k s 1 (noCode_pod p (by decide) (by decide))

theorem causeArises_calm (bits : Nat) : Calm k s (causeArises s bits) := by
  unfold causeArises
  split
  · exact Calm.refl k s
  · exact ⟨rfl, fun _ => rfl, rfl, ⟨rfl, rfl⟩, fun _ => rfl⟩

theorem completeHeads_calm (p : PodId) (q : Fin 8) : Calm k s (completeHeads s p q) := by
  unfold completeHeads
  dsimp only
  exact ite_calm (Calm.refl k s) ((ite_calm (causeArises_calm k s 4) (Calm.refl k s)).trans (modPod_calm k _ p _))

theorem finishTransfer_calm (p : PodId) (q : Fin 8) (sel : Token → Bool) : Calm k s (finishTransfer s p q sel) :=
  (modPod_calm k s p _).trans (completeHeads_calm k _ p q)

/-! ## Twine packets -/

theorem queueTx_calm (p : PortId) (held : Option PortId) (x : Packet) : Calm k s (queueTx s p held x) := modPort_calm k s p _

theorem noRoute_calm (x : Packet) : Calm k s (noRoute s x) :=
  (add64_calm k s 1 (noCode_of_low (by decide)) (noCode_of_low (by decide))).trans (raiseErr_calm k _ _ _ _ (by decide) (by decide))

theorem releaseFence_calm (f : Fenced) : Calm k s (releaseFence s f) := by
  unfold releaseFence
  split
  · exact queueTx_calm k s _ _ _
  · exact modMisc_calm k s _ ⟨rfl, rfl⟩
  · exact (noRoute_calm k s _).trans (finishTransfer_calm k _ _ _ _)

theorem releaseReady_calm : Calm k s (releaseReady s) := by
  unfold releaseReady
  dsimp only
  refine Calm.forEach (modMisc_calm k s _ ?_) (fun t f => releaseFence_calm k t f)
  exact ⟨rfl, rfl⟩

theorem confirmToken_calm (p : PodId) (q : Fin 8) (sel : Token → Bool) : Calm k s (confirmToken s p q sel) :=
  (finishTransfer_calm k s p q sel).trans (Calm.foldl _ _ (fun t _ => releaseReady_calm k t))

theorem takeDoneResponse_calm (x : Packet) : Calm k s (takeDoneResponse s x) := confirmToken_calm k s _ _ _

theorem sendDone_calm (x : Packet) (status : Nat) : Calm k s (sendDone s x status) := by
  unfold sendDone
  dsimp only
  split
  · exact takeDoneResponse_calm k s _
  · exact (modMisc_calm k s _ ⟨rfl, rfl⟩).trans (queueTx_calm k _ _ _ _)
  · exact noRoute_calm k s _

theorem freeRx_calm (p : PortId) (x : Packet) : Calm k s (freeRx s p x) := ite_calm (modPort_calm k s p _) (Calm.refl k s)

theorem freeFrom_calm (src : Option PortId) (x : Packet) : Calm k s (freeFrom s src x) := by
  cases src with
  | none =>
    unfold freeFrom
    refine modMisc_calm k s _ ?_
    exact ⟨rfl, rfl⟩
  | some p => exact freeRx_calm k s p x

theorem payloadPut_calm (src : Option PortId) (x : Packet) : Calm k s (payloadPut s src x).1 := by
  unfold payloadPut
  split
  · exact Calm.refl k s
  · exact netPut_calm k s _ _ _ _

theorem afterWrite_calm (src : Option PortId) (x : Packet) : Calm k s (afterWrite s src x) := by
  have h : Calm k s (freeFrom (acceptEntry s (podOf x.dst) (queueOf x.dst) (twineEntry x) none) src x) :=
    (acceptEntry_calm k s _ _ _ _).trans (freeFrom_calm k _ src x)
  unfold afterWrite
  dsimp only
  exact ite_calm (h.trans (sendDone_calm k _ _ _)) (ite_calm (h.trans (confirmToken_calm k _ _ _ _)) h)

theorem deliverWrite_calm (src : Option PortId) (x : Packet) : Calm k s (deliverWrite s src x) := by
  unfold deliverWrite
  dsimp only
  exact ite_calm (Calm.refl k s) (ite_calm (ite_calm ((payloadPut_calm k s src x).trans (afterWrite_calm k _ src x)) (payloadPut_calm k s src x))
    ((refuseEntry_calm k s _).trans (modPod_calm k _ _ _)))

theorem deliverFadd_calm (src : Option PortId) (x : Packet) : Calm k s (deliverFadd s src x) := by
  have hfinish (t : State) (st : Nat) (h : Calm k s t) : Calm k s (sendDone (freeFrom t src x) x st) :=
    (h.trans (freeFrom_calm k t src x)).trans (sendDone_calm k _ x st)
  unfold deliverFadd
  dsimp only
  refine ite_calm (hfinish _ _ (Calm.refl k s)) (ite_calm (Calm.refl k s) (ite_calm ?_ ?_))
  · exact ite_calm (hfinish _ _ (netPut_calm k s _ _ _ _)) (netPut_calm k s _ _ _ _)
  · split
    · exact netRead_calm k s _ _ _
    · have h (old : List Byte) := (netRead_calm k s (podOf x.dst) (.packet src x 0) [(targetOf x, x.payload.length)]).trans
        (netPut_calm k _ (podOf x.dst) (.packet src x 1) (targetOf x) (faddLanes old x))
      exact ite_calm (hfinish _ _ (h _)) (h _)

theorem deliverOcommit_calm (src : Option PortId) (x : Packet) : Calm k s (deliverOcommit s src x) := by
  unfold deliverOcommit
  dsimp only
  refine ite_calm ((freeFrom_calm k s src x).trans (sendDone_calm k _ _ _)) (ite_calm (Calm.refl k s) ?_)
  exact ((modMisc_calm k s _ (by exact ⟨rfl, rfl⟩)).trans (freeFrom_calm k _ src x)).trans (sendDone_calm k _ _ _)

theorem deliverByp_calm (src : Option PortId) (x : Packet) : Calm k s (deliverByp s src x) := by
  have hport (q : PortId) : NoCode (rPort q.val 0xA0) ∧ NoCode (rPort q.val 0xA0 + 4) :=
    ⟨noCode_of_low (by unfold rPort; omega), noCode_of_low (by unfold rPort; omega)⟩
  have h : Calm k s (if inqRoom s (podOf x.dst) (queueOf x.dst) then acceptEntry s (podOf x.dst) (queueOf x.dst) (twineEntry x) none
      else add64 (refuseEntry s (podOf x.dst)) (rPort (src.getD 0) 0xA0) 1) :=
    ite_calm (acceptEntry_calm k s _ _ _ _) ((refuseEntry_calm k s _).trans (add64_calm k _ 1 (hport _).1 (hport _).2))
  unfold deliverByp
  dsimp only
  exact ite_calm ((h.trans (freeFrom_calm k _ src x)).trans (confirmToken_calm k _ _ _ _)) (h.trans (freeFrom_calm k _ src x))

theorem toKeeper_calm (src : Option PortId) (x : Packet) : Calm k s (toKeeper s src x) := (freeFrom_calm k s src x).trans (emit_calm k _ _)

theorem serveRequest_calm (src : Option PortId) (x : Packet) : Calm k s (serveRequest s src x) :=
  ite_calm (Calm.refl k s) (ite_calm (deliverWrite_calm k s src x) (ite_calm (deliverFadd_calm k s src x)
    (ite_calm (deliverOcommit_calm k s src x) (toKeeper_calm k s src x))))

theorem deliverHere_calm (x : Packet) : Calm k s (deliverHere s x) :=
  ite_calm (serveRequest_calm k s none x) (ite_calm ((freeFrom_calm k s none x).trans (takeDoneResponse_calm k _ x))
    (ite_calm (deliverWrite_calm k s none x) (ite_calm (deliverByp_calm k s none x) (toKeeper_calm k s none x))))

theorem serveLocal_calm (n : Nat) : Calm k s (serveLocal n s) := by
  induction n generalizing s with
  | zero => exact Calm.refl k s
  | succ n ih =>
    unfold serveLocal
    split
    · exact Calm.refl k s
    · exact ite_calm (deliverHere_calm k s _) ((deliverHere_calm k s _).trans (ih _))

theorem settleLocal_calm : Calm k s (settleLocal s) := serveLocal_calm k s _

theorem retryLocal_calm : Calm k s (retryLocal s) :=
  (Calm.foldl _ s (fun t x => deliverOcommit_calm k t none x)).trans (settleLocal_calm k _)

/-! ## Posts and entries of the streams -/

theorem noCode_stream (i : StreamId) {x : Nat} (h : x < 0x40) : NoCode (rStream i.val x) := noCode_of_low (by unfold rStream; omega)

theorem passHead_calm (i : StreamId) : Calm k s (passHead s i) := setField_calm k s _ _ _ (noCode_stream i (by decide))

theorem offerEntry_calm (i : StreamId) : Calm k s (offerEntry s i) := by
  unfold offerEntry
  split
  · exact Calm.refl k s
  · dsimp only
    exact ite_calm (Calm.refl k s) (ite_calm (((acceptEntry_calm k s _ _ _ _).trans (modStrm_calm k _ i _)).trans (passHead_calm k _ i))
      (refuseEntry_calm k s _))

theorem reofferEntries_calm : Calm k s (reofferEntries s) :=
  Calm.foldl _ s (fun t i => ite_calm (offerEntry_calm k t i) (Calm.refl k t))

theorem completePost_calm (i : StreamId) (po : Post) (u : Submission) : Calm k s (completePost s i po u) := by
  unfold completePost
  dsimp only
  refine Calm.trans (ite_calm (Calm.refl k s) ?_) (modStrm_calm k _ i _)
  split
  · exact (hostGet_calm k s _ _ _).trans (emit_calm k _ _)
  · exact hostGet_calm k s _ _ _

theorem processPost_calm (po : Post) : Calm k s (processPost s po) := by
  have hdrop (f : Stream → Stream) (c : Prop) [Decidable c] :
      Calm k s (if c then addSat (modStrm s po.stream f) rPostsDropped 1 else modStrm s po.stream f) :=
    when_calm (modStrm_calm k s _ f) (addSat_calm k _ 1 (noCode_of_low (by decide)))
  have herr (t : State) (u : Nat) : Calm k t (raiseErr t 14 rErrHost 3 u 0) := raiseErr_calm k t _ _ _ (by decide) (by decide)
  unfold processPost
  dsimp only
  refine ite_calm (herr s 0) (ite_calm ?_ ?_)
  · have hposts (l : List Submission) (f : Stream → Stream) (c : Prop) [Decidable c] := (hdrop f c).trans
      (Calm.foldl l _ (fun t u => completePost_calm k t po.stream po u))
    exact ite_calm ((hposts ..).trans (herr ..)) (hposts ..)
  · have hcount (f : Stream → Stream) : Calm k s (addSat (modStrm s po.stream f) rPostsDropped 1) :=
      (modStrm_calm k s _ f).trans (addSat_calm k _ 1 (noCode_of_low (by decide)))
    exact ite_calm ((hcount _).trans (modStrm_calm k _ _ _)) (hcount _)

theorem processPosts_calm : Calm k s (processPosts s) :=
  Calm.foldl _ s (fun t p => (modPod_calm k t p _).trans (Calm.foldl _ _ (fun u po => processPost_calm k u po)))

end

end Sys2Proof.Machine
end

section
/-! The end of a weave's Pod frame and the start of the next one (R20, R21, R157, R309, R319, R323 to R325): what each keeps. -/

namespace Sys2Proof.Machine

/-! ## The end of a frame -/

/-- The end of a frame may lie between the two states: Pods, Fabric Sequencers, memory, weights, stake and the running weave are the same. With `k`
no fault has come either. -/
structure Ending (k : Bool) (s t : State) : Prop where
  calm : Calm true s t
  pods : t.pods = s.pods
  stake : t.stake = s.stake
  active : t.active = s.active
  number : stakeNo t = stakeNo s
  running : weaveActive t = weaveActive s
  kept : k = true → weavePending t = weavePending s ∧ faulted t = faulted s

theorem Ending.refl (k : Bool) (s : State) : Ending k s s := ⟨Calm.refl _ s, rfl, rfl, rfl, rfl, rfl, fun _ => ⟨rfl, rfl⟩⟩

theorem Ending.trans {k : Bool} {s t u : State} (h : Ending k s t) (g : Ending k t u) : Ending k s u :=
  ⟨h.calm.trans g.calm, g.pods.trans h.pods, g.stake.trans h.stake, g.active.trans h.active, g.number.trans h.number, g.running.trans h.running,
    fun hk => ⟨(g.kept hk).1.trans (h.kept hk).1, (g.kept hk).2.trans (h.kept hk).2⟩⟩

theorem Ending.weaken {k : Bool} {s t : State} (h : Ending true s t) : Ending k s t :=
  ⟨h.calm, h.pods, h.stake, h.active, h.number, h.running, fun _ => h.kept rfl⟩

theorem Ending.foldl {α : Type} {k : Bool} {f : State → α → State} (xs : List α) (s : State) (hf : ∀ t a, Ending k t (f t a)) :
    Ending k s (xs.foldl f s) := by
  induction xs generalizing s with
  | nil => exact Ending.refl k s
  | cons a xs ih => exact (hf s a).trans (ih (f s a))

theorem ite_ending {k : Bool} {c : Prop} [Decidable c] {s t u : State} (h : Ending k s t) (g : Ending k s u) : Ending k s (if c then t else u) := by
  split
  · exact h
  · exact g

theorem when_ending {k : Bool} {c : Prop} [Decidable c] {s t u : State} (h : Ending k s t) (g : Ending k t u) : Ending k s (if c then u else t) :=
  ite_ending (h.trans g) h

/-- The registers by which a frame's end and start are judged. -/
def endJudged : List Nat := [rWeaveState, rFaultState, rStake, rStake + 4]

theorem Ending.of_regs {k : Bool} {s t : State} (h : Calm true s t) (hp : t.pods = s.pods) (hs : t.stake = s.stake) (ha : t.active = s.active)
    (hr : ∀ o ∈ endJudged, reg t o = reg s o) : Ending k s t := by
  have hw : reg t rWeaveState = reg s rWeaveState := hr _ (by decide)
  have hf : reg t rFaultState = reg s rFaultState := hr _ (by decide)
  refine ⟨h, hp, hs, ha, reg64_congr (hr _ (by decide)) (hr _ (by decide)), ?_, fun _ => ⟨?_, ?_⟩⟩
  · rw [weaveActive, flag, hw, ← flag, ← weaveActive]
  · rw [weavePending, flag, hw, ← flag, ← weavePending]
  · rw [faulted, flag, hf, ← flag, ← faulted]

theorem Ending.held {k : Bool} {s t : State} (h : Ending k s t) : noticeHeld t = noticeHeld s := by
  unfold noticeHeld
  rw [h.stake, h.number]

section
variable (k : Bool) (s : State)

theorem setReg_ending {o : Nat} (v : Word) (hc : NoCode o) (ho : o ∉ endJudged) : Ending k s (setReg s o v) :=
  Ending.of_regs (setReg_calm true s v hc) rfl rfl rfl (fun _ hm => reg_setReg_ne s v (ne_of_mem_of_not_mem hm ho).symm)

theorem setReg64_ending {o : Nat} (v : Nat) (hc : NoCode o) (hc4 : NoCode (o + 4)) (ho : o ∉ endJudged) (ho4 : o + 4 ∉ endJudged) :
    Ending k s (setReg64 s o v) := (setReg_ending k s _ hc ho).trans (setReg_ending k _ _ hc4 ho4)

theorem setField_ending {o : Nat} (lo len v : Nat) (hc : NoCode o) (ho : o ∉ endJudged) : Ending k s (setField s o lo len v) := setReg_ending k s _ hc ho

theorem setFlag_ending {o : Nat} (i : Nat) (b : Bool) (hc : NoCode o) (ho : o ∉ endJudged) : Ending k s (setFlag s o i b) := setReg_ending k s _ hc ho

theorem noted_ending {l : List Nat} {t : State} (h : Noted l s t) (hl : ∀ o ∈ l, o < 0x1000000 ∧ o ∉ endJudged) : Ending k s t :=
  Ending.of_regs (h.calm true (fun o ho => (hl o ho).1)) (by rw [h.frame]) (by rw [h.frame]) (by rw [h.frame])
    (fun o hm => h.regs o (fun ho => (hl o ho).2 hm) ((by decide : ∀ o ∈ endJudged, o ∉ pbaRegs) o hm))

theorem modMisc_ending (f : Misc → Misc) (h : (f s.misc).weightNow = s.misc.weightNow ∧ (f s.misc).weightNext = s.misc.weightNext) :
    Ending k s (modMisc s f) := Ending.of_regs (modMisc_calm true s f h) rfl rfl rfl (fun _ _ => rfl)

/-! ### A fault of the machine -/

theorem foldl_keeps {α β : Type} (g : State → β) {f : State → α → State} (hf : ∀ t a, g (f t a) = g t) (xs : List α) (s : State) :
    g (xs.foldl f s) = g s := by
  induction xs generalizing s with
  | nil => rfl
  | cons a xs ih => exact (ih (f s a)).trans (hf s a)

theorem weaveActive_of_reg {t : State} (h : reg t rWeaveState = reg s rWeaveState) : weaveActive t = weaveActive s := by
  rw [weaveActive, flag, h, ← flag, ← weaveActive]

theorem faultStreams_running : weaveActive (faultStreams s) = weaveActive s := by
  refine foldl_keeps weaveActive (fun t i => ?_) _ s
  have hfield (u : State) {x : Nat} (h : x < 0x40) (lo len v : Nat) : weaveActive (setField u (rStream i.val x) lo len v) = weaveActive u :=
    weaveActive_of_reg u (reg_setReg_ne u _ (by unfold rStream rWeaveState; omega))
  have hend (u : State) (st : BitVec 7) : weaveActive (endStream u i st) = weaveActive u := by
    unfold endStream
    split
    · exact hfield _ (by decide) _ _ _
    · rfl
  split
  · rfl
  · refine (hend _ _).trans ?_
    split
    · exact hfield _ (by decide) _ _ _
    · rfl

theorem weaveActive_cancelled (l : Option Weave) (m : Misc) : weaveActive { s with loaded := l, misc := m } = weaveActive s := rfl

theorem faultWeave_running : weaveActive (faultWeave s) = weaveActive s := by
  have hpods : weaveActive (forEach allPods s (fun t p => setFlag t (rPod p 0x100) 31 false)) = weaveActive s :=
    foldl_keeps weaveActive (fun t p => weaveActive_of_reg t (reg_setReg_ne t _ (by unfold rPod rWeaveState; omega))) _ s
  unfold faultWeave
  split
  · rw [faultStreams_running]
    generalize forEach allPods s (fun t p => setFlag t (rPod p 0x100) 31 false) = t at hpods ⊢
    have hflag : weaveActive (setFlag t rWeaveState 30 false) = weaveActive t := flag_setFlag_ne _ _ _ (by decide)
    rw [weaveActive_cancelled]
    exact hflag.trans hpods
  · rfl

theorem enterFaulted_running (r e i u : Nat) (n : Nat) : weaveActive (enterFaulted s true n r e i u) = weaveActive s := by
  cases h : flag s rFaultState 31 with
  | true => rw [enterFaulted_again h]
  | false =>
    obtain ⟨d, hd⟩ := enterFaulted_first h true n r e i u
    obtain ⟨b, o, ha⟩ := raiseAlert_frame (msix (postEvent (faultWeave (faultRecorded s true n r e i u)) 5 e d []) 64)
    have hsent (l : List Nat) (t : State) : weaveActive (msix (postEvent t 5 e d []) 64) = weaveActive t :=
      weaveActive_of_reg t (((postEvent_noted [] t 5 e d []).trans (msix_noted [] _ (by decide))).regs _ List.not_mem_nil (by decide))
    rw [hd, ha]
    refine (hsent [] _).trans ((faultWeave_running _).trans (weaveActive_of_reg s ?_))
    unfold faultRecorded
    rw [reg_setReg_ne _ _ (by decide), reg_setReg64_ne _ _ (by decide) (by decide), reg_setReg_ne _ _ (by decide), reg_setReg_ne _ _ (by decide)]

theorem machineFault_ending (e i u : Nat) : Ending false s (machineFault s e i u) := by
  obtain ⟨h, -⟩ := machineFault_local s e i u
  refine ⟨h.calm true (by decide), by rw [h.frame], by rw [h.frame], by rw [h.frame], ?_, ?_, fun hk => absurd hk (by decide)⟩
  · exact reg64_congr (h.regs _ (by decide) (by unfold FaultWritten; decide)) (h.regs _ (by decide) (by unfold FaultWritten; decide))
  · unfold machineFault
    dsimp only
    refine (enterFaulted_running _ _ _ _ _ _).trans ?_
    rw [floodNotice_frame]
    exact weaveActive_of_reg s rfl

/-! ### The operations of a frame's end -/

theorem reg_queueTx (p : PortId) (held : Option PortId) (x : Packet) (o : Nat) : reg (queueTx s p held x) o = reg s o := rfl

theorem queueTx_ending (p : PortId) (held : Option PortId) (x : Packet) : Ending k s (queueTx s p held x) :=
  Ending.of_regs (queueTx_calm true s p held x) rfl rfl rfl (fun _ _ => rfl)

/-- No register of a Pod's block is one of them. -/
theorem pod_not_endJudged (p : PodId) (x : Nat) : rPod p.val x ∉ endJudged := by
  intro hm
  have hlow := (by decide : ∀ o ∈ endJudged, o < 0x1000000) _ hm
  unfold rPod at hlow
  omega

theorem showPairDigests_ending : Ending k s (showPairDigests s) :=
  Ending.foldl _ s (fun t p => setReg64_ending k t _ (noCode_pod p (x := 0x918) (by decide) (by decide))
    (noCode_pod p (x := 0x91C) (by decide) (by decide)) (pod_not_endJudged p 0x918) (pod_not_endJudged p 0x91C))

theorem sendPairDigests_ending : Ending k s (sendPairDigests s) := by
  unfold sendPairDigests
  dsimp only
  exact ite_ending (Ending.foldl _ s (fun t g => queueTx_ending k t _ _ _)) (Ending.refl k s)

theorem low_ending {o : Nat} (v : Word) (hc : o < 0x1000000) (ho : o ∉ endJudged) : Ending k s (setReg s o v) :=
  setReg_ending k s v (noCode_of_low hc) ho

theorem pairMismatch_ending (n pod_ : Nat) : Ending false s (pairMismatch s n pod_) := by
  have hmark : Ending false s (setFlag s rPairStatus 30 true) := low_ending false s _ (by decide) (by decide)
  have hloc (t : State) : Ending false t (setField (setReg64 t rPairLocStake n) rPairLoc 16 6 pod_) :=
    (setReg64_ending false t _ (noCode_of_low (by decide)) (noCode_of_low (by decide)) (by decide) (by decide)).trans
      (low_ending false _ _ (by decide) (by decide))
  have herr (t : State) : Ending false t (raiseErr t 13 rErrPair 0 pod_ n) :=
    noted_ending false t (raiseErr_noted t 13 rErrPair 0 pod_ n (l := rErrPair :: capRegs 13) List.mem_cons_self (List.subset_cons_self ..)) (by decide)
  have hevent (t : State) (v : Nat) : Ending false t (postEvent t 4 n v []) := noted_ending false t (postEvent_noted [] t 4 n v []) (by decide)
  unfold pairMismatch
  dsimp only
  exact ite_ending (Ending.refl _ s) (when_ending (hmark.trans ((hloc _).trans ((herr _).trans (hevent _ _)))) (machineFault_ending _ _ _ _))

theorem comparePair_ending (n : Nat) : Ending false s (comparePair s n) := by
  have hcount (f : Misc → Misc) (v : Word) (h : (f s.misc).weightNow = s.misc.weightNow ∧ (f s.misc).weightNext = s.misc.weightNext) :
      Ending false s (setReg (modMisc s f) rPairStatus v) := (modMisc_ending false s f h).trans (low_ending false _ v (by decide) (by decide))
  unfold comparePair
  split
  · dsimp only
    split
    · refine (hcount _ _ ?_).trans (pairMismatch_ending _ _ _)
      exact ⟨rfl, rfl⟩
    · refine when_ending (hcount _ _ ?_) (low_ending false _ _ (by decide) (by decide))
      exact ⟨rfl, rfl⟩
  · exact Ending.refl _ s

theorem matchPairDigests_ending : Ending false s (matchPairDigests s) := by
  unfold matchPairDigests
  dsimp only
  refine ite_ending ((modMisc_ending false s _ ?_).trans (comparePair_ending _ _)) (Ending.refl _ s)
  exact ⟨rfl, rfl⟩

/-- The registers of the checkpoints (R424). -/
def checkpointRegs : List Nat := [rCkptStatus, rCkptPrev, rCkptPrev + 4, rCkptPrevStep, rCkptPrevStep + 4, rCkptLast, rCkptLast + 4, rCkptLastStep,
  rCkptLastStep + 4]

theorem checkpointReg_ending {o : Nat} (v : Word) (ho : o ∈ checkpointRegs) : Ending k s (setReg s o v) :=
  low_ending k s v ((by decide : ∀ o ∈ checkpointRegs, o < 0x1000000) o ho) ((by decide : ∀ o ∈ checkpointRegs, o ∉ endJudged) o ho)

theorem checkpointReg64_ending {o : Nat} (v : Nat) (ho : o ∈ checkpointRegs) (h4 : o + 4 ∈ checkpointRegs) : Ending k s (setReg64 s o v) :=
  (checkpointReg_ending k s _ ho).trans (checkpointReg_ending k _ _ h4)

theorem recordCheckpoint_ending (c : Nat) : Ending k s (recordCheckpoint s c) := by
  have h64 (t : State) (v : Nat) {o : Nat} (ho : o ∈ checkpointRegs) (h4 : o + 4 ∈ checkpointRegs) : Ending k t (setReg64 t o v) :=
    checkpointReg64_ending k t v ho h4
  have hflag (t : State) (i : Nat) (b : Bool) : Ending k t (setFlag t rCkptStatus i b) := checkpointReg_ending k t _ (by decide)
  have hprev := (h64 s (reg64 s rCkptLast) (o := rCkptPrev) (by decide) (by decide)).trans
    (h64 _ (reg64 s rCkptLastStep) (o := rCkptPrevStep) (by decide) (by decide))
  have hlast (t : State) (v w : Nat) := (h64 t v (o := rCkptLast) (by decide) (by decide)).trans (h64 _ w (o := rCkptLastStep) (by decide) (by decide))
  unfold recordCheckpoint
  dsimp only
  exact ite_ending (checkpointReg_ending k s _ (by decide)) (((hprev.trans (hlast _ _ _)).trans (hflag _ _ _)).trans (hflag _ _ _))

theorem checkpointStep_ending : Ending k s (checkpointStep s) := by
  unfold checkpointStep
  split
  · exact Ending.refl k s
  · exact ite_ending (recordCheckpoint_ending k s _) (Ending.refl k s)

/-- The end of a frame but for its mark. -/
def frameJudged : State := checkpointStep (matchPairDigests (sendPairDigests (showPairDigests s)))

theorem endFrame_eq : endFrame s = s ∨ endFrame s = { frameJudged s with stake := { (frameJudged s).stake with frameEnded := true } } := by
  unfold endFrame
  split
  · exact Or.inr rfl
  · exact Or.inl rfl

theorem frameJudged_ending : Ending false s (frameJudged s) :=
  (((showPairDigests_ending false s).trans (sendPairDigests_ending false _)).trans (matchPairDigests_ending _)).trans (checkpointStep_ending false _)

/-- A device that does not compare digests with a pair enters no fault at the end of a frame. -/
theorem frameJudged_unpaired (h : flag s rPairStatus 31 = false) : Ending true s (frameJudged s) := by
  have hdigests : Ending true s (sendPairDigests (showPairDigests s)) := (showPairDigests_ending true s).trans (sendPairDigests_ending true _)
  have hshown : reg (showPairDigests s) rPairStatus = reg s rPairStatus :=
    foldl_keeps (reg · rPairStatus) (fun t p => reg_setReg64_ne t _ (by unfold rPod rPairStatus; omega) (by unfold rPod rPairStatus; omega)) _ s
  have hsent (t : State) : reg (sendPairDigests t) rPairStatus = reg t rPairStatus := by
    unfold sendPairDigests
    split
    · dsimp only
      exact foldl_keeps (reg · rPairStatus) (fun u g => reg_queueTx u _ _ _ rPairStatus) _ t
    · rfl
  have hport : flag (sendPairDigests (showPairDigests s)) rPairStatus 31 = false := by
    rw [flag, hsent, hshown]
    exact h
  have hmatch : matchPairDigests (sendPairDigests (showPairDigests s)) = sendPairDigests (showPairDigests s) := by
    unfold matchPairDigests
    rw [hport, Bool.and_false, if_neg Bool.false_ne_true]
  unfold frameJudged
  rw [hmatch]
  exact hdigests.trans (checkpointStep_ending true _)

end

end Sys2Proof.Machine
end

section
/-! The start of a Pod frame (R20, R21, R157, R309, R319) and the counters that a snapshot holds (R435, R436). -/

namespace Sys2Proof.Machine

section
variable (k : Bool) (s : State)

/-! ## Commits -/

theorem modCore_calm (p : PodId) (f : Core → Core) : Calm k s (modCore s p f) := modPod_calm k s p _

theorem nextSerial_calm (p : PodId) : Calm k s (nextSerial s p).2 := by
  unfold nextSerial
  dsimp only
  exact modCore_calm k s p _

theorem captureUnit_calm (p : PodId) (slot addr : Nat) (h : Word64) : Calm false s (captureUnit s p slot addr h) := by
  unfold captureUnit
  dsimp only
  refine ite_calm ((memWrite_calm s _ _).trans (modMisc_calm false _ _ ?_)) (raiseErr_calm false s _ _ _ (by decide) (by decide))
  exact ⟨rfl, rfl⟩

theorem digestWrite_calm (p : PodId) (slot a : Nat) (b : List Byte) : Calm false s (digestWrite s p slot a b) :=
  Calm.foldl _ s (fun t _ => ite_calm ((modCore_calm false t p _).trans (captureUnit_calm _ p slot _ _)) (modCore_calm false t p _))

theorem digestRange_calm (p : PodId) (r : StoreRange) : Calm false s (digestRange s p r) :=
  ite_calm (Calm.foldl _ s (fun t _ => digestWrite_calm t p 3 _ _)) (Calm.refl _ s)

theorem writeRange_calm (p : PodId) (r : StoreRange) : Calm false s (writeRange p s r) :=
  Calm.forEach (Calm.forEach (digestRange_calm s p r) (fun t _ => memWrite_calm t _ _)) (fun t _ => memWrite_calm t _ _)

theorem finishCommits_calm (p : PodId) : Calm false s (finishCommits s p) :=
  Calm.forEach (setPod_calm false s p _) (fun t r => writeRange_calm t p r)

theorem commitUnit_calm (l : List (Nat × PodId × Nat × List Word)) (u : PodId × Nat) : Calm false s (commitUnit l s u) := by
  have hread := storeRead_calm false s u.1 u.2 64
  unfold commitUnit
  dsimp only
  refine ite_calm (hread.trans (addSat_calm false _ 1 (noCode_pod _ (by decide) (by decide)))) ?_
  exact ((hread.trans (nextSerial_calm false _ _)).trans (netStream_calm false _ _ _ _ _ _)).trans (modPod_calm false _ _ _)

theorem applyCommits_calm (j : Nat) : Calm false s (applyCommits s j) := by
  unfold applyCommits
  dsimp only
  refine ((modMisc_calm false s _ ?_).trans (Calm.foldl _ _ (fun t p => finishCommits_calm t p))).trans (Calm.foldl _ _ (fun t u => commitUnit_calm t _ u))
  exact ⟨rfl, rfl⟩

/-! ## What has been written over the network (R21, R192) -/

theorem externalWrite_calm (p : PodId) (o : Nat) (b : List Byte) : Calm false s (externalWrite s p o b) :=
  Calm.foldl _ s (fun t i => ite_calm (addSat_calm false t 1 (noCode_pod p (by decide) (by decide))) (memWrite_calm t _ _))

/-- Nothing that has landed for a Fabric Sequencer waits any more. -/
def withLanded (f : FsqId) : State := modFsq s f (fun q => { q with landed := [] })

/-- What has landed for one Fabric Sequencer is written. -/
def landOne (f : FsqId) : State := (fsq s f).landed.foldl (fun u d => externalWrite u d.1 d.2.1 d.2.2) (withLanded s f)

theorem landArrivals_eq : landArrivals s = landOne (landOne s 0) 1 := rfl

theorem landOne_calm (f : FsqId) : Calm false (withLanded s f) (landOne s f) := Calm.foldl _ _ (fun t _ => externalWrite_calm t _ _ _)

theorem fsq_landOne (f g : FsqId) : fsq (landOne s f) g = fsq (withLanded s f) g := congrArg (vget · g) (landOne_calm s f).fsqs

theorem fsq_withLanded (f : FsqId) : (fsq (withLanded s f) f).landed = [] := congrArg Fsq.landed (vget_vmod s.fsqs f _)

theorem fsq_withLanded_ne {f g : FsqId} (h : f ≠ g) : fsq (withLanded s f) g = fsq s g := vget_vmod_ne s.fsqs _ h

theorem landed_landArrivals (f : FsqId) : (fsq (landArrivals s) f).landed = [] := by
  rw [landArrivals_eq, fsq_landOne]
  by_cases h : (1 : FsqId) = f
  · subst h
    exact fsq_withLanded _ 1
  · obtain rfl : f = 0 := by revert h; revert f; decide
    rw [fsq_withLanded_ne _ h, fsq_landOne]
    exact fsq_withLanded s 0

/-! ## The work of every frame start -/

/-- A frame's work may lie between the two states: one more frame has begun, W has taken the completed loads, and nothing has yet to land. -/
structure Worked (s t : State) : Prop where
  frame : t.stake.frame = s.stake.frame
  frames : t.stake.frames = s.stake.frames + 1
  started : t.stake.frameStarted = s.stake.frameStarted
  weight : t.misc.weightNow = s.misc.weightNext
  landed : ∀ f : FsqId, (fsq t f).landed = []
  code : ∀ p : PodId, hasCode t p = hasCode s p

theorem Calm.hasCode {k : Bool} {s t : State} (h : Calm k s t) (p : PodId) : hasCode t p = hasCode s p := by
  unfold Machine.hasCode pReg
  rw [h.code p]

theorem Calm.foldl_mem {α : Type} {k : Bool} {f : State → α → State} (xs : List α) (s : State) (hf : ∀ t, ∀ a ∈ xs, Calm k t (f t a)) :
    Calm k s (xs.foldl f s) := by
  induction xs generalizing s with
  | nil => exact Calm.refl k s
  | cons a xs ih => exact (hf s a List.mem_cons_self).trans (ih (f s a) (fun t b hb => hf t b (List.mem_cons_of_mem a hb)))

theorem Calm.fsq {k : Bool} {s t : State} (h : Calm k s t) (f : FsqId) : fsq t f = fsq s f := congrArg (vget · f) h.fsqs

theorem takeWeight_calm : Calm k (modMisc s (fun m => { m with weightNow := m.weightNext })) (takeWeight s) := by
  refine Calm.foldl_mem _ _ (fun t n hn => setReg_calm k t _ (noCode_of_low ?_))
  have : n < 8 := List.mem_range.1 hn
  unfold rWeightDigest
  omega

/-- The frames that have begun are counted once more, at this tick. -/
def withFrames (s t : State) : State := { s with stake := { s.stake with frames := s.stake.frames + 1, frameTick := tick t } }

/-- The work of a frame start once what has landed is in memory. -/
def serveFrame : State := takeWeight (reofferEntries (processPosts (withFrames s s)))

theorem frameWork_eq : frameWork s = serveFrame (landArrivals s) := rfl

/-- The frame numbers of a stake, and whether its frame has started. -/
structure SameFrame (s t : State) : Prop where
  frame : t.stake.frame = s.stake.frame
  frames : t.stake.frames = s.stake.frames
  started : t.stake.frameStarted = s.stake.frameStarted

theorem SameFrame.trans {s t u : State} (h : SameFrame s t) (g : SameFrame t u) : SameFrame s u :=
  ⟨g.frame.trans h.frame, g.frames.trans h.frames, g.started.trans h.started⟩

theorem Calm.sameFrame {k : Bool} {s t : State} (h : Calm k s t) : SameFrame s t := by
  refine ⟨?_, ?_, ?_⟩ <;> rw [h.stake]

theorem landOne_sameFrame (f : FsqId) : SameFrame s (landOne s f) :=
  SameFrame.trans (t := withLanded s f) ⟨rfl, rfl, rfl⟩ (landOne_calm s f).sameFrame

theorem landArrivals_sameFrame : SameFrame s (landArrivals s) := by
  rw [landArrivals_eq]
  exact (landOne_sameFrame s 0).trans (landOne_sameFrame (landOne s 0) 1)

theorem landOne_weight (f : FsqId) : (landOne s f).misc.weightNext = s.misc.weightNext := (landOne_calm s f).weights.2

theorem landArrivals_weight : (landArrivals s).misc.weightNext = s.misc.weightNext := by
  rw [landArrivals_eq]
  exact (landOne_weight (landOne s 0) 1).trans (landOne_weight s 0)

theorem landOne_code (f : FsqId) (p : PodId) : hasCode (landOne s f) p = hasCode s p := (landOne_calm s f).hasCode p

theorem landArrivals_code (p : PodId) : hasCode (landArrivals s) p = hasCode s p := by
  rw [landArrivals_eq]
  exact (landOne_code (landOne s 0) 1 p).trans (landOne_code s 0 p)

theorem serveFrame_entries (k : Bool) : Calm k (withFrames s s) (reofferEntries (processPosts (withFrames s s))) :=
  (processPosts_calm k _).trans (reofferEntries_calm k _)

theorem takeWeight_mem : (takeWeight s).mem = s.mem := (takeWeight_calm true s).mem rfl

theorem takeWeight_sameFrame : SameFrame s (takeWeight s) :=
  SameFrame.trans (t := modMisc s (fun m => { m with weightNow := m.weightNext })) ⟨rfl, rfl, rfl⟩ (takeWeight_calm true s).sameFrame

theorem serveFrame_mem : (serveFrame s).mem = s.mem := (takeWeight_mem _).trans ((serveFrame_entries s true).mem rfl)

theorem serveFrame_worked (h : ∀ f : FsqId, (fsq s f).landed = []) : Worked s (serveFrame s) := by
  unfold serveFrame
  have hentries : Calm false (withFrames s s) (reofferEntries (processPosts (withFrames s s))) := serveFrame_entries s false
  generalize reofferEntries (processPosts (withFrames s s)) = t at hentries ⊢
  have htaken := takeWeight_calm false t
  have hstake := hentries.sameFrame.trans (takeWeight_sameFrame t)
  refine ⟨hstake.frame, hstake.frames, hstake.started, ?_, fun f => ?_, fun p => ?_⟩
  · exact htaken.weights.1.trans hentries.weights.2
  · rw [fsq, htaken.fsqs]
    exact (congrArg (fun x => (vget x f).landed) hentries.fsqs).trans (h f)
  · exact (htaken.hasCode p).trans (hentries.hasCode p)

theorem frameWork_worked : Worked s (frameWork s) := by
  have hland := landArrivals_sameFrame s
  have hw := serveFrame_worked (landArrivals s) (landed_landArrivals s)
  rw [frameWork_eq]
  exact ⟨hw.frame.trans hland.frame, by rw [hw.frames, hland.frames], hw.started.trans hland.started, hw.weight.trans (landArrivals_weight s),
    hw.landed, fun p => (hw.code p).trans (landArrivals_code s p)⟩

theorem frameWork_mem : (frameWork s).mem = (landArrivals s).mem := by
  rw [frameWork_eq]
  exact serveFrame_mem _

/-! ## The Pods of a running weave -/

theorem resumePod_calm (p : PodId) : Calm k s (resumePod s p) := by
  have hdrawn : Calm k s (draw s).2 := ⟨rfl, fun _ => rfl, rfl, ⟨rfl, rfl⟩, fun _ => rfl⟩
  unfold resumePod
  dsimp only
  exact ite_calm ((hdrawn.trans (setFlag_calm k _ _ _ (noCode_pod p (by decide) (by decide)))).trans (modCore_calm k _ p _)) (Calm.refl k s)

theorem podAtFend_resumePod (p : PodId) (h : hasCode s p = true) : podAtFend (resumePod s p) p = false := by
  unfold resumePod
  cases hf : podAtFend s p with
  | false => rw [Bool.and_false, if_neg Bool.false_ne_true]; exact hf
  | true =>
    rw [h, Bool.and_true, if_pos rfl]
    exact flag_setFlag (draw s).2 (rPod p 0x100) 28 false (by decide)

theorem podAtFend_resumePod_ne {p q : PodId} (h : p ≠ q) : podAtFend (resumePod s p) q = podAtFend s q := by
  have hne : rPod p.val 0x100 ≠ rPod q.val 0x100 := fun e => h (Fin.ext (by unfold rPod at e; omega))
  unfold resumePod
  split
  · exact congrArg (getB · 28) (reg_setReg_ne (draw s).2 _ hne)
  · rfl

theorem resumePods_calm : Calm k s (resumePods s) := Calm.foldl _ s (fun t p => resumePod_calm k t p)

/-- After the Pods' resumption no Pod with code is at its frame end. -/
theorem podAtFend_resumePods (p : PodId) (h : hasCode s p = true) : podAtFend (resumePods s) p = false := by
  have hstays (l : List PodId) : ∀ t, hasCode t p = true → podAtFend t p = false → podAtFend (l.foldl resumePod t) p = false := by
    induction l with
    | nil => exact fun _ _ hf => hf
    | cons q l ih =>
      intro t hc hf
      refine ih _ (((resumePod_calm true t q).hasCode p).trans hc) ?_
      by_cases hq : q = p
      · subst hq
        exact podAtFend_resumePod t q hc
      · exact (podAtFend_resumePod_ne t hq).trans hf
  have hresumes (l : List PodId) : p ∈ l → ∀ t, hasCode t p = true → podAtFend (l.foldl resumePod t) p = false := by
    induction l with
    | nil => exact fun hm => absurd hm List.not_mem_nil
    | cons q l ih =>
      intro hm t hc
      have hcq := ((resumePod_calm true t q).hasCode p).trans hc
      rcases List.mem_cons.1 hm with rfl | hm
      · exact hstays l _ hcq (podAtFend_resumePod t p hc)
      · exact ih hm _ hcq
  exact hresumes allPods (List.mem_finRange p) s h

/-- The next frame with what it serves and the commits of the frame before the last, before the Pods resume. -/
def nextServed : State :=
  if 2 ≤ weaveFrame s + 1 then retryLocal (applyCommits (beginFrame (frameWork s) (weaveFrame s + 1)) (weaveFrame s + 1 - 2))
  else beginFrame (frameWork s) (weaveFrame s + 1)

theorem nextServed_calm : Calm false (beginFrame (frameWork s) (weaveFrame s + 1)) (nextServed s) :=
  when_calm (Calm.refl _ _) ((applyCommits_calm _ _).trans (retryLocal_calm false _))

theorem nextFrame_eq (h : weavePending s = false) : nextFrame s = resumePods (nextServed s) := by
  unfold nextFrame
  rw [h, Bool.false_and, if_neg Bool.false_ne_true]
  rfl

theorem beginFrame_stake (n : Nat) : (beginFrame s n).stake.frame = n ∧ (beginFrame s n).stake.frames = s.stake.frames
    ∧ (beginFrame s n).stake.frameStarted = s.stake.frameStarted := ⟨rfl, rfl, rfl⟩

theorem fsq_beginFrame (n : Nat) (f : FsqId) : fsq (beginFrame s n) f = fsq s f := rfl

theorem hasCode_beginFrame (n : Nat) (p : PodId) : hasCode (beginFrame s n) p = hasCode s p := rfl

theorem memByte_beginFrame (n : Nat) (x : Nat) : memByte (beginFrame s n) x = memByte s x := rfl

/-- The next frame of a running weave has begun. -/
theorem nextFrame_begins (h : weavePending s = false) :
    (nextFrame s).stake.frame = s.stake.frame + 1 ∧ (nextFrame s).stake.frames = s.stake.frames + 1
      ∧ (nextFrame s).stake.frameStarted = s.stake.frameStarted ∧ (nextFrame s).misc.weightNow = s.misc.weightNext
      ∧ (∀ f : FsqId, (fsq (nextFrame s) f).landed = []) ∧ ∀ p : PodId, hasCode s p = true → podAtFend (nextFrame s) p = false := by
  have hw := frameWork_worked s
  have hcalm : Calm false (beginFrame (frameWork s) (weaveFrame s + 1)) (nextFrame s) := by
    rw [nextFrame_eq s h]
    exact (nextServed_calm s).trans (resumePods_calm false _)
  have hframe := hcalm.sameFrame
  obtain ⟨hk, hn, hs⟩ := beginFrame_stake (frameWork s) (weaveFrame s + 1)
  refine ⟨hframe.frame.trans hk, hframe.frames.trans (hn.trans hw.frames), hframe.started.trans (hs.trans hw.started), hcalm.weights.1.trans hw.weight,
    fun f => ?_, fun p hp => ?_⟩
  · rw [hcalm.fsq, fsq_beginFrame]
    exact hw.landed f
  · rw [nextFrame_eq s h]
    refine podAtFend_resumePods _ p ?_
    rw [(nextServed_calm s).hasCode p, hasCode_beginFrame, hw.code p]
    exact hp

/-! ## POD_FRAME_START -/

/-- The frame start of this stake has come. -/
def frameMarked : State := { s with stake := { s.stake with frameStarted := true } }

theorem exec_podFrameStart (ha : atFinalCheck s = true) (hf : s.stake.frameStarted = false) : exec .podFrameStart s = .next (frameStart (frameMarked s)) := by
  change execPodFrameStart s = _
  unfold execPodFrameStart frameMarked
  rw [ha, hf, Bool.not_false, Bool.and_true, if_pos rfl]

theorem exec_podFrameStart_idle (h : atFinalCheck s = false ∨ s.stake.frameStarted = true) : exec .podFrameStart s = .next s := by
  change execPodFrameStart s = _
  unfold execPodFrameStart
  rcases h with h | h
  · rw [h, Bool.false_and, if_neg Bool.false_ne_true]
  · rw [h, Bool.not_true, Bool.and_false, if_neg Bool.false_ne_true]

theorem endFrame_unwoven (h : weaveActive s = false) : endFrame s = s := by
  unfold endFrame
  rw [h]
  rfl

/-- Without a weave a frame start is its work and the next number. -/
theorem frameStart_unwoven (hw : weaveActive s = false) (ha : s.active = none) : frameStart s = beginFrame (frameWork s) (weaveFrame s + 1) := by
  unfold frameStart
  rw [endFrame_unwoven s hw]
  dsimp only
  rw [hw, Bool.false_and, if_neg Bool.false_ne_true, ha]

/-- While a notice is held no frame begins. -/
theorem frameStart_noticed (hw : weaveActive s = true) (hn : noticeHeld s = true) : frameStart s = endFrame s := by
  have hend : weaveActive (endFrame s) = true ∧ noticeHeld (endFrame s) = true := by
    rcases endFrame_eq s with h | h
    · rw [h]
      exact ⟨hw, hn⟩
    · rw [h]
      exact ⟨(frameJudged_ending s).running.trans hw, (frameJudged_ending s).held.trans hn⟩
  unfold frameStart
  dsimp only
  rw [hend.1, hend.2]
  rfl

/-- In a running weave, with no notice held and no fault, the next frame begins. -/
theorem frameStart_woven {w : Weave} (hw : weaveActive s = true) (ha : s.active = some w) (hn : noticeHeld s = false) (hf : faulted s = false)
    (hp : flag s rPairStatus 31 = false) : frameStart s = nextFrame (endFrame s) := by
  have h := frameJudged_unpaired s hp
  have hend : weaveActive (endFrame s) = true ∧ noticeHeld (endFrame s) = false ∧ (endFrame s).active = some w ∧ faulted (endFrame s) = false := by
    rcases endFrame_eq s with he | he
    · rw [he]
      exact ⟨hw, hn, ha, hf⟩
    · rw [he]
      exact ⟨h.running.trans hw, h.held.trans hn, h.active.trans ha, (h.kept rfl).2.trans hf⟩
  obtain ⟨hw, hn, ha, hf⟩ := hend
  unfold frameStart
  dsimp only
  rw [hw, hn, ha, hf]
  rfl

/-- The end of a frame leaves the frame number, the weights and the code. -/
theorem endFrame_keeps : (endFrame s).pods = s.pods ∧ (endFrame s).stake.frame = s.stake.frame ∧ (endFrame s).stake.frames = s.stake.frames
    ∧ (endFrame s).stake.frameStarted = s.stake.frameStarted ∧ (endFrame s).misc.weightNext = s.misc.weightNext
    ∧ ∀ p : PodId, hasCode (endFrame s) p = hasCode s p := by
  rcases endFrame_eq s with h | h
  · rw [h]
    exact ⟨rfl, rfl, rfl, rfl, rfl, fun _ => rfl⟩
  · have g := frameJudged_ending s
    rw [h]
    exact ⟨g.pods, g.calm.sameFrame.frame, g.calm.sameFrame.frames, g.calm.sameFrame.started, g.calm.weights.2, fun p => g.calm.hasCode p⟩

theorem endFrame_pending (hp : flag s rPairStatus 31 = false) : weavePending (endFrame s) = weavePending s := by
  rcases endFrame_eq s with h | h
  · rw [h]
  · rw [h]
    exact ((frameJudged_unpaired s hp).kept rfl).1

end

end Sys2Proof.Machine
end

section
/-! Obligation O23: Pod frames begin, and a snapshot holds the counters (R20, R21, R157, R319, R435, R436). -/

namespace Sys2Proof.Machine

/-! ## The bytes that the network writes into a store -/

/-- The first `n` units of 64 bytes of a write into a Pod store. -/
def writeUnits (s : State) (p : PodId) (o : Nat) (b : List Byte) (n : Nat) : State :=
  (upTo n).foldl (fun t i => memWrite t (podAddr p (o + 64 * i)) ((b.drop (64 * i)).take 64)) s

theorem writeUnits_succ (s : State) (p : PodId) (o : Nat) (b : List Byte) (n : Nat) :
    writeUnits s p o b (n + 1) = memWrite (writeUnits s p o b n) (podAddr p (o + 64 * n)) ((b.drop (64 * n)).take 64) := by
  unfold writeUnits upTo
  rw [List.range_succ, List.foldl_append]
  rfl

/-- Without a node region a write from outside the Pod writes every unit. -/
theorem externalWrite_eq {s : State} {p : PodId} (h : flag s (rPod p.val 0x500) 0 = false) (o : Nat) (b : List Byte) :
    externalWrite s p o b = writeUnits s p o b (ceilDiv b.length 64) := by
  unfold externalWrite writeUnits forEach
  generalize upTo (ceilDiv b.length 64) = l
  induction l generalizing s with
  | nil => rfl
  | cons i l ih =>
    have hfree : touchesNodes s p (o + 64 * i) ((b.drop (64 * i)).take 64).length = false := by
      unfold touchesNodes
      rw [h, Bool.false_and, Bool.false_and]
    simp only [List.foldl_cons, hfree, Bool.false_eq_true, if_false]
    exact ih h

theorem isMem_podAddr (p : PodId) {o : Nat} (h : o < podSize) : isMem (podAddr p o) = true := by
  have hp := p.isLt
  unfold isMem podAddr podEnd podBase podSize at *
  simp only [Bool.or_eq_true, Bool.and_eq_true, decide_eq_true_eq]
  omega

theorem memByte_writeUnits (s : State) (p : PodId) {o : Nat} {b : List Byte} (hfit : o + b.length ≤ podSize) (n x : Nat) :
    memByte (writeUnits s p o b n) x = if podAddr p o ≤ x ∧ x < podAddr p o + min (64 * n) b.length then b.getD (x - podAddr p o) 0 else memByte s x := by
  induction n with
  | zero =>
    rw [if_neg (by omega)]
    rfl
  | succ n ih =>
    have haddr : podAddr p (o + 64 * n) = podAddr p o + 64 * n := by unfold podAddr; omega
    have hlen : ((b.drop (64 * n)).take 64).length = min 64 (b.length - 64 * n) := by rw [List.length_take, List.length_drop]
    rw [writeUnits_succ, memByte_memWrite, haddr, hlen, ih]
    by_cases hin : podAddr p o + 64 * n ≤ x ∧ x < podAddr p o + 64 * n + min 64 (b.length - 64 * n)
    · have hmem : isMem x = true := by
        have hx : x = podAddr p (x - podAddr p 0) := by unfold podAddr at *; omega
        rw [hx]
        exact isMem_podAddr p (by unfold podAddr at *; omega)
      rw [if_pos ⟨hin.1, hin.2, hmem⟩, if_pos (by omega), List.getD_eq_getElem?_getD, List.getElem?_take_of_lt (by omega), List.getElem?_drop,
        List.getD_eq_getElem?_getD]
      congr 2
      omega
    · rw [if_neg (fun h => hin ⟨h.1, h.2.1⟩)]
      exact if_congr (by omega) rfl rfl

theorem memByte_externalWrite {s : State} {p : PodId} (h : flag s (rPod p.val 0x500) 0 = false) {o : Nat} {b : List Byte}
    (hfit : o + b.length ≤ podSize) (x : Nat) :
    memByte (externalWrite s p o b) x = if podAddr p o ≤ x ∧ x < podAddr p o + b.length then b.getD (x - podAddr p o) 0 else memByte s x := by
  have hall : min (64 * ceilDiv b.length 64) b.length = b.length := by
    unfold ceilDiv
    omega
  rw [externalWrite_eq h, memByte_writeUnits s p hfit, hall]

theorem fin_two_of_ne {f : FsqId} (h : f ≠ 0) : f = 1 := Fin.eq_one_of_ne_zero f h

/-- One write lands for one Fabric Sequencer: its bytes are in memory. -/
theorem memByte_landArrivals {s : State} {f : FsqId} {p : PodId} {o : Nat} {b : List Byte}
    (hf : ∀ g, (fsq s g).landed = if g = f then [(p, o, b)] else []) (h : flag s (rPod p.val 0x500) 0 = false) (hfit : o + b.length ≤ podSize) (x : Nat) :
    memByte (landArrivals s) x = if podAddr p o ≤ x ∧ x < podAddr p o + b.length then b.getD (x - podAddr p o) 0 else memByte s x := by
  have hnone (t : State) (g : FsqId) (hg : (fsq t g).landed = []) : landOne t g = withLanded t g := by
    unfold landOne
    rw [hg]
    rfl
  have hone (t : State) (g : FsqId) (hg : (fsq t g).landed = [(p, o, b)]) : landOne t g = externalWrite (withLanded t g) p o b := by
    unfold landOne
    rw [hg]
    rfl
  have hmem (t : State) (g : FsqId) : memByte (withLanded t g) x = memByte t x := rfl
  have hflag (t : State) (g : FsqId) : flag (withLanded t g) (rPod p.val 0x500) 0 = flag t (rPod p.val 0x500) 0 := rfl
  have hne : (0 : FsqId) ≠ 1 := by decide
  rw [landArrivals_eq]
  by_cases h0 : f = 0
  · subst h0
    have hleft : (fsq (landOne s 0) 1).landed = [] := by
      rw [fsq_landOne, fsq_withLanded_ne _ hne, hf, if_neg hne.symm]
    rw [hnone _ 1 hleft, hmem, hone s 0 (by rw [hf, if_pos rfl]), memByte_externalWrite (by rw [hflag, h]) hfit, hmem]
  · obtain rfl : f = 1 := fin_two_of_ne h0
    rw [hnone s 0 (by rw [hf, if_neg hne]), hone _ 1 (by rw [fsq_withLanded_ne _ hne, hf, if_pos rfl]),
      memByte_externalWrite (by rw [hflag, hflag, h]) hfit, hmem, hmem]

/-! ## The counters that a snapshot holds -/

theorem tabGet_copied (f : Nat → Word) (l : List Nat) (t : Tab Word) (o : Nat) :
    tabGet 0 (l.foldl (fun t o => tabSet 0 t o (f o)) t) o = if o ∈ l then f o else tabGet 0 t o := by
  induction l generalizing t with
  | nil => rw [if_neg List.not_mem_nil]; rfl
  | cons a l ih =>
    rw [List.foldl_cons, ih]
    by_cases hl : o ∈ l
    · rw [if_pos hl, if_pos (List.mem_cons_of_mem a hl)]
    · rw [if_neg hl]
      by_cases ha : a = o
      · subst ha
        rw [if_pos List.mem_cons_self]
        exact (tabGet_set (d := fun _ => 0) a a (f a)).trans (if_pos rfl)
      · rw [tabGet_set_ne t ha, if_neg (fun hm => (List.mem_cons.1 hm).elim (fun e => ha e.symm) hl)]

theorem takeSnapshot_shadow (s : State) {o : Nat} (h : o ∈ counterOffsets) : tabGet 0 (takeSnapshot s).shadow o = liveReg s o := by
  unfold takeSnapshot
  dsimp only
  rw [tabGet_copied, if_pos h]

/-- The snapshot has been taken and is held (R436). -/
def snapshotTaken (s : State) : State := setFlag (setFlag (takeSnapshot s) rSnapCtrl 29 false) rSnapCtrl 28 true

theorem exec_snapshot {s : State} (ha : flag s rSnapCtrl 29 = true) (hn : stakeNo s = s.misc.snapStake) (ho : stakeOffset s = 0)
    (hr : fabricRuns s = true) : exec .snapshot s = .next (snapshotTaken s) := by
  change execSnapshot s = _
  unfold execSnapshot snapshotTaken
  rw [ha, hr, decide_eq_true hn, decide_eq_true ho, Bool.and_self, Bool.and_self, Bool.and_self, if_pos rfl]

theorem exec_snapshot_idle {s : State}
    (h : flag s rSnapCtrl 29 = false ∨ stakeNo s ≠ s.misc.snapStake ∨ stakeOffset s ≠ 0 ∨ fabricRuns s = false) : exec .snapshot s = .next s := by
  change execSnapshot s = _
  unfold execSnapshot
  rw [if_neg]
  simp only [Bool.and_eq_true, decide_eq_true_eq]
  rintro ⟨⟨⟨ha, hn⟩, ho⟩, hr⟩
  rcases h with h | h | h | h
  · exact Bool.false_ne_true (h.symm.trans ha)
  · exact h hn
  · exact h ho
  · exact Bool.false_ne_true (h.symm.trans hr)

theorem takeSnapshot_frame (s : State) : ∃ x, takeSnapshot s = { s with shadow := x } := ⟨_, rfl⟩

theorem snapshotTaken_frame (s : State) : snapshotTaken s = { s with regs := (snapshotTaken s).regs, shadow := (snapshotTaken s).shadow } := by
  obtain ⟨x, hx⟩ := takeSnapshot_frame s
  unfold snapshotTaken
  rw [hx]
  rfl

theorem snapshotTaken_facts (s : State) : (∀ o ∈ counterOffsets, tabGet 0 (snapshotTaken s).shadow o = liveReg s o)
    ∧ flag (snapshotTaken s) rSnapCtrl 28 = true ∧ flag (snapshotTaken s) rSnapCtrl 29 = false
    ∧ snapshotTaken s = { s with regs := (snapshotTaken s).regs, shadow := (snapshotTaken s).shadow } ∧ RegsBut [rSnapCtrl] s (snapshotTaken s) := by
  have hregs (o : Nat) : reg (takeSnapshot s) o = reg s o := by
    obtain ⟨x, hx⟩ := takeSnapshot_frame s
    rw [hx]
    rfl
  refine ⟨fun o ho => ?_, flag_setFlag _ _ _ _ (by decide), ?_, snapshotTaken_frame s, fun o _ ho => ?_⟩
  · rw [← takeSnapshot_shadow s ho]
    unfold snapshotTaken
    generalize takeSnapshot s = t
    rfl
  · unfold snapshotTaken
    rw [flag_setFlag_ne _ _ _ (by decide), flag_setFlag _ _ _ _ (by decide)]
  · have hne : rSnapCtrl ≠ o := fun e => ho (List.mem_singleton.2 e.symm)
    unfold snapshotTaken
    rw [setFlag, setField, reg_setReg_ne _ _ (by exact hne), setFlag, setField, reg_setReg_ne _ _ (by exact hne), hregs]

/-! ## The frame start -/

theorem frameMarked_same (s : State) : weaveActive (frameMarked s) = weaveActive s ∧ noticeHeld (frameMarked s) = noticeHeld s
    ∧ faulted (frameMarked s) = faulted s ∧ flag (frameMarked s) rPairStatus 31 = flag s rPairStatus 31
    ∧ weavePending (frameMarked s) = weavePending s ∧ ∀ p : PodId, hasCode (frameMarked s) p = hasCode s p := ⟨rfl, rfl, rfl, rfl, rfl, fun _ => rfl⟩

theorem frameStart_begins {w : Weave} {s : State} (hw : weaveActive s = true) (ha : s.active = some w) (hn : noticeHeld s = false)
    (hf : faulted s = false) (hp : flag s rPairStatus 31 = false) (hq : weavePending s = false) :
    (frameStart s).stake.frame = s.stake.frame + 1 ∧ (frameStart s).stake.frames = s.stake.frames + 1
      ∧ (frameStart s).misc.weightNow = s.misc.weightNext ∧ (frameStart s).stake.frameStarted = s.stake.frameStarted
      ∧ (∀ f : FsqId, (fsq (frameStart s) f).landed = []) ∧ ∀ p : PodId, hasCode s p = true → podAtFend (frameStart s) p = false := by
  obtain ⟨-, hk, hm, hs, hv, hc⟩ := endFrame_keeps s
  obtain ⟨hk', hm', hs', hv', hl, hr⟩ := nextFrame_begins (endFrame s) ((endFrame_pending s hp).trans hq)
  rw [frameStart_woven s hw ha hn hf hp]
  exact ⟨by rw [hk', hk], by rw [hm', hm], hv'.trans hv, hs'.trans hs, hl, fun p hp => hr p ((hc p).trans hp)⟩

end Sys2Proof.Machine

open Sys2Proof.Machine in
/-- Settles O23: at a stake's final check point the frame before ends, what the network has written for it lands in memory, the frame's work is served
and the Pods with code resume; a snapshot copies each counter. -/
theorem framesBeginAndCountersAreHeld : Obligations.FramesBeginAndCountersAreHeld := by
  unfold Obligations.FramesBeginAndCountersAreHeld
  refine ⟨?_, ?_, ?_, ?_, fun s h => exec_podFrameStart_idle s h, fun s _ ha hn ho hr => ⟨_, exec_snapshot ha hn ho hr, snapshotTaken_facts s⟩,
    fun s h => exec_snapshot_idle h⟩
  · intro w s _ hc hs hw ha hn hf hp hq
    obtain ⟨hk, hm, hv, hst, hl, hr⟩ := frameStart_begins (s := frameMarked s) hw ha hn hf hp hq
    exact ⟨_, exec_podFrameStart s hc hs, hk, hm, hv, hst, hl, hr⟩
  · intro s _ hc hs ha hw
    have h := frameWork_worked (frameMarked s)
    refine ⟨_, exec_podFrameStart s hc hs, ?_⟩
    rw [frameStart_unwoven (frameMarked s) hw ha]
    obtain ⟨hk, hm, -⟩ := beginFrame_stake (frameWork (frameMarked s)) (weaveFrame (frameMarked s) + 1)
    exact ⟨hk, hm.trans h.frames, fun f => by rw [fsq_beginFrame]; exact h.landed f⟩
  · intro f p a b s _ hc hs ha hw hl hflag hfit
    refine ⟨_, exec_podFrameStart s hc hs, fun x => ?_⟩
    rw [frameStart_unwoven (frameMarked s) hw ha, memByte_beginFrame, memByte_congr (frameWork_mem (frameMarked s))]
    exact memByte_landArrivals (s := frameMarked s) hl hflag hfit x
  · intro s _ hc hs hw hn
    obtain ⟨hp, hk, hm, -⟩ := endFrame_keeps (frameMarked s)
    refine ⟨_, exec_podFrameStart s hc hs, ?_⟩
    rw [frameStart_noticed (frameMarked s) hw hn]
    exact ⟨hk, hm, hp⟩
end

section
/-! Obligation O33: devices align their ticks (R15, R288 to R292). -/

namespace Sys2Proof.Machine

/-! ## The register that says so -/

/-- DEV_ALIGN of an aligned device (R385). -/
def alignWord (origin : Bool) (depth port : Nat) : Word := BitVec.ofNat 32 (2 ^ 31 + b2n origin * 2 ^ 30 + depth * 2 ^ 24 + port)

theorem alignWord_fields (origin : Bool) {depth port : Nat} (hd : depth < 8) (hp : port < 16) : getB (alignWord origin depth port) 31 = true
    ∧ getB (alignWord origin depth port) 30 = origin ∧ getF (alignWord origin depth port) 24 3 = depth := by
  have hb : b2n origin = if origin then 1 else 0 := by cases origin <;> rfl
  have hn : (alignWord origin depth port).toNat = 2147483648 + b2n origin * 1073741824 + depth * 16777216 + port := by
    unfold alignWord
    rw [BitVec.toNat_ofNat, hb]
    cases origin <;> simp <;> omega
  refine ⟨?_, ?_, ?_⟩
  · rw [getB, BitVec.getLsbD, hn, hb, Nat.testBit_eq_decide_div_mod_eq, decide_eq_true_iff]
    split <;> omega
  · rw [getB, BitVec.getLsbD, hn, hb, Nat.testBit_eq_decide_div_mod_eq]
    cases origin <;> simp <;> omega
  · rw [getF, hn, hb]
    split <;> omega

/-- A device may have become aligned between the two states, with `v` in DEV_ALIGN. -/
structure Aligning (v : Word) (s t : State) : Prop where
  regs : ∀ o, o ≠ rAlign → o ≠ rFunc fAlign → o ∉ pbaRegs → reg t o = reg s o
  value : reg t rAlign = v
  align : t.align = ⟨[], 0⟩
  mem : t.mem = s.mem
  pods : t.pods = s.pods

/-- The collection has ended and DEV_ALIGN is written. -/
def alignNoted (s : State) (v : Word) : State := { setReg s rAlign v with align := ⟨[], 0⟩ }

theorem alignNoted_aligning (s : State) (v : Word) : Aligning v s (alignNoted s v) :=
  ⟨fun _ h _ _ => reg_setReg_ne s v h.symm, reg_setReg s rAlign v, rfl, rfl, rfl⟩

theorem setAligned_eq (s : State) (origin : Bool) (depth port : Nat) : setAligned s origin depth port
    = if func (alignNoted s (alignWord origin depth port)) fAlign = 1 then setFunc (alignNoted s (alignWord origin depth port)) fAlign 2 0
      else alignNoted s (alignWord origin depth port) := rfl

theorem Aligning.noted {v : Word} {l : List Nat} {s t u : State} (h : Aligning v s t) (g : Noted l t u) (hl : rAlign ∉ l) (hs : l ⊆ [rFunc fAlign]) :
    Aligning v s u := by
  refine ⟨fun o ha hf hp => ?_, (g.regs _ hl (by decide)).trans h.value, by rw [g.frame]; exact h.align, by rw [g.frame]; exact h.mem,
    by rw [g.frame]; exact h.pods⟩
  exact (g.regs o (fun hm => hf (List.mem_singleton.1 (hs hm))) hp).trans (h.regs o ha hf hp)

theorem setAligned_aligning (s : State) (origin : Bool) (depth port : Nat) :
    Aligning (alignWord origin depth port) s (setAligned s origin depth port) := by
  have h := alignNoted_aligning s (alignWord origin depth port)
  rw [setAligned_eq]
  split
  · exact h.noted (setFunc_noted _ fAlign 2 0 (l := [rFunc fAlign]) (List.mem_singleton.2 rfl)) (by decide) (List.Subset.refl _)
  · exact h

theorem Aligning.kept {v : Word} {s t : State} (h : Aligning v s t) {o : Nat} (ho : o ∈ [rTick, rStake, rStakeStart]) : reg64 t o = reg64 s o := by
  have hfree : ∀ o ∈ [rTick, rStake, rStakeStart], (o ≠ rAlign ∧ o ≠ rFunc fAlign ∧ o ∉ pbaRegs) ∧ o + 4 ≠ rAlign ∧ o + 4 ≠ rFunc fAlign ∧ o + 4 ∉ pbaRegs := by
    decide
  obtain ⟨⟨ha, hf, hp⟩, ha4, hf4, hp4⟩ := hfree o ho
  exact reg64_congr (h.regs o ha hf hp) (h.regs (o + 4) ha4 hf4 hp4)

/-! ## An aligned device checks (R292) -/

theorem reg_raiseErr (s : State) (b off bit unit addr : Nat) (h : off ∉ capRegs b) (hp : off ∉ pbaRegs) :
    reg (raiseErr s b off bit unit addr) off = reg (setFlag s off bit true) off := by
  have hc : reg (capture (setFlag s off bit true) b off bit unit addr) off = reg (setFlag s off bit true) off := reg_capture_ne _ b off bit unit addr h
  unfold raiseErr
  dsimp only
  split
  · rw [(msix_noted [] _ (by decide)).regs _ List.not_mem_nil hp, hc]
  · exact hc

/-- A fault of DEV_PLACE's errors keeps the bits raised before. -/
theorem flag_raiseFault_place (s : State) {i j : Nat} (hij : i ≠ j) (p a : Nat) (h : flag s rErrPlace j = true) :
    flag (raiseFault s 11 rErrPlace i p a) rErrPlace j = true := by
  rw [flag, raiseFault, (machineFault_local ..).1.regs _ (by decide) (by unfold FaultWritten; decide), reg_raiseErr _ _ _ _ _ _ (by decide) (by decide)]
  exact (flag_setFlag_ne s rErrPlace true hij).trans h

theorem raiseFault_place (s : State) {i : Nat} (hi : i < 32) (p a : Nat) : flag (raiseFault s 11 rErrPlace i p a) rErrPlace i = true
    ∧ flag (raiseFault s 11 rErrPlace i p a) rFaultState 31 = true ∧ MemSame s (raiseFault s 11 rErrPlace i p a) :=
  ⟨flag_raiseFault s 11 rErrPlace i p a hi (by decide) (by decide) (by decide) (by unfold FaultWritten; decide), faulted_raiseFault ..,
    (raiseFault_faulting (l := rErrPlace :: capRegs 11) s 11 rErrPlace i p a List.mem_cons_self (List.subset_cons_self ..)).mem⟩

theorem exec_alignRx {s : State} {p : PortId} {b : List Byte} (hu : portUp s p = true) (h1 : numAt b 1 1 = 1) :
    exec (.alignRx p b) s = .next (if aligned s then checkAlign s p b else collectAlign s p b) := by
  change Host.Outcome.next (receiveAlign s p b) = _
  unfold receiveAlign
  rw [hu, h1, Bool.not_true, Bool.false_or, if_neg (by decide)]

theorem exec_alignRx_idle {s : State} {p : PortId} {b : List Byte} (h : portUp s p = false ∨ numAt b 1 1 ≠ 1) : exec (.alignRx p b) s = .next s := by
  change Host.Outcome.next (receiveAlign s p b) = _
  unfold receiveAlign
  rw [if_pos]
  rw [Bool.or_eq_true, decide_eq_true_iff]
  exact h.imp_left (fun hu => by rw [hu]; rfl)

theorem checkAlign_far {s : State} {p : PortId} {b : List Byte} (h : 32 < (alignOffset s p b).natAbs) :
    flag (checkAlign s p b) rErrPlace 4 = true ∧ flag (checkAlign s p b) rFaultState 31 = true ∧ MemSame s (checkAlign s p b) := by
  obtain ⟨hbit, hf, hm⟩ := raiseFault_place s (i := 4) (by decide) p (wrap 48 (alignOffset s p b))
  unfold checkAlign
  dsimp only
  rw [if_pos h]
  split
  · exact ⟨flag_raiseFault_place _ (by decide) _ _ hbit, faulted_raiseFault .., fun a => ((raiseFault_place _ (by decide) _ _).2.2 a).trans (hm a)⟩
  · exact ⟨hbit, hf, hm⟩

theorem checkAlign_other {s : State} {p : PortId} {b : List Byte} (h : numAt b 8 8 ≠ stakeNo s ∨ numAt b 0x10 8 ≠ reg64 s rStakeStart) :
    flag (checkAlign s p b) rErrPlace 5 = true ∧ flag (checkAlign s p b) rFaultState 31 = true ∧ MemSame s (checkAlign s p b) := by
  have hfar : MemSame s (if 32 < (alignOffset s p b).natAbs then raiseFault s 11 rErrPlace 4 p (wrap 48 (alignOffset s p b)) else s) := by
    split
    · exact (raiseFault_place s (by decide) _ _).2.2
    · exact fun _ => rfl
  unfold checkAlign
  dsimp only
  rw [if_pos h]
  generalize (if 32 < (alignOffset s p b).natAbs then raiseFault s 11 rErrPlace 4 p (wrap 48 (alignOffset s p b)) else s) = t at hfar ⊢
  obtain ⟨hbit, hf, hm⟩ := raiseFault_place t (i := 5) (by decide) p 0
  exact ⟨hbit, hf, fun a => (hm a).trans (hfar a)⟩

theorem checkAlign_agrees {s : State} {p : PortId} {b : List Byte} (h : (alignOffset s p b).natAbs ≤ 32) (hk : numAt b 8 8 = stakeNo s)
    (hs : numAt b 0x10 8 = reg64 s rStakeStart) : checkAlign s p b = s := by
  unfold checkAlign
  dsimp only
  rw [if_neg (Nat.not_lt.2 h), if_neg (by rw [hk, hs]; simp)]

/-- What a collected ALIGN says. -/
def alignCandidate (s : State) (p : PortId) (b : List Byte) : Nat × Nat × Int × Nat × Nat :=
  (numAt b 2 1, (logicalOf s p).val, alignOffset s p b, numAt b 8 8, numAt b 0x10 8)

theorem collectAlign_collects {s : State} {p : PortId} {b : List Byte} (hd : numAt b 2 1 < 5)
    (hw : s.align.candidates = [] ∨ tick s < s.align.firstTick + 36864) : collectAlign s p b
      = { s with align := ⟨s.align.candidates ++ [alignCandidate s p b], if s.align.candidates = [] then tick s else s.align.firstTick⟩ } := by
  unfold collectAlign
  dsimp only
  rw [if_neg (by omega), if_neg (by omega), if_pos (by rw [List.isEmpty_iff]; exact hw)]
  simp only [List.isEmpty_iff]
  rfl

/-! ## The adoption (R290) -/

/-- The registers of the adopted tick and of the stake that it lies in. -/
def stakeAdopted (s : State) (c : Nat × Nat × Int × Nat × Nat) : State :=
  let s1 := setReg64 s rTick (add64Int (tick s) c.2.2.1)
  let k := stakeAt (tick s1) c.2.2.2.1 c.2.2.2.2
  setReg64 (setReg64 s1 rStake k.1) rStakeStart k.2

theorem stakeAdopted_tick (s : State) (c : Nat × Nat × Int × Nat × Nat) : tick (stakeAdopted s c) = wrap 64 ((tick s : Int) + c.2.2.1) := by
  have hlt : wrap 64 ((tick s : Int) + c.2.2.1) < 2 ^ 64 := by unfold wrap; omega
  unfold stakeAdopted tick add64Int
  dsimp only
  rw [reg64_setReg64_ne _ _ (by decide), reg64_setReg64_ne _ _ (by decide), reg64_setReg64]
  exact Nat.mod_eq_of_lt hlt

theorem stakeAdopted_stake (s : State) (c : Nat × Nat × Int × Nat × Nat) :
    stakeNo (stakeAdopted s c) = (c.2.2.2.1 + (tick (stakeAdopted s c) + 2 ^ 64 - c.2.2.2.2) % 2 ^ 64 / 36864) % 2 ^ 64
      ∧ reg64 (stakeAdopted s c) rStakeStart = (c.2.2.2.2 + (tick (stakeAdopted s c) + 2 ^ 64 - c.2.2.2.2) % 2 ^ 64 / 36864 * 36864) % 2 ^ 64 := by
  have htick : tick (stakeAdopted s c) = tick (setReg64 s rTick (add64Int (tick s) c.2.2.1)) := by
    unfold stakeAdopted tick
    dsimp only
    rw [reg64_setReg64_ne _ _ (by decide), reg64_setReg64_ne _ _ (by decide)]
  rw [htick]
  unfold stakeAdopted stakeNo
  dsimp only
  rw [reg64_setReg64_ne _ _ (by decide), reg64_setReg64, reg64_setReg64]
  exact ⟨rfl, rfl⟩

theorem setReg64_same (s : State) (o v : Nat) : (setReg64 s o v).mem = s.mem ∧ (setReg64 s o v).pods = s.pods := ⟨rfl, rfl⟩

theorem stakeAdopted_same (s : State) (c : Nat × Nat × Int × Nat × Nat) : (stakeAdopted s c).mem = s.mem ∧ (stakeAdopted s c).pods = s.pods := by
  have h (t u v : State) (h1 : t.mem = s.mem ∧ t.pods = s.pods) (h2 : u.mem = t.mem ∧ u.pods = t.pods) (h3 : v.mem = u.mem ∧ v.pods = u.pods) :
      v.mem = s.mem ∧ v.pods = s.pods := ⟨h3.1.trans (h2.1.trans h1.1), h3.2.trans (h2.2.trans h1.2)⟩
  exact h _ _ _ (setReg64_same s rTick _) (setReg64_same _ rStake _) (setReg64_same _ rStakeStart _)

/-- The registers, ports and stake before DEV_ALIGN is written. -/
def unsentWith (s : State) (f : State → PortId → Port → Port) : State :=
  let s2 := forEach allPorts s (fun t p => modPort t p (f t p))
  { s2 with stake := freshStake s2 }

theorem unsentWith_frame (s : State) (f : State → PortId → Port → Port) : ∃ ports stake, unsentWith s f = { s with ports := ports, stake := stake } := by
  obtain ⟨ports, h⟩ := forEach_modPort_frame f allPorts s
  unfold unsentWith forEach
  dsimp only
  rw [h]
  exact ⟨ports, _, rfl⟩

theorem reg64_unsentWith (s : State) (f : State → PortId → Port → Port) (o : Nat) : reg64 (unsentWith s f) o = reg64 s o := by
  obtain ⟨ports, stake, h⟩ := unsentWith_frame s f
  rw [h]
  rfl

theorem adoptAlign_eq {s : State} {c : Nat × Nat × Int × Nat × Nat} (ha : aligned s = false) (hc : bestCandidate s.align.candidates = some c)
    (ht : s.align.firstTick + 36864 ≤ tick s) : adoptAlign s
      = setAligned (unsentWith (stakeAdopted s c) (fun _ _ x => { x with alignSent := decide (stakeOffset (stakeAdopted s c) ≠ 0) })) false (c.1 + 1) c.2.1 := by
  unfold adoptAlign
  rw [hc]
  dsimp only
  rw [ha, if_neg (by simp; omega)]
  rfl

theorem adoptAlign_aligned {s : State} (ha : aligned s = true) : adoptAlign s = s := by
  unfold adoptAlign
  split
  · rfl
  · rw [if_pos (Or.inl ha)]

/-- An aligned device holds the adopted tick and stake. -/
theorem adopted_facts (s : State) (c : Nat × Nat × Int × Nat × Nat) {t : State} (h : Aligning (alignWord false (c.1 + 1) c.2.1) (stakeAdopted s c) t)
    (hd : c.1 < 5) (hp : c.2.1 < 16) : tick t = wrap 64 ((tick s : Int) + c.2.2.1) ∧ aligned t = true
        ∧ stakeNo t = (c.2.2.2.1 + (tick t + 2 ^ 64 - c.2.2.2.2) % 2 ^ 64 / 36864) % 2 ^ 64
        ∧ reg64 t rStakeStart = (c.2.2.2.2 + (tick t + 2 ^ 64 - c.2.2.2.2) % 2 ^ 64 / 36864 * 36864) % 2 ^ 64
        ∧ field t rAlign 24 3 = c.1 + 1 ∧ flag t rAlign 30 = false ∧ t.align.candidates = [] ∧ MemSame s t ∧ t.pods = s.pods := by
  obtain ⟨hon, horigin, hdepth⟩ := alignWord_fields false (depth := c.1 + 1) (by omega) hp
  obtain ⟨hstake, hstart⟩ := stakeAdopted_stake s c
  obtain ⟨hmem, hpods⟩ := stakeAdopted_same s c
  have htick : tick t = tick (stakeAdopted s c) := h.kept (by decide)
  refine ⟨htick.trans (stakeAdopted_tick s c), ?_, ?_, ?_, ?_, ?_, by rw [h.align],
    fun a => memByte_congr (h.mem.trans hmem) a, h.pods.trans hpods⟩
  · rw [aligned, flag, h.value, hon]
  · rw [htick]
    exact (h.kept (by decide)).trans hstake
  · rw [htick]
    exact (h.kept (by decide)).trans hstart
  · rw [field, h.value, hdepth]
  · rw [flag, h.value, horigin]

theorem Aligning.unsent {v : Word} {s t : State} {f : State → PortId → Port → Port} (h : Aligning v (unsentWith s f) t) : Aligning v s t := by
  obtain ⟨ports, stake, hu⟩ := unsentWith_frame s f
  rw [hu] at h
  exact ⟨h.regs, h.value, h.align, h.mem, h.pods⟩

/-! ## The tick roots (R291) -/

/-- The registers of tick 0 in stake 0. -/
def tickZero (s : State) : State := setReg64 (setReg64 (setReg64 s rTick 0) rStake 0) rStakeStart 0

theorem tickZero_facts (s : State) : tick (tickZero s) = 0 ∧ stakeNo (tickZero s) = 0 ∧ reg64 (tickZero s) rStakeStart = 0 := by
  unfold tickZero tick stakeNo
  refine ⟨?_, ?_, reg64_setReg64 _ _ _⟩
  · rw [reg64_setReg64_ne _ _ (by decide), reg64_setReg64_ne _ _ (by decide)]
    exact reg64_setReg64 s rTick 0
  · rw [reg64_setReg64_ne _ _ (by decide)]
    exact reg64_setReg64 _ rStake 0

theorem rootAlign_eq (s : State) :
    rootAlign s = latchEpoch (applyTimeWrites (setAligned (unsentWith (tickZero s) (fun _ _ x => { x with alignSent := false })) true 0 0)) := rfl

/-- The time writes are taken and TICK_EPOCH is latched: DEV_ALIGN and the tick stay. -/
theorem Aligning.latched {v : Word} {s t : State} (h : Aligning v s t) : t.align = ⟨[], 0⟩ ∧ reg (latchEpoch (applyTimeWrites t)) rAlign = v
    ∧ (∀ o ∈ [rTick, rStake, rStakeStart], reg64 (latchEpoch (applyTimeWrites t)) o = reg64 s o)
    ∧ (latchEpoch (applyTimeWrites t)).mem = s.mem ∧ (latchEpoch (applyTimeWrites t)).pods = s.pods := by
  obtain ⟨time, ht, -⟩ := applyTimeWrites_eq t
  rw [ht]
  have g := latchEpoch_noted { t with time := time }
  have hfree : ∀ o ∈ [rTick, rStake, rStakeStart], (o ∉ epochRegs ∧ o ∉ pbaRegs) ∧ o + 4 ∉ epochRegs ∧ o + 4 ∉ pbaRegs := by decide
  refine ⟨h.align, (g.regs _ (by decide) (by decide)).trans h.value, fun o ho => ?_, by rw [g.frame]; exact h.mem, by rw [g.frame]; exact h.pods⟩
  obtain ⟨⟨he, hp⟩, he4, hp4⟩ := hfree o ho
  exact (reg64_congr (g.regs o he hp) (g.regs (o + 4) he4 hp4)).trans (h.kept ho)

theorem rootAlign_facts (s : State) : tick (rootAlign s) = 0 ∧ stakeNo (rootAlign s) = 0 ∧ reg64 (rootAlign s) rStakeStart = 0
    ∧ aligned (rootAlign s) = true ∧ flag (rootAlign s) rAlign 30 = true ∧ field (rootAlign s) rAlign 24 3 = 0 ∧ MemSame s (rootAlign s)
    ∧ (rootAlign s).pods = s.pods := by
  obtain ⟨hon, horigin, hdepth⟩ := alignWord_fields true (depth := 0) (port := 0) (by decide) (by decide)
  obtain ⟨htick, hstake, hstart⟩ := tickZero_facts s
  obtain ⟨-, hv, hr, hm, hpods⟩ := (setAligned_aligning (unsentWith (tickZero s) (fun _ _ x => { x with alignSent := false })) true 0 0).unsent.latched
  rw [rootAlign_eq]
  refine ⟨(hr rTick (by decide)).trans htick, (hr rStake (by decide)).trans hstake, (hr rStakeStart (by decide)).trans hstart, ?_, ?_, ?_,
    fun a => memByte_congr (s := s) hm a, hpods⟩
  · rw [aligned, flag, hv, hon]
  · rw [flag, hv, horigin]
  · rw [field, hv, hdepth]

theorem exec_tickRootAlign {s : State} (ha : aligned s = false) (hm : flag s rManifest 31 = true) (hr : flag s rPlace 29 = true)
    (hc : s.align.candidates = []) (ht : cabledDecided s = true ∨ 5 * secondTicks ≤ tick s) : exec .tickRootAlign s = .next (rootAlign s) := by
  change execTickRootAlign s = _
  unfold execTickRootAlign
  rw [ha, hm, hr, hc, if_pos]
  simp only [Bool.not_false, Bool.true_and, List.isEmpty_nil, Bool.or_eq_true, decide_eq_true_eq]
  exact ht

theorem exec_altRootAlign {s : State} (ha : aligned s = false) (hr : flag s rPlace 28 = true) (ht : 10 * secondTicks ≤ tick s) :
    exec .altRootAlign s = .next (rootAlign s) := by
  change execAltRootAlign s = _
  unfold execAltRootAlign
  rw [ha, hr, decide_eq_true ht, Bool.not_false, Bool.and_self, Bool.and_self, if_pos rfl]

theorem exec_alignTimeout {s : State} (ha : aligned s = false) (ht : 15 * secondTicks ≤ tick s) :
    exec .alignTimeout s = .next (raiseErr s 11 rErrPlace 7 0xFF 0) := by
  change execAlignTimeout s = _
  unfold execAlignTimeout
  rw [ha, decide_eq_true ht, Bool.not_false, Bool.and_self, if_pos rfl]

theorem exec_align_idle {s : State} (ha : aligned s = true) : exec .alignAdopt s = .next s ∧ exec .tickRootAlign s = .next s
    ∧ exec .altRootAlign s = .next s ∧ exec .alignTimeout s = .next s := by
  refine ⟨congrArg Host.Outcome.next (adoptAlign_aligned ha), ?_, ?_, ?_⟩
  · change execTickRootAlign s = _
    unfold execTickRootAlign
    rw [ha, Bool.not_true, Bool.false_and, Bool.false_and, Bool.false_and, Bool.false_and, if_neg Bool.false_ne_true]
  · change execAltRootAlign s = _
    unfold execAltRootAlign
    rw [ha, Bool.not_true, Bool.false_and, Bool.false_and, if_neg Bool.false_ne_true]
  · change execAlignTimeout s = _
    unfold execAlignTimeout
    rw [ha, Bool.not_true, Bool.false_and, if_neg Bool.false_ne_true]

end Sys2Proof.Machine

open Sys2Proof.Machine in
/-- Settles O33: each outcome of an ALIGN by its own case, and the registers that an adoption or a root's alignment writes. -/
theorem devicesAlignTheirTicks : Obligations.DevicesAlignTheirTicks := by
  unfold Obligations.DevicesAlignTheirTicks
  refine ⟨fun p b s h => exec_alignRx_idle h, ?_, ?_, ?_, ?_, ?_, ?_, ?_, ?_, fun s h => exec_align_idle h⟩
  · intro p b s hu h1 ha hd hk hs
    rw [exec_alignRx hu h1, if_pos ha, checkAlign_agrees hd hk hs]
  · intro p b s _ hu h1 ha hd
    exact ⟨_, by rw [exec_alignRx hu h1, if_pos ha], checkAlign_far hd⟩
  · intro p b s _ hu h1 ha hd
    exact ⟨_, by rw [exec_alignRx hu h1, if_pos ha], checkAlign_other hd⟩
  · intro p b s hu h1 ha hd hw
    exact ⟨_, by rw [exec_alignRx hu h1, ha, if_neg Bool.false_ne_true, collectAlign_collects hd hw], rfl, rfl, rfl⟩
  · intro c s _ ha hc hd hp _ _ ht
    exact ⟨_, congrArg Host.Outcome.next (adoptAlign_eq ha hc ht), adopted_facts s c (setAligned_aligning _ false (c.1 + 1) c.2.1).unsent hd hp⟩
  · intro s _ ha hm hr hc ht
    obtain ⟨htick, hstake, hstart, hon, horigin, hdepth, hmem, hpods⟩ := rootAlign_facts s
    exact ⟨_, exec_tickRootAlign ha hm hr hc ht, htick, hstake, hstart, hon, horigin, hdepth, hmem, hpods⟩
  · intro s _ ha hr ht
    obtain ⟨htick, hstake, -, hon, horigin, hdepth, hmem, hpods⟩ := rootAlign_facts s
    exact ⟨_, exec_altRootAlign ha hr ht, htick, hstake, hon, horigin, hdepth, hmem, hpods⟩
  · intro s _ ha ht
    exact ⟨_, exec_alignTimeout ha ht, flag_raiseErr s 11 rErrPlace 7 0xFF 0 (by decide) (by decide) (by decide) (by decide),
      raiseErr_notified s 11 rErrPlace 7 0xFF 0 List.mem_cons_self (fun o ho => List.mem_cons_of_mem _ ho)⟩
end

section
/-! Transfers of the on-die network (R167, R169, R175, R192): what a request at the banks of a Pod leaves behind, and what the use of a granted one
takes away. -/

namespace Sys2Proof.Machine

/-! ## Open transfers -/

theorem netJob_closeJob (s : State) (key : NetKey) : netJob (closeJob s key) key = none := by
  unfold netJob closeJob modMisc
  rw [List.find?_eq_none]
  intro j hj
  have := (List.mem_filter.1 hj).2
  simp only [decide_eq_true_eq] at this ⊢
  exact this

theorem netJob_closeJob_of_none {s : State} (key : NetKey) {x : NetKey} (h : netJob s x = none) : netJob (closeJob s key) x = none := by
  unfold netJob closeJob modMisc at *
  rw [List.find?_eq_none] at *
  exact fun j hj => h j (List.mem_filter.1 hj).1

/-- The open transfer for a purpose is the first that has been put there. -/
theorem netJob_appended {s t : State} {j : NetJob} {key : NetKey} (hk : j.key = key) (h : netJob s key = none)
    (ht : t.misc.netJobs = s.misc.netJobs ++ [j]) : netJob t key = some j := by
  unfold netJob at *
  rw [ht, List.find?_append, h, Option.none_or, List.find?_singleton, if_pos (decide_eq_true hk)]

theorem netJob_appended_ne {s t : State} {j : NetJob} {x : NetKey} (h : netJob s x = none) (hx : j.key ≠ x) (ht : t.misc.netJobs = s.misc.netJobs ++ [j]) :
    netJob t x = none := by
  unfold netJob at *
  rw [ht, List.find?_append, h, Option.none_or, List.find?_singleton, if_neg]
  exact fun hd => hx (of_decide_eq_true hd)

/-! ## Lines at the banks -/

/-- A transfer has lines of its operation. -/
theorem unitLines_op (op order : Nat) (w : Bool) (a start : Nat) {n : Nat} (hn : 0 < n) : ∃ l ∈ unitLines op order w a n start, l.op = op := by
  unfold unitLines
  by_cases h : n < 128
  · have hr : n % 128 ≠ 0 := by omega
    exact ⟨_, List.mem_append_right _ (by rw [if_neg hr]; exact List.mem_singleton.2 rfl), rfl⟩
  · exact ⟨_, List.mem_append_left _ (by rw [if_neg h]; exact List.mem_singleton.2 rfl), rfl⟩

/-- The lines of one request of the network. -/
def askedLines (s : State) (p : PodId) (op : Nat) (w : Bool) (o n : Nat) : List (PodId × LineStream) :=
  (unitLines op 0 w o n 0).map (fun l => (p, { l with rank := 5, order := s.misc.netSerial }))

theorem netStream_eq (s : State) (p : PodId) (op : Nat) (w : Bool) (o n : Nat) : netStream s p op w o n = { s with misc := { s.misc with
    netSerial := s.misc.netSerial + 1, netLines := s.misc.netLines ++ askedLines s p op w o n } } := rfl

/-- A transfer that has just been asked has not been granted. -/
theorem netGranted_asked {s t : State} (p : PodId) (op : Nat) (w : Bool) (o : Nat) {n : Nat} (hn : 0 < n)
    (h : t.misc.netLines = s.misc.netLines ++ askedLines s p op w o n) : netGranted t p op = false := by
  obtain ⟨l, hl, hop⟩ := unitLines_op op 0 w o 0 hn
  unfold netGranted
  rw [h, List.any_append, Bool.not_eq_false', Bool.or_eq_true]
  refine Or.inr (List.any_eq_true.2 ⟨(p, { l with rank := 5, order := s.misc.netSerial }), List.mem_map.2 ⟨l, hl, rfl⟩, ?_⟩)
  simp only [hop, decide_true, Bool.and_self]

/-! ## Writes -/

/-- The units of 64 bytes of a write at offset `o`. -/
def unitsAt (o : Nat) (b : List Byte) : List (Nat × List Byte) := (upTo (ceilDiv b.length 64)).map (fun i => (o + 64 * i, (b.drop (64 * i)).take 64))

theorem keptUnits_eq {s : State} {p : PodId} (h : flag s (rPod p.val 0x500) 0 = false) (o : Nat) (b : List Byte) : keptUnits s p o b = unitsAt o b := by
  unfold keptUnits unitsAt
  rw [List.filter_eq_self]
  intro u _
  unfold touchesNodes
  rw [h, Bool.false_and, Bool.false_and]
  rfl

theorem unitsAt_length (o : Nat) (b : List Byte) : (unitsAt o b).length = ceilDiv b.length 64 := by
  unfold unitsAt upTo
  rw [List.length_map, List.length_range]

theorem unitsAt_ne_nil (o : Nat) {b : List Byte} (h : b ≠ []) : (unitsAt o b).isEmpty = false := by
  have hlen := List.length_pos_of_ne_nil h
  rw [List.isEmpty_eq_false_iff, ← List.length_pos_iff_ne_nil, unitsAt_length]
  unfold ceilDiv
  omega

/-- A write that does not touch a node region keeps its units. -/
theorem keptUnits_outside {s : State} {p : PodId} {o : Nat} {b : List Byte} (h : touchesNodes s p o b.length = false) : keptUnits s p o b = unitsAt o b := by
  unfold keptUnits unitsAt
  rw [List.filter_eq_self]
  intro u hu
  obtain ⟨i, hi, rfl⟩ := List.mem_map.1 hu
  have hlt := List.mem_range.1 hi
  have hlen : ((b.drop (64 * i)).take 64).length = min 64 (b.length - 64 * i) := by rw [List.length_take, List.length_drop]
  unfold touchesNodes ceilDiv at *
  rw [hlen]
  cases hf : flag s (rPod p.val 0x500) 0 with
  | false => rw [Bool.false_and, Bool.false_and]; rfl
  | true =>
    rw [hf] at h
    simp only [Bool.true_and, Bool.and_eq_false_iff, decide_eq_false_iff_not, Bool.not_eq_true'] at h ⊢
    omega

/-- A write that keeps its units asks the banks for all of them. -/
theorem askWrite_eq {s : State} {p : PodId} (key : NetKey) {o : Nat} {b : List Byte} (h : keptUnits s p o b = unitsAt o b) (hb : b ≠ []) :
    askWrite s p key o b = startWrite s p key o b.length (unitsAt o b) := by
  unfold askWrite
  dsimp only
  rw [h, unitsAt_length, Nat.sub_self, if_pos rfl, unitsAt_ne_nil o hb, if_neg Bool.false_ne_true]

theorem netPut_asks {s : State} {p : PodId} {key : NetKey} {o : Nat} {b : List Byte} (h : keptUnits s p o b = unitsAt o b) (hk : netJob s key = none)
    (hb : b ≠ []) : netPut s p key o b = (startWrite s p key o b.length (unitsAt o b), false) := by
  unfold netPut
  rw [hk]
  dsimp only
  rw [askWrite_eq key h hb, h, unitsAt_ne_nil o hb]

theorem netPut_open {s : State} {p : PodId} {key : NetKey} {j : NetJob} (hk : netJob s key = some j) (o : Nat) (b : List Byte) :
    netPut s p key o b = if netDone s j then (closeJob s key, true) else (s, false) := by
  unfold netPut
  rw [hk]

/-- The transfer of a write that has just been asked. -/
def writeJob (s : State) (p : PodId) (key : NetKey) : NetJob := ⟨2 ^ 64 + s.misc.netSerial, p, key, [], []⟩

/-- Its range. -/
def writeStands (s : State) (p : PodId) (o n : Nat) (w : List (Nat × List Byte)) : StoreRange :=
  ⟨2 ^ 64 + s.misc.netSerial, 8, true, o, o + n, false, none, w.map (fun u => (podAddr p u.1, u.2)), [], false⟩

theorem startWrite_eq (s : State) (p : PodId) (key : NetKey) (o n : Nat) (w : List (Nat × List Byte)) : startWrite s p key o n w
    = modPod (modMisc (netStream s p (2 ^ 64 + s.misc.netSerial) true o n) (fun m => { m with netJobs := m.netJobs ++ [writeJob s p key] })) p
      (fun x => { x with ranges := x.ranges ++ [writeStands s p o n w] }) := rfl

/-- What a write that has just been asked leaves: registers, ports and memory as they were, its transfer, its lines and its range. -/
structure Asked (s t : State) (p : PodId) (key : NetKey) (o n : Nat) (w : List (Nat × List Byte)) : Prop where
  regs : t.regs = s.regs
  ports : t.ports = s.ports
  mem : t.mem = s.mem
  streams : t.streams = s.streams
  waits : t.misc.localReq = s.misc.localReq
  jobs : t.misc.netJobs = s.misc.netJobs ++ [writeJob s p key]
  lines : t.misc.netLines = s.misc.netLines ++ askedLines s p (writeJob s p key).op true o n
  range : pod t p = { pod s p with ranges := (pod s p).ranges ++ [writeStands s p o n w] }

theorem startWrite_asked (s : State) (p : PodId) (key : NetKey) (o n : Nat) (w : List (Nat × List Byte)) :
    Asked s (startWrite s p key o n w) p key o n w := by
  rw [startWrite_eq, netStream_eq]
  refine ⟨rfl, rfl, rfl, rfl, rfl, rfl, rfl, ?_⟩
  rw [pod_modPod]
  rfl

theorem Asked.granted {s t : State} {p : PodId} {key : NetKey} {o n : Nat} {w : List (Nat × List Byte)} (h : Asked s t p key o n w) (hn : 0 < n) :
    netGranted t p (writeJob s p key).op = false := netGranted_asked (s := s) p _ true o hn h.lines

/-! ## Reads -/

/-- What a read of the check bits leaves of the network's work and the memory. -/
structure NetSame (s t : State) : Prop where
  jobs : t.misc.netJobs = s.misc.netJobs
  waits : t.misc.localReq = s.misc.localReq
  mem : t.mem = s.mem

theorem NetSame.trans {s t u : State} (h : NetSame s t) (g : NetSame t u) : NetSame s u :=
  ⟨g.jobs.trans h.jobs, g.waits.trans h.waits, g.mem.trans h.mem⟩

theorem Faulting.netSame {l : List Nat} {s t : State} (h : Faulting l s t) : NetSame s t :=
  ⟨by rw [h.frame], by rw [h.frame], by rw [h.frame]⟩

theorem addSat_netSame (s : State) (o n : Nat) : NetSame s (addSat s o n) := ⟨rfl, rfl, rfl⟩

theorem NetSame.foldl {α : Type} {f : State → α → State} (hf : ∀ t a, NetSame t (f t a)) (xs : List α) (s : State) : NetSame s (xs.foldl f s) := by
  induction xs generalizing s with
  | nil => exact ⟨rfl, rfl, rfl⟩
  | cons a xs ih => exact (hf s a).trans (ih (f s a))

theorem raisePodErr_netSame (s : State) (b off : Nat) (p : PodId) (addr : Nat) (f : Bool) : NetSame s (raisePodErr s b off p addr f) := by
  have hraise : Faulting ((off + 4 * (p.val / 32)) :: capRegs b ++ faultRegs) s (raiseFault s b (off + 4 * (p.val / 32)) (p.val % 32) p.val addr) :=
    raiseFault_faulting s b _ _ _ _ List.mem_cons_self (List.subset_cons_self ..)
  unfold raisePodErr
  dsimp only
  split
  · exact hraise.netSame
  · exact (raiseErr_noted s b _ _ _ _ (l := (off + 4 * (p.val / 32)) :: capRegs b) List.mem_cons_self (List.subset_cons_self ..)).faulting.netSame

theorem storeRead_netSame (s : State) (p : PodId) (o n : Nat) : NetSame s (storeRead s p o n).1 := by
  have hcount : ∀ l : List Nat, NetSame s (forEach l s (fun t w => addSat t (rPod p (if w < podAddr p 0x1000000 then 0x700 else 0x704)) 1)) := fun l =>
    NetSame.foldl (fun t _ => addSat_netSame t _ 1) l s
  unfold storeRead
  dsimp only
  split
  · exact (hcount _).trans (raisePodErr_netSame _ _ _ _ _ _)
  · exact hcount _

theorem memRead_of_mem {s t : State} (h : t.mem = s.mem) (a n : Nat) : memRead t a n = memRead s a n := by
  induction n generalizing a with
  | zero => rfl
  | succ n ih => rw [memRead, memRead, ih, memByte_congr h]

/-- The transfer of a read that has just been asked. -/
def readJob (s : State) (p : PodId) (key : NetKey) (o n : Nat) : NetJob := ⟨2 ^ 64 + s.misc.netSerial, p, key, [(o, n)], memRead s (podAddr p o) n⟩

theorem askRead_eq (s : State) (p : PodId) (key : NetKey) (o n : Nat) : askRead s p key [(o, n)] = { s with misc := { s.misc with
    netSerial := s.misc.netSerial + 1, netLines := s.misc.netLines ++ askedLines s p (readJob s p key o n).op false o n,
    netJobs := s.misc.netJobs ++ [readJob s p key o n] } } := by
  have hdata : [(o, n)].flatMap (fun e => memRead s (podAddr p e.1) e.2) = memRead s (podAddr p o) n := List.append_nil _
  unfold askRead
  rw [hdata]
  rfl

/-- A read asks the banks for its lines: its transfer stands, not granted, with the bytes that the store holds. -/
theorem netRead_asks {s : State} {key : NetKey} (h : netJob s key = none) (p : PodId) (o : Nat) {n : Nat} (hn : 0 < n) :
    ∃ t j, netRead s p key [(o, n)] = (t, none) ∧ netJob t key = some j ∧ netGranted t j.pod j.op = false
      ∧ j.data = memRead s (podAddr p o) n ∧ t.mem = s.mem ∧ t.misc.localReq = s.misc.localReq := by
  have hread := storeRead_netSame s p o n
  have hnone : netJob (storeRead s p o n).1 key = none := by
    unfold netJob at *
    rw [hread.jobs]
    exact h
  have heq : netRead s p key [(o, n)] = (askRead (storeRead s p o n).1 p key [(o, n)], none) := by
    unfold netRead
    rw [h]
    rfl
  rw [heq]
  generalize (storeRead s p o n).1 = u at hread hnone
  rw [askRead_eq]
  refine ⟨_, readJob u p key o n, rfl, netJob_appended (s := u) rfl hnone rfl, netGranted_asked (s := u) p _ false o hn rfl, ?_, hread.mem, hread.waits⟩
  exact memRead_of_mem hread.mem _ _

theorem netRead_open {s : State} {p : PodId} {key : NetKey} {j : NetJob} (hk : netJob s key = some j) (hd : netDone s j = true) (l : List (Nat × Nat)) :
    netRead s p key l = (closeJob s key, some j.data) := by
  unfold netRead
  rw [hk]
  dsimp only
  rw [if_pos hd]

end Sys2Proof.Machine
end

section
/-! Obligation O31: delivered twine requests ask the banks, then write, add or join a commit (R256, R257, R307 to R309). -/

namespace Sys2Proof.Machine

open Sys2Proof.Claims (NoneReleased Deliverable WriteAsked)

/-! ## Packets of the device to itself -/

theorem serveLocal_none (n : Nat) {s : State} (h : NoneReleased s) : serveLocal n s = s := by
  have hfind : s.misc.localReq.find? (fun k => k.type ≠ 0xA && !isWaiting s k none) = none := by
    rw [List.find?_eq_none]
    intro k hk
    simp [h k hk]
  cases n with
  | zero => rfl
  | succ n =>
    unfold serveLocal
    rw [hfind]

theorem noneReleased_of {s t : State} (h : NoneReleased s) (ht : t.misc.localReq = s.misc.localReq) : NoneReleased t := by
  unfold NoneReleased at *
  rw [ht]
  exact h

/-- A packet for this device is delivered and releases nothing. -/
theorem delivered_here {s t : State} {k : Packet} (h : forHere s k = true) (hn : NoneReleased t) : delivered s k t = t := by
  unfold delivered settleLocal
  rw [if_pos h, serveLocal_none _ hn]

theorem delivered_elsewhere {s : State} {k : Packet} (h : forHere s k = false) (t : State) : delivered s k t = s := by
  unfold delivered
  rw [h, if_neg Bool.false_ne_true]

/-! ## Routes and responses -/

/-- Where a response goes depends on the routes and on registers below the Pods' blocks. -/
theorem routeTo_congr {s t : State} (d : Nat) (hr : ∀ o, o < 0x1000000 → reg t o = reg s o) (hm : t.misc.routes = s.misc.routes) :
    routeTo t 1 d = routeTo s 1 d := by
  have hdev : deviceCoord t = deviceCoord s := field_congr (hr _ (by decide)) _ _
  have hphys (l : PortId) : physOf t l = physOf s l := by
    unfold physOf
    rw [field_congr (hr rPortMapLo (by decide)), field_congr (hr rPortMapHi (by decide))]
  have hup (p : PortId) : portUp t p = portUp s p := by
    unfold portUp lstate
    rw [field_congr (hr _ (by unfold rPort; omega))]
  unfold routeTo
  rw [hdev, hm, if_neg (show ¬ (1 : Nat) = 2 by decide), if_neg (show ¬ (1 : Nat) = 2 by decide)]
  simp only [hphys, hup]

/-- The DONE that a request gets. -/
def doneOf (k : Packet) (status : Nat) : Packet := twinePacket 0xC k.dst.toNat k.src.toNat 0 false (leBytes 2 status ++ List.replicate 62 0)

theorem doneOf_fields (k : Packet) (status : Nat) : (doneOf k status).type = 0xC ∧ (doneOf k status).dst = k.src ∧ (doneOf k status).src = k.dst := by
  refine ⟨rfl, ?_, ?_⟩
  · exact (BitVec.ofNat_toNat 24 k.src).trans (BitVec.setWidth_eq k.src)
  · exact (BitVec.ofNat_toNat 24 k.dst).trans (BitVec.setWidth_eq k.dst)

theorem doneOf_intact (k : Packet) : numAt (doneOf k 0).payload 0 2 = 0 := rfl

theorem sendDone_out {s : State} {k : Packet} {r : PortId} (h : routeTo s 1 (devOf k.src) = .out r) (status : Nat) :
    sendDone s k status = queueTx (addSlots s r true) r none (doneOf k status) := by
  unfold sendDone
  dsimp only
  rw [h]
  rfl

/-- What the DONE of a request leaves but for the port's list and the slots. -/
theorem queueTx_done {s : State} (k : Packet) (r : PortId) (status : Nat) :
    (none, doneOf k status) ∈ (port (queueTx (addSlots s r true) r none (doneOf k status)) r).txRsp
      ∧ (queueTx (addSlots s r true) r none (doneOf k status)).pods = s.pods
      ∧ (queueTx (addSlots s r true) r none (doneOf k status)).misc.localReq = s.misc.localReq
      ∧ (queueTx (addSlots s r true) r none (doneOf k status)).misc.netJobs = s.misc.netJobs
      ∧ (queueTx (addSlots s r true) r none (doneOf k status)).misc.commits = s.misc.commits := by
  refine ⟨?_, rfl, rfl, rfl, rfl⟩
  have hchannel : channelOf (doneOf k status) = 1 := rfl
  unfold queueTx
  rw [port_modPort, hchannel, if_neg (by decide), if_pos rfl]
  exact List.mem_append_right _ (List.mem_singleton.2 rfl)

theorem canRespond_out {s : State} {k : Packet} {r : PortId} (h : routeTo s 1 (devOf k.src) = .out r) (hs : 0 < slotsFree s r) : canRespond s k = true := by
  unfold canRespond
  rw [h]
  exact decide_eq_true hs

theorem doneStatus_intact {s : State} {k : Packet} {n : Nat} (hfit : targetOf k + n ≤ podSize) (hflag : flag s (rPod (podOf k.dst).val 0x500) 0 = false) :
    doneStatus s k n = 0 := by
  unfold doneStatus touchesNodes
  rw [if_neg (Nat.not_lt.2 hfit), hflag, Bool.false_and, Bool.false_and, if_neg Bool.false_ne_true]

/-! ## Writes -/

theorem asked_writeAsked {s u t : State} {k : Packet} {key : NetKey} {b : List Byte} (hk : netJob u key = none) (hb : b ≠ [])
    (h : Asked u t (podOf k.dst) key (targetOf k) b.length (unitsAt (targetOf k) b)) (hm : u.mem = s.mem) (hp : u.pods = s.pods) :
    WriteAsked s t key k b := by
  refine ⟨writeJob u (podOf k.dst) key, writeStands u (podOf k.dst) (targetOf k) b.length (unitsAt (targetOf k) b), netJob_appended rfl hk h.jobs, rfl,
    h.granted (List.length_pos_of_ne_nil hb), ?_, rfl, rfl, ?_, fun a => memByte_congr (h.mem.trans hm) a, ?_⟩
  · change _ ∈ (pod t (podOf k.dst)).ranges
    rw [h.range]
    exact List.mem_append_right _ (List.mem_singleton.2 rfl)
  · unfold writeStands unitsAt
    rw [List.map_map]
    rfl
  · change (pod t (podOf k.dst)).inq = (pod s (podOf k.dst)).inq
    rw [h.range, pod, hp, ← pod]

theorem payloadPut_eq {s : State} {k : Packet} (src : Option PortId) (hfit : targetOf k + k.payload.length ≤ podSize) :
    payloadPut s src k = netPut s (podOf k.dst) (.packet src k 0) (targetOf k) k.payload := by
  have h : doneStatus s k k.payload.length ≠ 2 := by
    unfold doneStatus
    rw [if_neg (Nat.not_lt.2 hfit)]
    split <;> decide
  unfold payloadPut
  rw [if_neg h]

/-- A deliverable packet is written as far as the banks have granted. -/
theorem deliverWrite_eq {s : State} {src : Option PortId} {k : Packet} (h : Deliverable s src k) : deliverWrite s src k
    = if (netPut s (podOf k.dst) (.packet src k 0) (targetOf k) k.payload).2
      then afterWrite (netPut s (podOf k.dst) (.packet src k 0) (targetOf k) k.payload).1 src k
      else (netPut s (podOf k.dst) (.packet src k 0) (targetOf k) k.payload).1 := by
  obtain ⟨-, hw, hr, hfit, -⟩ := h
  unfold deliverWrite
  dsimp only
  rw [hw, if_neg Bool.false_ne_true, hr, if_pos rfl, payloadPut_eq src hfit]

theorem deliverWrite_asks {s : State} {src : Option PortId} {k : Packet} (h : Deliverable s src k) (hk : netJob s (.packet src k 0) = none)
    (hb : k.payload ≠ []) : deliverWrite s src k
      = startWrite s (podOf k.dst) (.packet src k 0) (targetOf k) k.payload.length (unitsAt (targetOf k) k.payload) := by
  rw [deliverWrite_eq h, netPut_asks (keptUnits_eq h.2.2.2.2 _ _) hk hb, if_neg Bool.false_ne_true]

theorem deliverWrite_waits {s : State} {src : Option PortId} {k : Packet} {j : NetJob} (h : Deliverable s src k) (hk : netJob s (.packet src k 0) = some j)
    (hd : netDone s j = false) : deliverWrite s src k = s := by
  rw [deliverWrite_eq h, netPut_open hk, hd, if_neg Bool.false_ne_true, if_neg Bool.false_ne_true]

theorem deliverWrite_granted {s : State} {src : Option PortId} {k : Packet} {j : NetJob} (h : Deliverable s src k)
    (hk : netJob s (.packet src k 0) = some j) (hd : netDone s j = true) : deliverWrite s src k = afterWrite (closeJob s (.packet src k 0)) src k := by
  rw [deliverWrite_eq h, netPut_open hk, hd, if_pos rfl, if_pos rfl]

/-! ## The entry -/

/-- The entry of a packet stands last in its queue, and only the queue's high-water mark is written besides. -/
structure Entered (s t : State) (k : Packet) : Prop where
  queue : vget (pod t (podOf k.dst)).inq (queueOf k.dst) = vget (pod s (podOf k.dst)).inq (queueOf k.dst) ++ [⟨twineEntry k, s.stake.frames, tick s, none⟩]
  regs : ∀ o, o < 0x1000000 → reg t o = reg s o
  node : flag t (rPod (podOf k.dst).val 0x500) 0 = flag s (rPod (podOf k.dst).val 0x500) 0
  misc : t.misc = s.misc
  mem : t.mem = s.mem

theorem noteDepth_frame (s : State) (p : PodId) (q depth : Nat) : ∃ v, noteDepth s p q depth = setReg s (rPod p.val (0x800 + 4 * q)) v
    ∨ noteDepth s p q depth = s := by
  unfold noteDepth
  dsimp only
  split
  · exact ⟨_, Or.inl rfl⟩
  · exact ⟨0, Or.inr rfl⟩

/-- The entry stands in its queue. -/
def withEntry (s : State) (k : Packet) : State :=
  modPod s (podOf k.dst) (fun x => { x with inq := vmod x.inq (queueOf k.dst) (fun l => l ++ [⟨twineEntry k, s.stake.frames, tick s, none⟩]) })

theorem withEntry_entered (s : State) (k : Packet) : Entered s (withEntry s k) k := by
  refine ⟨?_, fun _ _ => rfl, rfl, rfl, rfl⟩
  unfold withEntry
  rw [pod_modPod]
  exact vget_vmod _ _ _

theorem acceptEntry_eq (s : State) (k : Packet) : acceptEntry s (podOf k.dst) (queueOf k.dst) (twineEntry k) none
    = noteDepth (withEntry s k) (podOf k.dst) (8 + (queueOf k.dst).val) (vget (pod s (podOf k.dst)).inq (queueOf k.dst)).length.succ := rfl

theorem acceptEntry_entered (s : State) (k : Packet) : Entered s (acceptEntry s (podOf k.dst) (queueOf k.dst) (twineEntry k) none) k := by
  have h := withEntry_entered s k
  rw [acceptEntry_eq]
  obtain ⟨v, hv | hv⟩ := noteDepth_frame (withEntry s k) (podOf k.dst) (8 + (queueOf k.dst).val) (vget (pod s (podOf k.dst)).inq (queueOf k.dst)).length.succ
  · rw [hv]
    refine ⟨h.queue, fun o ho => (reg_setReg_ne _ v (by unfold rPod; omega)).trans (h.regs o ho), ?_, h.misc, h.mem⟩
    rw [flag, reg_setReg_ne _ v (by unfold rPod; omega)]
    exact h.node
  · rw [hv]
    exact h

theorem when_modPort_frame (s : State) (p : PortId) (f : Port → Port) (c : Bool) : ∃ ports, (if c then modPort s p f else s) = { s with ports := ports } := by
  cases c
  · exact ⟨s.ports, rfl⟩
  · exact ⟨_, rfl⟩

theorem freeRx_frame (s : State) (p : PortId) (k : Packet) : ∃ ports, freeRx s p k = { s with ports := ports } := when_modPort_frame s p _ _

theorem Entered.freed {s t : State} {k : Packet} (h : Entered s t k) (p : PortId) (x : Packet) : Entered s (freeFrom t (some p) x) k := by
  obtain ⟨ports, hf⟩ := freeRx_frame t p x
  change Entered s (freeRx t p x) k
  rw [hf]
  exact ⟨h.queue, h.regs, h.node, h.misc, h.mem⟩

/-- The entry of a packet is placed, and the packet has left its receive buffer. -/
def entryPlaced (s : State) (p : PortId) (k : Packet) : State :=
  freeFrom (acceptEntry s (podOf k.dst) (queueOf k.dst) (twineEntry k) none) (some p) k

theorem entryPlaced_entered (s : State) (p : PortId) (k : Packet) : Entered s (entryPlaced s p k) k := (acceptEntry_entered s k).freed p k

theorem afterWrite_msg (s : State) (p : PortId) {k : Packet} (h : k.type = 0xD) : afterWrite s (some p) k = entryPlaced s p k := by
  unfold afterWrite entryPlaced
  dsimp only
  rw [h, if_neg (by decide), if_neg (by simp)]

theorem afterWrite_write (s : State) (p : PortId) {k : Packet} (h : k.type = 8) (hfit : targetOf k + k.payload.length ≤ podSize)
    (hflag : flag s (rPod (podOf k.dst).val 0x500) 0 = false) : afterWrite s (some p) k = sendDone (entryPlaced s p k) k 0 := by
  unfold afterWrite entryPlaced
  dsimp only
  rw [h, if_pos rfl, doneStatus_intact hfit ((acceptEntry_entered s k).node.trans hflag)]

end Sys2Proof.Machine
end

section
/-! Obligation O31, continued: full queues, additions and commits. -/

namespace Sys2Proof.Machine

open Sys2Proof.Claims (NoneReleased Deliverable WriteAsked)

/-! ## Entries and responses, in the words of the statement -/

/-- A granted transfer is used up: nothing else changes. -/
theorem closeJob_same (s : State) (key : NetKey) : (closeJob s key).regs = s.regs ∧ (closeJob s key).pods = s.pods ∧ (closeJob s key).mem = s.mem
    ∧ (closeJob s key).stake = s.stake ∧ (closeJob s key).misc.localReq = s.misc.localReq ∧ (closeJob s key).misc.routes = s.misc.routes :=
  ⟨rfl, rfl, rfl, rfl, rfl, rfl⟩

theorem routeTo_closeJob (s : State) (key : NetKey) (d : Nat) : routeTo (closeJob s key) 1 d = routeTo s 1 d := routeTo_congr d (fun _ _ => rfl) rfl

theorem netJob_congr {s t : State} (h : t.misc.netJobs = s.misc.netJobs) (key : NetKey) : netJob t key = netJob s key := by
  unfold netJob
  rw [h]

/-- What a DONE leaves as it was. -/
theorem sendDone_sent {s : State} {k : Packet} {r : PortId} (h : routeTo s 1 (devOf k.src) = .out r) :
    (none, doneOf k 0) ∈ (port (sendDone s k 0) r).txRsp ∧ (sendDone s k 0).pods = s.pods ∧ (sendDone s k 0).misc.localReq = s.misc.localReq
      ∧ (sendDone s k 0).misc.netJobs = s.misc.netJobs ∧ (sendDone s k 0).misc.commits = s.misc.commits ∧ MemSame s (sendDone s k 0) := by
  have hm := (sendDone_calm true s k 0).memSame
  rw [sendDone_out h] at hm ⊢
  obtain ⟨ht, hp, hl, hj, hc⟩ := queueTx_done k r 0 (s := s)
  exact ⟨ht, hp, hl, hj, hc, hm⟩

/-- The packet's units are freed: routes, network and memory stay. -/
structure Freed (s t : State) : Prop where
  regs : t.regs = s.regs
  pods : t.pods = s.pods
  misc : t.misc = s.misc
  mem : t.mem = s.mem

theorem freeFrom_freed (s : State) (p : PortId) (k : Packet) : Freed s (freeFrom s (some p) k) := by
  obtain ⟨ports, hf⟩ := freeRx_frame s p k
  change Freed s (freeRx s p k)
  rw [hf]
  exact ⟨rfl, rfl, rfl, rfl⟩

theorem Freed.route {s t : State} (h : Freed s t) (d : Nat) : routeTo t 1 d = routeTo s 1 d :=
  routeTo_congr d (fun o _ => by unfold reg; rw [h.regs]) (by rw [h.misc])

/-! ## A full queue -/

/-- A packet that finds its queue full waits, and is counted. -/
def queuedFull (s : State) (src : Option PortId) (k : Packet) : State :=
  modPod (refuseEntry s (podOf k.dst)) (podOf k.dst) (fun x => { x with waiting := x.waiting ++ [⟨queueOf k.dst, twineEntry k, none, some (src, k)⟩] })

theorem deliverWrite_full {s : State} {src : Option PortId} {k : Packet} (hw : isWaiting s k src = false)
    (hr : inqRoom s (podOf k.dst) (queueOf k.dst) = false) : deliverWrite s src k = queuedFull s src k := by
  unfold deliverWrite
  dsimp only
  rw [hw, hr, if_neg Bool.false_ne_true, if_neg Bool.false_ne_true]
  rfl

theorem refuseEntry_eq (s : State) (p : PodId) : ∃ v, refuseEntry s p = setReg s (rPod p.val 0x880) v := ⟨_, rfl⟩

theorem queuedFull_facts (s : State) (src : Option PortId) (k : Packet) : MemSame s (queuedFull s src k)
    ∧ (pod (queuedFull s src k) (podOf k.dst)).waiting = (pod s (podOf k.dst)).waiting ++ [⟨queueOf k.dst, twineEntry k, none, some (src, k)⟩]
    ∧ RegsBut [rPod (podOf k.dst).val 0x880] s (queuedFull s src k) := by
  obtain ⟨v, hv⟩ := refuseEntry_eq s (podOf k.dst)
  unfold queuedFull
  rw [hv]
  refine ⟨fun a => memByte_congr (by rw [modPod_mem, setReg_mem]) a, ?_, fun o _ ho => ?_⟩
  · rw [pod_modPod, pod_setReg]
  · rw [reg_modPod]
    exact reg_setReg_ne s v (fun e => ho (List.mem_singleton.2 e.symm))

/-! ## FADD -/

theorem payloadLanes_length (b : List Byte) : (payloadLanes b).length = b.length / 4 := by
  have hchunks (n : Nat) (l : List Byte) : (chunksB 4 n l).length = n := by
    induction n generalizing l with
    | zero => rfl
    | succ n ih => rw [chunksB, List.length_cons, ih]
  unfold payloadLanes
  rw [List.length_map, hchunks]

/-- The lanes of the sum of a payload of whole 64-byte units are not empty. -/
theorem faddLanes_ne_nil {old : List Byte} {k : Packet} (hb : k.payload ≠ []) (h64 : k.payload.length % 64 = 0) (ho : old.length = k.payload.length) :
    faddLanes old k ≠ [] := by
  have hpos := List.length_pos_of_ne_nil hb
  have hzip : (List.zip (payloadLanes old) (payloadLanes k.payload)).length = k.payload.length / 4 := by
    rw [List.length_zip, payloadLanes_length, payloadLanes_length, ho, Nat.min_self]
  unfold faddLanes
  cases hz : List.zip (payloadLanes old) (payloadLanes k.payload) with
  | nil =>
    rw [hz, List.length_nil] at hzip
    omega
  | cons e l =>
    rw [List.flatMap_cons]
    exact List.append_ne_nil_of_left_ne_nil (List.ne_nil_of_length_pos (by rw [leBytes_length]; decide)) _

section
variable {s : State} {src : Option PortId} {k : Packet} (hfit : targetOf k + k.payload.length ≤ podSize)
  (hflag : flag s (rPod (podOf k.dst).val 0x500) 0 = false) (hopen : faddOpen s src k = false)
include hfit hflag hopen

/-- A FADD whose read has not been granted. -/
theorem deliverFadd_reads {u : State} (h1 : netJob s (.packet src k 1) = none)
    (hr : netRead s (podOf k.dst) (.packet src k 0) [(targetOf k, k.payload.length)] = (u, none)) : deliverFadd s src k = u := by
  unfold deliverFadd
  dsimp only
  rw [doneStatus_intact hfit hflag, if_neg (by decide), hopen, if_neg Bool.false_ne_true, h1, Option.isSome_none, if_neg Bool.false_ne_true, hr]

/-- A FADD whose lanes have come, and whose write goes to the banks. -/
theorem deliverFadd_read {u v : State} {old : List Byte} (h1 : netJob s (.packet src k 1) = none)
    (hr : netRead s (podOf k.dst) (.packet src k 0) [(targetOf k, k.payload.length)] = (u, some old))
    (hp : netPut u (podOf k.dst) (.packet src k 1) (targetOf k) (faddLanes old k) = (v, false)) : deliverFadd s src k = v := by
  unfold deliverFadd
  dsimp only
  rw [doneStatus_intact hfit hflag, if_neg (by decide), hopen, if_neg Bool.false_ne_true, h1, Option.isSome_none, if_neg Bool.false_ne_true, hr]
  dsimp only
  rw [hp, if_neg Bool.false_ne_true]

/-- A FADD whose write has been asked. -/
theorem deliverFadd_writes {j : NetJob} (h1 : netJob s (.packet src k 1) = some j) (hd : netDone s j = true) :
    deliverFadd s src k = sendDone (freeFrom (closeJob s (.packet src k 1)) src k) k 0 := by
  unfold deliverFadd
  dsimp only
  rw [doneStatus_intact hfit hflag, if_neg (by decide), hopen, if_neg Bool.false_ne_true, h1, Option.isSome_some, if_pos rfl, netPut_open h1, hd,
    if_pos rfl, if_pos rfl]

theorem deliverFadd_asks (h1 : netJob s (.packet src k 1) = none) (h0 : netJob s (.packet src k 0) = none) (hb : k.payload ≠ []) :
    ∃ j, netJob (deliverFadd s src k) (.packet src k 0) = some j ∧ netGranted (deliverFadd s src k) j.pod j.op = false ∧ MemSame s (deliverFadd s src k)
      ∧ j.data = memRead s (podAddr (podOf k.dst) (targetOf k)) k.payload.length ∧ (deliverFadd s src k).misc.localReq = s.misc.localReq := by
  obtain ⟨t, j, hr, hj, hg, hdata, hm, hl⟩ := netRead_asks h0 (podOf k.dst) (targetOf k) (List.length_pos_of_ne_nil hb)
  rw [deliverFadd_reads hfit hflag hopen h1 hr]
  exact ⟨j, hj, hg, fun a => memByte_congr hm a, hdata, hl⟩

/-- The sums go to the banks once the lanes have come. -/
theorem deliverFadd_adds {j : NetJob} (h1 : netJob s (.packet src k 1) = none) (h0 : netJob s (.packet src k 0) = some j) (hd : netDone s j = true)
    (hb : faddLanes j.data k ≠ []) : deliverFadd s src k = startWrite (closeJob s (.packet src k 0)) (podOf k.dst) (.packet src k 1) (targetOf k)
      (faddLanes j.data k).length (unitsAt (targetOf k) (faddLanes j.data k)) := by
  exact deliverFadd_read hfit hflag hopen h1 (netRead_open h0 hd _)
    (netPut_asks (keptUnits_eq (s := closeJob s (.packet src k 0)) hflag _ _) (netJob_closeJob_of_none (.packet src k 0) h1) hb)

end

/-! ## OCOMMIT -/

/-- The commit of a packet joins those of its frame. -/
def commitJoined (s : State) (k : Packet) : State := modMisc s (fun m => { m with commits := m.commits
  ++ [(numAt k.payload 0 8, podOf k.dst, targetOf k, (payloadLanes (k.payload.drop 64)).map (BitVec.ofNat 32))] })

theorem deliverOcommit_joins {s : State} {src : Option PortId} {k : Packet} (hfit : targetOf k + k.payload.length ≤ podSize)
    (hflag : flag s (rPod (podOf k.dst).val 0x500) 0 = false)
    (hroom : commitBytes s (numAt k.payload 0 8) + 4 * (payloadLanes (k.payload.drop 64)).length ≤ 0x200000) :
    deliverOcommit s src k = sendDone (freeFrom (commitJoined s k) src k) k 0 := by
  have hlanes : targetOf k + 4 * (payloadLanes (k.payload.drop 64)).length ≤ podSize := by
    rw [payloadLanes_length, List.length_drop]
    omega
  unfold deliverOcommit commitJoined
  dsimp only
  rw [doneStatus_intact hlanes hflag, if_neg (by decide), if_neg (Nat.not_lt.2 hroom)]

/-! ## The rows of the packets -/

section
variable {s : State} {p : Option PortId} {k : Packet}

theorem exec_msg (h : forHere s k = true) (hn : NoneReleased (deliverWrite s p k)) : exec (.msg p k) s = .next (deliverWrite s p k) :=
  congrArg Host.Outcome.next (delivered_here h hn)

theorem exec_write (h : forHere s k = true) (hc : canRespond s k = true) (hf : fenceWaits s p k = false) (hn : NoneReleased (deliverWrite s p k)) :
    exec (.write p k) s = .next (deliverWrite s p k) := by
  change execWrite p k s = _
  unfold execWrite
  rw [hc, hf, Bool.not_false, Bool.and_self, if_pos rfl, delivered_here h hn]

theorem exec_write_waits (hn : NoneReleased s) (hd : deliverWrite s p k = s) : exec (.write p k) s = .next s := by
  have hsame (c : Bool) : (if c then deliverWrite s p k else s) = s := by
    rw [hd]
    exact ite_self s
  change execWrite p k s = _
  unfold execWrite
  rw [hsame]
  cases h : forHere s k with
  | true => rw [delivered_here h hn]
  | false => rw [delivered_elsewhere h]

theorem exec_fadd (h : forHere s k = true) (hc : canRespond s k = true) (hn : NoneReleased (deliverFadd s p k)) :
    exec (.fadd p k) s = .next (deliverFadd s p k) := by
  change execFadd p k s = _
  unfold execFadd
  rw [hc, if_pos rfl, delivered_here h hn]

theorem exec_ocommit (h : forHere s k = true) (hc : canRespond s k = true) (hn : NoneReleased (deliverOcommit s p k)) :
    exec (.ocommit p k) s = .next (deliverOcommit s p k) := by
  change execOcommit p k s = _
  unfold execOcommit
  rw [hc, if_pos rfl, delivered_here h hn]

theorem exec_elsewhere (h : forHere s k = false) : exec (.write p k) s = .next s ∧ exec (.msg p k) s = .next s ∧ exec (.fadd p k) s = .next s
    ∧ exec (.ocommit p k) s = .next s ∧ exec (.done p k) s = .next s :=
  ⟨congrArg _ (delivered_elsewhere h _), congrArg _ (delivered_elsewhere h _), congrArg _ (delivered_elsewhere h _),
    congrArg _ (delivered_elsewhere h _), congrArg _ (delivered_elsewhere h _)⟩

end

/-! ## Each clause -/

section
variable {s : State} {p : PortId} {k : Packet}

/-- The write of a deliverable packet is asked. -/
theorem deliverWrite_writeAsked (h : Deliverable s (some p) k) (hk : netJob s (.packet (some p) k 0) = none) (hb : k.payload ≠ []) :
    WriteAsked s (deliverWrite s (some p) k) (.packet (some p) k 0) k k.payload ∧ (deliverWrite s (some p) k).regs = s.regs
      ∧ (deliverWrite s (some p) k).ports = s.ports ∧ (deliverWrite s (some p) k).misc.localReq = s.misc.localReq := by
  have ha := startWrite_asked s (podOf k.dst) (.packet (some p) k 0) (targetOf k) k.payload.length (unitsAt (targetOf k) k.payload)
  rw [deliverWrite_asks h hk hb]
  exact ⟨asked_writeAsked hk hb ha rfl rfl, ha.regs, ha.ports, ha.waits⟩

/-- The entry of a packet whose write the banks have granted. -/
def grantedEntry (s : State) (p : PortId) (k : Packet) : State := entryPlaced (closeJob s (.packet (some p) k 0)) p k

theorem grantedEntry_facts (s : State) (p : PortId) (k : Packet) : vget (pod (grantedEntry s p k) (podOf k.dst)).inq (queueOf k.dst)
      = vget (pod s (podOf k.dst)).inq (queueOf k.dst) ++ [⟨twineEntry k, s.stake.frames, tick s, none⟩]
    ∧ netJob (grantedEntry s p k) (.packet (some p) k 0) = none ∧ MemSame s (grantedEntry s p k)
    ∧ (grantedEntry s p k).misc.localReq = s.misc.localReq ∧ ∀ d, routeTo (grantedEntry s p k) 1 d = routeTo s 1 d := by
  have h := entryPlaced_entered (closeJob s (.packet (some p) k 0)) p k
  refine ⟨h.queue, ?_, fun a => memByte_congr h.mem a, by rw [grantedEntry, h.misc]; rfl, fun d => ?_⟩
  · rw [grantedEntry, netJob_congr (s := closeJob s (.packet (some p) k 0)) (by rw [h.misc])]
    exact netJob_closeJob s _
  · exact (routeTo_congr d h.regs (by rw [h.misc])).trans (routeTo_closeJob s _ d)

end

end Sys2Proof.Machine

open Sys2Proof.Machine in
/-- Settles O31: the deliveries of each type by what stands at the banks. -/
theorem twineRequestsAreDelivered : Obligations.TwineRequestsAreDelivered := by
  unfold Obligations.TwineRequestsAreDelivered
  refine ⟨?_, ?_, ?_, ?_, ?_, ?_, ?_, fun p k s h => exec_elsewhere h⟩
  · intro p k s _ hn hd hk hb ht
    obtain ⟨hw, hr, hp, hl⟩ := deliverWrite_writeAsked hd hk hb
    refine ⟨_, fun h8 => ?_, fun _ => exec_msg hd.1 (noneReleased_of hn hl), hw, hr, hp⟩
    rcases ht with hD | ⟨-, hf, hc⟩
    · exact absurd (hD.symm.trans h8) (by decide)
    · exact exec_write hd.1 hc hf (noneReleased_of hn hl)
  · intro p r k j s _ hn hd h8 hf hj hdone hroute hs
    obtain ⟨hq, hjob, hm, hl, hr⟩ := grantedEntry_facts s p k
    obtain ⟨htx, hpods, hl', hjobs, -, hm'⟩ := sendDone_sent ((hr _).trans hroute)
    have heq : deliverWrite s (some p) k = sendDone (grantedEntry s p k) k 0 := by
      rw [deliverWrite_granted hd hj hdone, afterWrite_write (closeJob s (.packet (some p) k 0)) p h8 hd.2.2.2.1 hd.2.2.2.2]
      rfl
    obtain ⟨hty, hdst, hsrc⟩ := doneOf_fields k 0
    refine ⟨_, doneOf k 0, by rw [exec_write hd.1 (canRespond_out hroute hs) hf (by rw [heq]; exact noneReleased_of hn (hl'.trans hl)), heq], ?_, htx, hty,
      hdst, hsrc, doneOf_intact k, (netJob_congr hjobs _).trans hjob, fun a => (hm' a).trans (hm a)⟩
    rw [pod, hpods, ← pod]
    exact hq
  · intro p k j s _ hn hd hD hj hdone
    obtain ⟨hq, hjob, hm, hl, -⟩ := grantedEntry_facts s p k
    have heq : deliverWrite s (some p) k = grantedEntry s p k := by
      rw [deliverWrite_granted hd hj hdone, afterWrite_msg _ p hD]
      rfl
    exact ⟨_, by rw [exec_msg hd.1 (by rw [heq]; exact noneReleased_of hn hl), heq], hq, hjob, hm⟩
  · intro p k j s hn hd hj hdone
    have heq := deliverWrite_waits hd hj hdone
    exact ⟨fun _ => by rw [exec_msg hd.1 (by rw [heq]; exact hn), heq], fun _ => exec_write_waits hn heq⟩
  · intro p k s hn hh hw hr
    have heq := deliverWrite_full hw hr
    exact ⟨_, by rw [exec_msg hh (by rw [heq]; exact noneReleased_of hn rfl), heq], queuedFull_facts s (some p) k⟩
  · intro p r k s _ hh hroute hs hn hfit hflag h64 hb hopen
    have hc := canRespond_out hroute hs
    refine ⟨fun h0 h1 => ?_, fun j h1 h0 hdone hlen => ?_, fun j h1 hdone => ?_⟩
    · obtain ⟨j, hj, hg, hm, hdata, hl⟩ := deliverFadd_asks hfit hflag hopen h1 h0 hb
      exact ⟨_, j, exec_fadd hh hc (noneReleased_of hn hl), hj, hg, hm, hdata⟩
    · have hne := faddLanes_ne_nil hb h64 hlen
      have heq := deliverFadd_adds hfit hflag hopen h1 h0 hdone hne
      have ha := startWrite_asked (closeJob s (.packet (some p) k 0)) (podOf k.dst) (.packet (some p) k 1) (targetOf k) (faddLanes j.data k).length
        (unitsAt (targetOf k) (faddLanes j.data k))
      refine ⟨_, exec_fadd hh hc (by rw [heq]; exact noneReleased_of hn ha.waits), ?_, ?_⟩
      · rw [heq]
        exact netJob_appended_ne (s := closeJob s (.packet (some p) k 0)) (netJob_closeJob s _) (by simp [writeJob]) ha.jobs
      · rw [heq]
        exact asked_writeAsked (netJob_closeJob_of_none _ h1) hne ha rfl rfl
    · have heq := deliverFadd_writes hfit hflag hopen h1 hdone
      have hfree := freeFrom_freed (closeJob s (.packet (some p) k 1)) p k
      obtain ⟨htx, hpods, hl, hjobs, -, hm⟩ := sendDone_sent (((hfree.route _).trans (routeTo_closeJob s _ _)).trans hroute)
      obtain ⟨hty, hdst, -⟩ := doneOf_fields k 0
      refine ⟨_, doneOf k 0, exec_fadd hh hc (by rw [heq]; exact noneReleased_of hn (hl.trans (by rw [hfree.misc]; rfl))), ?_, ?_, ?_, hty, hdst, doneOf_intact k⟩
      · rw [heq, netJob_congr (s := closeJob s (.packet (some p) k 1)) (hjobs.trans (by rw [hfree.misc]))]
        exact netJob_closeJob s _
      · rw [heq]
        exact fun a => (hm a).trans (memByte_congr hfree.mem a)
      · rw [heq]
        exact htx
  · intro p r k s _ hh hroute hs hn hfit hflag hroom
    have heq := deliverOcommit_joins (src := some p) hfit hflag hroom
    have hfree := freeFrom_freed (commitJoined s k) p k
    obtain ⟨-, -, hl, -, hcommits, hm⟩ := sendDone_sent ((hfree.route _).trans ((routeTo_congr _ (fun _ _ => rfl) rfl : _ = routeTo s 1 _).trans hroute))
    refine ⟨_, exec_ocommit hh (canRespond_out hroute hs) (by rw [heq]; exact noneReleased_of hn (hl.trans (by rw [hfree.misc]; rfl))), ?_, ?_⟩
    · rw [heq]
      exact fun a => (hm a).trans (memByte_congr hfree.mem a)
    · rw [heq, hcommits, hfree.misc]
      rfl
end

section
/-! The admin stream's commands (R344, R346, R347): what taking one changes, and what its record says. -/

namespace Sys2Proof.Machine

open Sys2Proof.Claims (Answered PutAsked Stored)

/-! ## Bytes -/

theorem sliceB_length (b : List Byte) (o n : Nat) : (sliceB b o n).length = n := by
  unfold sliceB
  rw [List.length_append, List.length_replicate, List.length_take]
  omega

theorem sliceB_whole {b : List Byte} {n : Nat} (h : b.length = n) : sliceB b 0 n = b := by
  unfold sliceB
  dsimp only
  rw [List.drop_zero, List.take_of_length_le (Nat.le_of_eq h), h, Nat.sub_self, List.replicate_zero, List.append_nil]

theorem sliceB_prefix (a b : List Byte) : sliceB (a ++ b) 0 a.length = a := by
  unfold sliceB
  dsimp only
  rw [List.drop_zero, List.take_left, Nat.sub_self, List.replicate_zero, List.append_nil]

/-! ## Taking a command -/

/-- An admin command has been taken: it is numbered and its descriptor passed; its work so far leaves the streams, the Pods and every other register. -/
structure Consumed (s t : State) : Prop where
  streams : t.streams = s.streams
  pods : t.pods = s.pods
  seq : t.misc.adminSeq = reg s (rStream 0 0x3C)
  number : reg t (rStream 0 0x3C) = reg s (rStream 0 0x3C) + 1
  regs : ∀ o, o ≠ rStream 0 0x38 → o ≠ rStream 0 0x3C → reg t o = reg s o

/-- The command is numbered. -/
def adminNumbered (s : State) : State :=
  modMisc (setReg s (rStream 0 0x3C) (reg s (rStream 0 0x3C) + 1)) (fun m => { m with adminSeq := reg s (rStream 0 0x3C) })

theorem takeAdmin_eq (s : State) : ∃ v, takeAdmin s = setReg (adminNumbered s) (rStream 0 0x38) v := ⟨_, rfl⟩

theorem takeAdmin_frame (s : State) : ∃ r, takeAdmin s = { s with regs := r, misc := { s.misc with adminSeq := reg s (rStream 0 0x3C) } } := by
  obtain ⟨v, h⟩ := takeAdmin_eq s
  rw [h]
  exact ⟨_, rfl⟩

theorem takeAdmin_consumed (s : State) : Consumed s (takeAdmin s) := by
  obtain ⟨v, h⟩ := takeAdmin_eq s
  rw [h]
  refine ⟨rfl, rfl, rfl, ?_, fun o h38 h3C => ?_⟩
  · rw [reg_setReg_ne _ _ (by decide)]
    exact reg_setReg s (rStream 0 0x3C) _
  · rw [reg_setReg_ne _ _ h38.symm]
    exact reg_setReg_ne s _ h3C.symm

theorem takeAdmin_mem (s : State) : (takeAdmin s).mem = s.mem := by
  obtain ⟨r, h⟩ := takeAdmin_frame s
  rw [h]

theorem Consumed.field {s t : State} (h : Consumed s t) {o : Nat} (h38 : o ≠ rStream 0 0x38) (h3C : o ≠ rStream 0 0x3C) (lo len : Nat) :
    field t o lo len = field s o lo len := field_congr (h.regs o h38 h3C) lo len

theorem Consumed.flag {s t : State} (h : Consumed s t) {o : Nat} (h38 : o ≠ rStream 0 0x38) (h3C : o ≠ rStream 0 0x3C) (i : Nat) :
    flag t o i = flag s o i := by
  rw [Machine.flag, h.regs o h38 h3C, ← Machine.flag]

theorem Consumed.limited {s t : State} (h : Consumed s t) : limited t = limited s := h.flag (by decide) (by decide) 30

theorem Consumed.pending {s t : State} (h : Consumed s t) : weavePending t = weavePending s := h.flag (by decide) (by decide) 30

theorem Consumed.func {s t : State} (h : Consumed s t) {f : Nat} (hf : f < 0x40000) : func t f = func s f := by
  unfold Machine.func
  exact h.field (by unfold rFunc rStream; omega) (by unfold rFunc rStream; omega) 0 3

/-- A condition on functions is judged as before. -/
theorem Consumed.funcs {s t : State} (h : Consumed s t) {l : List Nat} {f : Nat → Nat} (hf : ∀ k ∈ l, f k < 0x40000) :
    l.all (fun k => Machine.func t (f k) = 2) = l.all (fun k => Machine.func s (f k) = 2) := by
  rw [Bool.eq_iff_iff, List.all_eq_true, List.all_eq_true]
  exact forall₂_congr (fun k hk => by rw [h.func (hf k hk)])

theorem Consumed.loaderReady {s t : State} (h : Consumed s t) : loaderReady t = loaderReady s := by
  unfold Machine.loaderReady
  rw [h.func (by decide), h.funcs (f := fRoot) (fun k hk => by have := List.mem_range.1 hk; unfold fRoot; omega),
    h.funcs (f := fPod) (fun k hk => by have := List.mem_range.1 hk; unfold fPod; omega)]

/-- The range of a transfer lies in Root memory or in one Pod store (R346). -/
theorem transferOk_range {a n : Nat} (h : transferOk a n = true) : 0 < n ∧ (a + n ≤ rootEnd ∨ podBase ≤ a ∧ a + n ≤ podEnd
    ∧ (a - podBase) / podSize = (a + n - 1 - podBase) / podSize) := by
  unfold transferOk inOneStore at h
  simp only [Bool.and_eq_true, Bool.or_eq_true, decide_eq_true_eq] at h
  obtain ⟨-, ⟨-, hn⟩, ⟨he, -⟩ | ⟨⟨hp, he⟩, hs⟩⟩ := h
  · exact ⟨hn, Or.inl (by omega)⟩
  · exact ⟨hn, Or.inr ⟨hp, by omega, hs⟩⟩

theorem Consumed.memoryReady {s t : State} (h : Consumed s t) {a n : Nat} (ht : transferOk a n = true) : memoryReady t a n = memoryReady s a n := by
  obtain ⟨hn, hr⟩ := transferOk_range ht
  unfold Machine.memoryReady
  split
  · rw [h.func]
    unfold rootEnd podBase podEnd podSize at *
    unfold fPod
    omega
  · refine h.funcs (f := fun i => fRoot (rootStack (a + 4096 * i))) (fun i hi => ?_)
    have := List.mem_range.1 hi
    unfold rootEnd podBase podEnd podSize at *
    unfold fRoot rootStack dieSize
    omega

/-! ## Running a command -/

theorem runAdmin_idle {s : State} (h : mayTakeAdmin s = false) (d : List Byte) (op : Nat) (body : State → List Byte → State) : runAdmin s d op body = s := by
  unfold runAdmin
  rw [h, Bool.not_false, Bool.true_or, if_pos rfl]

theorem runAdmin_runs {s : State} {d : List Byte} {op : Nat} (hd : d.length = 64) (h : mayTakeAdmin s = true) (ho : numAt d 0 1 = op) (h13 : op < 0x13)
    (hl : op = 0 ∨ limited s = false) (body : State → List Byte → State) : runAdmin s d op body = body (takeAdmin s) d := by
  have hlim : (limited (takeAdmin s) && decide (op ≠ 0) && decide (op < 0x18)) = false := by
    rw [(takeAdmin_consumed s).limited]
    rcases hl with h0 | hl
    · rw [h0, decide_eq_false (by decide), Bool.and_false, Bool.false_and]
    · rw [hl, Bool.false_and, Bool.false_and]
  unfold runAdmin
  dsimp only
  rw [h, sliceB_whole hd, decide_eq_false (by omega), Bool.not_true, Bool.false_and, Bool.or_false, if_neg Bool.false_ne_true,
    if_neg (show ¬ adOp d ≠ op from fun hne => hne ho), hlim, if_neg Bool.false_ne_true]

/-! ## The record -/

theorem finishAdmin_records (s : State) (irq : Bool) (status : Nat) (data : List Byte) (a0 a1 : Nat) :
    (strm (finishAdmin s irq status data a0 a1) 0).records = (strm s 0).records ++ [(adminRecord data a0 a1 0 status s.misc.adminSeq.toNat, irq)] := by
  unfold finishAdmin queueAdmin
  rw [strm_modStrm]

/-- A command that completes: its record, and nothing besides. -/
theorem Consumed.answered {s t : State} (h : Consumed s t) (d : List Byte) (status : Nat) (data : List Byte) (a0 a1 : Nat) :
    Answered s (finishAdmin t (adIrq d) status data a0 a1) d status data a0 a1 := by
  refine ⟨?_, h.number⟩
  rw [finishAdmin_records, h.seq, strm, h.streams, ← strm]
  rfl

theorem Consumed.regsBut {s t : State} (h : Consumed s t) (irq : Bool) (status : Nat) (data : List Byte) (a0 a1 : Nat) :
    RegsBut [rStream 0 0x38, rStream 0 0x3C] s (finishAdmin t irq status data a0 a1) := by
  intro o _ ho
  exact h.regs o (fun e => ho (e ▸ List.mem_cons_self)) (fun e => ho (e ▸ List.mem_cons_of_mem _ List.mem_cons_self))

theorem Consumed.failed {s t : State} (h : Consumed s t) (hm : t.mem = s.mem) (d : List Byte) (status : Nat) :
    Answered s (failAdmin t d status) d status [] 0 0 ∧ MemSame s (failAdmin t d status) ∧ (failAdmin t d status).pods = s.pods
      ∧ RegsBut [rStream 0 0x38, rStream 0 0x3C] s (failAdmin t d status) :=
  ⟨h.answered d status [] 0 0, fun a => memByte_congr hm a, h.pods, h.regsBut _ _ _ _ _⟩

end Sys2Proof.Machine
end

section
/-! Obligation O56: NOP, LOAD, READ and LOAD_WEAVE answer (R228, R319, R335, R346, R347). -/

namespace Sys2Proof.Machine

open Sys2Proof.Claims (Answered PutAsked Stored)

/-! ## Device addresses (R192) -/

theorem podAddr_split {a : Nat} (h : inPodStore a = true) : podAddr (podOfAddr a) (offsetOf a) = a := by
  unfold inPodStore at h
  simp only [Bool.and_eq_true, decide_eq_true_eq] at h
  have hval : (podOfAddr a).val = (a - podBase) / podSize % 64 := rfl
  unfold podAddr offsetOf
  rw [hval]
  unfold podBase podEnd podSize at *
  omega

theorem not_inPodStore {a : Nat} (h : a < rootEnd) : inPodStore a = false := by
  unfold inPodStore rootEnd podBase at *
  rw [decide_eq_false (by omega), Bool.false_and]

theorem isMem_root {x : Nat} (h : x < rootEnd) : isMem x = true := by
  unfold isMem
  rw [decide_eq_true h, Bool.true_or]

/-- Bytes written within Root memory. -/
theorem stored_memWrite {s u : State} {a : Nat} {b : List Byte} (hm : u.mem = s.mem) (h : a + b.length ≤ rootEnd) : Stored s (memWrite u a b) a b := by
  intro x
  rw [memByte_memWrite, memByte_congr hm]
  by_cases hx : a ≤ x ∧ x < a + b.length
  · rw [if_pos ⟨hx.1, hx.2, isMem_root (by omega)⟩, if_pos hx]
  · rw [if_neg (fun hc => hx ⟨hc.1, hc.2.1⟩), if_neg hx]

/-! ## NOP and LOAD -/

theorem exec_admin_idle {s : State} (h : mayTakeAdmin s = false) (d b b2 : List Byte) (r : Bool) : exec (.nop d) s = .next s ∧ exec (.load d b r) s = .next s
    ∧ exec (.read d) s = .next s ∧ exec (.loadWeave d b b2 r) s = .next s := by
  refine ⟨congrArg _ (runAdmin_idle h d _ _), congrArg _ (runAdmin_idle h d _ _), ?_, congrArg _ (runAdmin_idle h d _ _)⟩
  change execRead d s = _
  unfold execRead
  dsimp only
  rw [h, Bool.false_and, if_neg Bool.false_ne_true, runAdmin_idle h]

/-- The bytes of a LOAD are on their way. -/
def loadBegun (s : State) (d b : List Byte) : State :=
  modMisc (hostPut (takeAdmin s) .load (adDev d) b).1 (fun m => { m with loading := some (BitVec.ofNat 8 (adKind d), adIrq d, sha256 b) })

theorem loadBytes_eq {s : State} {d b : List Byte} (hk : numAt d 2 1 = 1 ∨ numAt d 2 1 = 2) (ht : transferOk (numAt d 0x18 8) (numAt d 0x10 8) = true)
    (hr : memoryReady s (numAt d 0x18 8) (numAt d 0x10 8) = true) :
    loadBytes (takeAdmin s) d b false = loadBegun s d (sliceB b 0 (numAt d 0x10 8)) := by
  have hkind : ¬ (adKind d ≠ 1 ∧ adKind d ≠ 2) := by
    unfold adKind
    omega
  have htrans : (!transferOk (adDev d) (adLength d)) = false := by
    unfold adDev adLength
    rw [ht, Bool.not_true]
  have hready : (!memoryReady (takeAdmin s) (adDev d) (adLength d)) = false := by
    unfold adDev adLength
    rw [(takeAdmin_consumed s).memoryReady ht, hr, Bool.not_true]
  unfold loadBytes loadBegun
  dsimp only
  rw [if_neg hkind, htrans, if_neg Bool.false_ne_true, hready, if_neg Bool.false_ne_true, if_neg Bool.false_ne_true]
  rfl

theorem askWrite_streams (s : State) (p : PodId) (key : NetKey) (o : Nat) (b : List Byte) : (askWrite s p key o b).streams = s.streams := by
  have hcount (o n : Nat) : (addSat s o n).streams = s.streams := rfl
  have hlost (n : Nat) : (if n = 0 then s else addSat s (rPod p.val 0x884) n).streams = s.streams := by
    split
    · rfl
    · exact hcount _ _
  unfold askWrite
  dsimp only
  split
  · exact hlost _
  · exact (startWrite_asked _ p key o _ _).streams.trans (hlost _)

theorem hostPut_streams (s : State) (key : NetKey) (a : Nat) (b : List Byte) : (hostPut s key a b).1.streams = s.streams := by
  unfold hostPut netPut
  split
  · split
    · exact askWrite_streams s _ key _ b
    · split <;> rfl
  · split <;> rfl

theorem loadBegun_same (s : State) (d b : List Byte) : (strm (loadBegun s d b) 0).records = (strm s 0).records
    ∧ (loadBegun s d b).misc.loading = some (BitVec.ofNat 8 (numAt d 2 1), decide (numAt d 1 1 % 2 = 1), sha256 b) := by
  refine ⟨?_, rfl⟩
  have h : (loadBegun s d b).streams = s.streams := (hostPut_streams _ _ _ _).trans (takeAdmin_consumed s).streams
  rw [strm, h, ← strm]

theorem netJob_takeAdmin (s : State) (key : NetKey) : netJob (takeAdmin s) key = netJob s key := by
  obtain ⟨r, h⟩ := takeAdmin_frame s
  rw [h]
  rfl

theorem netDone_takeAdmin (s : State) (j : NetJob) : netDone (takeAdmin s) j = netDone s j := by
  obtain ⟨r, h⟩ := takeAdmin_frame s
  rw [h]
  rfl

theorem loadLanded_none {s : State} (h : netJob s .load = none) : loadLanded s = true := by
  unfold loadLanded
  rw [h]

theorem loadLanded_some {s : State} {j : NetJob} (h : netJob s .load = some j) : loadLanded s = netDone s j := by
  unfold loadLanded
  rw [h]

theorem loadBegun_root {s : State} {d b : List Byte} (h : adDev d + b.length ≤ rootEnd) (hb : 0 < b.length) (hj : netJob s .load = none) :
    Stored s (loadBegun s d b) (adDev d) b ∧ loadLanded (loadBegun s d b) = true := by
  have hput : (hostPut (takeAdmin s) .load (adDev d) b).1 = memWrite (countRoot (takeAdmin s) b.length) (adDev d) b := by
    unfold hostPut
    rw [not_inPodStore (by omega), if_neg Bool.false_ne_true, if_pos (by omega)]
  unfold loadBegun
  rw [hput]
  refine ⟨stored_memWrite (takeAdmin_mem s) h, loadLanded_none ?_⟩
  exact (netJob_congr (s := takeAdmin s) rfl .load).trans ((netJob_takeAdmin s _).trans hj)

theorem touchesNodes_takeAdmin (s : State) (p : PodId) (o n : Nat) : touchesNodes (takeAdmin s) p o n = touchesNodes s p o n := by
  unfold touchesNodes
  rw [(takeAdmin_consumed s).flag (by unfold rPod rStream; omega) (by unfold rPod rStream; omega)]

theorem asked_putAsked {s u t : State} {key : NetKey} {p : PodId} {o : Nat} {b : List Byte} (hk : netJob u key = none) (hb : b ≠ [])
    (h : Asked u t p key o b.length (unitsAt o b)) (hm : u.mem = s.mem) : PutAsked s t key p o b := by
  refine ⟨writeJob u p key, writeStands u p o b.length (unitsAt o b), netJob_appended rfl hk h.jobs, rfl,
    h.granted (List.length_pos_of_ne_nil hb), ?_, rfl, rfl, ?_, fun a => memByte_congr (h.mem.trans hm) a⟩
  · rw [h.range]
    exact List.mem_append_right _ (List.mem_singleton.2 rfl)
  · unfold writeStands unitsAt
    rw [List.map_map]
    rfl

theorem PutAsked.loading {s t : State} {key : NetKey} {p : PodId} {o : Nat} {b : List Byte} (h : PutAsked s t key p o b)
    (l : Option (Byte × Bool × List Byte)) : PutAsked s (modMisc t (fun m => { m with loading := l })) key p o b := h

/-- A write whose lines are still at the banks has not landed. -/
theorem PutAsked.not_landed {s t : State} {p : PodId} {o : Nat} {b : List Byte} (h : PutAsked s t .load p o b) : loadLanded t = false := by
  obtain ⟨j, -, hj, hp, hg, -⟩ := h
  rw [loadLanded_some hj, netDone, hp, hg, Bool.false_and]

theorem loadBegun_pod {s : State} {d b : List Byte} (h : inPodStore (adDev d) = true) (hb : b ≠ []) (hj : netJob s .load = none)
    (ht : touchesNodes s (podOfAddr (adDev d)) (offsetOf (adDev d)) b.length = false) :
    PutAsked s (loadBegun s d b) .load (podOfAddr (adDev d)) (offsetOf (adDev d)) b := by
  have hnone : netJob (takeAdmin s) .load = none := (netJob_takeAdmin s _).trans hj
  have hput := netPut_asks (s := takeAdmin s) (keptUnits_outside ((touchesNodes_takeAdmin s _ _ _).trans ht)) hnone hb
  unfold loadBegun hostPut
  rw [h, if_pos rfl, hput]
  exact PutAsked.loading (asked_putAsked hnone hb (startWrite_asked _ _ _ _ _ _) (takeAdmin_mem s)) _

/-! ## LOAD_COMPLETE (R319, R320) -/

/-- The LOAD's record stands, and its transfer is used up. -/
def loadRecorded (s : State) (irq : Bool) (h : List Byte) : State :=
  finishAdmin (modMisc (closeJob s .load) (fun m => { m with loading := none })) irq 0 h 0 0

theorem loadComplete_eq {s : State} {k : Byte} {irq : Bool} {h : List Byte} (hl : s.misc.loading = some (k, irq, h)) (hd : loadLanded s = true) :
    loadComplete s = if k = 1 then postEvent (modMisc (loadRecorded s irq h) (fun m => { m with weightNext := sha256 (s.misc.weightNext ++ h) })) 3 0 0
      (sha256 (s.misc.weightNext ++ h)) else loadRecorded s irq h := by
  unfold loadComplete loadRecorded
  dsimp only
  rw [hd, if_pos rfl, if_pos rfl, hl]
  rfl

theorem loadComplete_idle {s : State} (h : s.misc.loading = none ∨ loadLanded s = false) : loadComplete s = s := by
  have hnone : (if loadLanded s then s.misc.loading else none) = none := by
    rcases h with h | h
    · rw [h, ite_self]
    · rw [h, if_neg Bool.false_ne_true]
  unfold loadComplete
  dsimp only
  rw [hnone]

theorem loadRecorded_records (s : State) (irq : Bool) (h : List Byte) :
    (strm (loadRecorded s irq h) 0).records = (strm s 0).records ++ [(adminRecord h 0 0 0 0 s.misc.adminSeq.toNat, irq)] := finishAdmin_records _ _ _ _ _ _

theorem loadRecorded_same (s : State) (irq : Bool) (h : List Byte) : (loadRecorded s irq h).misc.loading = none
    ∧ (loadRecorded s irq h).misc.weightNext = s.misc.weightNext ∧ (loadRecorded s irq h).regs = s.regs ∧ (loadRecorded s irq h).mem = s.mem :=
  ⟨rfl, rfl, rfl, rfl⟩

/-- The event that posts a weight load. -/
theorem postEvent_record {s : State} (h : strmState s 0 = 1) (k : Nat) (w : List Byte) : ∃ n,
    (strm (postEvent s k 0 0 w) 0).records = (strm s 0).records ++ [(adminRecord w 0 0 k 0 n, false)] ∧ (postEvent s k 0 0 w).regs = s.regs
      ∧ (postEvent s k 0 0 w).mem = s.mem ∧ (postEvent s k 0 0 w).misc.loading = s.misc.loading
      ∧ (postEvent s k 0 0 w).misc.weightNext = s.misc.weightNext := by
  have hqueued (n : Nat) : (strm (queueAdmin s (adminRecord w 0 0 k 0 n) false) 0).records = (strm s 0).records ++ [(adminRecord w 0 0 k 0 n, false)] := by
    unfold queueAdmin
    rw [strm_modStrm]
  unfold postEvent
  rw [if_pos h]
  exact ⟨_, hqueued _, rfl, rfl, rfl, rfl⟩

theorem adminRecord_data (w : List Byte) (k n : Nat) : sliceB (adminRecord w 0 0 k 0 n) 0 32 = sliceB w 0 32 := by
  have h := sliceB_prefix (sliceB w 0 32) (leBytes 8 0 ++ leBytes 8 0 ++ List.replicate 10 0 ++ leBytes 1 k ++ leBytes 1 0 ++ leBytes 4 n)
  rw [sliceB_length] at h
  unfold adminRecord
  simpa only [List.append_assoc] using h

theorem adminRecord_kind (w : List Byte) (n : Nat) : numAt (adminRecord w 0 0 3 0 n) 0x3A 1 = 3 := by
  have hlen := sliceB_length w 0 32
  have hdrop : (adminRecord w 0 0 3 0 n).drop 58 = [3] ++ (leBytes 1 0 ++ leBytes 4 n) := by
    unfold adminRecord
    simp only [List.append_assoc]
    rw [show (58 : Nat) = (sliceB w 0 32).length + 26 by omega, List.drop_append, List.drop_of_length_le (Nat.le_add_right _ _), Nat.add_sub_cancel_left]
    rfl
  unfold numAt sliceB
  dsimp only
  rw [hdrop]
  rfl

end Sys2Proof.Machine
end

section
/-! Obligation O56, continued: READ and LOAD_WEAVE. -/

namespace Sys2Proof.Machine

open Sys2Proof.Claims (Answered PutAsked Stored)

/-! ## READ -/

theorem eccIn_clean {s : State} (h : s.ecc = []) (k a n : Nat) : eccIn s k a n = [] := by
  unfold eccIn
  rw [h]
  rfl

/-- With intact check bits a read of a store has no reaction. -/
theorem storeRead_clean {s : State} (h : s.ecc = []) (p : PodId) (o n : Nat) : (storeRead s p o n).1 = s := by
  unfold storeRead
  dsimp only
  rw [eccIn_clean h, eccIn_clean h]
  rfl

theorem rootRead_clean {s : State} (h : s.ecc = []) (a n : Nat) :
    (rootRead s a n).1 = countRoot s n ∧ (rootRead s a n).2.1 = memRead s a n := by
  have hc : (countRoot s n).ecc = [] := h
  unfold rootRead
  dsimp only
  rw [eccIn_clean hc, eccIn_clean hc]
  exact ⟨rfl, memRead_of_mem (s := s) (t := countRoot s n) rfl a n⟩

theorem takeAdmin_ecc (s : State) : (takeAdmin s).ecc = s.ecc := by
  obtain ⟨r, h⟩ := takeAdmin_frame s
  rw [h]

theorem takeAdmin_out (s : State) : (takeAdmin s).out = s.out := by
  obtain ⟨r, h⟩ := takeAdmin_frame s
  rw [h]

/-- A READ that waits for the banks of a Pod store. -/
theorem exec_read_waits {s : State} {d : List Byte} (hd : d.length = 64) (hm : mayTakeAdmin s = true) (hp : readPending s d = true) :
    exec (.read d) s = .next (hostGet s (.read (numAt d 0x18 8) (numAt d 0x10 8)) (numAt d 0x18 8) (numAt d 0x10 8)).1 := by
  change execRead d s = _
  unfold execRead
  dsimp only
  rw [hm, hp, sliceB_whole hd, Bool.and_self, if_pos rfl]
  rfl

/-- A READ whose bytes are there. -/
theorem exec_read_ready {s : State} {d : List Byte} (hd : d.length = 64) (hm : mayTakeAdmin s = true) (hl : limited s = false) (ho : numAt d 0 1 = 0x12)
    (ht : transferOk (numAt d 0x18 8) (numAt d 0x10 8) = true) (hr : memoryReady s (numAt d 0x18 8) (numAt d 0x10 8) = true)
    (hp : readPending s d = false) {u : State} {b : List Byte}
    (hg : hostGet (takeAdmin s) (.read (numAt d 0x18 8) (numAt d 0x10 8)) (numAt d 0x18 8) (numAt d 0x10 8) = (u, some b)) :
    exec (.read d) s = .next (failAdmin (emit u (.hostWrite (BitVec.ofNat 64 (numAt d 8 8)) b)) d 0) := by
  have htrans : (!transferOk (adDev d) (adLength d)) = false := by
    unfold adDev adLength
    rw [ht, Bool.not_true]
  have hready : (!memoryReady (takeAdmin s) (adDev d) (adLength d)) = false := by
    unfold adDev adLength
    rw [(takeAdmin_consumed s).memoryReady ht, hr, Bool.not_true]
  have hget : hostGet (takeAdmin s) (.read (adDev d) (adLength d)) (adDev d) (adLength d) = (u, some b) := hg
  change execRead d s = _
  unfold execRead
  dsimp only
  rw [hp, Bool.and_false, if_neg Bool.false_ne_true, runAdmin_runs hd hm ho (by decide) (Or.inr hl)]
  unfold readBytes
  dsimp only
  rw [htrans, if_neg Bool.false_ne_true, hready, if_neg Bool.false_ne_true, hget]
  rfl

theorem readPending_root {s : State} {d : List Byte} (hd : d.length = 64) (h : inPodStore (numAt d 0x18 8) = false) : readPending s d = false := by
  unfold readPending adDev
  rw [sliceB_whole hd]
  dsimp only
  rw [h, Bool.and_false, Bool.false_and, Bool.false_and]

/-- A READ of a Pod store is pending until the banks have granted it. -/
theorem readPending_pod {s : State} {d : List Byte} (hd : d.length = 64) (hl : limited s = false) (ho : numAt d 0 1 = 0x12)
    (ht : transferOk (numAt d 0x18 8) (numAt d 0x10 8) = true) (hr : memoryReady s (numAt d 0x18 8) (numAt d 0x10 8) = true)
    (h : inPodStore (numAt d 0x18 8) = true) {x : Option NetJob} (hj : netJob s (.read (numAt d 0x18 8) (numAt d 0x10 8)) = x) :
    readPending s d = x.elim true (fun j => !netDone s j) := by
  unfold readPending adDev adLength adOp
  rw [sliceB_whole hd]
  dsimp only
  rw [h, ho, ht, hr, hl, hj]
  cases x <;> rfl

theorem hostGet_pod {s : State} {a : Nat} (h : inPodStore a = true) (key : NetKey) (n : Nat) :
    hostGet s key a n = netRead s (podOfAddr a) key [(offsetOf a, n)] := by
  unfold hostGet
  rw [if_pos h]

/-- A READ of a Pod store asks the banks. -/
theorem netRead_clean {s : State} (he : s.ecc = []) {key : NetKey} (hj : netJob s key = none) (p : PodId) (o n : Nat) :
    netRead s p key [(o, n)] = (askRead s p key [(o, n)], none) := by
  have hread : forEach [(o, n)] s (fun t e => (storeRead t p e.1 e.2).1) = s := storeRead_clean he p o n
  unfold netRead
  rw [hj]
  dsimp only
  rw [hread]

/-- What a READ leaves once it has been answered. -/
theorem read_answered {s u : State} (h : Consumed s u) (hm : u.mem = s.mem) (hout : u.out = s.out) (d b : List Byte) (x : BitVec 64) :
    (failAdmin (emit u (.hostWrite x b)) d 0).out = s.out ++ [.hostWrite x b] ∧ Answered s (failAdmin (emit u (.hostWrite x b)) d 0) d 0 [] 0 0
      ∧ MemSame s (failAdmin (emit u (.hostWrite x b)) d 0) ∧ (failAdmin (emit u (.hostWrite x b)) d 0).pods = s.pods
      ∧ RegsBut [rStream 0 0x38, rStream 0 0x3C] s (failAdmin (emit u (.hostWrite x b)) d 0) := by
  have hc : Consumed s (emit u (.hostWrite x b)) := ⟨h.streams, h.pods, h.seq, h.number, h.regs⟩
  refine ⟨?_, hc.failed (t := emit u (.hostWrite x b)) hm d 0⟩
  change u.out ++ [Output.hostWrite x b] = _
  rw [hout]

/-! ## LOAD_WEAVE -/

theorem exec_loadWeave {s : State} {d : List Byte} (hd : d.length = 64) (hm : mayTakeAdmin s = true) (hl : limited s = false) (ho : numAt d 0 1 = 0x10)
    (b b2 : List Byte) (r : Bool) : exec (.loadWeave d b b2 r) s = .next (loadWeave (takeAdmin s) d b b2 r) :=
  congrArg Host.Outcome.next (runAdmin_runs hd hm ho (by decide) (Or.inr hl) _)

/-- A LOAD_WEAVE refused before its image is read. -/
theorem loadWeave_refused {s : State} {d : List Byte} {c : Nat} (h : (weavePending s = true ∧ c = 0x47)
      ∨ (weavePending s = false ∧ rootEnd < numAt d 0x18 8 + numAt d 0x10 8 ∧ c = 0x42)
      ∨ (weavePending s = false ∧ numAt d 0x18 8 + numAt d 0x10 8 ≤ rootEnd ∧ loaderReady s = false ∧ c = 0x43)) (b b2 : List Byte) (r : Bool) :
    loadWeave (takeAdmin s) d b b2 r = failAdmin (takeAdmin s) d c := by
  have htaken := takeAdmin_consumed s
  unfold loadWeave
  dsimp only
  rw [htaken.pending, htaken.loaderReady]
  rcases h with ⟨hp, rfl⟩ | ⟨hp, hn, rfl⟩ | ⟨hp, hn, hr, rfl⟩
  · rw [hp, if_pos rfl]
  · rw [hp, if_neg Bool.false_ne_true, if_pos (show rootEnd < adDev d + adLength d from hn)]
  · rw [hp, if_neg Bool.false_ne_true, if_neg (show ¬ rootEnd < adDev d + adLength d from Nat.not_lt.2 hn), hr, Bool.not_false, if_pos rfl]

/-- The image has been copied into Root memory (R228). -/
def imageCopied (s : State) (d b : List Byte) : State := memWrite (countRoot (takeAdmin s) b.length) (numAt d 0x18 8) b

theorem imageCopied_consumed (s : State) (d b : List Byte) : Consumed s (imageCopied s d b) := by
  have h := takeAdmin_consumed s
  exact ⟨h.streams, h.pods, h.seq, h.number, h.regs⟩

theorem imageCopied_loaded (s : State) (d b : List Byte) : (imageCopied s d b).loaded = s.loaded := by
  obtain ⟨r, h⟩ := takeAdmin_frame s
  change (takeAdmin s).loaded = s.loaded
  rw [h]

/-- The weave that an accepted image describes. -/
def acceptedWeave (s : State) (d b b2 : List Byte) : Weave :=
  weaveOf (imageCopied s d b) b (if numAt d 0x30 8 = 0 then List.replicate 2048 0 else sliceB b2 0 2048) (numAt d 0x20 8) (numAt d 0x28 8) (numAt d 0x18 8)

section
variable {s : State} {d : List Byte} (hp : weavePending s = false) (hn : numAt d 0x18 8 + numAt d 0x10 8 ≤ rootEnd) (hr : loaderReady s = true)
include hp hn hr

/-- A LOAD_WEAVE whose image fails a check. -/
theorem loadWeave_checked {b : List Byte} {k : Nat} {u : State}
    (hc : refusalCode (imageCopied s d (sliceB b 0 (numAt d 0x10 8))) (sliceB b 0 (numAt d 0x10 8)) (numAt d 0x20 8) = (some k, u)) (b2 : List Byte) :
    loadWeave (takeAdmin s) d b b2 false = finishAdmin u (adIrq d) k (sha256 (sliceB b 0 (numAt d 0x10 8))) 0 0 := by
  have htaken := takeAdmin_consumed s
  have hcode : refusalCode (memWrite (countRoot (takeAdmin s) (sliceB b 0 (adLength d)).length) (adDev d) (sliceB b 0 (adLength d)))
      (sliceB b 0 (adLength d)) (adArg0 d) = (some k, u) := hc
  unfold loadWeave
  dsimp only
  rw [htaken.pending, htaken.loaderReady, hp, if_neg Bool.false_ne_true, if_neg (show ¬ rootEnd < adDev d + adLength d from Nat.not_lt.2 hn), hr,
    Bool.not_true, if_neg Bool.false_ne_true, if_neg Bool.false_ne_true, hcode]
  rfl

theorem loadWeave_accepted {b : List Byte}
    (hc : refusalCodes (imageCopied s d (sliceB b 0 (numAt d 0x10 8))) (sliceB b 0 (numAt d 0x10 8)) (numAt d 0x20 8) = []) (b2 : List Byte) :
    loadWeave (takeAdmin s) d b b2 false = acceptWeave (finishAdmin (imageCopied s d (sliceB b 0 (numAt d 0x10 8))) (adIrq d) 0
      (acceptedWeave s d (sliceB b 0 (numAt d 0x10 8)) b2).program 0 0) (acceptedWeave s d (sliceB b 0 (numAt d 0x10 8)) b2) := by
  have htaken := takeAdmin_consumed s
  have hcode : refusalCode (memWrite (countRoot (takeAdmin s) (sliceB b 0 (adLength d)).length) (adDev d) (sliceB b 0 (adLength d)))
      (sliceB b 0 (adLength d)) (adArg0 d) = (none, imageCopied s d (sliceB b 0 (numAt d 0x10 8))) := by
    change refusalCode (imageCopied s d (sliceB b 0 (numAt d 0x10 8))) (sliceB b 0 (numAt d 0x10 8)) (numAt d 0x20 8) = _
    unfold refusalCode
    rw [hc]
  unfold loadWeave
  dsimp only
  rw [htaken.pending, htaken.loaderReady, hp, if_neg Bool.false_ne_true, if_neg (show ¬ rootEnd < adDev d + adLength d from Nat.not_lt.2 hn), hr,
    Bool.not_true, if_neg Bool.false_ne_true, if_neg Bool.false_ne_true, hcode]
  rfl

end

/-- A refusal's code is one of those that hold. -/
theorem refusalCode_mem {s : State} {b : List Byte} {s0 : Nat} (h : refusalCodes s b s0 ≠ []) :
    ∃ k u, refusalCode s b s0 = (some k, u) ∧ k ∈ refusalCodes s b s0 ∧ (u = s ∨ u = { s with fresh := s.fresh + 1 }) := by
  unfold refusalCode
  match hl : refusalCodes s b s0 with
  | [] => exact absurd hl h
  | [c] => exact ⟨c, s, rfl, List.mem_singleton.2 rfl, Or.inl rfl⟩
  | c :: e :: l =>
    refine ⟨_, _, rfl, ?_, Or.inr rfl⟩
    have hlt : Config.refusalChoice s.fresh % ((e :: l).length + 1) < (c :: e :: l).length := Nat.mod_lt _ (Nat.succ_pos _)
    change (c :: e :: l).getD (Config.refusalChoice s.fresh % ((e :: l).length + 1)) c ∈ _
    rw [List.getD_eq_getElem _ _ hlt]
    exact List.getElem_mem hlt

/-! ### The acceptance (R228, R335) -/

/-- The registers of an accepted load. -/
def loadNoted (s : State) (w : Weave) : State :=
  resetRange (setFlag (setReg64 (setReg64 (setFlag { s with loaded := some w } rWeaveState 30 true) rStartStake w.startStake) rRestart 0) rFaultState 31 false)
    rCkptLast (rCkptStatus + 4)

theorem acceptWeave_eq (s : State) (w : Weave) : acceptWeave s w = buildRoutes (resetWeight (pauseStreams (loadNoted s w))) := rfl

/-- The registers that an accepted load writes. -/
def loadRegs : List Nat := [rWeaveState, rStartStake, rStartStake + 4, rRestart, rRestart + 4, rFaultState]

theorem reg_loadNoted_ne (s : State) (w : Weave) {o : Nat} (h : o ∉ loadRegs) (hr : o < rCkptLast ∨ rCkptStatus + 4 ≤ o) :
    reg (loadNoted s w) o = reg s o := by
  simp only [loadRegs, List.mem_cons, List.not_mem_nil, or_false, not_or] at h
  obtain ⟨h1, h2, h3, h4, h5, h6⟩ := h
  unfold loadNoted setFlag setField
  rw [reg_resetRange_ne _ hr, reg_setReg_ne _ _ (Ne.symm h6), reg_setReg64_ne _ _ (Ne.symm h4) (Ne.symm h5),
    reg_setReg64_ne _ _ (Ne.symm h2) (Ne.symm h3), reg_setReg_ne _ _ (Ne.symm h1)]
  rfl

theorem strmState_of_reg {s t : State} {i : StreamId} (h : reg t (rStream i.val 0x34) = reg s (rStream i.val 0x34)) : strmState t i = strmState s i :=
  field_congr h 29 3

theorem loadNoted_facts (s : State) (w : Weave) : weavePending (loadNoted s w) = true ∧ reg64 (loadNoted s w) rStartStake = w.startStake % 2 ^ 64
    ∧ flag (loadNoted s w) rFaultState 31 = false ∧ ∀ i : StreamId, strmState (loadNoted s w) i = strmState s i := by
  refine ⟨?_, ?_, ?_, fun i => strmState_of_reg (reg_loadNoted_ne s w ?_ ?_)⟩
  · unfold loadNoted weavePending
    rw [flag, reg_resetRange_ne _ (by decide), setFlag, setField, reg_setReg_ne _ _ (by decide), reg_setReg64_ne _ _ (by decide) (by decide),
      reg_setReg64_ne _ _ (by decide) (by decide)]
    exact flag_setFlag _ rWeaveState 30 true (by decide)
  · unfold loadNoted
    rw [reg64_congr (reg_resetRange_ne _ (by decide)) (reg_resetRange_ne _ (by decide)), setFlag, setField, reg64_setReg_ne _ _ (by decide) (by decide),
      reg64_setReg64_ne _ _ (by decide), reg64_setReg64]
  · unfold loadNoted
    rw [flag, reg_resetRange_ne _ (by decide)]
    exact flag_setFlag _ rFaultState 31 false (by decide)
  · intro hm
    have hout := (by decide : ∀ o ∈ loadRegs, o < 0x102000 ∨ 0x103000 ≤ o) _ hm
    unfold rStream at hout
    omega
  · unfold rStream rCkptStatus
    omega

/-! ### The streams pause (R335) -/

/-- An ENABLED scoring stream pauses. -/
def pauseStream (s : State) (i : StreamId) : State := if i.val ≠ 0 ∧ strmState s i = 1 then setStrmState s i 2 else s

theorem pauseStreams_eq (s : State) : pauseStreams s = allStreams.foldl pauseStream s := rfl

theorem reg_pauseStream_ne (s : State) (i : StreamId) {o : Nat} (h : rStream i.val 0x34 ≠ o) : reg (pauseStream s i) o = reg s o := by
  unfold pauseStream
  split
  · exact reg_setReg_ne s _ h
  · rfl

theorem strmState_pauseStream_ne (s : State) {i j : StreamId} (h : j ≠ i) : strmState (pauseStream s j) i = strmState s i :=
  strmState_of_reg (reg_pauseStream_ne s j (fun e => h (Fin.ext (by unfold rStream at e; omega))))

theorem strmState_pauseStream (s : State) {i : StreamId} (hi : i.val ≠ 0) (h : strmState s i = 1) : strmState (pauseStream s i) i = 2 := by
  unfold pauseStream
  rw [if_pos ⟨hi, h⟩]
  exact field_setField s _ 29 3 2 (by decide)

theorem strmState_paused (s : State) {i : StreamId} (h : strmState s i = 2) (j : StreamId) : strmState (pauseStream s j) i = 2 := by
  by_cases hj : j = i
  · subst hj
    unfold pauseStream
    rw [if_neg (fun hc => absurd (h.symm.trans hc.2) (by decide))]
    exact h
  · exact (strmState_pauseStream_ne s hj).trans h

theorem pauseStreams_pauses (s : State) {i : StreamId} (hi : i.val ≠ 0) (h : strmState s i = 1) : strmState (pauseStreams s) i = 2 := by
  have hstays (l : List StreamId) : ∀ t, strmState t i = 2 → strmState (l.foldl pauseStream t) i = 2 := by
    induction l with
    | nil => exact fun _ ht => ht
    | cons j l ih => exact fun t ht => ih _ (strmState_paused t ht j)
  have hpauses (l : List StreamId) : i ∈ l → ∀ t, strmState t i = 1 → strmState (l.foldl pauseStream t) i = 2 := by
    induction l with
    | nil => exact fun hm => absurd hm List.not_mem_nil
    | cons j l ih =>
      intro hm t ht
      by_cases hj : j = i
      · subst hj
        exact hstays l _ (strmState_pauseStream t hi ht)
      · exact ih ((List.mem_cons.1 hm).resolve_left (fun e => hj e.symm)) _ ((strmState_pauseStream_ne t hj).trans ht)
  rw [pauseStreams_eq]
  exact hpauses allStreams (List.mem_finRange i) s h

theorem pauseStreams_regs (s : State) : (∃ r, pauseStreams s = { s with regs := r }) ∧ ∀ o, o < 0x102000 ∨ 0x103000 ≤ o → reg (pauseStreams s) o = reg s o := by
  rw [pauseStreams_eq]
  generalize allStreams = l
  induction l generalizing s with
  | nil => exact ⟨⟨s.regs, rfl⟩, fun _ _ => rfl⟩
  | cons i l ih =>
    obtain ⟨⟨r, hr⟩, hregs⟩ := ih (pauseStream s i)
    have hone : ∃ r, pauseStream s i = { s with regs := r } := by
      unfold pauseStream
      split
      · exact ⟨_, rfl⟩
      · exact ⟨s.regs, rfl⟩
    obtain ⟨q, hq⟩ := hone
    refine ⟨⟨r, by rw [List.foldl_cons, hr, hq]⟩, fun o ho => (hregs o ho).trans (reg_pauseStream_ne s i ?_)⟩
    unfold rStream
    omega

/-! ### W and the routes -/

/-- W stands at zero, and the routes are built: the registers, the memory and the load stay. -/
theorem restarted_facts (s : State) : (buildRoutes (resetWeight s)).regs = s.regs ∧ (buildRoutes (resetWeight s)).mem = s.mem
    ∧ (buildRoutes (resetWeight s)).loaded = s.loaded ∧ (buildRoutes (resetWeight s)).misc.weightNext = zeroDigest := by
  have hroutes (t : State) : ∃ x, buildRoutes t = modMisc t (fun m => { m with routes := x, routesBuilt := true }) := ⟨_, rfl⟩
  have hevent (t : State) : (postEvent t 3 0 0 zeroDigest).regs = t.regs ∧ (postEvent t 3 0 0 zeroDigest).mem = t.mem
      ∧ (postEvent t 3 0 0 zeroDigest).loaded = t.loaded ∧ (postEvent t 3 0 0 zeroDigest).misc.weightNext = t.misc.weightNext := by
    unfold postEvent
    split
    · exact ⟨rfl, rfl, rfl, rfl⟩
    · exact ⟨rfl, rfl, rfl, rfl⟩
  obtain ⟨x, hx⟩ := hroutes (resetWeight s)
  rw [hx]
  unfold resetWeight
  dsimp only
  split
  · exact ⟨rfl, rfl, rfl, rfl⟩
  · exact hevent (modMisc s (fun m => { m with weightNext := zeroDigest }))

/-- After the acceptance of a load the weave is pending. -/
theorem acceptWeave_facts (s : State) (w : Weave) : weavePending (acceptWeave s w) = true ∧ (acceptWeave s w).loaded = some w
    ∧ reg64 (acceptWeave s w) rStartStake = w.startStake % 2 ^ 64 ∧ flag (acceptWeave s w) rFaultState 31 = false
    ∧ (acceptWeave s w).misc.weightNext = zeroDigest ∧ (acceptWeave s w).mem = s.mem
    ∧ ∀ i : StreamId, i.val ≠ 0 → strmState s i = 1 → strmState (acceptWeave s w) i = 2 := by
  obtain ⟨hp, hk, hf, hs⟩ := loadNoted_facts s w
  obtain ⟨⟨r, hr⟩, hregs⟩ := pauseStreams_regs (loadNoted s w)
  obtain ⟨hregs', hmem, hloaded, hweight⟩ := restarted_facts (pauseStreams (loadNoted s w))
  have hreg (o : Nat) : reg (acceptWeave s w) o = reg (pauseStreams (loadNoted s w)) o := by
    rw [acceptWeave_eq]
    unfold reg
    rw [hregs']
  have hlow (o : Nat) (ho : o < 0x102000 ∨ 0x103000 ≤ o) : reg (acceptWeave s w) o = reg (loadNoted s w) o := (hreg o).trans (hregs o ho)
  refine ⟨?_, hloaded.trans (by rw [hr]; rfl), ?_, ?_, hweight, hmem.trans (by rw [hr]; rfl), fun i hi h1 => ?_⟩
  · rw [weavePending, flag, hlow _ (by decide), ← flag, ← weavePending]
    exact hp
  · rw [reg64_congr (hlow _ (by decide)) (hlow _ (by decide))]
    exact hk
  · rw [flag, hlow _ (by decide), ← flag]
    exact hf
  · rw [strmState_of_reg (hreg _)]
    exact pauseStreams_pauses _ hi ((hs i).trans h1)

end Sys2Proof.Machine
end

section
/-! Obligation O56: its clauses. -/

namespace Sys2Proof.Machine

open Sys2Proof.Claims (Answered PutAsked Stored)

theorem failAdmin_pending (s : State) (d : List Byte) (c : Nat) : weavePending (failAdmin s d c) = weavePending s := rfl

/-- A LOAD asks for its write, or writes Root memory. -/
theorem load_begins {d b : List Byte} {s : State} (ht : transferOk (numAt d 0x18 8) (numAt d 0x10 8) = true) (hj : netJob s .load = none) :
    (numAt d 0x18 8 < rootEnd → Stored s (loadBegun s d (sliceB b 0 (numAt d 0x10 8))) (numAt d 0x18 8) (sliceB b 0 (numAt d 0x10 8))
        ∧ loadLanded (loadBegun s d (sliceB b 0 (numAt d 0x10 8))) = true)
      ∧ (inPodStore (numAt d 0x18 8) = true → touchesNodes s (podOfAddr (numAt d 0x18 8)) (offsetOf (numAt d 0x18 8)) (numAt d 0x10 8) = false →
        PutAsked s (loadBegun s d (sliceB b 0 (numAt d 0x10 8))) .load (podOfAddr (numAt d 0x18 8)) (offsetOf (numAt d 0x18 8))
          (sliceB b 0 (numAt d 0x10 8)) ∧ loadLanded (loadBegun s d (sliceB b 0 (numAt d 0x10 8))) = false) := by
  obtain ⟨hn, hrange⟩ := transferOk_range ht
  have hlen := sliceB_length b 0 (numAt d 0x10 8)
  refine ⟨fun ha => loadBegun_root ?_ (by omega) hj, fun hp hnodes => ?_⟩
  · rw [hlen]
    change numAt d 0x18 8 + numAt d 0x10 8 ≤ rootEnd
    unfold rootEnd podBase at *
    omega
  · have hasked := loadBegun_pod (d := d) hp (List.ne_nil_of_length_pos (by omega)) hj ((congrArg (touchesNodes s _ _) hlen).trans hnodes)
    exact ⟨hasked, PutAsked.not_landed hasked⟩

/-- A READ of a Pod store asks, and leaves everything else. -/
theorem read_asks {s : State} {a : Nat} (he : s.ecc = []) (h : inPodStore a = true) {n : Nat} (hn : 0 < n) (hj : netJob s (.read a n) = none) :
    ∃ t j, (hostGet s (.read a n) a n).1 = t ∧ netJob t (.read a n) = some j ∧ j.pod = podOfAddr a ∧ j.pieces = [(offsetOf a, n)]
      ∧ j.data = memRead s a n ∧ netGranted t j.pod j.op = false ∧ t.out = s.out ∧ t.streams = s.streams ∧ t.pods = s.pods ∧ MemSame s t := by
  rw [hostGet_pod h, netRead_clean he hj, askRead_eq]
  refine ⟨_, readJob s (podOfAddr a) (.read a n) (offsetOf a) n, rfl, netJob_appended rfl hj rfl, rfl, rfl, ?_,
    netGranted_asked (s := s) (podOfAddr a) _ false (offsetOf a) hn rfl, rfl, rfl, rfl, fun _ => rfl⟩
  unfold readJob
  rw [podAddr_split h]

/-- A LOAD_WEAVE whose image is refused. -/
theorem loadWeave_refuses {s : State} {d b : List Byte} (b2 : List Byte) (hp : weavePending s = false) (hn : numAt d 0x18 8 + numAt d 0x10 8 ≤ rootEnd)
    (hr : loaderReady s = true)
    (hc : refusalCodes (imageCopied s d (sliceB b 0 (numAt d 0x10 8))) (sliceB b 0 (numAt d 0x10 8)) (numAt d 0x20 8) ≠ []) :
    ∃ c ∈ refusalCodes (imageCopied s d (sliceB b 0 (numAt d 0x10 8))) (sliceB b 0 (numAt d 0x10 8)) (numAt d 0x20 8),
      Answered s (loadWeave (takeAdmin s) d b b2 false) d c (sha256 (sliceB b 0 (numAt d 0x10 8))) 0 0
        ∧ weavePending (loadWeave (takeAdmin s) d b b2 false) = false ∧ (loadWeave (takeAdmin s) d b b2 false).loaded = s.loaded
        ∧ (loadWeave (takeAdmin s) d b b2 false).mem = (imageCopied s d (sliceB b 0 (numAt d 0x10 8))).mem := by
  have hcopied := imageCopied_consumed s d (sliceB b 0 (numAt d 0x10 8))
  have hloaded := imageCopied_loaded s d (sliceB b 0 (numAt d 0x10 8))
  obtain ⟨k, u, hcode, hmem, hu⟩ := refusalCode_mem hc
  have hconsumed : Consumed s u ∧ u.loaded = s.loaded ∧ u.mem = (imageCopied s d (sliceB b 0 (numAt d 0x10 8))).mem := by
    rcases hu with rfl | rfl
    · exact ⟨hcopied, hloaded, rfl⟩
    · exact ⟨⟨hcopied.streams, hcopied.pods, hcopied.seq, hcopied.number, hcopied.regs⟩, hloaded, rfl⟩
  obtain ⟨h, hl, hm⟩ := hconsumed
  rw [loadWeave_checked hp hn hr hcode]
  exact ⟨k, hmem, h.answered d k _ 0 0, h.pending.trans hp, hl, hm⟩

/-- A LOAD_WEAVE whose image is accepted. -/
theorem loadWeave_accepts {s : State} {d b : List Byte} (b2 : List Byte) (hp : weavePending s = false) (hn : numAt d 0x18 8 + numAt d 0x10 8 ≤ rootEnd)
    (hr : loaderReady s = true)
    (hc : refusalCodes (imageCopied s d (sliceB b 0 (numAt d 0x10 8))) (sliceB b 0 (numAt d 0x10 8)) (numAt d 0x20 8) = []) :
    weavePending (loadWeave (takeAdmin s) d b b2 false) = true
      ∧ (∃ w, (loadWeave (takeAdmin s) d b b2 false).loaded = some w ∧ w.program = sha256 (sliceB b 0 (numAt d 0x10 8)) ∧ w.startStake = numAt d 0x20 8)
      ∧ reg64 (loadWeave (takeAdmin s) d b b2 false) rStartStake = numAt d 0x20 8 ∧ flag (loadWeave (takeAdmin s) d b b2 false) rFaultState 31 = false
      ∧ (loadWeave (takeAdmin s) d b b2 false).misc.weightNext = List.replicate 32 0
      ∧ (∀ i : StreamId, i.val ≠ 0 → strmState s i = 1 → strmState (loadWeave (takeAdmin s) d b b2 false) i = 2)
      ∧ (loadWeave (takeAdmin s) d b b2 false).mem = (imageCopied s d (sliceB b 0 (numAt d 0x10 8))).mem := by
  have hcopied := imageCopied_consumed s d (sliceB b 0 (numAt d 0x10 8))
  have hstart : numAt d 0x20 8 < 2 ^ 64 := by
    have h := leNat_lt (sliceB d 0x20 8)
    rw [sliceB_length] at h
    exact h
  rw [loadWeave_accepted hp hn hr hc]
  obtain ⟨hpend, hl, hk, hf, hw, hm, hs⟩ := acceptWeave_facts (finishAdmin (imageCopied s d (sliceB b 0 (numAt d 0x10 8))) (adIrq d) 0
    (acceptedWeave s d (sliceB b 0 (numAt d 0x10 8)) b2).program 0 0) (acceptedWeave s d (sliceB b 0 (numAt d 0x10 8)) b2)
  refine ⟨hpend, ⟨_, hl, rfl, rfl⟩, hk.trans (Nat.mod_eq_of_lt hstart), hf, hw, fun i hi h1 => hs i hi ?_, hm⟩
  refine (strmState_of_reg (hcopied.regs _ ?_ ?_)).trans h1
  · unfold rStream
    omega
  · unfold rStream
    omega

end Sys2Proof.Machine

open Sys2Proof.Machine in
/-- Settles O56: each command's row by the branch that its descriptor and the state select, over what taking a command changes. -/
theorem adminCommandsAnswer : Obligations.AdminCommandsAnswer := by
  unfold Obligations.AdminCommandsAnswer
  refine ⟨fun d b b2 r s h => exec_admin_idle h d b b2 r, ?_, ?_, ?_, ?_, fun s h => congrArg Host.Outcome.next (loadComplete_idle h), ?_, ?_, ?_, ?_⟩
  · intro d s _ hd hm ho
    exact ⟨_, congrArg Host.Outcome.next (runAdmin_runs hd hm ho (by decide) (Or.inl rfl) _), (takeAdmin_consumed s).failed (takeAdmin_mem s) d 0⟩
  · intro d b s _ hd hm hl ho hk ht hr hj
    obtain ⟨hroot, hpod⟩ := load_begins (b := b) ht hj
    exact ⟨_, congrArg Host.Outcome.next ((runAdmin_runs hd hm ho (by decide) (Or.inr hl) _).trans (loadBytes_eq hk ht hr)), hroot, hpod, loadBegun_same s d _⟩
  · intro k irq h s hl hd hk
    obtain ⟨hload, hweight, hregs, hmem⟩ := loadRecorded_same s irq h
    refine ⟨_, congrArg Host.Outcome.next ((loadComplete_eq hl hd).trans (if_neg hk)), hload, loadRecorded_records s irq h, hweight, hregs, ?_⟩
    exact fun a => memByte_congr hmem a
  · intro irq h s hl hd hon
    obtain ⟨hload, -, hregs, hmem⟩ := loadRecorded_same s irq h
    obtain ⟨n, hrec, hregs', hmem', hload', hweight'⟩ := postEvent_record
      (s := modMisc (loadRecorded s irq h) (fun m => { m with weightNext := sha256 (s.misc.weightNext ++ h) })) hon 3 (sha256 (s.misc.weightNext ++ h))
    refine ⟨_, _, congrArg Host.Outcome.next ((loadComplete_eq hl hd).trans (if_pos rfl)), hload'.trans hload, hweight', hrec.trans ?_, ?_,
      adminRecord_kind (sha256 (s.misc.weightNext ++ h)) n, hregs'.trans hregs, fun a => memByte_congr (hmem'.trans hmem) a⟩
    · change (strm (loadRecorded s irq h) 0).records ++ _ = _
      rw [loadRecorded_records, List.append_assoc]
      rfl
    · rw [hweight', adminRecord_data]
      rfl
  · rintro d a n s _ hd hm hl ho rfl rfl ht hr hp he
    have hpend {x : Option NetJob} := readPending_pod hd hl ho ht hr hp (x := x)
    refine ⟨fun hj => ?_, fun j hj hdone => ?_, fun j hj hdone => ?_⟩
    · obtain ⟨t, j, heq, hfacts⟩ := read_asks he hp (transferOk_range ht).1 hj
      exact ⟨t, j, by rw [exec_read_waits hd hm (hpend hj), heq], hfacts⟩
    · rw [exec_read_waits hd hm ((hpend hj).trans (by rw [Option.elim_some, hdone]; rfl)), hostGet_pod hp]
      unfold netRead
      rw [hj]
      dsimp only
      rw [hdone, if_neg Bool.false_ne_true]
    · have hopen := netRead_open (p := podOfAddr (numAt d 0x18 8)) ((netJob_takeAdmin s _).trans hj) ((netDone_takeAdmin s j).trans hdone)
        [(offsetOf (numAt d 0x18 8), numAt d 0x10 8)]
      have htaken := takeAdmin_consumed s
      have hconsumed : Consumed s (closeJob (takeAdmin s) (.read (numAt d 0x18 8) (numAt d 0x10 8))) :=
        ⟨htaken.streams, htaken.pods, htaken.seq, htaken.number, htaken.regs⟩
      obtain ⟨hout, hrest⟩ := read_answered hconsumed (takeAdmin_mem s) (takeAdmin_out s) d j.data (BitVec.ofNat 64 (numAt d 8 8))
      refine ⟨_, exec_read_ready hd hm hl ho ht hr ((hpend hj).trans (by rw [Option.elim_some, hdone]; rfl)) ((hostGet_pod hp _ _).trans hopen), hout, ?_, hrest⟩
      exact netJob_closeJob (takeAdmin s) _
  · intro d s _ hd hm hl ho ht hr he ha
    have hpod := not_inPodStore ha
    have hget : hostGet (takeAdmin s) (.read (numAt d 0x18 8) (numAt d 0x10 8)) (numAt d 0x18 8) (numAt d 0x10 8)
        = (countRoot (takeAdmin s) (numAt d 0x10 8), some (memRead s (numAt d 0x18 8) (numAt d 0x10 8))) := by
      obtain ⟨hroot, hbytes⟩ := rootRead_clean ((takeAdmin_ecc s).trans he) (numAt d 0x18 8) (numAt d 0x10 8)
      unfold hostGet
      rw [hpod, if_neg Bool.false_ne_true, if_pos ha, hroot, hbytes, memRead_of_mem (takeAdmin_mem s)]
    have htaken := takeAdmin_consumed s
    have hconsumed : Consumed s (countRoot (takeAdmin s) (numAt d 0x10 8)) := ⟨htaken.streams, htaken.pods, htaken.seq, htaken.number, htaken.regs⟩
    exact ⟨_, exec_read_ready hd hm hl ho ht hr (readPending_root hd hpod) hget, read_answered hconsumed (takeAdmin_mem s) (takeAdmin_out s) d _ _⟩
  · intro d b b2 r c s _ hd hm hl ho hc
    obtain ⟨hans, hmem, hpods, hregs⟩ := (takeAdmin_consumed s).failed (takeAdmin_mem s) d c
    exact ⟨_, (exec_loadWeave hd hm hl ho b b2 r).trans (congrArg _ (loadWeave_refused hc b b2 r)), hans, hmem, hpods, (takeAdmin_consumed s).pending, hregs⟩
  · rintro d b b2 u s _ hd hm hl ho hp hn hr rfl
    have hstored : Sys2Proof.Claims.Stored s (imageCopied s d (sliceB b 0 (numAt d 0x10 8))) (numAt d 0x18 8) (sliceB b 0 (numAt d 0x10 8)) :=
      stored_memWrite (takeAdmin_mem s) (by rw [sliceB_length]; exact hn)
    refine ⟨_, exec_loadWeave hd hm hl ho b b2 false, ?_, fun hc => ?_, fun hc => ?_⟩
    · have hmem : (loadWeave (takeAdmin s) d b b2 false).mem = (imageCopied s d (sliceB b 0 (numAt d 0x10 8))).mem := by
        by_cases hc : refusalCodes (imageCopied s d (sliceB b 0 (numAt d 0x10 8))) (sliceB b 0 (numAt d 0x10 8)) (numAt d 0x20 8) = []
        · obtain ⟨-, -, -, -, -, -, h⟩ := loadWeave_accepts b2 hp hn hr hc
          exact h
        · obtain ⟨-, -, -, -, -, h⟩ := loadWeave_refuses b2 hp hn hr hc
          exact h
      exact fun x => (memByte_congr hmem x).trans (hstored x)
    · obtain ⟨c, hcm, hans, hpend, hload, -⟩ := loadWeave_refuses b2 hp hn hr hc
      exact ⟨c, hcm, hans, hpend, hload⟩
    · obtain ⟨hpend, hload, hk, hf, hw, hs, -⟩ := loadWeave_accepts b2 hp hn hr hc
      exact ⟨hpend, hload, hk, hf, hw, hs⟩
end

section
/-! What a flit's control field does where it reports nothing, and what it leaves alone: the rules of FLIT_RX (R235 to R249). -/

namespace Sys2Proof.Machine

open Sys2Proof.Claims (ctl flitIn Arrives NoReport NoAck IdleNext ArrivesF)

/-! ## Registers and ports only -/

/-- Registers and ports may have changed, and nothing else of the device. -/
def Ported (s t : State) : Prop := t = { s with regs := t.regs, ports := t.ports }

theorem Ported.refl (s : State) : Ported s s := rfl

theorem Ported.trans {s t u : State} (h : Ported s t) (g : Ported t u) : Ported s u := by
  unfold Ported at *
  rw [g, h]

theorem modPort_ported (s : State) (p : PortId) (f : Port → Port) : Ported s (modPort s p f) := rfl

theorem setReg_ported (s : State) (o : Nat) (v : Word) : Ported s (setReg s o v) := rfl

theorem add64_ported (s : State) (o n : Nat) : Ported s (add64 s o n) := (setReg_ported s _ _).trans (setReg_ported _ _ _)

theorem Ported.modPort {s t : State} (h : Ported s t) (p : PortId) (f : Port → Port) : Ported s (Machine.modPort t p f) := h.trans (modPort_ported t p f)

/-! ## One port -/

/-- A change that leaves the port's record as it is changes nothing. -/
theorem modPort_self {s : State} {p : PortId} {f : Port → Port} (h : f (port s p) = port s p) : modPort s p f = s := by
  have hports : vmod s.ports p f = s.ports := by
    unfold vmod
    rw [show f s.ports[p.val] = s.ports[p.val] from h]
    exact Vector.set_getElem_self p.isLt
  unfold modPort
  rw [hports]

/-- Two changes of one port are one. -/
theorem modPort_modPort (s : State) (p : PortId) (f g : Port → Port) : modPort (modPort s p f) p g = modPort s p (fun x => g (f x)) := by
  have hports : vmod (vmod s.ports p f) p g = vmod s.ports p (fun x => g (f x)) := by
    unfold vmod
    rw [Vector.getElem_set_self, Vector.set_set]
  exact congrArg (fun v => { s with ports := v }) hports

theorem port_of_ports {s t : State} (h : t.ports = s.ports) (p : PortId) : port t p = port s p := congrArg (fun v => vget v p) h

theorem port_add64 (s : State) (o n : Nat) (p : PortId) : port (add64 s o n) p = port s p := rfl

theorem lstate_congr {s t : State} {p : PortId} (h : reg t (rPort p.val 0x04) = reg s (rPort p.val 0x04)) : lstate t p = lstate s p := field_congr h 28 4

theorem lstate_modPort (s : State) (p q : PortId) (f : Port → Port) : lstate (modPort s p f) q = lstate s q := rfl

/-- A counter of the port, of those at offset 0x08 and above, leaves its state. -/
theorem lstate_add64 (s : State) (p : PortId) {o : Nat} (n : Nat) (h : 8 ≤ o) : lstate (add64 s (rPort p.val o) n) p = lstate s p := by
  refine lstate_congr (reg_setReg64_ne s _ ?_ ?_) <;> unfold rPort <;> omega

/-! ## The control field -/

theorem ctl_two {b : List Byte} {lo : Nat} (h : ctl b lo 2 = 0) : ctl b lo 1 = 0 ∧ ctl b (lo + 1) 1 = 0 := by
  unfold ctl at *
  generalize hx : numAt b 256 8 / 2 ^ lo = x at *
  have hnext : numAt b 256 8 / 2 ^ (lo + 1) = x / 2 := by rw [Nat.pow_succ, ← Nat.div_div_eq_div_mul, hx]
  rw [hnext]
  omega

theorem takeAckT_none {s : State} {p : PortId} {a : BitVec 12} (h : ∀ k ∈ (port s p).replay, 2048 ≤ (a - k.seq).toNat) : takeAckT s p a = s := by
  have hgone : (port s p).replay.filter (fun k => decide ((a - k.seq).toNat < 2048)) = [] := by
    rw [List.filter_eq_nil_iff]
    intro k hk
    have := h k hk
    simp only [decide_eq_true_eq]
    omega
  unfold takeAckT
  dsimp only
  rw [hgone]
  rfl

theorem takeAckW_none {s : State} {p : PortId} {a : BitVec 12} (h : ∀ c ∈ (port s p).copies, 2048 ≤ (a - c.seq).toNat) : takeAckW s p a = s := by
  have hpassed : ∀ c ∈ (port s p).copies, decide ((a - c.seq).toNat < 2048) = false := by
    intro c hc
    have := h c hc
    rw [decide_eq_false_iff_not]
    omega
  unfold takeAckW
  refine modPort_self ?_
  dsimp only
  rw [List.filter_eq_self.2 (fun c hc => by rw [hpassed c hc, Bool.not_false, Bool.or_true]),
    List.map_congr_left (g := id) (fun c hc => by rw [if_neg (by rw [hpassed c hc]; exact Bool.false_ne_true)]; rfl), List.map_id]

theorem takeCredit_none (s : State) (p : PortId) (v : Nat) : takeCredit s p 3 v = s := by
  unfold takeCredit
  exact if_pos (Or.inl (by decide))

/-- The parts of a packet-mode control field, one after the other. -/
def holdTaken (s : State) (p : PortId) (b : List Byte) : State := if ctl b 55 1 = 1 then takeHold s p (ctl b 56 8) else s

def twineTaken (s : State) (p : PortId) (b : List Byte) : State :=
  if ctl b 53 1 = 1 then startReplay (takeAckT s p (BitVec.ofNat 12 (ctl b 41 12) - 1)) p else takeAckT s p (BitVec.ofNat 12 (ctl b 41 12))

def warpTaken (s : State) (p : PortId) (b : List Byte) : State :=
  if ctl b 39 1 = 1 then takeNakW s p (BitVec.ofNat 12 (ctl b 27 12))
  else if ctl b 40 1 = 1 ∧ field s (rPort p 0x04) 24 4 ≠ 0 then takeRack s p (BitVec.ofNat 12 (ctl b 27 12))
  else takeAckW s p (BitVec.ofNat 12 (ctl b 27 12))

theorem packetControl_eq (s : State) (p : PortId) (b : List Byte) : packetControl s p (numAt b 256 8)
    = takeCredit (warpTaken (twineTaken (holdTaken s p b) p b) p b) p (ctl b 9 2) (ctl b 11 16) := rfl

section
variable {s : State} {p : PortId} {b : List Byte}

theorem holdTaken_none (h : ctl b 55 1 = 0) : holdTaken s p b = s := if_neg (by omega)

theorem twineTaken_ack (h : ctl b 53 1 = 0) : twineTaken s p b = takeAckT s p (BitVec.ofNat 12 (ctl b 41 12)) := if_neg (by omega)

theorem twineTaken_nak (h : ctl b 53 1 = 1) : twineTaken s p b = startReplay (takeAckT s p (BitVec.ofNat 12 (ctl b 41 12) - 1)) p := if_pos h

theorem twineTaken_none (h : ctl b 53 1 = 0) (ha : ∀ k ∈ (port s p).replay, 2048 ≤ (BitVec.ofNat 12 (ctl b 41 12) - k.seq).toNat) :
    twineTaken s p b = s := (twineTaken_ack h).trans (takeAckT_none ha)

theorem warpTaken_ack (h : ctl b 39 1 = 0) (h' : ctl b 40 1 = 0) : warpTaken s p b = takeAckW s p (BitVec.ofNat 12 (ctl b 27 12)) := by
  unfold warpTaken
  rw [if_neg (by omega), if_neg (fun hr => by omega)]

theorem warpTaken_nak (h : ctl b 39 1 = 1) : warpTaken s p b = takeNakW s p (BitVec.ofNat 12 (ctl b 27 12)) := if_pos h

theorem warpTaken_rack (h : ctl b 39 1 = 0) (h' : ctl b 40 1 = 1) (hm : field s (rPort p 0x04) 24 4 ≠ 0) :
    warpTaken s p b = takeRack s p (BitVec.ofNat 12 (ctl b 27 12)) := by
  unfold warpTaken
  rw [if_neg (by omega), if_pos ⟨h', hm⟩]

theorem noAck_twine {m : BitVec 12} (h : NoAck s p b m) {t : State} (ht : (port t p).replay = (port s p).replay) :
    takeAckT t p (BitVec.ofNat 12 (ctl b 41 12) - m) = t := takeAckT_none (fun k hk => h.1 k (ht ▸ hk))

theorem noAck_warp {m : BitVec 12} (h : NoAck s p b m) {t : State} (ht : (port t p).copies = (port s p).copies) :
    takeAckW t p (BitVec.ofNat 12 (ctl b 27 12)) = t := takeAckW_none (fun c hc => h.2 c (ht ▸ hc))

/-- A control field without a number to report and without an acknowledgement that frees something, after what its hold does. -/
theorem packetControl_acked {t : State} (hh : holdTaken t p b = s) (hn : ctl b 53 1 = 0) (hm : ctl b 39 2 = 0) (ha : NoAck s p b 0) :
    packetControl t p (numAt b 256 8) = takeCredit s p (ctl b 9 2) (ctl b 11 16) := by
  have htwine := noAck_twine ha rfl
  rw [show BitVec.ofNat 12 (ctl b 41 12) - 0 = BitVec.ofNat 12 (ctl b 41 12) from BitVec.sub_zero _] at htwine
  rw [packetControl_eq, hh, twineTaken_ack hn, htwine, warpTaken_ack (ctl_two hm).1 (ctl_two hm).2, noAck_warp ha rfl]

theorem packetControl_quiet (h : NoReport b) (ha : NoAck s p b 0) : packetControl s p (numAt b 256 8) = s := by
  obtain ⟨hhold, hnak, hmark, hcredit⟩ := h
  rw [packetControl_acked (holdTaken_none hhold) hnak hmark ha, hcredit, takeCredit_none]

end

/-! ## An intact flit reaches its port -/

section
variable {s : State} {p : PortId} {raw b : List Byte} {n type : Nat}

theorem ctl_mode (b : List Byte) : ctl b 54 1 = numAt b 256 8 / 2 ^ 54 % 2 := congrArg (numAt b 256 8 / 2 ^ 54 % ·) (Nat.pow_one 2)

theorem ctl_type (b : List Byte) : ctl b 5 3 = numAt b 256 8 / 32 % 8 := rfl

theorem receives_packet (h : lstate s p = 5) : receives s p = true := by
  unfold receives
  rw [h, decide_eq_true rfl, Bool.or_true]

/-- A corrected flit is handled by its MODE. -/
theorem exec_flitRx (hr : receives s p = true) (hc : flitCorrect raw = some (b, n)) : exec (.flitRx p raw) s = .next (if ctl b 54 1 = 1
    then flitModeFlit (add64 s (rPort p 0x58) n) p b else packetModeFlit (add64 s (rPort p 0x58) n) p b) := by
  rw [ctl_mode]
  show execFlitRx p raw s = _
  unfold execFlitRx
  rw [hr, hc]
  rfl

/-- What a packet-mode flit does once its control field has acted. -/
def afterControl (s : State) (p : PortId) (b : List Byte) : State :=
  if lstate s p ≠ 5 then s else if ctl b 5 3 = 0 then idleFlit s p b else packetFlit s p (ctl b 5 3) (decide (ctl b 8 1 = 1)) (b.take 256)

theorem exec_flitRx_packet (h : Arrives s p raw b n type) (ht : type ≤ 4) :
    exec (.flitRx p raw) s = .next (afterControl (packetControl (flitIn s p n) p (numAt b 256 8)) p b) := by
  obtain ⟨hl, hc, hm, htype⟩ := h
  have hl' : lstate (add64 s (rPort p 0x58) n) p = 5 := (lstate_add64 s p n (by decide)).trans hl
  rw [exec_flitRx (receives_packet hl) hc, if_neg (by omega)]
  unfold packetModeFlit
  dsimp only
  rw [ctl_type] at htype
  rw [if_neg (by omega), if_neg (by omega)]
  rfl

theorem lstate_flitIn (h : lstate s p = 5) (n : Nat) : lstate (flitIn s p n) p = 5 := (lstate_add64 s p n (by decide)).trans h

theorem port_flitIn (s : State) (p : PortId) (n : Nat) :
    port (flitIn s p n) p = { port s p with rxHistory := lastN 64 ((port s p).rxHistory ++ [false]) } := port_modPort _ p _

theorem flitIn_ported (s : State) (p : PortId) (n : Nat) : Ported s (flitIn s p n) := (add64_ported s _ n).modPort p _

theorem reg_flitIn (s : State) (p : PortId) (n : Nat) {o : Nat} (h : o ≠ rPort p 0x58) (h4 : o ≠ rPort p 0x5C) : reg (flitIn s p n) o = reg s o :=
  reg_setReg64_ne s _ (Ne.symm h) (Ne.symm h4)

theorem reg64_flitIn (s : State) (p : PortId) (n : Nat) : reg64 (flitIn s p n) (rPort p 0x58) = (reg64 s (rPort p 0x58) + n) % 2 ^ 64 :=
  reg64_add64 s _ n

theorem noAck_flitIn {m : BitVec 12} (h : NoAck s p b m) (n : Nat) : NoAck (flitIn s p n) p b m := by
  unfold NoAck
  rw [port_flitIn]
  exact h

theorem idleNext_congr {t : State} (h : IdleNext s p b) (hw : (port t p).rxWarpSeq = (port s p).rxWarpSeq)
    (ht : (port t p).rxTwineSeq = (port s p).rxTwineSeq) : IdleNext t p b := by
  unfold IdleNext
  rw [hw, ht]
  exact h

theorem idleNext_flitIn (h : IdleNext s p b) (n : Nat) : IdleNext (flitIn s p n) p b :=
  idleNext_congr h (by rw [port_flitIn]) (by rw [port_flitIn])

/-- The port's record after an IDLE that reveals no loss. -/
def idleSeen (y : Port) : Port := { y with pickIdles := y.pickIdles + 1, rxPartial := none, uncertain := [] }

theorem newer_self (a : BitVec 12) : newer a a = false := by
  unfold newer
  rw [BitVec.sub_self]
  rfl

theorem idleFlit_next (h : IdleNext s p b) : idleFlit s p b = modPort s p idleSeen := by
  obtain ⟨hw, ht⟩ := h
  unfold idleFlit
  dsimp only
  rw [hw, ht, newer_self, newer_self, if_neg Bool.false_ne_true, if_neg Bool.false_ne_true, modPort_modPort]
  rfl

/-- An IDLE that shows the expected numbers, on a port still in PACKET. -/
theorem afterControl_idle (hl : lstate s p = 5) (ht : ctl b 5 3 = 0) (h : IdleNext s p b) : afterControl s p b = modPort s p idleSeen := by
  unfold afterControl
  rw [if_neg (by omega), if_pos ht, idleFlit_next h]

theorem afterControl_left (hl : lstate s p ≠ 5) : afterControl s p b = s := if_pos hl

/-- Whether or not the port is still in PACKET, such an IDLE changes only the ports. -/
theorem afterControl_idle_ports (ht : ctl b 5 3 = 0) (h : IdleNext s p b) :
    ∃ f : Port → Port, afterControl s p b = modPort s p f ∧ ∀ x, (f x).copies = x.copies := by
  by_cases hl : lstate s p = 5
  · exact ⟨idleSeen, afterControl_idle hl ht h, fun _ => rfl⟩
  · exact ⟨id, (afterControl_left hl).trans (modPort_self rfl).symm, fun _ => rfl⟩

theorem afterControl_packet (hl : lstate s p = 5) (ht : ctl b 5 3 = type) (h0 : type ≠ 0) :
    afterControl s p b = packetFlit s p type (decide (ctl b 8 1 = 1)) (b.take 256) := by
  subst ht
  unfold afterControl
  rw [if_neg (by omega), if_neg h0]

/-- A flit of a packet with a quiet control field goes to its packet at once. -/
theorem exec_flitRx_quiet (h : Arrives s p raw b n type) (h0 : type ≠ 0) (ht : type ≤ 4) (hq : NoReport b) (ha : NoAck s p b 0) :
    exec (.flitRx p raw) s = .next (packetFlit (flitIn s p n) p type (decide (ctl b 8 1 = 1)) (b.take 256)) := by
  have htype : ctl b 5 3 = type := h.2.2.2
  rw [exec_flitRx_packet h ht, packetControl_quiet hq (noAck_flitIn ha n), afterControl_packet (lstate_flitIn h.1 n) htype h0]

end

end Sys2Proof.Machine
end

section
/-! Flits of packet mode that carry packets, and control fields that report a loss, a retry or a credit (R239 to R253). -/

namespace Sys2Proof.Machine

open Sys2Proof.Claims (ctl flitIn Arrives NoReport NoAck IdleNext)

section
variable {s : State} {p : PortId} {raw b : List Byte} {n type : Nat}

/-! ## Packets -/

/-- The command that an intact packet of a plane stands for. -/
theorem exec_packetRx {k : Packet} (h : lstate s p = 5) :
    exec (if ctl b 8 1 = 1 then .twinePacketRx p k else .warpPacketRx p k) s
      = .next (if decide (ctl b 8 1 = 1) then receiveTwine s p k else receiveWarp s p k) := by
  have hup : portUp s p = true := decide_eq_true h
  by_cases hp : ctl b 8 1 = 1
  · rw [if_pos hp, if_pos (decide_eq_true hp)]
    exact congrArg Host.Outcome.next (if_pos hup)
  · rw [if_neg hp, if_neg (by rw [decide_eq_false hp]; exact Bool.false_ne_true)]
    exact congrArg Host.Outcome.next (if_pos hup)

theorem packetDone_some {d : List Byte} {k : Packet} (h : packetOfFlits d = some k) (plane : Bool) :
    packetDone s p plane d = if plane then receiveTwine s p k else receiveWarp s p k := by
  unfold packetDone
  rw [h]

theorem packetDone_none {d : List Byte} (h : packetOfFlits d = none) (plane : Bool) : packetDone s p plane d = add64 s (rPort p 0x68) 1 := by
  unfold packetDone
  rw [h]

theorem packetFlit_single (h : (port s p).rxPartial = none) (plane : Bool) (d : List Byte) : packetFlit s p 4 plane d = packetDone s p plane d := by
  have hput : modPort s p (fun y => { y with rxPartial := none }) = s := modPort_self (congrArg (fun x => { port s p with rxPartial := x }) h.symm)
  unfold packetFlit
  dsimp only
  rw [h, if_pos rfl, if_neg Bool.false_ne_true, hput]

theorem packetFlit_start (plane : Bool) (d : List Byte) :
    packetFlit s p 1 plane d = modPort s p (fun y => { y with rxPartial := some ⟨plane, [d], false⟩ }) := rfl

theorem packetFlit_body {plane : Bool} {l : List (List Byte)} (h : (port s p).rxPartial = some ⟨plane, l, false⟩) (d : List Byte) :
    packetFlit s p 2 plane d = modPort s p (fun y => { y with rxPartial := some ⟨plane, l ++ [d], false⟩ }) := by
  unfold packetFlit
  dsimp only
  rw [h, if_neg (by decide), if_neg (by decide)]
  dsimp only
  rw [if_neg (by simp), if_pos rfl]

theorem packetFlit_end {plane : Bool} {l : List (List Byte)} (h : (port s p).rxPartial = some ⟨plane, l, false⟩) (d : List Byte) :
    packetFlit s p 3 plane d = packetDone (modPort s p (fun y => { y with rxPartial := none })) p plane (l.flatten ++ d) := by
  unfold packetFlit
  dsimp only
  rw [h, if_neg (by decide), if_neg (by decide)]
  dsimp only
  rw [if_neg (by simp), if_neg (by decide)]

theorem flitIn_partial (s : State) (p : PortId) (n : Nat) : (port (flitIn s p n) p).rxPartial = (port s p).rxPartial := by rw [port_flitIn]

/-- A counter of the port, but the one that the flit has added to, reads as before the flit. -/
theorem reg64_flitIn_ne (s : State) (p : PortId) (n : Nat) {o : Nat} (h : 0x60 ≤ o) : reg64 (flitIn s p n) (rPort p.val o) = reg64 s (rPort p.val o) :=
  reg64_congr (reg_flitIn s p n (by unfold rPort; omega) (by unfold rPort; omega)) (reg_flitIn s p n (by unfold rPort; omega) (by unfold rPort; omega))

theorem single_taken {k : Packet} (h : Arrives s p raw b n 4) (hq : NoReport b) (ha : NoAck s p b 0) (hp : (port s p).rxPartial = none)
    (hk : packetOfFlits (b.take 256) = some k) : ∃ t, exec (.flitRx p raw) s = .next t
      ∧ exec (if ctl b 8 1 = 1 then .twinePacketRx p k else .warpPacketRx p k) (flitIn s p n) = .next t := by
  refine ⟨_, exec_flitRx_quiet h (by decide) (by decide) hq ha, ?_⟩
  rw [packetFlit_single ((flitIn_partial s p n).trans hp), packetDone_some hk]
  exact exec_packetRx (lstate_flitIn h.1 n)

theorem single_wrongCrc (h : Arrives s p raw b n 4) (hq : NoReport b) (ha : NoAck s p b 0) (hp : (port s p).rxPartial = none)
    (hk : packetOfFlits (b.take 256) = none) : ∃ t, exec (.flitRx p raw) s = .next t
      ∧ reg64 t (rPort p.val 0x68) = (reg64 s (rPort p.val 0x68) + 1) % 2 ^ 64
      ∧ t.ports = (flitIn s p n).ports ∧ t = { s with regs := t.regs, ports := t.ports } := by
  refine ⟨_, exec_flitRx_quiet h (by decide) (by decide) hq ha, ?_⟩
  rw [packetFlit_single ((flitIn_partial s p n).trans hp), packetDone_none hk]
  refine ⟨?_, rfl, (flitIn_ported s p n).trans (add64_ported _ _ _)⟩
  rw [reg64_add64, reg64_flitIn_ne s p n (by decide)]

theorem start_taken (h : Arrives s p raw b n 1) (hq : NoReport b) (ha : NoAck s p b 0) : ∃ t, exec (.flitRx p raw) s = .next t
    ∧ (port t p).rxPartial = some ⟨decide (ctl b 8 1 = 1), [b.take 256], false⟩ ∧ t = { s with regs := t.regs, ports := t.ports } := by
  refine ⟨_, exec_flitRx_quiet h (by decide) (by decide) hq ha, ?_⟩
  rw [packetFlit_start]
  exact ⟨congrArg Port.rxPartial (port_modPort ..), (flitIn_ported s p n).modPort p _⟩

theorem body_taken {l : List (List Byte)} (h : Arrives s p raw b n 2) (hq : NoReport b) (ha : NoAck s p b 0)
    (hp : (port s p).rxPartial = some ⟨decide (ctl b 8 1 = 1), l, false⟩) : ∃ t, exec (.flitRx p raw) s = .next t
      ∧ (port t p).rxPartial = some ⟨decide (ctl b 8 1 = 1), l ++ [b.take 256], false⟩ ∧ t = { s with regs := t.regs, ports := t.ports } := by
  refine ⟨_, exec_flitRx_quiet h (by decide) (by decide) hq ha, ?_⟩
  rw [packetFlit_body ((flitIn_partial s p n).trans hp)]
  exact ⟨congrArg Port.rxPartial (port_modPort ..), (flitIn_ported s p n).modPort p _⟩

theorem end_taken {l : List (List Byte)} {k : Packet} (h : Arrives s p raw b n 3) (hq : NoReport b) (ha : NoAck s p b 0)
    (hp : (port s p).rxPartial = some ⟨decide (ctl b 8 1 = 1), l, false⟩) (hk : packetOfFlits (l.flatten ++ b.take 256) = some k) :
    ∃ t, exec (.flitRx p raw) s = .next t ∧ exec (if ctl b 8 1 = 1 then .twinePacketRx p k else .warpPacketRx p k)
      (modPort (flitIn s p n) p (fun x => { x with rxPartial := none })) = .next t := by
  refine ⟨_, exec_flitRx_quiet h (by decide) (by decide) hq ha, ?_⟩
  rw [packetFlit_end ((flitIn_partial s p n).trans hp), packetDone_some hk]
  exact exec_packetRx (lstate_flitIn h.1 n)

/-! ## What the control field reports -/

/-- The port after a replay that its NAK_T starts. -/
def replayStarted (s : State) (p : PortId) : State :=
  add64 (modPort s p (fun x => { x with replayLeft := x.replay.length, replaysNoProgress := x.replaysNoProgress + 1, replaySince := tick s }))
    (rPort p 0x80) 1

theorem port_replayStarted (s : State) (p : PortId) : port (replayStarted s p) p = { port s p with
    replayLeft := (port s p).replay.length, replaysNoProgress := (port s p).replaysNoProgress + 1, replaySince := tick s } := port_modPort s p _

theorem startReplay_eq (h : (port s p).replay ≠ []) (h16 : (port s p).replaysNoProgress + 1 < 16) : startReplay s p = replayStarted s p := by
  have hstarted : ¬ 16 ≤ (port (replayStarted s p) p).replaysNoProgress := by
    rw [port_replayStarted]
    dsimp only
    omega
  unfold startReplay
  rw [if_neg (by rw [List.isEmpty_iff]; exact h)]
  exact if_neg hstarted

theorem reg64_modPort (s : State) (p : PortId) (f : Port → Port) (o : Nat) : reg64 (modPort s p f) o = reg64 s o := rfl

theorem reg64_replayStarted (s : State) (p : PortId) : reg64 (replayStarted s p) (rPort p.val 0x80) = (reg64 s (rPort p.val 0x80) + 1) % 2 ^ 64 := by
  unfold replayStarted
  rw [reg64_add64, reg64_modPort]

theorem replayStarted_ported (s : State) (p : PortId) : Ported s (replayStarted s p) := (modPort_ported s p _).trans (add64_ported _ _ _)

/-- The control field of a flit that asks for a replay alone. -/
theorem packetControl_nakT (hhold : ctl b 55 1 = 0) (hnak : ctl b 53 1 = 1) (hmark : ctl b 39 2 = 0) (hcredit : ctl b 9 2 = 3) (ha : NoAck s p b 1)
    (hr : (port s p).replay ≠ []) (h16 : (port s p).replaysNoProgress + 1 < 16) : packetControl s p (numAt b 256 8) = replayStarted s p := by
  have htwine : twineTaken s p b = replayStarted s p := by
    rw [twineTaken_nak hnak, noAck_twine ha rfl]
    exact startReplay_eq hr h16
  rw [packetControl_eq, holdTaken_none hhold, htwine, warpTaken_ack (ctl_two hmark).1 (ctl_two hmark).2,
    noAck_warp ha (by rw [port_replayStarted]), hcredit, takeCredit_none]

theorem afterControl_replay (hl : lstate s p = 5) (ht : ctl b 5 3 = 0) (hi : IdleNext s p b) :
    afterControl (replayStarted s p) p b = modPort (replayStarted s p) p idleSeen :=
  afterControl_idle ((lstate_add64 _ p 1 (by decide)).trans hl) ht
    (idleNext_congr hi (by rw [port_replayStarted]) (by rw [port_replayStarted]))

theorem nakT_taken (h : Arrives s p raw b n 0) (hi : IdleNext s p b) (hhold : ctl b 55 1 = 0) (hnak : ctl b 53 1 = 1) (hmark : ctl b 39 2 = 0)
    (hcredit : ctl b 9 2 = 3) (ha : NoAck s p b 1) (hr : (port s p).replay ≠ []) (h16 : (port s p).replaysNoProgress + 1 < 16) :
    ∃ t, exec (.flitRx p raw) s = .next t
      ∧ (port t p).replayLeft = (port s p).replay.length ∧ (port t p).replay = (port s p).replay ∧ (port t p).copies = (port s p).copies
      ∧ reg64 t (rPort p.val 0x80) = (reg64 s (rPort p.val 0x80) + 1) % 2 ^ 64 ∧ t = { s with regs := t.regs, ports := t.ports } := by
  have hin := port_flitIn s p n
  have hcontrol := packetControl_nakT hhold hnak hmark hcredit (noAck_flitIn ha n) (by rw [hin]; exact hr) (by rw [hin]; exact h16)
  have hafter := afterControl_replay (lstate_flitIn h.1 n) h.2.2.2 (idleNext_flitIn hi n)
  have hcount := reg64_flitIn_ne s p n (o := 0x80) (by decide)
  have hframe := flitIn_ported s p n
  have hexec := exec_flitRx_packet h (by decide)
  rw [hcontrol, hafter] at hexec
  refine ⟨_, hexec, ?_⟩
  generalize flitIn s p n = u at hin hcount hframe ⊢
  rw [port_modPort, port_replayStarted, hin, reg64_modPort, reg64_replayStarted, hcount]
  exact ⟨rfl, rfl, rfl, rfl, (hframe.trans (replayStarted_ported u p)).modPort p _⟩

theorem takeNakW_found {c : WarpCopy} {a : BitVec 12} (hf : (port s p).copies.find? (fun c => c.seq = a) = some c) (hn : c.naked = false)
    (hr : c.retryPick = none) : takeNakW s p a = modPort s p (fun x => { x with copies := x.copies.map (fun d =>
      if d.seq = a then { d with naked := true, scheduled := !noticeHeld s } else d) }) := by
  unfold takeNakW
  rw [hf]
  dsimp only
  rw [hr, hn]
  rfl

theorem takeNakW_gone {a : BitVec 12} (hf : (port s p).copies.find? (fun c => c.seq = a) = none) : takeNakW s p a = declareDown s p (some 7) := by
  unfold takeNakW
  rw [hf]

theorem noticeHeld_flitIn (s : State) (p : PortId) (n : Nat) : noticeHeld (flitIn s p n) = noticeHeld s := by
  have hstake : stakeNo (flitIn s p n) = stakeNo s :=
    reg64_setReg64_ne s _ (by unfold rPort rStake; omega)
  unfold noticeHeld
  rw [hstake]
  rfl

/-- The control field of a flit that reports a number of the warp plane alone. -/
theorem packetControl_warp (hhold : ctl b 55 1 = 0) (hnak : ctl b 53 1 = 0) (hcredit : ctl b 9 2 = 3)
    (ha : ∀ k ∈ (port s p).replay, 2048 ≤ (BitVec.ofNat 12 (ctl b 41 12) - k.seq).toNat) :
    packetControl s p (numAt b 256 8) = warpTaken s p b := by
  rw [packetControl_eq, holdTaken_none hhold, twineTaken_none hnak ha, hcredit, takeCredit_none]

/-- An IDLE that reports a number of the warp plane alone, and what it makes of the port's copies. -/
theorem report_copies {f : Port → Port} (h : Arrives s p raw b n 0) (hi : IdleNext s p b) (hhold : ctl b 55 1 = 0) (hnak : ctl b 53 1 = 0)
    (hcredit : ctl b 9 2 = 3) (ha : ∀ k ∈ (port s p).replay, 2048 ≤ (BitVec.ofNat 12 (ctl b 41 12) - k.seq).toNat)
    (hw : warpTaken (flitIn s p n) p b = modPort (flitIn s p n) p f)
    (hf : ∀ x, (f x).rxWarpSeq = x.rxWarpSeq ∧ (f x).rxTwineSeq = x.rxTwineSeq) :
    ∃ t, exec (.flitRx p raw) s = .next t ∧ (port t p).copies = (f (port (flitIn s p n) p)).copies := by
  have hreplay : (port (flitIn s p n) p).replay = (port s p).replay := by rw [port_flitIn]
  have hport : port (modPort (flitIn s p n) p f) p = f (port (flitIn s p n) p) := port_modPort ..
  have hnext : IdleNext (modPort (flitIn s p n) p f) p b :=
    idleNext_congr (idleNext_flitIn hi n) (by rw [hport]; exact (hf _).1) (by rw [hport]; exact (hf _).2)
  refine ⟨_, exec_flitRx_packet h (by decide), ?_⟩
  rw [packetControl_warp hhold hnak hcredit (hreplay ▸ ha), hw, afterControl_idle (s := modPort (flitIn s p n) p f) (lstate_flitIn h.1 n) h.2.2.2 hnext,
    port_modPort, port_modPort]
  rfl

theorem nakW_found {c : WarpCopy} (h : Arrives s p raw b n 0) (hi : IdleNext s p b) (hhold : ctl b 55 1 = 0) (hnak : ctl b 53 1 = 0)
    (hmark : ctl b 39 1 = 1) (hcredit : ctl b 9 2 = 3) (ha : ∀ k ∈ (port s p).replay, 2048 ≤ (BitVec.ofNat 12 (ctl b 41 12) - k.seq).toNat)
    (hc : (port s p).copies.find? (fun c => c.seq = BitVec.ofNat 12 (ctl b 27 12)) = some c) (hn : c.naked = false) (hr : c.retryPick = none) :
    ∃ t, exec (.flitRx p raw) s = .next t ∧ (port t p).copies = (port s p).copies.map (fun d =>
      if d.seq = BitVec.ofNat 12 (ctl b 27 12) then { d with naked := true, scheduled := !noticeHeld s } else d) := by
  have hcopies : (port (flitIn s p n) p).copies = (port s p).copies := by rw [port_flitIn]
  obtain ⟨t, ht, hp⟩ := report_copies h hi hhold hnak hcredit ha ((warpTaken_nak hmark).trans (takeNakW_found (hcopies ▸ hc) hn hr))
    (fun _ => ⟨rfl, rfl⟩)
  refine ⟨t, ht, hp.trans ?_⟩
  dsimp only
  rw [noticeHeld_flitIn, hcopies]

theorem rack_taken (h : Arrives s p raw b n 0) (hi : IdleNext s p b) (hhold : ctl b 55 1 = 0) (hnak : ctl b 53 1 = 0) (hmark : ctl b 39 1 = 0)
    (hrack : ctl b 40 1 = 1) (hcredit : ctl b 9 2 = 3) (hm : field s (rPort p.val 0x04) 24 4 ≠ 0)
    (ha : ∀ k ∈ (port s p).replay, 2048 ≤ (BitVec.ofNat 12 (ctl b 41 12) - k.seq).toNat) :
    ∃ t, exec (.flitRx p raw) s = .next t ∧ (port t p).copies
      = (port s p).copies.filter (fun c => !(c.seq = BitVec.ofNat 12 (ctl b 27 12) && c.retryPick.isSome)) := by
  have hcopies : (port (flitIn s p n) p).copies = (port s p).copies := by rw [port_flitIn]
  have hmask : field (flitIn s p n) (rPort p.val 0x04) 24 4 ≠ 0 := by
    rw [field_congr (reg_flitIn s p n (by unfold rPort; omega) (by unfold rPort; omega))]
    exact hm
  obtain ⟨t, ht, hp⟩ := report_copies h hi hhold hnak hcredit ha (warpTaken_rack hmark hrack hmask) (fun _ => ⟨rfl, rfl⟩)
  refine ⟨t, ht, hp.trans ?_⟩
  dsimp only
  rw [hcopies]

/-! ## Credits -/

theorem takeCredit_taken {c v : Nat} (hl : lstate s p = 5) (hc : c < 3) (hh : (v + 65536 - field s (rPort p.val (0x20 + 4 * c)) 16 16) % 65536 ≤ 32767)
    (hu : (v + 65536 - field s (rPort p.val (0x20 + 4 * c)) 0 16) % 65536 ≤ (port s p).train.peerBufs.getD c 0) :
    takeCredit s p c v = setField s (rPort p (0x20 + 4 * c)) 16 16 v := by
  unfold takeCredit
  dsimp only
  rw [hl, if_neg (by omega), if_neg (by omega), if_neg (by omega)]

theorem field_modPort (s : State) (p : PortId) (f : Port → Port) (o lo len : Nat) : field (modPort s p f) o lo len = field s o lo len := rfl

theorem afterControl_credit {c : Nat} (v : Nat) (hc : c < 3) (hl : lstate s p = 5) (ht : ctl b 5 3 = 0) (hi : IdleNext s p b) :
    afterControl (setField s (rPort p (0x20 + 4 * c)) 16 16 v) p b = modPort (setField s (rPort p (0x20 + 4 * c)) 16 16 v) p idleSeen :=
  afterControl_idle ((lstate_congr (reg_setField_ne s _ _ _ (by unfold rPort; omega))).trans hl) ht (idleNext_congr hi rfl rfl)

theorem credit_taken {c : Nat} (h : Arrives s p raw b n 0) (hi : IdleNext s p b) (hhold : ctl b 55 1 = 0) (hnak : ctl b 53 1 = 0)
    (hmark : ctl b 39 2 = 0) (hcredit : ctl b 9 2 = c) (hc : c < 3) (ha : NoAck s p b 0)
    (hh : (ctl b 11 16 + 65536 - field s (rPort p.val (0x20 + 4 * c)) 16 16) % 65536 ≤ 32767)
    (hu : (ctl b 11 16 + 65536 - field s (rPort p.val (0x20 + 4 * c)) 0 16) % 65536 ≤ (port s p).train.peerBufs.getD c 0) :
    ∃ t, exec (.flitRx p raw) s = .next t ∧ field t (rPort p.val (0x20 + 4 * c)) 16 16 = ctl b 11 16
      ∧ field t (rPort p.val (0x20 + 4 * c)) 0 16 = field s (rPort p.val (0x20 + 4 * c)) 0 16 ∧ t = { s with regs := t.regs, ports := t.ports } := by
  have hsame : reg (flitIn s p n) (rPort p.val (0x20 + 4 * c)) = reg s (rPort p.val (0x20 + 4 * c)) :=
    reg_flitIn s p n (by unfold rPort; omega) (by unfold rPort; omega)
  have htrain : (port (flitIn s p n) p).train = (port s p).train := by rw [port_flitIn]
  have hlim : ctl b 11 16 % 2 ^ 16 = ctl b 11 16 := Nat.mod_mod _ _
  have hcontrol : packetControl (flitIn s p n) p (numAt b 256 8) = setField (flitIn s p n) (rPort p (0x20 + 4 * c)) 16 16 (ctl b 11 16) := by
    rw [packetControl_acked (holdTaken_none hhold) hnak hmark (noAck_flitIn ha n), hcredit]
    refine takeCredit_taken (lstate_flitIn h.1 n) hc ?_ ?_
    · rw [field_congr hsame]; exact hh
    · rw [field_congr hsame, htrain]; exact hu
  have hafter := afterControl_credit (ctl b 11 16) hc (lstate_flitIn h.1 n) h.2.2.2 (idleNext_flitIn hi n)
  have hframe := flitIn_ported s p n
  have hexec := exec_flitRx_packet h (by decide)
  rw [hcontrol, hafter] at hexec
  refine ⟨_, hexec, ?_⟩
  generalize flitIn s p n = u at hsame hframe ⊢
  rw [field_modPort, field_modPort, field_setField _ _ _ _ _ (by decide), field_setField_ne _ _ _ _ _ (Or.inl (by decide)), field_congr hsame, hlim]
  exact ⟨rfl, rfl, (hframe.trans (setReg_ported _ _ _)).modPort p _⟩

end

end Sys2Proof.Machine
end

section
/-! What a port that goes down or into recovery shows, and what the rest of the device's answer leaves of it (R222, R256, R267, R268). -/

namespace Sys2Proof.Machine

open Sys2Proof.Claims (ctl flitIn Arrives NoReport NoAck IdleNext)

/-! ## The registers of a port's state and errors -/

/-- ERR_LINK, and of a port's block PRT_STATE and the count of corrected symbols. -/
abbrev LinkReg (o : Nat) : Prop :=
  (0x80300 ≤ o ∧ o < 0x80340) ∨ (0x201000 ≤ o ∧ o < 0x202000 ∧ (o % 0x100 = 0x04 ∨ o % 0x100 = 0x58 ∨ o % 0x100 = 0x5C))

theorem linkReg_err (p : PortId) : LinkReg (rErrLink p) := by
  unfold rErrLink
  omega

theorem linkReg_port (p : PortId) {o : Nat} (h : o = 0x04 ∨ o = 0x58 ∨ o = 0x5C) : LinkReg (rPort p o) := by
  unfold rPort
  omega

theorem not_linkReg_port (p : PortId) {o : Nat} (h : o < 0x100) (h' : o ≠ 0x04 ∧ o ≠ 0x58 ∧ o ≠ 0x5C) : ¬ LinkReg (rPort p o) := by
  unfold rPort
  omega

theorem not_linkReg_func (p : PortId) : ¬ LinkReg (rFunc (fLink p)) := by
  unfold rFunc fLink
  omega

theorem not_linkReg_pba : ∀ o ∈ pbaRegs, ¬ LinkReg o := by decide

theorem not_linkReg_fault {o : Nat} (h : FaultWritten o) : ¬ LinkReg o := by
  rcases h with rfl | hp | hs | ⟨q, rfl⟩
  · decide
  · exact not_linkReg_pba o hp
  · omega
  · unfold rPod
    omega

/-- Those registers and memory stay. -/
structure Keeping (s t : State) : Prop where
  mem : t.mem = s.mem
  regs : ∀ o, LinkReg o → reg t o = reg s o

theorem Keeping.refl (s : State) : Keeping s s := ⟨rfl, fun _ _ => rfl⟩

theorem Keeping.trans {s t u : State} (h : Keeping s t) (g : Keeping t u) : Keeping s u :=
  ⟨g.mem.trans h.mem, fun o ho => (g.regs o ho).trans (h.regs o ho)⟩

theorem Keeping.foldl {α : Type} {f : State → α → State} (hf : ∀ t a, Keeping t (f t a)) (xs : List α) (s : State) : Keeping s (xs.foldl f s) := by
  induction xs generalizing s with
  | nil => exact Keeping.refl s
  | cons a xs ih => exact (hf s a).trans (ih (f s a))

theorem Keeping.lstate {s t : State} (h : Keeping s t) (p : PortId) : Machine.lstate t p = Machine.lstate s p :=
  lstate_congr (h.regs _ (linkReg_port p (Or.inl rfl)))

theorem Keeping.error {s t : State} (h : Keeping s t) (p : PortId) (i : Nat) : flag t (rErrLink p) i = flag s (rErrLink p) i :=
  congrArg (fun x => getB x i) (h.regs _ (linkReg_err p))

theorem Keeping.corrected {s t : State} (h : Keeping s t) (p : PortId) : reg64 t (rPort p.val 0x58) = reg64 s (rPort p.val 0x58) :=
  reg64_congr (h.regs _ (linkReg_port p (Or.inr (Or.inl rfl)))) (h.regs _ (linkReg_port p (Or.inr (Or.inr rfl))))

/-- A change of neither registers nor memory. -/
theorem keeping_of_same {s t : State} (hm : t.mem = s.mem) (hr : t.regs = s.regs) : Keeping s t := ⟨hm, fun o _ => by unfold reg; rw [hr]⟩

theorem Noted.same {l : List Nat} {s t : State} (h : Noted l s t) : t.mem = s.mem ∧ t.ports = s.ports := by
  rw [h.frame]
  exact ⟨rfl, rfl⟩

theorem Noted.keeping {l : List Nat} {s t : State} (h : Noted l s t) (hl : ∀ o ∈ l, ¬ LinkReg o) : Keeping s t :=
  ⟨(congrArg State.mem h.frame :), fun o ho => h.regs o (fun hm => hl o hm ho) (fun hm => not_linkReg_pba o hm ho)⟩

theorem Faulting.keeping {l : List Nat} {s t : State} (h : Faulting l s t) (hl : ∀ o ∈ l, ¬ LinkReg o) : Keeping s t :=
  ⟨(congrArg State.mem h.frame :), fun o ho => h.regs o (fun hm => hl o hm ho) (fun hf => not_linkReg_fault hf ho)⟩

theorem setReg_keeping (s : State) {o : Nat} (v : Word) (h : ¬ LinkReg o) : Keeping s (setReg s o v) :=
  ⟨rfl, fun _ ho => reg_setReg_ne s v (fun e => h (e ▸ ho))⟩

theorem add64_keeping (s : State) {o : Nat} (n : Nat) (h : ¬ LinkReg o) (h4 : ¬ LinkReg (o + 4)) : Keeping s (add64 s o n) :=
  (setReg_keeping s _ h).trans (setReg_keeping _ _ h4)

theorem modPort_keeping (s : State) (p : PortId) (f : Port → Port) : Keeping s (modPort s p f) := ⟨rfl, fun _ _ => rfl⟩

theorem raiseFault_fsq_keeping (s : State) (bit unit addr : Nat) : Keeping s (raiseFault s 8 rErrFsq bit unit addr) :=
  (raiseFault_faulting (l := rErrFsq :: capRegs 8) s 8 rErrFsq bit unit addr List.mem_cons_self (List.subset_cons_self ..)).keeping (by decide)

/-! ## A port goes down -/

theorem takeNotice_keeping (s : State) (die : Nat) (n : Notice) : Keeping s (takeNotice s die n) := by
  have hheld (t : State) : Keeping t (holdNotice t) := by
    obtain ⟨b, ports, l, h, -, -⟩ := holdNotice_frame t
    rw [h]
    exact (setReg_keeping t (o := rWeaveState) _ (by decide)).trans (keeping_of_same rfl rfl)
  have hfault (c : Prop) [Decidable c] (t : State) (bit addr : Nat) : Keeping t (if c then raiseFault t 8 rErrFsq bit die addr else t) := by
    split
    · exact raiseFault_fsq_keeping ..
    · exact Keeping.refl t
  have hstake (k : StakeState) : Keeping s { s with stake := k } := keeping_of_same rfl rfl
  unfold takeNotice
  dsimp only
  exact ((((hstake _).trans (hheld _)).trans (hfault _ _ _ _)).trans (hfault _ _ _ _)).trans (hfault _ _ _ _)

theorem startNotice_keeping (s : State) (p : PortId) : Keeping s (startNotice s p) := by
  have hstake (u : State) (k : StakeState) : Keeping u { u with stake := k } := keeping_of_same rfl rfl
  have hflood (k : Packet) : Keeping s (floodNotice s k none) := (floodNotice_faulting [] s k none).keeping (fun _ h => absurd h List.not_mem_nil)
  unfold startNotice
  dsimp only
  exact ((hflood _).trans (hstake _ _)).trans (takeNotice_keeping ..)

theorem routesAtEnd_keeping (s : State) : Keeping s (routesAtEnd s) := by
  unfold routesAtEnd
  split
  · exact keeping_of_same rfl rfl
  · exact Keeping.refl s

theorem setLink_noted (s : State) (p : PortId) (st d : Nat) : Noted [rFunc (fLink p)] s (setLink s p st d) := by
  unfold setLink
  split
  · exact Noted.refl _ s
  · exact setFunc_noted s _ st d (by simp)

theorem setLink_keeping (s : State) (p : PortId) (st d : Nat) : Keeping s (setLink s p st d) :=
  (setLink_noted s p st d).keeping (fun _ ho => List.mem_singleton.1 ho ▸ not_linkReg_func p)

theorem raiseErr_twine_keeping (s : State) (bit unit addr : Nat) : Keeping s (raiseErr s 10 rErrTwine bit unit addr) :=
  (raiseErr_noted (l := rErrTwine :: capRegs 10) s 10 rErrTwine bit unit addr List.mem_cons_self (List.subset_cons_self ..)).keeping (by decide)

theorem loseReplay_keeping (s : State) (p : PortId) : Keeping s (loseReplay s p) := by
  unfold loseReplay
  dsimp only
  refine Keeping.trans (Keeping.foldl (fun t _ => ?_) _ s) (modPort_keeping _ p _)
  exact (add64_keeping _ 1 (not_linkReg_port p (by decide) (by decide))
    (not_linkReg_port p (o := 0xAC) (by decide) (by decide))).trans (raiseErr_twine_keeping ..)

theorem raiseErr_link_mem (s : State) (p : PortId) (bit unit addr : Nat) : (raiseErr s 9 (rErrLink p) bit unit addr).mem = s.mem :=
  (raiseErr_noted (l := rErrLink p :: capRegs 9) s 9 (rErrLink p) bit unit addr List.mem_cons_self (List.subset_cons_self ..)).same.1

/-- The registers of a port's own block stay where an error of its link is raised. -/
theorem reg_raiseErr_link_ne (s : State) (p q : PortId) (bit unit addr : Nat) (o : Nat) : reg (raiseErr s 9 (rErrLink p) bit unit addr) (rPort q.val o)
    = reg s (rPort q.val o) := by
  refine (raiseErr_noted (l := rErrLink p :: capRegs 9) s 9 (rErrLink p) bit unit addr List.mem_cons_self (List.subset_cons_self ..)).regs _ ?_ ?_
  · intro hm
    rcases List.mem_cons.1 hm with h | h
    · unfold rPort rErrLink at h
      omega
    · have := (by decide : ∀ o ∈ capRegs 9, o < 0x201000) _ h
      unfold rPort at this
      omega
  · intro hm
    have := (by decide : ∀ o ∈ pbaRegs, o < 0x201000) _ hm
    unfold rPort at this
    omega

theorem errLink_not_cap (p : PortId) : rErrLink p ∉ capRegs 9 := by
  intro hm
  have := (by decide : ∀ o ∈ capRegs 9, 0x80900 ≤ o) _ hm
  unfold rErrLink at this
  omega

theorem errLink_not_pba (p : PortId) : rErrLink p ∉ pbaRegs := fun hm => not_linkReg_pba _ hm (linkReg_err p)

theorem flag_raiseErr_link (s : State) (p : PortId) {bit : Nat} (unit addr : Nat) (h : bit < 32) :
    flag (raiseErr s 9 (rErrLink p) bit unit addr) (rErrLink p) bit = true :=
  flag_raiseErr s 9 (rErrLink p) bit unit addr h (by unfold rErrLink; omega) (errLink_not_cap p) (errLink_not_pba p)

theorem flag_raiseErr_link_ne (s : State) (p : PortId) {i bit : Nat} (unit addr : Nat) (h : bit ≠ i) :
    flag (raiseErr s 9 (rErrLink p) bit unit addr) (rErrLink p) i = flag s (rErrLink p) i := by
  unfold flag
  rw [reg_raiseErr s 9 (rErrLink p) bit unit addr (errLink_not_cap p) (errLink_not_pba p)]
  exact flag_setFlag_ne s (rErrLink p) true h

/-- The state of a port's link as it is written, before its function follows. -/
theorem lstate_setLstate (s : State) (p : PortId) {v : Nat} (h : v < 16) : lstate (setLstate s p v) p = v := by
  unfold lstate setLstate
  exact (field_setField _ _ _ _ _ (by decide)).trans (Nat.mod_eq_of_lt h)

theorem flag_setLstate_err (s : State) (p : PortId) (v i : Nat) : flag (setLstate s p v) (rErrLink p) i = flag s (rErrLink p) i :=
  congrArg (fun x => getB x i) (reg_setField_ne s (o := rPort p 0x04) 28 4 v (by unfold rPort rErrLink; omega))

/-- The errors of a port that goes down with cause bit `b`, before its packets are lost. -/
def downRaised (s : State) (p : PortId) (b : Nat) : State := raiseErr (raiseErr s 9 (rErrLink p) b p 0) 9 (rErrLink p) 11 p 0

/-- After its errors, a port that goes down with a cause stands in DOWN. -/
def downTaken (s : State) (p : PortId) : State := setLink (setLstate (loseReplay s p) p 7) p 3 6

theorem declareDown_keeping (s : State) (p : PortId) (b : Nat) : Keeping (downTaken (downRaised s p b) p) (declareDown s p (some b)) := by
  have heq : declareDown s p (some b) = if carriesWarp s p then startNotice (routesAtEnd (downTaken (downRaised s p b) p)) p
      else routesAtEnd (downTaken (downRaised s p b) p) := rfl
  rw [heq]
  split
  · exact (routesAtEnd_keeping _).trans (startNotice_keeping _ p)
  · exact routesAtEnd_keeping _

theorem declareDown_down (s : State) (p : PortId) {b : Nat} (hb : b < 11) : lstate (declareDown s p (some b)) p = 7
    ∧ flag (declareDown s p (some b)) (rErrLink p.val) b = true ∧ MemSame s (declareDown s p (some b)) := by
  have hkeep := declareDown_keeping s p b
  have hlink := setLink_keeping (setLstate (loseReplay (downRaised s p b) p) p 7) p 3 6
  have hlose := loseReplay_keeping (downRaised s p b) p
  refine ⟨?_, ?_, fun a => memByte_congr ?_ a⟩
  · exact (hkeep.lstate p).trans ((hlink.lstate p).trans (lstate_setLstate _ p (by decide)))
  · refine (hkeep.error p b).trans ((hlink.error p b).trans ((flag_setLstate_err _ p 7 b).trans ((hlose.error p b).trans ?_)))
    unfold downRaised
    rw [flag_raiseErr_link_ne _ p _ _ (by omega)]
    exact flag_raiseErr_link s p _ _ (by omega)
  · have hraised : (downRaised s p b).mem = s.mem := (raiseErr_link_mem ..).trans (raiseErr_link_mem ..)
    exact hkeep.mem.trans (hlink.mem.trans (hlose.mem.trans hraised))

/-! ## A port enters RECOVER -/

/-- The entry of a recovery is counted. -/
def recoverCounted (s : State) (p : PortId) : State :=
  add64 (modPort s p (fun x => { x with
    recoverStakes := (port s p).recoverStakes.filter (fun n => decide (stakeNo s < n + 1024)) ++ [stakeNo s] })) (rPort p 0x98) 1

/-- The port's record as a recovery begins. -/
def recoverStarts (now : Nat) (locked : Bool) (x : Port) : Port := { x with
  train := { x.train with step := b2n locked, peerReady := none, peerRecover := false, replies := [], asked := false }
  recoverTick := now, rxHistory := [], rxPartial := none, txFlits := [], txCount := 0, rxCount := 0, flitReplay := [], flitResend := []
  sendIdleF := false, nakF := false, hunt := false, flitsSinceIdle := 0 }

theorem enterRecover_eq {s : State} {p : PortId} (h : lstate s p = 5) (locked : Bool) : enterRecover s p locked
    = if 8 < ((port s p).recoverStakes.filter (fun n => decide (stakeNo s < n + 1024))).length + 1 then declareDown (recoverCounted s p) p (some 9)
      else setLink (setLstate (modPort (recoverCounted s p) p (recoverStarts (tick s) locked)) p 6) p 1 0 := by
  unfold enterRecover
  rw [if_neg (by omega)]
  rfl

/-- A port that enters RECOVER for the eighth time in 1,024 stakes or less often. -/
theorem enterRecover_recovers {s : State} {p : PortId} (h : lstate s p = 5) (locked : Bool)
    (h8 : ((port s p).recoverStakes.filter (fun n => decide (stakeNo s < n + 1024))).length < 8) :
    lstate (enterRecover s p locked) p = 6
      ∧ port (enterRecover s p locked) p = recoverStarts (tick s) locked (port (recoverCounted s p) p) := by
  rw [enterRecover_eq h, if_neg (by omega)]
  refine ⟨((setLink_keeping _ p 1 0).lstate p).trans (lstate_setLstate _ p (by decide)), ?_⟩
  have hports : (setLink (setLstate (modPort (recoverCounted s p) p (recoverStarts (tick s) locked)) p 6) p 1 0).ports
      = (modPort (recoverCounted s p) p (recoverStarts (tick s) locked)).ports := by
    rw [(setLink_noted _ p 1 0).frame]
    rfl
  exact (port_of_ports hports p).trans (port_modPort ..)

theorem enterRecover_leaves {s : State} {p : PortId} (h : lstate s p = 5) (locked : Bool) :
    lstate (enterRecover s p locked) p = 6 ∨ lstate (enterRecover s p locked) p = 7 := by
  by_cases h8 : ((port s p).recoverStakes.filter (fun n => decide (stakeNo s < n + 1024))).length < 8
  · exact Or.inl (enterRecover_recovers h locked h8).1
  · rw [enterRecover_eq h, if_pos (by omega)]
    exact Or.inr (declareDown_down _ p (by decide)).1

/-! ## A delivery is confirmed -/

/-- Between the two states a port has at most queued twine packets to send. -/
structure Confirmed (s t : State) : Prop extends Keeping s t where
  ports : ∀ q, port t q = { port s q with txByp := (port t q).txByp, txRsp := (port t q).txRsp, txReq := (port t q).txReq }

theorem Confirmed.refl (s : State) : Confirmed s s := ⟨Keeping.refl s, fun _ => rfl⟩

theorem Confirmed.trans {s t u : State} (h : Confirmed s t) (g : Confirmed t u) : Confirmed s u :=
  ⟨h.toKeeping.trans g.toKeeping, fun q => by rw [g.ports q, h.ports q]⟩

theorem Confirmed.foldl {α : Type} {f : State → α → State} (hf : ∀ t a, Confirmed t (f t a)) (xs : List α) (s : State) : Confirmed s (xs.foldl f s) := by
  induction xs generalizing s with
  | nil => exact Confirmed.refl s
  | cons a xs ih => exact (hf s a).trans (ih (f s a))

theorem Keeping.confirmed {s t : State} (h : Keeping s t) (hp : t.ports = s.ports) : Confirmed s t := ⟨h, fun q => by rw [port_of_ports hp]⟩

theorem queueTx_confirmed (s : State) (p : PortId) (held : Option PortId) (k : Packet) : Confirmed s (queueTx s p held k) := by
  refine ⟨modPort_keeping s p _, fun q => ?_⟩
  unfold queueTx
  by_cases hq : p = q
  · subst hq
    rw [port_modPort]
    split
    · rfl
    · split <;> rfl
  · rw [port_modPort_ne _ _ hq]

theorem noRoute_confirmed (s : State) (k : Packet) : Confirmed s (noRoute s k) := by
  refine Keeping.confirmed ?_ ?_
  · exact (add64_keeping s 1 (o := rPort 0 0xB8) (by decide) (by decide)).trans (raiseErr_twine_keeping ..)
  · exact (raiseErr_noted (l := rErrTwine :: capRegs 10) (add64 s (rPort 0 0xB8) 1) 10 rErrTwine 0 0xFF k.dst.toNat List.mem_cons_self
      (List.subset_cons_self ..)).same.2

theorem causeArises_confirmed (s : State) (bits : Nat) : Confirmed s (causeArises s bits) := by
  unfold causeArises
  split
  · exact Confirmed.refl s
  · exact ⟨⟨rfl, fun _ _ => rfl⟩, fun _ => rfl⟩

theorem modPod_confirmed (s : State) (p : PodId) (f : Pod → Pod) : Confirmed s (modPod s p f) := ⟨⟨rfl, fun _ _ => rfl⟩, fun _ => rfl⟩

theorem modMisc_confirmed (s : State) (f : Misc → Misc) : Confirmed s (modMisc s f) := ⟨⟨rfl, fun _ _ => rfl⟩, fun _ => rfl⟩

theorem completeHeads_confirmed (s : State) (p : PodId) (q : Fin 8) : Confirmed s (completeHeads s p q) := by
  unfold completeHeads
  dsimp only
  split
  · exact Confirmed.refl s
  · refine Confirmed.trans ?_ (modPod_confirmed _ p _)
    split
    · exact causeArises_confirmed ..
    · exact Confirmed.refl s

theorem finishTransfer_confirmed (s : State) (p : PodId) (q : Fin 8) (sel : Token → Bool) : Confirmed s (finishTransfer s p q sel) :=
  (modPod_confirmed s p _).trans (completeHeads_confirmed _ p q)

theorem releaseFence_confirmed (s : State) (f : Fenced) : Confirmed s (releaseFence s f) := by
  unfold releaseFence
  split
  · exact queueTx_confirmed ..
  · exact modMisc_confirmed ..
  · exact (noRoute_confirmed ..).trans (finishTransfer_confirmed ..)

theorem releaseReady_confirmed (s : State) : Confirmed s (releaseReady s) := by
  unfold releaseReady
  dsimp only
  exact (modMisc_confirmed s _).trans (Confirmed.foldl releaseFence_confirmed _ _)

theorem confirmToken_confirmed (s : State) (p : PodId) (q : Fin 8) (sel : Token → Bool) : Confirmed s (confirmToken s p q sel) :=
  (finishTransfer_confirmed s p q sel).trans (Confirmed.foldl (fun t _ => releaseReady_confirmed t) _ _)

theorem confirmSent_confirmed (s : State) (k : Packet) : Confirmed s (confirmSent s k) := by
  unfold confirmSent
  split
  · split
    · exact confirmToken_confirmed ..
    · split
      · exact confirmToken_confirmed ..
      · exact Confirmed.refl s
  · exact Confirmed.refl s

end Sys2Proof.Machine
end

section
/-! Flits that free what they acknowledge, ask for a hold or take a port down, and flits that cannot be used (R26, R235 to R240, R246 to R249). -/

namespace Sys2Proof.Machine

open Sys2Proof.Claims (ctl flitIn Arrives NoReport NoAck IdleNext)

section
variable {s : State} {p : PortId} {raw b : List Byte} {n type : Nat}

/-! ## Acknowledgements -/

theorem takeAckT_keeping (s : State) (p : PortId) (a : BitVec 12) : Keeping s (takeAckT s p a) := by
  unfold takeAckT
  dsimp only
  split
  · exact Keeping.refl s
  · exact (modPort_keeping s p _).trans (Confirmed.foldl confirmSent_confirmed _ _).toKeeping

/-- The port's record with the packets freed that ACK_T acknowledges. -/
def freedTo (x : Port) (a : BitVec 12) : List Packet := x.replay.filter (fun k => decide (2048 ≤ (a - k.seq).toNat))

theorem freedTo_eq (x : Port) (a : BitVec 12) : x.replay.filter (fun k => !decide ((a - k.seq).toNat < 2048)) = freedTo x a :=
  List.filter_congr (fun k _ => by rw [← decide_not, decide_eq_decide]; exact Nat.not_lt)

theorem port_takeAckT (s : State) (p : PortId) (a : BitVec 12) : ∃ left m since byp rsp req, port (takeAckT s p a) p = { port s p with
    replay := freedTo (port s p) a, replayLeft := left, replaysNoProgress := m, replaySince := since, txByp := byp, txRsp := rsp, txReq := req } := by
  unfold takeAckT
  dsimp only
  split
  next hgone =>
    have hkept : freedTo (port s p) a = (port s p).replay := by
      rw [← freedTo_eq, List.filter_eq_self]
      intro k hk
      rw [List.isEmpty_iff, List.filter_eq_nil_iff] at hgone
      rw [Bool.not_eq_true']
      exact Bool.eq_false_iff.2 (hgone k hk)
    rw [hkept]
    exact ⟨_, _, _, _, _, _, rfl⟩
  next =>
    rw [← freedTo_eq]
    have hports := (Confirmed.foldl confirmSent_confirmed ((port s p).replay.filter (fun k => decide ((a - k.seq).toNat < 2048)))
      (modPort s p (fun x => { x with
        replay := x.replay.filter (fun k => !decide ((a - k.seq).toNat < 2048))
        replayLeft := min x.replayLeft (x.replay.filter (fun k => !decide ((a - k.seq).toNat < 2048))).length
        replaysNoProgress := 0, replaySince := tick s }))).ports p
    rw [port_modPort] at hports
    exact ⟨_, _, _, _, _, _, hports⟩

/-- The copies that ACK_W leaves. -/
def decidedTo (x : Port) (h : BitVec 12) : List WarpCopy :=
  (x.copies.filter (fun c => c.naked || decide (2048 ≤ (h - c.seq).toNat))).map (fun c => if (h - c.seq).toNat < 2048 then { c with decided := true } else c)

theorem takeAckW_eq (s : State) (p : PortId) (h : BitVec 12) : takeAckW s p h = modPort s p (fun x => { x with copies := decidedTo x h }) := by
  have hleft (x : Port) : (x.copies.filter (fun c => c.naked || !decide ((h - c.seq).toNat < 2048))).map
      (fun c => if decide ((h - c.seq).toNat < 2048) then { c with decided := true } else c) = decidedTo x h := by
    unfold decidedTo
    rw [List.filter_congr (fun c _ => by rw [← decide_not, decide_eq_decide.2 Nat.not_lt])]
    refine List.map_congr_left (fun c _ => ?_)
    simp only [decide_eq_true_eq]
  unfold takeAckW
  dsimp only
  simp only [hleft]

/-- An IDLE that shows the expected numbers and reports nothing. -/
theorem idle_taken (h : Arrives s p raw b n 0) (hq : NoReport b) (hi : IdleNext s p b) : ∃ t, exec (.flitRx p raw) s = .next t ∧ lstate t p = 5
    ∧ reg64 t (rPort p.val 0x58) = (reg64 s (rPort p.val 0x58) + n) % 2 ^ 64
    ∧ (port t p).rxHistory = lastN 64 ((port s p).rxHistory ++ [false]) ∧ (port t p).uncertain = [] ∧ (port t p).rxPartial = none
    ∧ (port t p).pickIdles = (port s p).pickIdles + 1 ∧ (port t p).replay = freedTo (port s p) (BitVec.ofNat 12 (ctl b 41 12))
    ∧ (port t p).copies = decidedTo (port s p) (BitVec.ofNat 12 (ctl b 27 12)) := by
  have hhold : ctl b 55 1 = 0 := hq.1
  have hnak : ctl b 53 1 = 0 := hq.2.1
  obtain ⟨hmark, hrack⟩ := ctl_two hq.2.2.1
  have hcredit : ctl b 9 2 = 3 := hq.2.2.2
  have hl := lstate_flitIn h.1 n
  have hin := port_flitIn s p n
  have hcount := reg64_flitIn s p n
  have hnext := idleNext_flitIn hi n
  have hexec := exec_flitRx_packet h (by decide)
  generalize flitIn s p n = u at hl hin hcount hnext hexec
  obtain ⟨left, m, since, byp, rsp, req, hport⟩ := port_takeAckT u p (BitVec.ofNat 12 (ctl b 41 12))
  have hkeep := takeAckT_keeping u p (BitVec.ofNat 12 (ctl b 41 12))
  rw [packetControl_eq, holdTaken_none hhold, twineTaken_ack hnak, warpTaken_ack hmark hrack, hcredit, takeCredit_none, takeAckW_eq] at hexec
  generalize takeAckT u p (BitVec.ofNat 12 (ctl b 41 12)) = v at hport hkeep hexec
  have hlv : lstate v p = 5 := (hkeep.lstate p).trans hl
  have hafter := afterControl_idle (s := modPort v p (fun x => { x with copies := decidedTo x (BitVec.ofNat 12 (ctl b 27 12)) })) hlv h.2.2.2
    (idleNext_congr hnext (by rw [port_modPort, hport]) (by rw [port_modPort, hport]))
  rw [hafter, modPort_modPort] at hexec
  refine ⟨_, hexec, hlv, (reg64_modPort ..).trans ((hkeep.corrected p).trans hcount), ?_⟩
  rw [port_modPort, hport, hin]
  exact ⟨rfl, rfl, rfl, rfl, rfl, rfl⟩

/-! ## A copy that is gone -/

theorem nakW_gone (h : Arrives s p raw b n 0) (hhold : ctl b 55 1 = 0) (hnak : ctl b 53 1 = 0) (hmark : ctl b 39 1 = 1) (hcredit : ctl b 9 2 = 3)
    (ha : ∀ k ∈ (port s p).replay, 2048 ≤ (BitVec.ofNat 12 (ctl b 41 12) - k.seq).toNat)
    (hc : (port s p).copies.find? (fun c => c.seq = BitVec.ofNat 12 (ctl b 27 12)) = none) :
    ∃ t, exec (.flitRx p raw) s = .next t ∧ lstate t p = 7 ∧ flag t (rErrLink p.val) 7 = true ∧ MemSame s t := by
  have hcopies : (port (flitIn s p n) p).copies = (port s p).copies := by rw [port_flitIn]
  have hreplay : (port (flitIn s p n) p).replay = (port s p).replay := by rw [port_flitIn]
  have hcontrol : packetControl (flitIn s p n) p (numAt b 256 8) = declareDown (flitIn s p n) p (some 7) := by
    rw [packetControl_warp hhold hnak hcredit (hreplay ▸ ha), warpTaken_nak hmark, takeNakW_gone (hcopies ▸ hc)]
  obtain ⟨hl, hf, hm⟩ := declareDown_down (flitIn s p n) p (b := 7) (by decide)
  have hmem : MemSame s (flitIn s p n) := fun a => memByte_congr rfl a
  refine ⟨_, exec_flitRx_packet h (by decide), ?_⟩
  rw [hcontrol, afterControl_left (by omega)]
  exact ⟨hl, hf, fun a => (hm a).trans (hmem a)⟩

/-! ## Holds -/

/-- A hold of a round that has been refused. -/
theorem takeHold_refused {t : Nat} (ha : aligned s = true) (hr : s.stake.refusedRound = some t) :
    takeHold s p t = raiseFault s 0 rErrStake 1 0xFF (field s rHoldStatus 0 24) := by
  unfold takeHold
  rw [ha, if_neg (by decide), if_pos hr]

/-- A hold of the present round, before its commit point. -/
theorem takeHold_present {t : Nat} (ha : aligned s = true) (hr : s.stake.refusedRound ≠ some t) (ht : t = holdTag s) (hc : s.stake.committed = false) :
    takeHold s p t = if s.stake.held then s else add64 { s with stake := { s.stake with held := true } } (rPort p 0x90) 1 := by
  unfold takeHold
  rw [ha, if_neg (by decide), if_neg hr, if_pos ⟨ht, by rw [hc]; rfl⟩]

theorem takeHold_other {t : Nat} (h : aligned s = false ∨ (s.stake.refusedRound ≠ some t ∧ (t ≠ holdTag s ∨ s.stake.committed = true))) :
    takeHold s p t = s := by
  unfold takeHold
  rcases h with ha | ⟨hr, hother⟩
  · rw [ha, if_pos (by decide)]
  · cases ha : aligned s with
    | false => rw [if_pos (by decide)]
    | true =>
      rw [if_neg (by decide), if_neg hr, if_neg]
      rintro ⟨ht, hc⟩
      rcases hother with h | h
      · exact h ht
      · rw [h] at hc
        exact absurd hc (by decide)

/-- A hold changes no port but for the NOTICEs of a fault. -/
theorem port_takeHold (s : State) (p q : PortId) (t : Nat) : port (takeHold s p t) q = { port s q with txNotices := (port (takeHold s p t) q).txNotices } := by
  unfold takeHold
  split
  · rfl
  · split
    · exact (raiseFault_faulting (l := rErrStake :: capRegs 0) s 0 rErrStake 1 0xFF _ List.mem_cons_self (List.subset_cons_self ..)).ports q
    · split
      · split <;> rfl
      · rfl

/-- An IDLE that asks for a hold acts as the hold does, and else only on its port. -/
theorem hold_taken (h : Arrives s p raw b n 0) (hi : IdleNext s p b) (hhold : ctl b 55 1 = 1) (hnak : ctl b 53 1 = 0) (hmark : ctl b 39 2 = 0)
    (hcredit : ctl b 9 2 = 3) (ha : NoAck s p b 0) :
    ∃ f : Port → Port, exec (.flitRx p raw) s = .next (modPort (takeHold (flitIn s p n) p (ctl b 56 8)) p f) := by
  have hexec := exec_flitRx_packet h (by decide)
  have hack := noAck_flitIn ha n
  have hnext := idleNext_flitIn hi n
  generalize flitIn s p n = u at hexec hack hnext ⊢
  have hport := port_takeHold u p p (ctl b 56 8)
  have htaken : holdTaken u p b = takeHold u p (ctl b 56 8) := if_pos hhold
  generalize takeHold u p (ctl b 56 8) = v at hport htaken ⊢
  have hackv : NoAck v p b 0 := by
    unfold NoAck
    rw [hport]
    exact hack
  rw [packetControl_acked htaken hnak hmark hackv, hcredit, takeCredit_none] at hexec
  obtain ⟨f, hf, -⟩ := afterControl_idle_ports h.2.2.2 (idleNext_congr hnext (by rw [hport]) (by rw [hport]))
  exact ⟨f, hf ▸ hexec⟩

theorem aligned_flitIn (s : State) (p : PortId) (n : Nat) : aligned (flitIn s p n) = aligned s :=
  congrArg (fun x => getB x 31) (reg_flitIn s p n (by unfold rPort rAlign; omega) (by unfold rPort rAlign; omega))

theorem holdTag_flitIn (s : State) (p : PortId) (n : Nat) : holdTag (flitIn s p n) = holdTag s := by
  have hstake : stakeNo (flitIn s p n) = stakeNo s := reg64_setReg64_ne s _ (by unfold rPort rStake; omega)
  unfold holdTag
  rw [hstake]
  rfl

theorem faulted_refused (s : State) (a : Nat) : flag (raiseFault s 0 rErrStake 1 0xFF a) rErrStake 1 = true
    ∧ flag (raiseFault s 0 rErrStake 1 0xFF a) rFaultState 31 = true :=
  ⟨flag_raiseFault s 0 rErrStake 1 0xFF a (by decide) (by decide) (by decide) (by decide) (by unfold FaultWritten; decide), faulted_raiseFault ..⟩

theorem hold_acts (h : Arrives s p raw b n 0) (hi : IdleNext s p b) (hhold : ctl b 55 1 = 1) (hnak : ctl b 53 1 = 0) (hmark : ctl b 39 2 = 0)
    (hcredit : ctl b 9 2 = 3) (hack : NoAck s p b 0) : ∃ t, exec (.flitRx p raw) s = .next t
      ∧ (aligned s = true → s.stake.refusedRound ≠ some (ctl b 56 8) → ctl b 56 8 = holdTag s → s.stake.committed = false → t.stake.held = true
          ∧ (s.stake.held = false → reg64 t (rPort p.val 0x90) = (reg64 s (rPort p.val 0x90) + 1) % 2 ^ 64))
      ∧ (aligned s = true → s.stake.refusedRound = some (ctl b 56 8) → flag t rErrStake 1 = true ∧ flag t rFaultState 31 = true)
      ∧ (aligned s = false ∨ (s.stake.refusedRound ≠ some (ctl b 56 8) ∧ (ctl b 56 8 ≠ holdTag s ∨ s.stake.committed = true)) →
          t.stake = s.stake ∧ MemSame s t) := by
  obtain ⟨f, hf⟩ := hold_taken h hi hhold hnak hmark hcredit hack
  have hal := aligned_flitIn s p n
  have htag := holdTag_flitIn s p n
  have hstake : (flitIn s p n).stake = s.stake := rfl
  have hmem : (flitIn s p n).mem = s.mem := rfl
  have hcount := reg64_flitIn_ne s p n (o := 0x90) (by decide)
  generalize flitIn s p n = u at hf hal htag hstake hmem hcount
  refine ⟨_, hf, fun ha hr ht hc => ?_, fun ha hr => ?_, fun hother => ?_⟩
  · rw [takeHold_present (hal.trans ha) (by rw [hstake]; exact hr) (by rw [htag]; exact ht) (by rw [hstake]; exact hc), hstake]
    cases hheld : s.stake.held with
    | true => exact ⟨(congrArg StakeState.held hstake).trans hheld, fun hn => absurd hn (by decide)⟩
    | false =>
      refine ⟨rfl, fun _ => ?_⟩
      rw [reg64_modPort, if_neg (by decide), reg64_add64, ← hcount]
      rfl
  · rw [takeHold_refused (hal.trans ha) (by rw [hstake]; exact hr)]
    exact faulted_refused u _
  · rw [takeHold_other (by rw [hal, hstake, htag]; exact hother)]
    exact ⟨hstake, fun a => memByte_congr hmem a⟩

/-! ## Flits that cannot be used -/

theorem exec_badFlit (hr : receives s p = true) (hc : flitCorrect raw = none) : exec (.flitRx p raw) s = .next (badFlit s p) := by
  show execFlitRx p raw s = _
  unfold execFlitRx
  rw [hr, hc]
  rfl

theorem exec_flitRx_deaf (h : receives s p = false) (raw : List Byte) : exec (.flitRx p raw) s = .next s := by
  show execFlitRx p raw s = _
  unfold execFlitRx
  rw [h]
  rfl

theorem add64_regsBut (s : State) (o n : Nat) : RegsBut [o, o + 4] s (add64 s o n) := fun _ _ hx =>
  reg_setReg64_ne s _ (fun e => hx (e ▸ List.mem_cons_self)) (fun e => hx (e ▸ List.mem_cons_of_mem _ List.mem_cons_self))

theorem badFlit_outside (h : lstate s p ≠ 5) : badFlit s p = modPort (add64 s (rPort p 0x60) 1) p (fun x => { x with nakF := true, hunt := true }) := by
  unfold badFlit
  dsimp only
  rw [if_neg h]

theorem uncorrectable_asks (hr : receives s p = true) (h : lstate s p ≠ 5) (hc : flitCorrect raw = none) :
    ∃ t, exec (.flitRx p raw) s = .next t ∧ reg64 t (rPort p.val 0x60) = (reg64 s (rPort p.val 0x60) + 1) % 2 ^ 64
      ∧ (port t p).nakF = true ∧ (port t p).hunt = true ∧ t = { s with regs := t.regs, ports := t.ports }
      ∧ RegsBut [rPort p.val 0x60, rPort p.val 0x64] s t := by
  refine ⟨_, exec_badFlit hr hc, ?_⟩
  rw [badFlit_outside h, port_modPort]
  exact ⟨reg64_add64 s _ 1, rfl, rfl, (add64_ported s _ 1).modPort p _, add64_regsBut s (rPort p 0x60) 1⟩

/-- The port's record after a flit of PACKET that cannot be corrected. -/
def spoiled (x : Port) : Port := { x with
  rxHistory := lastN 64 (x.rxHistory ++ [true]), rxPartial := x.rxPartial.map (fun t => { t with spoiled := true }) }

theorem badFlit_packet (h : lstate s p = 5) : badFlit s p =
    if 8 ≤ ((lastN 64 ((port s p).rxHistory ++ [true])).filter (fun b => b)).length
    then enterRecover (modPort (add64 s (rPort p 0x60) 1) p spoiled) p false else modPort (add64 s (rPort p 0x60) 1) p spoiled := by
  have hport : port (modPort (add64 s (rPort p 0x60) 1) p spoiled) p = spoiled (port s p) := port_modPort ..
  unfold badFlit
  dsimp only
  rw [if_pos h]
  exact congrArg (fun x : Port => if 8 ≤ (x.rxHistory.filter (fun b => b)).length
    then enterRecover (modPort (add64 s (rPort p 0x60) 1) p spoiled) p false else modPort (add64 s (rPort p 0x60) 1) p spoiled) hport

theorem uncorrectable_spoils (h : lstate s p = 5) (hc : flitCorrect raw = none)
    (h8 : ((lastN 64 ((port s p).rxHistory ++ [true])).filter (fun b => b)).length < 8) :
    ∃ t, exec (.flitRx p raw) s = .next t ∧ reg64 t (rPort p.val 0x60) = (reg64 s (rPort p.val 0x60) + 1) % 2 ^ 64
      ∧ (port t p).rxHistory = lastN 64 ((port s p).rxHistory ++ [true]) ∧ lstate t p = 5
      ∧ (∀ x, (port t p).rxPartial = some x → x.spoiled = true) ∧ RegsBut [rPort p.val 0x60, rPort p.val 0x64] s t := by
  have hport : port (modPort (add64 s (rPort p 0x60) 1) p spoiled) p = spoiled (port s p) := port_modPort ..
  refine ⟨_, exec_badFlit (receives_packet h) hc, ?_⟩
  rw [badFlit_packet h, if_neg (by omega), hport]
  refine ⟨reg64_add64 s _ 1, rfl, (lstate_add64 s p 1 (by decide)).trans h, fun x hx => ?_, add64_regsBut s (rPort p 0x60) 1⟩
  obtain ⟨y, -, rfl⟩ := Option.map_eq_some_iff.1 (hx : (port s p).rxPartial.map _ = some x)
  rfl

theorem uncorrectable_recovers (h : lstate s p = 5) (hc : flitCorrect raw = none)
    (h8 : 8 ≤ ((lastN 64 ((port s p).rxHistory ++ [true])).filter (fun b => b)).length) :
    ∃ t, exec (.flitRx p raw) s = .next t ∧ (lstate t p = 6 ∨ lstate t p = 7) := by
  refine ⟨_, exec_badFlit (receives_packet h) hc, ?_⟩
  rw [badFlit_packet h, if_pos h8]
  exact enterRecover_leaves (s := modPort (add64 s (rPort p 0x60) 1) p spoiled) ((lstate_add64 s p 1 (by decide)).trans h) false

theorem reg64_add64_ne (s : State) {o o' : Nat} (n : Nat) (h : o' + 4 < o ∨ o + 4 < o') : reg64 (add64 s o n) o' = reg64 s o' :=
  reg64_setReg64_ne s _ h

/-- A corrected flit of flit mode with a wrong CRC-16. -/
theorem wrongCrc_asks (hr : receives s p = true) (h : lstate s p ≠ 5) (hc : flitCorrect raw = some (b, n)) (hm : numAt b 256 8 / 2 ^ 54 % 2 = 1)
    (hcrc : numAt b 254 2 ≠ flitCrc16 (b.take 254 ++ sliceB b 256 8)) :
    ∃ t, exec (.flitRx p raw) s = .next t ∧ reg64 t (rPort p.val 0x58) = (reg64 s (rPort p.val 0x58) + n) % 2 ^ 64
      ∧ reg64 t (rPort p.val 0x68) = (reg64 s (rPort p.val 0x68) + 1) % 2 ^ 64 ∧ (port t p).nakF = true ∧ (port t p).hunt = true
      ∧ t = { s with regs := t.regs, ports := t.ports } := by
  have hl : lstate (add64 (add64 s (rPort p 0x58) n) (rPort p 0x68) 1) p ≠ 5 := by
    rw [lstate_add64 _ p 1 (by decide), lstate_add64 s p n (by decide)]
    exact h
  have hmode : flitModeFlit (add64 s (rPort p 0x58) n) p b
      = modPort (add64 (add64 s (rPort p 0x58) n) (rPort p 0x68) 1) p (fun x => { x with nakF := true, hunt := true }) := by
    unfold flitModeFlit
    dsimp only
    rw [if_pos hcrc, if_neg hl]
  have hcorrected : reg64 (add64 (add64 s (rPort p 0x58) n) (rPort p 0x68) 1) (rPort p.val 0x58) = (reg64 s (rPort p.val 0x58) + n) % 2 ^ 64 := by
    rw [reg64_add64_ne _ 1 (by unfold rPort; omega), reg64_add64]
  have hcounted : reg64 (add64 (add64 s (rPort p 0x58) n) (rPort p 0x68) 1) (rPort p.val 0x68) = (reg64 s (rPort p.val 0x68) + 1) % 2 ^ 64 := by
    rw [reg64_add64, reg64_add64_ne s n (by unfold rPort; omega)]
  refine ⟨_, exec_flitRx hr hc, ?_⟩
  rw [if_pos ((ctl_mode b).trans hm), hmode, port_modPort, reg64_modPort, reg64_modPort, hcorrected, hcounted]
  exact ⟨rfl, rfl, rfl, rfl, ((add64_ported s _ n).trans (add64_ported _ _ 1)).modPort p _⟩

end

end Sys2Proof.Machine
end

section
/-! Flits of flit mode: their control field, the IDLE, the TRAIN flits, and the recovery that one of them starts in PACKET (R238, R240, R264 to R267). -/

namespace Sys2Proof.Machine

open Sys2Proof.Claims (ctl ArrivesF)

section
variable {s : State} {p : PortId} {raw b : List Byte} {n type : Nat}

/-! ## Where the flit goes -/

theorem inFlitMode_congr {t : State} (hl : lstate t p = lstate s p) (hp : (port t p).train.step = (port s p).train.step) :
    inFlitMode t p = inFlitMode s p := by
  unfold inFlitMode
  rw [hl, hp]

theorem inFlitMode_corrected (s : State) (p : PortId) (n : Nat) : inFlitMode (add64 s (rPort p 0x58) n) p = inFlitMode s p :=
  inFlitMode_congr (lstate_add64 s p n (by decide)) rfl

theorem inFlitMode_lstate (h : inFlitMode s p = true) : lstate s p ≠ 5 := by
  intro hl
  unfold inFlitMode at h
  rw [hl] at h
  simp at h

theorem receives_flitMode (h : inFlitMode s p = true) : receives s p = true := by
  unfold receives
  rw [h, Bool.true_or]

/-- What an intact flit of flit mode does once its control field has acted. -/
def afterControlF (s : State) (p : PortId) (b : List Byte) : State :=
  if ctl b 5 3 = 0 then idleF s p b else if ctl b 5 3 = 6 then s else countedFlit s p (ctl b 5 3) b

theorem flitModeFlit_intact (h : inFlitMode (if lstate s p = 5 then enterRecover s p true else s) p = true)
    (hcrc : numAt b 254 2 = flitCrc16 (b.take 254 ++ sliceB b 256 8)) (ht : ctl b 5 3 ∈ [0, 4, 5, 6]) : flitModeFlit s p b
      = afterControlF (flitControl (if lstate s p = 5 then enterRecover s p true else s) p (numAt b 256 8)) p b := by
  have htype : ¬ (numAt b 256 8 / 32 % 8 ≠ 0 ∧ numAt b 256 8 / 32 % 8 ≠ 4 ∧ numAt b 256 8 / 32 % 8 ≠ 5 ∧ numAt b 256 8 / 32 % 8 ≠ 6) := by
    rw [ctl_type] at ht
    simp only [List.mem_cons, List.not_mem_nil, or_false] at ht
    omega
  unfold flitModeFlit
  dsimp only
  rw [if_neg (fun hne => hne hcrc), if_neg htype, if_neg (by rw [h]; exact Bool.false_ne_true)]
  rfl

theorem exec_flitRx_flitMode (h : inFlitMode s p = true) (hc : flitCorrect raw = some (b, n)) (hm : ctl b 54 1 = 1)
    (hcrc : numAt b 254 2 = flitCrc16 (b.take 254 ++ sliceB b 256 8)) (ht : ctl b 5 3 ∈ [0, 4, 5, 6]) :
    exec (.flitRx p raw) s = .next (afterControlF (flitControl (add64 s (rPort p 0x58) n) p (numAt b 256 8)) p b) := by
  have hin := (inFlitMode_corrected s p n).trans h
  rw [exec_flitRx (receives_flitMode h) hc, if_pos hm]
  generalize add64 s (rPort p 0x58) n = u at hin ⊢
  have hstays : (if lstate u p = 5 then enterRecover u p true else u) = u := if_neg (inFlitMode_lstate hin)
  rw [flitModeFlit_intact (by rw [hstays]; exact hin) hcrc ht, hstays]

/-! ## The control field -/

theorem finishExchange_early (h : (port s p).train.step < 5) : finishExchange s p = s := by
  unfold finishExchange
  dsimp only
  split
  · rfl
  · exact if_pos (Or.inl h)

/-- The counted flits that are left once those up to count `a` are acknowledged. -/
def unackedF (x : Port) (a : BitVec 12) : List (BitVec 3 × List Byte) :=
  let m := (a + 1 - (x.txCount - BitVec.ofNat 12 x.flitReplay.length)).toNat
  if m ≤ x.flitReplay.length then x.flitReplay.drop m else x.flitReplay

theorem next_sub (a o : BitVec 12) : a - o + 1 = a + 1 - o := sub_add_eq_add_sub a o 1

/-- An acknowledgement of counted flits before READY leaves the port but for those flits, and twine packets queued. -/
theorem takeAckF_early (h : (port s p).train.step < 5) (a : BitVec 12) : Keeping s (takeAckF s p a) ∧ ∃ byp rsp req,
    port (takeAckF s p a) p = { port s p with flitReplay := unackedF (port s p) a, txByp := byp, txRsp := rsp, txReq := req } := by
  unfold takeAckF unackedF
  dsimp only
  rw [next_sub]
  generalize (a + 1 - ((port s p).txCount - BitVec.ofNat 12 (port s p).flitReplay.length)).toNat = m
  split
  next =>
    have hsent := Confirmed.foldl (fun t (e : BitVec 3 × List Byte) => confirmSent_confirmed t (packetOf (numAt e.2 0 16) []))
      (((port s p).flitReplay.take m).filter (fun e => e.1 = 4)) (modPort s p (fun y => { y with flitReplay := y.flitReplay.drop m }))
    have hport := hsent.ports p
    rw [port_modPort] at hport
    unfold forEach
    rw [finishExchange_early (by rw [hport]; exact h)]
    exact ⟨(modPort_keeping s p _).trans hsent.toKeeping, _, _, _, hport⟩
  next => exact ⟨Keeping.refl s, _, _, _, rfl⟩

/-- Where nothing is unacknowledged, the acknowledgement of the last counted flit changes nothing. -/
theorem takeAckF_last (h : (port s p).train.step < 5) (hr : (port s p).flitReplay = []) {a : BitVec 12} (ha : a + 1 = (port s p).txCount) :
    takeAckF s p a = s := by
  have hzero : (a - ((port s p).txCount - BitVec.ofNat 12 (port s p).flitReplay.length) + 1).toNat = 0 := by
    rw [next_sub, ha, hr]
    show ((port s p).txCount - ((port s p).txCount - 0#12)).toNat = 0
    rw [BitVec.sub_zero, BitVec.sub_self]
    rfl
  have hdrop : modPort s p (fun y => { y with flitReplay := y.flitReplay.drop 0 }) = s := modPort_self rfl
  unfold takeAckF
  dsimp only
  rw [hzero, if_pos (Nat.zero_le _), hdrop]
  exact finishExchange_early h

/-- The parts of a flit-mode control field. -/
def ackTakenF (s : State) (p : PortId) (b : List Byte) : State :=
  if ctl b 53 1 = 1 then modPort (takeAckF s p (BitVec.ofNat 12 (ctl b 41 12) - 1)) p (fun x => { x with sendIdleF := true, flitResend := x.flitReplay })
  else takeAckF s p (BitVec.ofNat 12 (ctl b 41 12))

theorem flitControl_eq (s : State) (p : PortId) (b : List Byte) : flitControl s p (numAt b 256 8)
    = takeCredit (ackTakenF s p b) p (ctl b 9 2) (ctl b 11 16) := rfl

theorem flitControl_quiet (h : (port s p).train.step < 5) (hr : (port s p).flitReplay = []) (hn : ctl b 53 1 = 0)
    (ha : BitVec.ofNat 12 (ctl b 41 12) + 1 = (port s p).txCount) (hcredit : ctl b 9 2 = 3) : flitControl s p (numAt b 256 8) = s := by
  have hack : ackTakenF s p b = s := (if_neg (by omega)).trans (takeAckF_last h hr ha)
  rw [flitControl_eq, hack, hcredit, takeCredit_none]

/-- The count up to which a control field acknowledges: one less where it asks for the flits again. -/
def ackF (b : List Byte) : BitVec 12 := BitVec.ofNat 12 (ctl b 41 12) - BitVec.ofNat 12 (ctl b 53 1)

theorem ackTakenF_eq (s : State) (p : PortId) (b : List Byte) : ackTakenF s p b
    = if ctl b 53 1 = 1 then modPort (takeAckF s p (ackF b)) p (fun x => { x with sendIdleF := true, flitResend := x.flitReplay })
      else takeAckF s p (ackF b) := by
  unfold ackTakenF ackF
  split
  next h =>
    rw [h]
    rfl
  next h =>
    have hzero : ctl b 53 1 = 0 := by
      have : ctl b 53 1 < 2 := Nat.mod_lt _ (by decide)
      omega
    rw [hzero]
    exact congrArg (takeAckF s p) (BitVec.sub_zero _).symm

/-- What a flit-mode control field leaves of the port's record before READY. -/
theorem ackTakenF_early (h : (port s p).train.step < 5) (b : List Byte) : Keeping s (ackTakenF s p b) ∧ ∃ resend idle byp rsp req,
    port (ackTakenF s p b) p = { port s p with flitReplay := unackedF (port s p) (ackF b), flitResend := resend, sendIdleF := idle
                                               txByp := byp, txRsp := rsp, txReq := req }
      ∧ (ctl b 53 1 = 1 → resend = unackedF (port s p) (ackF b) ∧ idle = true) := by
  obtain ⟨hkeep, byp, rsp, req, hport⟩ := takeAckF_early h (ackF b)
  rw [ackTakenF_eq]
  split
  next =>
    refine ⟨hkeep.trans (modPort_keeping _ p _), unackedF (port s p) (ackF b), true, byp, rsp, req, ?_, fun _ => ⟨rfl, rfl⟩⟩
    rw [port_modPort, hport]
  next hn => exact ⟨hkeep, _, _, byp, rsp, req, hport, fun hn' => absurd hn' hn⟩

/-! ## The IDLE -/

theorem idleF_port (s : State) (p : PortId) (b : List Byte) : ∃ f : Port → Port, idleF s p b = modPort s p f
    ∧ (∀ x, (f x).flitReplay = x.flitReplay ∧ (f x).flitResend = x.flitResend ∧ (f x).sendIdleF = x.sendIdleF)
    ∧ (BitVec.ofNat 12 (numAt b 0 2) = (port s p).rxCount → (f (port s p)).hunt = false ∧ (f (port s p)).nakF = (port s p).nakF)
    ∧ (BitVec.ofNat 12 (numAt b 0 2) ≠ (port s p).rxCount →
        (f (port s p)).hunt = true ∧ (f (port s p)).nakF = ((port s p).nakF || !(port s p).hunt)) := by
  unfold idleF
  dsimp only
  split
  next h => exact ⟨_, rfl, fun _ => ⟨rfl, rfl, rfl⟩, fun _ => ⟨rfl, rfl⟩, fun hn => absurd h hn⟩
  next h =>
    cases hh : (port s p).hunt with
    | true =>
      refine ⟨id, (modPort_self rfl).symm, fun _ => ⟨rfl, rfl, rfl⟩, fun hn => absurd hn h, fun _ => ⟨hh, ?_⟩⟩
      rw [Bool.not_true, Bool.or_false]
      rfl
    | false =>
      refine ⟨_, rfl, fun _ => ⟨rfl, rfl, rfl⟩, fun hn => absurd hn h, fun _ => ⟨rfl, ?_⟩⟩
      rw [Bool.not_false, Bool.or_true]

/-- A flit of flit mode that asks for nothing goes to its row at once. -/
theorem exec_flitRx_quietF (h : ArrivesF s p raw b n type) (ht : type ∈ [0, 4, 5, 6]) (hn : ctl b 53 1 = 0)
    (ha : BitVec.ofNat 12 (ctl b 41 12) + 1 = (port s p).txCount) : exec (.flitRx p raw) s = .next (afterControlF (add64 s (rPort p 0x58) n) p b) := by
  obtain ⟨hin, hc, hm, htype, hcrc, hcredit, hreplay, hstep⟩ := h
  rw [exec_flitRx_flitMode hin hc hm hcrc (htype ▸ ht), flitControl_quiet (s := add64 s (rPort p 0x58) n) hstep hreplay hn ha hcredit]

theorem idleF_taken (h : ArrivesF s p raw b n 0) (hn : ctl b 53 1 = 0) (ha : BitVec.ofNat 12 (ctl b 41 12) + 1 = (port s p).txCount) :
    ∃ t, exec (.flitRx p raw) s = .next t
      ∧ (BitVec.ofNat 12 (numAt b 0 2) = (port s p).rxCount → (port t p).hunt = false ∧ (port t p).nakF = (port s p).nakF)
      ∧ (BitVec.ofNat 12 (numAt b 0 2) ≠ (port s p).rxCount → (port t p).hunt = true ∧ (port t p).nakF = ((port s p).nakF || !(port s p).hunt))
      ∧ t = { s with regs := t.regs, ports := t.ports } := by
  have htype : ctl b 5 3 = 0 := h.2.2.2.1
  have hport : port (add64 s (rPort p 0x58) n) p = port s p := port_add64 ..
  have hframe := add64_ported s (rPort p 0x58) n
  have hexec := exec_flitRx_quietF h (by decide) hn ha
  generalize add64 s (rPort p 0x58) n = u at hport hframe hexec
  obtain ⟨f, hf, -, hfound, hlost⟩ := idleF_port u p b
  have hafter : afterControlF u p b = modPort u p f := (if_pos htype).trans hf
  rw [hport] at hfound hlost
  refine ⟨_, hafter ▸ hexec, ?_⟩
  rw [port_modPort, hport]
  exact ⟨hfound, hlost, hframe.modPort p f⟩

theorem ackF_taken (hin : inFlitMode s p = true) (hc : flitCorrect raw = some (b, n)) (hm : ctl b 54 1 = 1) (ht : ctl b 5 3 = 0)
    (hcrc : numAt b 254 2 = flitCrc16 (b.take 254 ++ sliceB b 256 8)) (hcredit : ctl b 9 2 = 3) (hstep : (port s p).train.step < 5) :
    ∃ t, exec (.flitRx p raw) s = .next t ∧ (port t p).flitReplay = unackedF (port s p) (ackF b)
      ∧ (ctl b 53 1 = 1 → (port t p).flitResend = (port t p).flitReplay ∧ (port t p).sendIdleF = true) := by
  have hport : port (add64 s (rPort p 0x58) n) p = port s p := port_add64 ..
  have hexec := exec_flitRx_flitMode hin hc hm hcrc (ht ▸ List.mem_cons_self)
  generalize add64 s (rPort p 0x58) n = u at hport hexec
  obtain ⟨-, resend, idle, byp, rsp, req, hack, hnak⟩ := ackTakenF_early (s := u) (by rw [hport]; exact hstep) b
  rw [flitControl_eq, hcredit, takeCredit_none] at hexec
  generalize ackTakenF u p b = v at hack hexec
  obtain ⟨f, hf, hsame, -, -⟩ := idleF_port v p b
  obtain ⟨hreplay, hresend, hidle⟩ := hsame (port v p)
  have hafter : afterControlF v p b = modPort v p f := (if_pos ht).trans hf
  refine ⟨_, hafter ▸ hexec, ?_⟩
  rw [port_modPort, hreplay, hresend, hidle, hack, ← hport]
  exact ⟨rfl, hnak⟩

/-! ## The counted flits -/

theorem afterControlF_counted (h0 : ctl b 5 3 ≠ 0) (h6 : ctl b 5 3 ≠ 6) : afterControlF s p b = countedFlit s p (ctl b 5 3) b := by
  unfold afterControlF
  rw [if_neg h0, if_neg h6]

theorem countedFlit_hunting (h : (port s p).hunt = true) (type : Nat) (b : List Byte) : countedFlit s p type b = s := if_pos h

theorem countedFlit_train (h : (port s p).hunt = false) (b : List Byte) :
    countedFlit s p 5 b = takeTrain (modPort s p (fun x => { x with rxCount := x.rxCount + 1 })) p b := by
  unfold countedFlit
  rw [h, if_neg Bool.false_ne_true]
  rfl

theorem hunting_ignores (h : ArrivesF s p raw b n type) (ht : type = 5 ∨ type = 4) (hn : ctl b 53 1 = 0)
    (ha : BitVec.ofNat 12 (ctl b 41 12) + 1 = (port s p).txCount) (hh : (port s p).hunt = true) :
    exec (.flitRx p raw) s = .next (add64 s (rPort p 0x58) n) := by
  have htype : ctl b 5 3 = type := h.2.2.2.1
  have hmem : type ∈ [0, 4, 5, 6] := by rcases ht with rfl | rfl <;> decide
  rw [exec_flitRx_quietF h hmem hn ha, afterControlF_counted (by omega) (by omega), countedFlit_hunting (s := add64 s (rPort p 0x58) n) hh]

/-- A TRAIN payload acts by its KIND's row on a port in flit mode. -/
theorem takeTrain_row (h : inFlitMode s p = true) (hk : numAt b 0 1 < 5) :
    exec (if numAt b 0 1 = 0 then .announce p b else if numAt b 0 1 = 1 then .delayReq p b else if numAt b 0 1 = 2 then .delayRsp p b
      else if numAt b 0 1 = 3 then .ready p b else .recover p b) s = .next (takeTrain s p b) := by
  unfold takeTrain
  dsimp only
  split
  · exact congrArg Host.Outcome.next (if_pos h)
  · split
    · exact congrArg Host.Outcome.next (if_pos h)
    · split
      · exact congrArg Host.Outcome.next (if_pos h)
      · split
        · exact congrArg Host.Outcome.next (if_pos h)
        · have hfour : numAt b 0 1 = 4 := by omega
          have hstays : enterRecover s p true = s := if_pos (inFlitMode_lstate h)
          rw [if_pos hfour]
          show execRecover p b s = _
          unfold execRecover
          rw [if_pos hfour, hstays]

theorem train_taken (h : ArrivesF s p raw b n 5) (hn : ctl b 53 1 = 0) (ha : BitVec.ofNat 12 (ctl b 41 12) + 1 = (port s p).txCount)
    (hh : (port s p).hunt = false) (hk : numAt b 0 1 < 5) : ∃ t, exec (.flitRx p raw) s = .next t
      ∧ exec (if numAt b 0 1 = 0 then .announce p b else if numAt b 0 1 = 1 then .delayReq p b else if numAt b 0 1 = 2 then .delayRsp p b
          else if numAt b 0 1 = 3 then .ready p b else .recover p b)
        (modPort (add64 s (rPort p 0x58) n) p (fun x => { x with rxCount := x.rxCount + 1 })) = .next t := by
  have htype : ctl b 5 3 = 5 := h.2.2.2.1
  have hin : inFlitMode (add64 s (rPort p 0x58) n) p = true := (inFlitMode_corrected s p n).trans h.1
  have hhu : (port (add64 s (rPort p 0x58) n) p).hunt = false := hh
  refine ⟨_, exec_flitRx_quietF h (by decide) hn ha, ?_⟩
  generalize add64 s (rPort p 0x58) n = u at hin hhu ⊢
  rw [afterControlF_counted (by omega) (by omega), htype, countedFlit_train hhu]
  refine takeTrain_row ?_ hk
  exact (inFlitMode_congr (s := u) (t := modPort u p (fun x => { x with rxCount := x.rxCount + 1 })) rfl (by rw [port_modPort])).trans hin

end

end Sys2Proof.Machine
end

section
/-! A flit of flit mode starts a recovery on a port in PACKET (R238, R267), and the statement on FLIT_RX. -/

namespace Sys2Proof.Machine

open Sys2Proof.Claims (ctl)

section
variable {s : State} {p : PortId} {raw b : List Byte} {n : Nat}

/-! ## What leaves a port in RECOVER there -/

theorem takeCredit_lstate (s : State) (p : PortId) (c v : Nat) : lstate (takeCredit s p c v) p = lstate s p ∧ (takeCredit s p c v).ports = s.ports := by
  unfold takeCredit
  dsimp only
  split
  · exact ⟨rfl, rfl⟩
  · split
    · exact ⟨rfl, rfl⟩
    · split
      · exact ⟨lstate_congr (reg_raiseErr_link_ne s p p 2 p 0 0x04),
          (raiseErr_noted (l := rErrLink p :: capRegs 9) s 9 (rErrLink p) 2 p 0 List.mem_cons_self (List.subset_cons_self ..)).same.2⟩
      · exact ⟨lstate_congr (reg_setField_ne s _ _ _ (by unfold rPort; omega)), rfl⟩

theorem lstate_setReg_port (s : State) (p : PortId) {o : Nat} (v : Word) (h : o ≠ 0x04) : lstate (setReg s (rPort p o) v) p = lstate s p :=
  lstate_congr (reg_setReg_ne s v (by unfold rPort; omega))

theorem lstate_setField_port (s : State) (p : PortId) {o : Nat} (lo len v : Nat) (h : o ≠ 0x04) : lstate (setField s (rPort p o) lo len v) p = lstate s p :=
  lstate_setReg_port s p _ h

/-- The field below LSTATE in PRT_STATE. -/
theorem lstate_setField_state (s : State) (p : PortId) (v : Nat) : lstate (setField s (rPort p 0x04) 24 4 v) p = lstate s p :=
  field_setField_ne s (rPort p 0x04) 24 4 v (Or.inr (by decide))

theorem lstate_modTrain (s : State) (p : PortId) (f : TrainState → TrainState) : lstate (modTrain s p f) p = lstate s p := rfl

theorem decidePort_later (h : lstate s p ≠ 2) : decidePort s p = s := by
  unfold decidePort
  dsimp only
  split
  · rfl
  · exact if_neg (fun hd => h hd.1)

theorem takeAnnounce_lstate (h : lstate s p ≠ 2) (b : List Byte) : lstate (takeAnnounce s p b) p = lstate s p := by
  have hstate (t : State) (c : Prop) [Decidable c] (v : Nat) : lstate (if c then setField t (rPort p 0x04) 24 4 v else t) p = lstate t p := by
    split
    · exact lstate_setField_state t p v
    · rfl
  have hnoted (t : State) (f : TrainState → TrainState) (ht : lstate t p = lstate s p) : lstate (decidePort (modTrain t p f) p) p = lstate s p := by
    rw [decidePort_later (by rw [lstate_modTrain, ht]; exact h), lstate_modTrain, ht]
  unfold takeAnnounce
  dsimp only
  refine hnoted _ _ ((hstate _ _ _).trans ?_)
  rw [lstate_setField_port _ p _ _ _ (by decide), lstate_setReg_port _ p _ (by decide), lstate_setReg_port _ p _ (by decide),
    lstate_setReg_port _ p _ (by decide)]

theorem takeDelayRsp_lstate (h : lstate s p ≠ 2) (b : List Byte) : lstate (takeDelayRsp s p b) p = lstate s p := by
  have hmeasured (t : State) (v : Nat) (ht : lstate t p = lstate s p) : lstate (decidePort (setField t (rPort p 0x14) 0 20 v) p) p = lstate s p := by
    have hset := (lstate_setField_port t p 0 20 v (o := 0x14) (by decide)).trans ht
    rw [decidePort_later (by rw [hset]; exact h), hset]
  unfold takeDelayRsp
  dsimp only
  split
  · rfl
  · split
    · exact hmeasured _ _ (lstate_modTrain ..)
    · exact lstate_modTrain ..

theorem takeReady_lstate (h : (port s p).train.step < 5) (b : List Byte) : lstate (takeReady s p b) p = lstate s p := by
  have hnoted (t : State) (ht : (port t p).train.step < 5) (r : Option Byte) :
      lstate (finishExchange (modTrain t p (fun x => { x with peerReady := r })) p) p = lstate t p := by
    rw [finishExchange_early (by unfold modTrain; rw [port_modPort]; exact ht), lstate_modTrain]
  have hshown := lstate_setField_port s p (o := 0x38) 28 4 (numAt b 0x0D 1) (by decide)
  have hport : port (setField s (rPort p 0x38) 28 4 (numAt b 0x0D 1)) p = port s p := port_setReg ..
  unfold takeReady
  dsimp only
  generalize setField s (rPort p 0x38) 28 4 (numAt b 0x0D 1) = t at hshown hport ⊢
  exact (hnoted t (by rw [hport]; exact h) _).trans hshown

theorem takeRecover_lstate (s : State) (p : PortId) : lstate (takeRecover s p) p = lstate s p := by
  unfold takeRecover
  split
  · rfl
  · exact lstate_modTrain ..

/-- A TRAIN flit on a port that recovers and has not sent READY leaves its state. -/
theorem takeTrain_lstate (h : lstate s p = 6) (hs : (port s p).train.step < 5) (b : List Byte) : lstate (takeTrain s p b) p = 6 := by
  unfold takeTrain
  dsimp only
  split
  · exact (takeAnnounce_lstate (by omega) b).trans h
  · split
    · exact (lstate_modTrain ..).trans h
    · split
      · exact (takeDelayRsp_lstate (by omega) b).trans h
      · split
        · exact (takeReady_lstate hs b).trans h
        · split
          · exact (takeRecover_lstate s p).trans h
          · exact h

theorem countedFlit_lstate (h : lstate s p = 6) (hs : (port s p).train.step < 5) (hh : (port s p).hunt = false) (type : Nat) (b : List Byte) :
    lstate (countedFlit s p type b) p = 6 := by
  have hcounted : (port (modPort s p (fun x => { x with rxCount := x.rxCount + 1 })) p).train.step < 5 := by
    rw [port_modPort]
    exact hs
  unfold countedFlit
  rw [hh, if_neg Bool.false_ne_true]
  dsimp only
  split
  · exact takeTrain_lstate (s := modPort s p (fun x => { x with rxCount := x.rxCount + 1 })) h hcounted b
  · rw [lstate_modPort, if_neg (by omega)]
    exact h

theorem afterControlF_lstate (h : lstate s p = 6) (hs : (port s p).train.step < 5) (hh : (port s p).hunt = false) (b : List Byte) :
    lstate (afterControlF s p b) p = 6 := by
  unfold afterControlF
  split
  · obtain ⟨f, hf, -⟩ := idleF_port s p b
    rw [hf]
    exact h
  · split
    · exact h
    · exact countedFlit_lstate h hs hh _ b

/-- A flit of flit mode on a port that has just entered RECOVER. -/
theorem flitControl_lstate (h : lstate s p = 6) (hs : (port s p).train.step < 5) (b : List Byte) :
    lstate (flitControl s p (numAt b 256 8)) p = 6 ∧ (port (flitControl s p (numAt b 256 8)) p).train = (port s p).train
      ∧ (port (flitControl s p (numAt b 256 8)) p).hunt = (port s p).hunt := by
  obtain ⟨hkeep, resend, idle, byp, rsp, req, hport, -⟩ := ackTakenF_early hs b
  obtain ⟨hl, hp⟩ := takeCredit_lstate (ackTakenF s p b) p (ctl b 9 2) (ctl b 11 16)
  rw [flitControl_eq, port_of_ports hp, hport]
  exact ⟨hl.trans ((hkeep.lstate p).trans h), rfl, rfl⟩

theorem flitMode_recovers (h : lstate s p = 5) (hc : flitCorrect raw = some (b, n)) (hm : ctl b 54 1 = 1)
    (hcrc : numAt b 254 2 = flitCrc16 (b.take 254 ++ sliceB b 256 8)) (ht : ctl b 5 3 ∈ [0, 4, 5, 6])
    (h8 : ((port s p).recoverStakes.filter (fun m => decide (stakeNo s < m + 1024))).length < 8) :
    ∃ t, exec (.flitRx p raw) s = .next t ∧ lstate t p = 6 := by
  have hl : lstate (add64 s (rPort p 0x58) n) p = 5 := (lstate_add64 s p n (by decide)).trans h
  have hstake : stakeNo (add64 s (rPort p 0x58) n) = stakeNo s := reg64_add64_ne s n (by unfold rPort rStake; omega)
  have hrecovers := enterRecover_recovers (s := add64 s (rPort p 0x58) n) hl true (by rw [hstake]; exact h8)
  refine ⟨_, exec_flitRx (receives_packet h) hc, ?_⟩
  rw [if_pos hm]
  generalize add64 s (rPort p 0x58) n = u at hl hrecovers ⊢
  obtain ⟨hsix, hport⟩ := hrecovers
  have hstep : (port (enterRecover u p true) p).train.step = 1 := by
    rw [hport]
    rfl
  have hhunt : (port (enterRecover u p true) p).hunt = false := by
    rw [hport]
    rfl
  have henter : (if lstate u p = 5 then enterRecover u p true else u) = enterRecover u p true := if_pos hl
  have hin : inFlitMode (enterRecover u p true) p = true := by
    unfold inFlitMode
    rw [hsix, hstep]
    rfl
  obtain ⟨hsix', htrain, hhunt'⟩ := flitControl_lstate hsix (by omega) b
  rw [flitModeFlit_intact (by rw [henter]; exact hin) hcrc ht, henter]
  exact afterControlF_lstate hsix' (by rw [htrain, hstep]; decide) (hhunt'.trans hhunt) b

end

end Sys2Proof.Machine

open Sys2Proof.Machine in
/-- Settles O30: the control field of a flit is taken apart once (holds, twine and warp numbers, credit), each part with its own rule; where it
reports nothing the flit's type alone acts, and what goes down or recovers is judged by PRT_STATE, which the rest of the answer leaves. -/
theorem receivedFlitsAreChecked : Obligations.ReceivedFlitsAreChecked := by
  unfold Obligations.ReceivedFlitsAreChecked
  refine ⟨fun p raw s hr => exec_flitRx_deaf hr raw, fun p raw s _ hr hl hc => uncorrectable_asks hr hl hc,
    fun p raw s _ hl hc h8 => uncorrectable_spoils hl hc h8, fun p raw s _ hl hc h8 => uncorrectable_recovers hl hc h8,
    fun p raw b n s _ hr hl hc hm hcrc => wrongCrc_asks hr hl hc hm hcrc, fun p raw b n s _ h hq hi => idle_taken h hq hi,
    fun p raw b n k s _ h hq ha hp hk => single_taken h hq ha hp hk, fun p raw b n s _ h hq ha hp hk => single_wrongCrc h hq ha hp hk,
    fun p raw b n s _ h hq ha => start_taken h hq ha, fun p raw b n l s _ h hq ha hp => body_taken h hq ha hp,
    fun p raw b n l k s _ h hq ha hp hk => end_taken h hq ha hp hk,
    fun p raw b n s _ h hi hhold hnak hmark hcredit ha hr h16 => nakT_taken h hi hhold hnak hmark hcredit ha hr h16,
    fun p raw b n s _ h hi hhold hnak hmark hcredit ha => ⟨fun c hc hn hr => nakW_found h hi hhold hnak hmark hcredit ha hc hn hr,
      fun hc => nakW_gone h hhold hnak hmark hcredit ha hc⟩,
    fun p raw b n s _ h hi hhold hnak hmark hrack hcredit hm ha => rack_taken h hi hhold hnak hmark hrack hcredit hm ha,
    fun p raw b n s _ h hi hhold hnak hmark hcredit ha => hold_acts h hi hhold hnak hmark hcredit ha,
    fun p raw b n c s _ h hi hhold hnak hmark hcredit hc ha hh hu => credit_taken h hi hhold hnak hmark hcredit hc ha hh hu,
    fun p raw b n s _ h hn ha => idleF_taken h hn ha, fun p raw b n s _ h hn ha hh hk => train_taken h hn ha hh hk,
    fun p raw b n type s _ h ht hn ha hh => hunting_ignores h ht hn ha hh,
    fun p raw b n s _ hin hc hm ht hcrc hcredit hstep => ackF_taken hin hc hm ht hcrc hcredit hstep,
    fun p raw b n s _ hl hc hm hcrc ht h8 => flitMode_recovers hl hc hm hcrc ht h8⟩
end

section
/-! What is due in a Pod: results of its registers, store ranges with what they hold, and the rows of drains (R72, R160, R162). -/

namespace Sys2Proof.Machine

open Sys2Proof.Claims (PodOnly Stored)

/-! ## One entry of a vector, one Pod -/

theorem vget_vput_ne {α : Type} {n : Nat} (v : Vector α n) {i j : Fin n} (a : α) (h : i ≠ j) : vget (vput v i a) j = vget v j := by
  have hval : i.val ≠ j.val := fun e => h (Fin.ext e)
  simp [vget, vput, hval]

theorem vget_map {α β : Type} {n : Nat} (v : Vector α n) (f : α → β) (i : Fin n) : vget (v.map f) i = f (vget v i) := by
  simp [vget]

theorem vector_ext_vget {α : Type} {n : Nat} {v w : Vector α n} (h : ∀ i, vget v i = vget w i) : v = w :=
  Vector.ext (fun i hi => h ⟨i, hi⟩)

theorem toList_eq_map_vget {α : Type} {n : Nat} (v : Vector α n) : v.toList = (List.finRange n).map (vget v) := by
  apply List.ext_getElem
  · simp
  · intro i h1 h2
    simp [vget]

@[simp] theorem pod_setPod (s : State) (p : PodId) (x : Pod) : pod (setPod s p x) p = x := vget_vput _ _ _

theorem pod_setPod_ne (s : State) {p q : PodId} (x : Pod) (h : q ≠ p) : pod (setPod s p x) q = pod s q := vget_vput_ne _ _ (Ne.symm h)

/-- A change that leaves the Pod as it is leaves the device. -/
theorem modPod_self {s : State} {p : PodId} {f : Pod → Pod} (h : f (pod s p) = pod s p) : modPod s p f = s := by
  have hpods : vmod s.pods p f = s.pods := vector_ext_vget (fun q => by
    by_cases hq : p = q
    · subst hq
      rw [vget_vmod]
      exact h
    · exact vget_vmod_ne _ _ hq)
  unfold modPod
  rw [hpods]

/-! ## Results of registers -/

/-- Register `d` alone of the register files may differ between the two states of a Pod, and nothing else. -/
structure DestOnly (d : Dest) (x y : Pod) : Prop where
  frame : y = { x with s := y.s, v := y.v, m := y.m, md := y.md, sa := y.sa }
  s : ∀ j, d ≠ .s j → vget y.s j = vget x.s j
  v : ∀ j, d ≠ .v j → vget y.v j = vget x.v j
  m : ∀ j, d ≠ .m j → vget y.m j = vget x.m j
  md : ∀ j, d ≠ .md j → vget y.md j = vget x.md j
  sa : ∀ j, d ≠ .sa j → vget y.sa j = vget x.sa j

theorem DestOnly.refl (d : Dest) (x : Pod) : DestOnly d x x := ⟨rfl, fun _ _ => rfl, fun _ _ => rfl, fun _ _ => rfl, fun _ _ => rfl, fun _ _ => rfl⟩

theorem DestOnly.trans {d : Dest} {x y z : Pod} (h : DestOnly d x y) (g : DestOnly d y z) : DestOnly d x z :=
  ⟨by rw [g.frame, h.frame], fun j hj => (g.s j hj).trans (h.s j hj), fun j hj => (g.v j hj).trans (h.v j hj),
    fun j hj => (g.m j hj).trans (h.m j hj), fun j hj => (g.md j hj).trans (h.md j hj), fun j hj => (g.sa j hj).trans (h.sa j hj)⟩

theorem writeDest_s (x : Pod) {i : Fin 32} (hi : i ≠ 0) (v : BitVec 8192) : writeDest x (.s i) v = { x with s := vput x.s i (v.setWidth 64) } := if_neg hi

theorem writeDest_destOnly (x : Pod) (d : Dest) (v : BitVec 8192) : DestOnly d x (writeDest x d v) := by
  cases d with
  | s i =>
    by_cases hi : i = 0
    · rw [writeDest, if_pos hi]
      exact DestOnly.refl _ x
    · rw [writeDest_s x hi]
      exact ⟨rfl, fun j hj => vget_vput_ne _ _ (fun e => hj (e ▸ rfl)), fun _ _ => rfl, fun _ _ => rfl, fun _ _ => rfl, fun _ _ => rfl⟩
  | v i => exact ⟨rfl, fun _ _ => rfl, fun j hj => vget_vput_ne _ _ (fun e => hj (e ▸ rfl)), fun _ _ => rfl, fun _ _ => rfl, fun _ _ => rfl⟩
  | m i =>
    unfold writeDest
    dsimp only
    split
    · exact DestOnly.refl _ x
    · exact ⟨rfl, fun _ _ => rfl, fun _ _ => rfl, fun j hj => vget_vput_ne _ _ (fun e => hj (e ▸ rfl)), fun _ _ => rfl, fun _ _ => rfl⟩
  | md i => exact ⟨rfl, fun _ _ => rfl, fun _ _ => rfl, fun _ _ => rfl, fun j hj => vget_vput_ne _ _ (fun e => hj (e ▸ rfl)), fun _ _ => rfl⟩
  | sa i => exact ⟨rfl, fun _ _ => rfl, fun _ _ => rfl, fun _ _ => rfl, fun _ _ => rfl, fun j hj => vget_vmod_ne _ _ (fun e => hj (e ▸ rfl))⟩

theorem writeDests_destOnly {d : Dest} (l : List PendWrite) (hl : ∀ w ∈ l, w.dest = d) (x : Pod) :
    DestOnly d x (l.foldl (fun y w => writeDest y w.dest w.value) x) := by
  induction l generalizing x with
  | nil => exact DestOnly.refl d x
  | cons w l ih =>
    have hw : w.dest = d := hl w List.mem_cons_self
    exact DestOnly.trans (hw ▸ writeDest_destOnly x w.dest w.value) (ih (fun u hu => hl u (List.mem_cons_of_mem w hu)) (writeDest x w.dest w.value))

/-- The results of `d` that are due. -/
def readyFor (d : Dest) (x : Pod) : List PendWrite := x.pend.filter (fun w => decide (w.dest = d) && decide (w.due ≤ x.core.cycle))

/-- The Pod without its due results of `d`. -/
def withoutReady (d : Dest) (x : Pod) : Pod := { x with pend := x.pend.filter (fun w => !(decide (w.dest = d) && decide (w.due ≤ x.core.cycle))) }

/-- A register takes the last of its due results: what it reads, and the rest of the Pod. -/
theorem settlePend_last {d : Dest} {x : Pod} {l : List PendWrite} {w : PendWrite} (h : readyFor d x = l ++ [w]) :
    ∃ y, settlePend (fun w => w.dest = d) x = writeDest y d w.value ∧ DestOnly d (withoutReady d x) y := by
  have hdest : ∀ u ∈ l ++ [w], u.dest = d := fun u hu => by
    rw [← h] at hu
    exact of_decide_eq_true (Bool.and_eq_true_iff.1 (List.mem_filter.1 hu).2).1
  refine ⟨l.foldl (fun y w => writeDest y w.dest w.value) (withoutReady d x), ?_,
    writeDests_destOnly l (fun u hu => hdest u (List.mem_append_left _ hu)) _⟩
  have hfold : settlePend (fun w => w.dest = d) x = (readyFor d x).foldl (fun y w => writeDest y w.dest w.value) (withoutReady d x) := rfl
  rw [hfold, h, List.foldl_append, List.foldl_cons, List.foldl_nil, hdest w (by simp)]

theorem resultReadable_s {p : PodId} {i : Fin 32} {l : List PendWrite} {w : PendWrite} {s : State} (hi : i ≠ 0) (h : readyFor (.s i) (pod s p) = l ++ [w]) :
    ∃ t : State, exec (.resultReadable p (.s i)) s = .next t ∧ vget (pod t p).s i = w.value.setWidth 64 ∧ (∀ j, j ≠ i → vget (pod t p).s j = vget (pod s p).s j)
      ∧ (pod t p).pend = (withoutReady (.s i) (pod s p)).pend ∧ (pod t p).v = (pod s p).v ∧ (pod t p).m = (pod s p).m ∧ (pod t p).md = (pod s p).md
      ∧ (pod t p).sa = (pod s p).sa ∧ PodOnly s t p := by
  obtain ⟨y, hy, hold⟩ := settlePend_last h
  refine ⟨modPod s p (settlePend (fun w => w.dest = .s i)), rfl, ?_⟩
  rw [pod_modPod, hy]
  have hall := hold.trans (writeDest_destOnly y (.s i) w.value)
  refine ⟨?_, fun j hj => hall.s j (fun e => hj (Dest.s.inj e).symm), (congrArg Pod.pend hall.frame :), vector_ext_vget (fun j => hall.v j (by simp)),
    vector_ext_vget (fun j => hall.m j (by simp)), vector_ext_vget (fun j => hall.md j (by simp)), vector_ext_vget (fun j => hall.sa j (by simp)),
    modPod_podOnly s p _⟩
  rw [writeDest_s y hi]
  exact vget_vput _ _ _

theorem resultReadable_v {p : PodId} {i : Fin 32} {l : List PendWrite} {w : PendWrite} {s : State} (h : readyFor (.v i) (pod s p) = l ++ [w]) :
    ∃ t : State, exec (.resultReadable p (.v i)) s = .next t ∧ vget (pod t p).v i = w.value ∧ (∀ j, j ≠ i → vget (pod t p).v j = vget (pod s p).v j)
      ∧ (pod t p).s = (pod s p).s ∧ (pod t p).m = (pod s p).m ∧ (pod t p).md = (pod s p).md ∧ PodOnly s t p := by
  obtain ⟨y, hy, hold⟩ := settlePend_last h
  refine ⟨modPod s p (settlePend (fun w => w.dest = .v i)), rfl, ?_⟩
  rw [pod_modPod, hy]
  have hall := hold.trans (writeDest_destOnly y (.v i) w.value)
  exact ⟨vget_vput _ _ _, fun j hj => hall.v j (fun e => hj (Dest.v.inj e).symm), vector_ext_vget (fun j => hall.s j (by simp)),
    vector_ext_vget (fun j => hall.m j (by simp)), vector_ext_vget (fun j => hall.md j (by simp)), modPod_podOnly s p _⟩

/-- Without a due result the row changes nothing. -/
theorem resultReadable_idle {p : PodId} {d : Dest} {s : State} (h : ∀ w ∈ (pod s p).pend, w.dest = d → (pod s p).core.cycle < w.due) :
    exec (.resultReadable p d) s = .next s := by
  have hno : ∀ w ∈ (pod s p).pend, (decide (w.dest = d) && decide (w.due ≤ (pod s p).core.cycle)) = false := fun w hw => by
    by_cases hd : w.dest = d
    · rw [decide_eq_false (p := w.due ≤ _) (by have := h w hw hd; omega), Bool.and_false]
    · rw [decide_eq_false hd, Bool.false_and]
  have hready : readyFor d (pod s p) = [] := List.filter_eq_nil_iff.2 (fun w hw => by rw [hno w hw]; decide)
  have hleft : withoutReady d (pod s p) = pod s p := by
    unfold withoutReady
    rw [List.filter_eq_self.2 (fun w hw => by rw [hno w hw]; rfl)]
  have hself : settlePend (fun w => w.dest = d) (pod s p) = pod s p := by
    change (readyFor d (pod s p)).foldl (fun y w => writeDest y w.dest w.value) (withoutReady d (pod s p)) = _
    rw [hready, hleft]
    rfl
  exact congrArg _ (modPod_self hself)

/-! ## Ranges -/

/-- The range is due in cycle `now`. -/
def rangeDue (now : Nat) (r : StoreRange) : Bool := r.due.any (fun d => decide (d ≤ now))

theorem dueRanges_eq (sel : StoreRange → Bool) (x : Pod) : dueRanges sel x = x.ranges.filter (fun r => sel r && rangeDue x.core.cycle r) := by
  unfold dueRanges rangeDue
  congr 1
  funext r
  cases r.due <;> rfl

/-- The Pod without the due ranges that `sel` selects. -/
def released (sel : StoreRange → Bool) (x : Pod) : Pod := { x with ranges := x.ranges.filter (fun r => !(sel r && rangeDue x.core.cycle r)) }

theorem settleRanges_eq (sel : StoreRange → Bool) (s : State) (p : PodId) : settleRanges sel s p
    = writeResults (fun w => (dueRanges sel (pod s p)).any (fun r => r.op = w.1))
        (forEach (dueRanges sel (pod s p)) (setPod s p (released sel (pod s p))) (writeRange p)) p := by
  have hleft : released sel (pod s p) = { pod s p with ranges := (pod s p).ranges.filter (fun r =>
      !(sel r && (match r.due with | some d => decide (d ≤ (pod s p).core.cycle) | none => false))) } := by
    unfold released rangeDue
    congr 2
    funext r
    cases r.due <;> rfl
  rw [hleft]
  rfl

/-- Memory and its check bits may differ, and nothing else. -/
def StoreOnly (s t : State) : Prop := t = { s with mem := t.mem, ecc := t.ecc }

theorem StoreOnly.foldl {α : Type} {f : State → α → State} (l : List α) (hf : ∀ t, ∀ a ∈ l, StoreOnly t (f t a)) (s : State) : StoreOnly s (l.foldl f s) := by
  induction l generalizing s with
  | nil => rfl
  | cons a l ih =>
    have hrest := ih (fun t b hb => hf t b (List.mem_cons_of_mem a hb)) (f s a)
    have hfirst := hf s a List.mem_cons_self
    unfold StoreOnly at *
    rw [List.foldl_cons, hrest, hfirst]

theorem memWrite_storeOnly (s : State) (a : Nat) (b : List Byte) : StoreOnly s (memWrite s a b) := rfl

/-- A range that holds nothing writes nothing. -/
theorem writeRange_silent (p : PodId) (s : State) {r : StoreRange} (hw : r.writes = []) (hl : r.landing = []) : writeRange p s r = s := by
  unfold writeRange digestRange
  rw [hw, hl]
  exact ite_self s

/-- A range that no pair digest takes in writes memory alone. -/
theorem writeRange_storeOnly (p : PodId) (s : State) {r : StoreRange} (hd : r.digest = false) : StoreOnly s (writeRange p s r) := by
  have hdigest : digestRange s p r = s := by
    unfold digestRange
    rw [if_neg (by rw [hd]; decide)]
  have hlanding := StoreOnly.foldl r.landing (f := fun u w => memWrite u w.2.1 w.2.2) (fun t w _ => memWrite_storeOnly t w.2.1 w.2.2) s
  have hwrites := StoreOnly.foldl r.writes (f := fun u w => memWrite u w.1 w.2) (fun t w _ => memWrite_storeOnly t w.1 w.2)
    (r.landing.foldl (fun u w => memWrite u w.2.1 w.2.2) s)
  unfold writeRange forEach
  rw [hdigest]
  unfold StoreOnly at *
  rw [hwrites, hlanding]

theorem writeRange_one (p : PodId) (s : State) {r : StoreRange} {a : Nat} {b : List Byte} (hw : r.writes = [(a, b)]) (hl : r.landing = []) (hd : r.digest = false) :
    writeRange p s r = memWrite s a b := by
  unfold writeRange digestRange
  rw [hw, hl, if_neg (by rw [hd]; decide)]
  rfl

theorem writeRanges_silent (p : PodId) {l : List StoreRange} (h : ∀ r ∈ l, r.writes = [] ∧ r.landing = []) (s : State) : forEach l s (writeRange p) = s := by
  unfold forEach
  induction l with
  | nil => rfl
  | cons r l ih =>
    obtain ⟨hw, hl⟩ := h r List.mem_cons_self
    rw [List.foldl_cons, writeRange_silent p s hw hl]
    exact ih (fun u hu => h u (List.mem_cons_of_mem r hu))

/-- Bytes written within the store of a Pod. -/
theorem stored_podWrite {s u : State} {p : PodId} {a : Nat} {b : List Byte} (hm : u.mem = s.mem) (h : a + b.length ≤ podSize) :
    Stored s (memWrite u (podAddr p a) b) (podAddr p a) b := by
  intro x
  rw [memByte_memWrite, memByte_congr hm]
  by_cases hx : podAddr p a ≤ x ∧ x < podAddr p a + b.length
  · have hmem : isMem x = true := by
      have hsum : x = podAddr p (x - podAddr p 0) := by unfold podAddr at *; omega
      rw [hsum]
      exact isMem_podAddr p (by unfold podAddr at *; omega)
    rw [if_pos ⟨hx.1, hx.2, hmem⟩, if_pos hx]
  · rw [if_neg (fun hc => hx ⟨hc.1, hc.2.1⟩), if_neg hx]

/-! ## Rows of drains (R72) -/

theorem drainRows_none {s : State} {p : PodId} {sel : Nat × Nat × Nat → Bool} (h : ∀ e : EngineId, ∀ w ∈ (vget (pod s p).me e).results, sel w = false) :
    writeResults sel s p = s := by
  have hrows : (pod s p).me.toList.flatMap (fun e => e.results.filter sel) = [] := by
    rw [toList_eq_map_vget, List.flatMap_eq_nil_iff]
    intro e he
    obtain ⟨i, -, rfl⟩ := List.mem_map.1 he
    exact List.filter_eq_nil_iff.2 (fun w hw => by rw [h i w hw]; decide)
  unfold writeResults
  dsimp only
  rw [hrows]
  rfl

theorem flatMap_of_single {α β : Type} {l : List α} (hn : l.Nodup) {a : α} (ha : a ∈ l) {f : α → List β} (h : ∀ b, b ≠ a → f b = []) : l.flatMap f = f a := by
  induction l with
  | nil => exact absurd ha List.not_mem_nil
  | cons b l ih =>
    obtain ⟨hb, hl⟩ := List.nodup_cons.1 hn
    rw [List.flatMap_cons]
    rcases List.mem_cons.1 ha with rfl | hal
    · rw [List.flatMap_eq_nil_iff.2 (fun c hc => h c (fun e => hb (e ▸ hc))), List.append_nil]
    · rw [h b (fun e => hb (e ▸ hal)), List.nil_append]
      exact ih hl hal

/-- The Pod without the rows of drains that `sel` selects. -/
def withoutRows (sel : Nat × Nat × Nat → Bool) (x : Pod) : Pod :=
  { x with me := x.me.map (fun e => { e with results := e.results.filter (fun r => !sel r) }) }

theorem results_withoutRows (sel : Nat × Nat × Nat → Bool) (x : Pod) (e : EngineId) :
    (vget (withoutRows sel x).me e).results = (vget x.me e).results.filter (fun r => !sel r) := by
  unfold withoutRows
  dsimp only
  rw [vget_map]

/-- The one row that is selected sets its bits of POD_ME_FLAGS. -/
theorem drainRows_one {s : State} {p : PodId} {e : EngineId} {op o n : Nat} {sel : Nat × Nat × Nat → Bool} (hone : (vget (pod s p).me e).results = [(op, o, n)])
    (hsel : sel (op, o, n) = true) (h : ∀ g : EngineId, g ≠ e → ∀ w ∈ (vget (pod s p).me g).results, sel w = false) :
    writeResults sel s p = orReg (setPod s p (withoutRows sel (pod s p))) (rPod p 0x404) n := by
  have hrows : (pod s p).me.toList.flatMap (fun e => e.results.filter sel) = [(op, o, n)] := by
    rw [toList_eq_map_vget, List.flatMap_map, flatMap_of_single (List.nodup_finRange 4) (List.mem_finRange e)
      (fun g hg => List.filter_eq_nil_iff.2 (fun w hw => by rw [h g hg w hw]; decide)), hone, List.filter_cons_of_pos hsel]
    rfl
  have hor : Nat.lor 0 n = n := Nat.zero_or n
  unfold writeResults
  dsimp only
  rw [hrows]
  simp only [List.isEmpty_cons, Bool.false_eq_true, if_false, List.map_cons, List.map_nil, List.foldl_cons, List.foldl_nil, hor]
  rfl

theorem orReg_reg (s : State) (o n : Nat) : reg (orReg s o n) o = reg s o ||| BitVec.ofNat 32 n := reg_setReg s o _

theorem reg_orReg_ne (s : State) {o o' : Nat} (n : Nat) (h : o ≠ o') : reg (orReg s o n) o' = reg s o' := reg_setReg_ne s _ h

@[simp] theorem orReg_mem (s : State) (o n : Nat) : (orReg s o n).mem = s.mem := rfl

@[simp] theorem pod_orReg (s : State) (o n : Nat) (p : PodId) : pod (orReg s o n) p = pod s p := rfl

end Sys2Proof.Machine
end

section
/-! Obligation O51: what is due in a Pod takes effect (R71, R72, R95, R118, R146, R160, R162, R167). -/

namespace Sys2Proof.Machine

open Sys2Proof.Claims (PodOnly Stored)

theorem StoreOnly.pod {s t : State} (h : StoreOnly s t) (p : PodId) : pod t p = pod s p := congrArg (fun v => vget v p) (congrArg State.pods h :)

theorem StoreOnly.reg {s t : State} (h : StoreOnly s t) (o : Nat) : reg t o = reg s o := by
  unfold Machine.reg
  rw [h]

/-- Ranges that no pair digest takes in, released beside the rows of drains: their writes reach memory, and nothing else changes. -/
theorem settleRanges_quiet {sel : StoreRange → Bool} {s : State} {p : PodId}
    (hquiet : ∀ r ∈ dueRanges sel (pod s p), r.digest = false ∨ (r.writes = [] ∧ r.landing = []))
    (hrows : ∀ r ∈ dueRanges sel (pod s p), ∀ e : EngineId, ∀ w ∈ (vget (pod s p).me e).results, w.1 ≠ r.op) :
    settleRanges sel s p = forEach (dueRanges sel (pod s p)) (setPod s p (released sel (pod s p))) (writeRange p)
      ∧ StoreOnly (setPod s p (released sel (pod s p))) (settleRanges sel s p) := by
  have hstore : StoreOnly (setPod s p (released sel (pod s p)))
      (forEach (dueRanges sel (pod s p)) (setPod s p (released sel (pod s p))) (writeRange p)) := by
    refine StoreOnly.foldl _ (fun t r hr => ?_) _
    rcases hquiet r hr with hd | ⟨hw, hl⟩
    · exact writeRange_storeOnly p t hd
    · rw [writeRange_silent p t hw hl]
      rfl
  have heq : settleRanges sel s p = forEach (dueRanges sel (pod s p)) (setPod s p (released sel (pod s p))) (writeRange p) := by
    rw [settleRanges_eq]
    refine drainRows_none (fun e w hw => ?_)
    rw [hstore.pod, pod_setPod] at hw
    exact List.any_eq_false.2 (fun r hr => fun h => hrows r hr e w hw (of_decide_eq_true h).symm)
  exact ⟨heq, heq ▸ hstore⟩

theorem settleRanges_silent {sel : StoreRange → Bool} {s : State} {p : PodId} (hsilent : ∀ r ∈ dueRanges sel (pod s p), r.writes = [] ∧ r.landing = [])
    (hrows : ∀ r ∈ dueRanges sel (pod s p), ∀ e : EngineId, ∀ w ∈ (vget (pod s p).me e).results, w.1 ≠ r.op) :
    settleRanges sel s p = setPod s p (released sel (pod s p)) := by
  rw [(settleRanges_quiet (fun r hr => Or.inr (hsilent r hr)) hrows).1, writeRanges_silent p hsilent]

theorem settleRanges_writes {sel : StoreRange → Bool} {s : State} {p : PodId} {r : StoreRange} {a : Nat} {b : List Byte} (hdue : dueRanges sel (pod s p) = [r])
    (hw : r.writes = [(a, b)]) (hl : r.landing = []) (hd : r.digest = false)
    (hrows : ∀ e : EngineId, ∀ w ∈ (vget (pod s p).me e).results, w.1 ≠ r.op) :
    settleRanges sel s p = memWrite (setPod s p (released sel (pod s p))) a b := by
  have hone (q : StoreRange) (hq : q ∈ dueRanges sel (pod s p)) : q = r := by
    rw [hdue] at hq
    exact List.mem_singleton.1 hq
  rw [(settleRanges_quiet (fun q hq => Or.inl (hone q hq ▸ hd)) (fun q hq => hone q hq ▸ hrows)).1, hdue]
  exact writeRange_one p _ hw hl hd

theorem mem_dueRanges {sel : StoreRange → Bool} {x : Pod} {r : StoreRange} (h : r ∈ dueRanges sel x) : r ∈ x.ranges ∧ sel r = true := by
  rw [dueRanges_eq, List.mem_filter, Bool.and_eq_true] at h
  exact ⟨h.1, h.2.1⟩

/-! ## RANGE_RELEASE -/

/-- The Pod without the source ranges of operation `op` whose last line has been read. -/
def withoutSources (op : Nat) (x : Pod) : Pod :=
  { x with ranges := x.ranges.filter (fun r => !(r.op = op && r.due.isNone && !r.write && r.cls = 4 && !sourceOpen x op)) }

theorem exec_rangeRelease (p : PodId) (op : Nat) (s : State) :
    exec (.rangeRelease p op) s = .next (modPod (settleRanges (fun r => r.op = op) s p) p (withoutSources op)) := rfl

/-- A due range of the operation with one write, and no rows of drains. -/
theorem rangeRelease_writes {p : PodId} {op a : Nat} {b : List Byte} {r : StoreRange} {s : State} (hdue : dueRanges (fun r => r.op = op) (pod s p) = [r])
    (hw : r.writes = [(podAddr p a, b)]) (hl : r.landing = []) (hd : r.digest = false) (hfit : a + b.length ≤ podSize)
    (hrows : ∀ e : EngineId, ∀ w ∈ (vget (pod s p).me e).results, w.1 ≠ op) :
    ∃ t : State, exec (.rangeRelease p op) s = .next t ∧ Stored s t (podAddr p a) b ∧ t = { s with mem := t.mem, ecc := t.ecc, pods := t.pods }
      ∧ (∀ y ∈ (pod t p).ranges, y.op = op → rangeDue (pod s p).core.cycle y = false)
      ∧ (∀ y ∈ (pod s p).ranges, y.op ≠ op → y ∈ (pod t p).ranges) ∧ (∀ q, q ≠ p → pod t q = pod s q) := by
  have hop : r.op = op := of_decide_eq_true (mem_dueRanges (hdue ▸ List.mem_singleton_self r)).2
  refine ⟨_, exec_rangeRelease p op s, ?_⟩
  rw [settleRanges_writes hdue hw hl hd (hop ▸ hrows)]
  have hpod : pod (memWrite (setPod s p (released (fun r => r.op = op) (pod s p))) (podAddr p a) b) p = released (fun r => r.op = op) (pod s p) := pod_setPod s p _
  refine ⟨stored_podWrite (by rfl) hfit, rfl, ?_, ?_, fun q hq => (pod_modPod_ne _ _ (Ne.symm hq)).trans (pod_setPod_ne s _ hq)⟩ <;>
    rw [pod_modPod, hpod]
  · intro y hy hyop
    have hkept := (List.mem_filter.1 (List.mem_filter.1 hy).1).2
    simpa [hyop] using hkept
  · intro y hy hyop
    refine List.mem_filter.2 ⟨List.mem_filter.2 ⟨hy, ?_⟩, ?_⟩ <;> simp [hyop]

/-- A drain's row is written: its bits of POD_ME_FLAGS are set. -/
theorem rangeRelease_row {p : PodId} {op o n : Nat} {e : EngineId} {r : StoreRange} {s : State} (hdue : dueRanges (fun r => r.op = op) (pod s p) = [r])
    (hw : r.writes = []) (hl : r.landing = []) (hone : (vget (pod s p).me e).results = [(op, o, n)])
    (hrows : ∀ g : EngineId, g ≠ e → ∀ w ∈ (vget (pod s p).me g).results, w.1 ≠ op) : ∃ t : State, exec (.rangeRelease p op) s = .next t
      ∧ reg t (rPod p.val 0x404) = reg s (rPod p.val 0x404) ||| BitVec.ofNat 32 n ∧ (vget (pod t p).me e).results = []
      ∧ RegsBut [rPod p.val 0x404] s t ∧ MemSame s t ∧ (∀ q, q ≠ p → pod t q = pod s q) := by
  have hop : r.op = op := of_decide_eq_true (mem_dueRanges (hdue ▸ List.mem_singleton_self r)).2
  have hsel (w : Nat × Nat × Nat) : ([r].any (fun r => r.op = w.1)) = decide (op = w.1) := by rw [List.any_cons, List.any_nil, Bool.or_false, hop]
  have hsettle : ∃ y, settleRanges (fun r => r.op = op) s p = orReg (setPod (setPod s p (released (fun r => r.op = op) (pod s p))) p y) (rPod p 0x404) n
      ∧ (vget y.me e).results = [] := by
    rw [settleRanges_eq, hdue]
    change ∃ y, writeResults _ (writeRange p (setPod s p (released (fun r => r.op = op) (pod s p))) r) p = _ ∧ _
    rw [writeRange_silent p _ hw hl, drainRows_one (e := e) (op := op) (o := o) (n := n), pod_setPod]
    · refine ⟨_, rfl, ?_⟩
      rw [results_withoutRows, released, hone]
      simp [hop]
    · rw [pod_setPod]
      exact hone
    · rw [hsel]
      exact decide_eq_true rfl
    · intro g hg w hgw
      rw [pod_setPod] at hgw
      rw [hsel]
      exact decide_eq_false (fun h => hrows g hg w hgw h.symm)
  obtain ⟨y, hsettle, hnone⟩ := hsettle
  refine ⟨_, exec_rangeRelease p op s, ?_⟩
  rw [hsettle]
  refine ⟨(reg_modPod ..).trans (orReg_reg _ _ n), ?_, fun z _ hz => ?_, memByte_congr (by rw [modPod_mem, orReg_mem, setPod_mem, setPod_mem]), fun q hq => ?_⟩
  · rw [pod_modPod, pod_orReg, pod_setPod]
    exact hnone
  · rw [reg_modPod, reg_orReg_ne _ _ (fun h => hz (List.mem_singleton.2 h.symm)), reg_setPod, reg_setPod]
  · rw [pod_modPod_ne _ _ (Ne.symm hq), pod_orReg, pod_setPod_ne _ _ hq, pod_setPod_ne _ _ hq]

/-! ## Buffers and accumulators -/

theorem bufferComplete_releases {p : PodId} {b : BufferName} {s : State} (hsilent : ∀ r ∈ (pod s p).ranges, r.op ∈ bufferOps (pod s p) b → r.writes = [] ∧ r.landing = [])
    (hrows : ∀ e : EngineId, ∀ w ∈ (vget (pod s p).me e).results, w.1 ∉ bufferOps (pod s p) b) :
    exec (.bufferComplete p b) s = .next (setPod s p (released (fun r => (bufferOps (pod s p) b).contains r.op) (pod s p))) := by
  have hops {r : StoreRange} (hr : r ∈ dueRanges (fun r => (bufferOps (pod s p) b).contains r.op) (pod s p)) :
      r ∈ (pod s p).ranges ∧ r.op ∈ bufferOps (pod s p) b := (mem_dueRanges hr).imp_right List.contains_iff_mem.1
  exact congrArg _ (settleRanges_silent (fun r hr => hsilent r (hops hr).1 (hops hr).2) (fun r hr e w hw h => hrows e w hw (h ▸ (hops hr).2)))

theorem accumulatorFree_drops (p : PodId) (e : EngineId) (s : State) : ∃ t : State, exec (.accumulatorFree p e) s = .next t ∧ PodOnly s t p
    ∧ (∀ i : Fin 10, vget (vget (pod t p).me e).accFree i = (if (vget (vget (pod s p).me e).accFree i).cyc ≤ (pod s p).core.cycle then Due.zero
        else vget (vget (pod s p).me e).accFree i))
    ∧ (∀ g, g ≠ e → vget (pod t p).me g = vget (pod s p).me g) ∧ (vget (pod t p).me e).cells = (vget (pod s p).me e).cells := by
  refine ⟨_, rfl, modPod_podOnly s p _, ?_⟩
  rw [pod_modPod]
  dsimp only
  rw [vget_vmod]
  exact ⟨fun i => vget_map _ _ i, fun g hg => vget_vmod_ne _ _ (Ne.symm hg), rfl⟩

/-! ## TE_WINDOW_DONE -/

/-- The device once the one window of the Pod, which is due, has ended: its compares are counted and its flags set. -/
def windowEnded (s : State) (p : PodId) (w : Window) : State :=
  orReg (add64 (setPod s p { pod s p with te := { (pod s p).te with windows := [] } }) (rPod p 0x510) w.steps.sum) (rPod p 0x508) w.flags.toNat

theorem window_due {w : Window} {c : Nat} (h : w.due ≤ c) : [w].filter (fun w => decide (w.due ≤ c)) = [w] := by simp [h]

theorem settleWindows_one {s : State} {p : PodId} {w : Window} (h : (pod s p).te.windows = [w]) (hdue : w.due ≤ (pod s p).core.cycle) :
    settleWindows s p = windowEnded s p w := by
  have hleft : [w].filter (fun w => !decide (w.due ≤ (pod s p).core.cycle)) = [] := by simp [hdue]
  unfold settleWindows windowEnded
  dsimp only
  rw [h, window_due hdue, hleft]
  rfl

theorem pod_windowEnded (s : State) (p : PodId) (w : Window) :
    pod (windowEnded s p w) p = { pod s p with te := { (pod s p).te with windows := [] } } := by
  rw [windowEnded, pod_orReg, pod_add64, pod_setPod]

theorem regs_windowEnded (s : State) (p : PodId) (w : Window) : reg (windowEnded s p w) (rPod p.val 0x508) = reg s (rPod p.val 0x508) ||| w.flags.setWidth 32
    ∧ reg64 (windowEnded s p w) (rPod p.val 0x510) = (reg64 s (rPod p.val 0x510) + w.steps.sum) % 2 ^ 64
    ∧ RegsBut [rPod p.val 0x508, rPod p.val 0x510, rPod p.val 0x514] s (windowEnded s p w) := by
  refine ⟨?_, ?_, fun o _ ho => ?_⟩
  · rw [windowEnded, orReg_reg, add64, reg_setReg64_ne _ _ (by unfold rPod; omega) (by unfold rPod; omega), reg_setPod, BitVec.ofNat_toNat]
  · have hapart : reg64 (windowEnded s p w) (rPod p.val 0x510) = reg64 (add64 (setPod s p { pod s p with te := { (pod s p).te with windows := [] } })
        (rPod p.val 0x510) w.steps.sum) (rPod p.val 0x510) :=
      reg64_congr (reg_orReg_ne _ _ (by unfold rPod; omega)) (reg_orReg_ne _ _ (by unfold rPod; omega))
    exact hapart.trans (reg64_add64 _ _ _)
  · simp only [List.mem_cons, List.not_mem_nil, or_false, not_or] at ho
    obtain ⟨h508, h510, h514⟩ := ho
    rw [windowEnded, reg_orReg_ne _ _ (Ne.symm h508), add64, reg_setReg64_ne _ _ (Ne.symm h510) (by unfold rPod at *; omega), reg_setPod]

/-- Without a held write of POD_TE_CFG nothing follows the end of a window. -/
theorem settleTeCfg_none {s : State} {p : PodId} (h : (pod s p).te.heldCfg = none) : settleTeCfg s p = s := by
  unfold settleTeCfg
  dsimp only
  rw [h]

theorem teWindowDone_ends {p : PodId} {w : Window} {s : State} (hwin : (pod s p).te.windows = [w]) (hdue : w.due ≤ (pod s p).core.cycle)
    (hheld : (pod s p).te.heldCfg = none) (hrows : ∀ e : EngineId, ∀ v ∈ (vget (pod s p).me e).results, v.1 ≠ w.op)
    (hdigest : ∀ r ∈ (pod s p).ranges, r.digest = false) : ∃ t : State, exec (.teWindowDone p) s = .next t ∧ (pod t p).te.windows = []
      ∧ reg t (rPod p.val 0x508) = reg s (rPod p.val 0x508) ||| w.flags.setWidth 32
      ∧ reg64 t (rPod p.val 0x510) = (reg64 s (rPod p.val 0x510) + w.steps.sum) % 2 ^ 64
      ∧ RegsBut [rPod p.val 0x508, rPod p.val 0x510, rPod p.val 0x514] s t
      ∧ ((∀ r ∈ (pod s p).ranges, r.op = w.op → r.writes = [] ∧ r.landing = []) → MemSame s t)
      ∧ ∀ (r : StoreRange) (a : Nat) (b : List Byte), (pod s p).ranges.filter (fun r => decide (r.op = w.op) && rangeDue (pod s p).core.cycle r) = [r] →
        r.writes = [(podAddr p a, b)] → r.landing = [] → a + b.length ≤ podSize → Stored s t (podAddr p a) b := by
  obtain ⟨hflags, hsteps, hbut⟩ := regs_windowEnded s p w
  have hmem : (windowEnded s p w).mem = s.mem := by
    rw [windowEnded, orReg_mem, add64, setReg64, setReg_mem, setReg_mem, setPod_mem]
  have hpod := pod_windowEnded s p w
  have hended := settleWindows_one hwin hdue
  generalize windowEnded s p w = u at hflags hsteps hbut hmem hpod hended
  obtain ⟨sel, hsel⟩ : ∃ sel : StoreRange → Bool, sel = fun r => decide (r.op = w.op) := ⟨_, rfl⟩
  have hgone {r : StoreRange} (hr : r ∈ dueRanges sel (pod u p)) : r ∈ (pod s p).ranges ∧ r.op = w.op := by
    rw [hpod] at hr
    exact (mem_dueRanges hr).imp_right (fun h => of_decide_eq_true ((congrFun hsel r).symm.trans h))
  have hrow : ∀ r ∈ dueRanges sel (pod u p), ∀ e : EngineId, ∀ v ∈ (vget (pod u p).me e).results, v.1 ≠ r.op := fun r hr e v hv => by
    rw [hpod] at hv
    exact (hgone hr).2 ▸ hrows e v hv
  obtain ⟨-, hstore⟩ := settleRanges_quiet (fun r hr => Or.inl (hdigest r (hgone hr).1)) hrow
  have hend : pod (settleRanges sel u p) p = released sel (pod u p) := (hstore.pod p).trans (pod_setPod u p _)
  have hexec : exec (.teWindowDone p) s = .next (settleRanges sel u p) := by
    have hops : (pod s p).te.windows.filter (fun w => decide (w.due ≤ (pod s p).core.cycle)) = [w] := by
      rw [hwin]
      exact window_due hdue
    change execTeWindowDone p s = _
    unfold execTeWindowDone
    have hcontains : (fun r : StoreRange => ([w].map (·.op)).contains r.op) = sel := by
      funext r
      rw [hsel, List.map_cons, List.map_nil, List.contains_cons, List.contains_nil, Bool.or_false]
      rfl
    rw [hops, hended]
    dsimp only
    rw [hcontains]
    refine congrArg _ (settleTeCfg_none (p := p) ?_)
    rw [hend, hpod]
    exact hheld
  have hreg (o : Nat) : reg (settleRanges sel u p) o = reg u o := (hstore.reg o).trans (reg_setPod ..)
  have hcompares : reg64 (settleRanges sel u p) (rPod p.val 0x510) = reg64 u (rPod p.val 0x510) := reg64_congr (hreg _) (hreg _)
  refine ⟨_, hexec, ?_, (hreg _).trans hflags, hcompares.trans hsteps, fun o h4 ho => (hreg o).trans (hbut o h4 ho), fun hsilent => ?_,
    fun r a b hone hw hl hfit => ?_⟩
  · rw [hend, hpod]
    rfl
  · rw [settleRanges_silent (fun r hr => hsilent r (hgone hr).1 (hgone hr).2) hrow]
    exact memByte_congr (by rw [setPod_mem, hmem])
  · have hdues : dueRanges sel (pod u p) = [r] := by
      rw [dueRanges_eq, hpod, hsel]
      exact hone
    have hr := hgone (hdues ▸ List.mem_singleton_self r)
    rw [settleRanges_writes hdues hw hl (hdigest r hr.1) (fun e v hv => hrow r (hdues ▸ List.mem_singleton_self r) e v hv)]
    exact stored_podWrite (by rw [setPod_mem, hmem]) hfit

/-! ## ENTROPY_HEALTH_FAIL -/

theorem entropyHealthFail_raises (p : PodId) (s : State) : ∃ t : State, exec (.entropyHealthFail p) s = .next t
    ∧ flag t (rErrEntropy + 4 * (p.val / 32)) (p.val % 32) = true ∧ Notified ((rErrEntropy + 4 * (p.val / 32)) :: capRegs 3) s t := by
  have hhalf : p.val / 32 = 0 ∨ p.val / 32 = 1 := by omega
  refine ⟨_, rfl, flag_raiseErr s 3 _ _ _ _ (Nat.mod_lt _ (by decide)) ?_ ?_ ?_,
    raiseErr_notified s 3 _ _ _ _ List.mem_cons_self (fun o ho => List.mem_cons_of_mem _ ho)⟩ <;> rcases hhalf with h | h <;> rw [h] <;> decide

end Sys2Proof.Machine

open Sys2Proof.Machine in
/-- Settles O51: a register by the last of its results that are due, the releases by what the ranges hold and which rows of drains go with them. -/
theorem whatIsDueTakesEffect : Obligations.WhatIsDueTakesEffect := by
  unfold Obligations.WhatIsDueTakesEffect
  refine ⟨fun p i l w s hi h => resultReadable_s hi h, fun p i l w s h => resultReadable_v h, fun p d s h => resultReadable_idle h,
    fun p op a b r s hdue hw hl hd hfit hrows => rangeRelease_writes ((dueRanges_eq _ _).trans hdue) hw hl hd hfit hrows,
    fun p op o n e r s _ hdue hw hl hone hrows => rangeRelease_row ((dueRanges_eq _ _).trans hdue) hw hl hone hrows,
    fun p b s hsilent hrows => ⟨_, bufferComplete_releases hsilent hrows, fun _ => rfl, rfl, ?_⟩,
    accumulatorFree_drops, fun p w s _ hwin hdue hheld hrows hdigest => teWindowDone_ends hwin hdue hheld hrows hdigest,
    fun p s _ => entropyHealthFail_raises p s⟩
  rw [pod_setPod, released]
  simp only [List.contains_eq_mem]
  rfl
end

section
/-! A Pod's operation issues by itself (R131, R158, R160); a Vector Unit operation leaves its results in flight, its flags in POD_VU_FLAGS and its
count in POD_VU_OPS, and nothing else of the device but the draw it consumes and its unit's next cycle (R109, R111, R112, R117, R129). -/

namespace Sys2Proof.Machine

open Sys2Proof.Claims (Issues vector owed)

theorem runOp_issues {s : State} {p : PodId} {o : SlotOp} (h : Issues s p o) : runOp s p o = (issueOp (settleFor s p o) p o).1 := by
  obtain ⟨htrapped, hhalted, hclock, htraps, hwaits⟩ := h
  unfold runOp
  rw [htrapped, hhalted, hclock, htraps]
  dsimp only
  rw [hwaits]
  rfl

theorem reg_markVClass_ne (s : State) (p : PodId) (o : SlotOp) {z : Nat} (hz : z ≠ rPod p 0x908) : reg (markVClass s p o) z = reg s z := by
  unfold markVClass
  split
  · exact reg_orReg_ne s _ (Ne.symm hz)
  · rfl

/-! ## What an operation of the Vector Unit reads of the device -/

/-- The registers that a Vector Unit operation writes without reading them. -/
def vuCounters (p : PodId) : List Nat := [rPod p 0x604, rPod p 0x610, rPod p 0x614, rPod p 0x908]

/-- The two states are one to the values of the Vector Unit. -/
structure VuSame (p : PodId) (s t : State) : Prop where
  pods : t.pods = s.pods
  mem : t.mem = s.mem
  active : t.active = s.active
  fuses : t.fuses = s.fuses
  fresh : t.fresh = s.fresh
  regs : ∀ o, o ∉ vuCounters p → reg t o = reg s o

theorem VuSame.trans {p : PodId} {s t u : State} (h : VuSame p s t) (g : VuSame p t u) : VuSame p s u :=
  ⟨g.pods.trans h.pods, g.mem.trans h.mem, g.active.trans h.active, g.fuses.trans h.fuses, g.fresh.trans h.fresh,
    fun o ho => (g.regs o ho).trans (h.regs o ho)⟩

theorem VuSame.own {p : PodId} {s t : State} (h : VuSame p s t) {o : Nat} (hne : o < 0x10000 ∧ o ≠ 0x604 ∧ o ≠ 0x610 ∧ o ≠ 0x614 ∧ o ≠ 0x908) :
    reg t (rPod p o) = reg s (rPod p o) := by
  refine h.regs _ ?_
  simp only [vuCounters, List.mem_cons, List.not_mem_nil, or_false, rPod]
  omega

theorem VuSame.own64 {p : PodId} {s t : State} (h : VuSame p s t) {o : Nat} (hne : o = 0x608 ∨ o = 0x900) :
    reg64 t (rPod p o) = reg64 s (rPod p o) := by
  have hnext : rPod p.val o + 4 = rPod p.val (o + 4) := by unfold rPod; omega
  refine reg64_congr (h.own (by omega)) ?_
  rw [hnext]
  exact h.own (by omega)

theorem VuSame.pod {p : PodId} {s t : State} (h : VuSame p s t) (q : PodId) : pod t q = pod s q := congrArg (fun v => vget v q) h.pods

theorem VuSame.isA1 {p : PodId} {s t : State} (h : VuSame p s t) : isA1 t = isA1 s := by
  unfold Machine.isA1
  rw [h.fuses]

theorem VuSame.vuMode {p : PodId} {s t : State} (h : VuSame p s t) (f : VuFields) : vuMode t p f = vuMode s p f := by
  funext d
  unfold Machine.vuMode stepCount pReg
  rw [h.own (by decide), h.own64 (Or.inl rfl), h.own64 (Or.inr rfl), h.active, h.fresh]

theorem VuSame.ap1Active {p : PodId} {s t : State} (h : VuSame p s t) : ap1Active t p = ap1Active s p := by
  unfold Machine.ap1Active pReg
  rw [h.isA1, h.own (by decide)]

theorem VuSame.vuValue {p : PodId} {s t : State} (h : VuSame p s t) (c : Nat) (f : VuFields) : vuValue t p c f = vuValue s p c f := by
  unfold Machine.vuValue pReg
  rw [h.pod p, h.vuMode f, h.own (by decide), h.ap1Active]

theorem VuSame.sheetLat {p : PodId} {s t : State} (h : VuSame p s t) (a b : Nat) {o : Nat} (lo : Nat) (ho : o = 0x910 ∨ o = 0x914) :
    sheetLat t p a b o lo = sheetLat s p a b o lo := by
  unfold Machine.sheetLat pReg
  rw [h.isA1, h.own (by omega)]

theorem VuSame.vuLatency {p : PodId} {s t : State} (h : VuSame p s t) (c : Nat) (f : VuFields) : vuLatency t p c f = vuLatency s p c f := by
  unfold Machine.vuLatency latVuBasic latVuXps latVuMxq latVuRsum latVuSort latVuMerge transTiming
  simp only [h.sheetLat _ _ _ (Or.inl rfl), h.sheetLat _ _ _ (Or.inr rfl), h.ap1Active]

/-- The device as the values of an operation are taken: it is marked and counted. -/
def vuCounted (u : State) (p : PodId) (c : Nat) (f : VuFields) : State := add64 (countVu (markVClass u p (.vu c f))) (rPod p 0x610) 1

theorem orReg_vuSame (s : State) (p : PodId) {o : Nat} (n : Nat) (ho : o ∈ vuCounters p) : VuSame p s (orReg s o n) :=
  ⟨rfl, rfl, rfl, rfl, rfl, fun _ hz => reg_orReg_ne s n (fun e => hz (e ▸ ho))⟩

theorem markVClass_vuSame (s : State) (p : PodId) (o : SlotOp) : VuSame p s (markVClass s p o) := by
  unfold markVClass
  split
  · exact orReg_vuSame s p _ (by simp [vuCounters])
  · exact ⟨rfl, rfl, rfl, rfl, rfl, fun _ _ => rfl⟩

theorem countVu_vuSame (s : State) (p : PodId) : VuSame p s (countVu s) := ⟨rfl, rfl, rfl, rfl, rfl, fun _ _ => rfl⟩

theorem setReg64_vuSame (s : State) (p : PodId) {o : Nat} (n : Nat) (ho : o ∈ vuCounters p) (h4 : o + 4 ∈ vuCounters p) : VuSame p s (setReg64 s o n) :=
  ⟨rfl, rfl, rfl, rfl, rfl, fun _ hz => reg_setReg64_ne s n (fun e => hz (e ▸ ho)) (fun e => hz (e ▸ h4))⟩

theorem vuCounted_vuSame (u : State) (p : PodId) (c : Nat) (f : VuFields) : VuSame p u (vuCounted u p c f) :=
  ((markVClass_vuSame u p _).trans (countVu_vuSame _ p)).trans (setReg64_vuSame _ p _ (by simp [vuCounters]) (by simp [vuCounters, rPod]))

theorem regs_vuCounted (u : State) (p : PodId) (c : Nat) (f : VuFields) : reg (vuCounted u p c f) (rPod p 0x604) = reg u (rPod p 0x604)
    ∧ reg64 (vuCounted u p c f) (rPod p 0x610) = (reg64 u (rPod p 0x610) + 1) % 2 ^ 64 := by
  have hold (z : Nat) (hz : z ≠ rPod p 0x908) : reg (countVu (markVClass u p (.vu c f))) z = reg u z := reg_markVClass_ne u p _ hz
  have hcount : reg64 (countVu (markVClass u p (.vu c f))) (rPod p 0x610) = reg64 u (rPod p 0x610) :=
    reg64_congr (hold _ (by unfold rPod; omega)) (hold _ (by unfold rPod; omega))
  constructor
  · rw [vuCounted, add64, reg_setReg64_ne _ _ (by unfold rPod; omega) (by unfold rPod; omega), hold _ (by unfold rPod; omega)]
  · rw [vuCounted, reg64_add64, hcount]

/-! ## What it leaves -/

theorem addPends_eq (op slot due : Nat) (l : List (Dest × Nat)) (x : Pod) : l.foldl (fun z w => addPend z op slot w.1 w.2 due) x
    = { x with pend := x.pend ++ l.map (fun e => ⟨op, slot, e.1, BitVec.ofNat 8192 e.2, due⟩) } := by
  induction l generalizing x with
  | nil => simp
  | cons e l ih => rw [List.foldl_cons, ih, addPend, List.map_cons, List.append_assoc]; rfl

/-- The results of an operation are in flight and its flags set. -/
def vuLeft (u : State) (p : PodId) (r : List (Dest × Nat) × VFlags) (n : Nat) : State :=
  setVuFlags (modPod u p (fun x => { x with
    core := { x.core with nextOp := x.core.nextOp + 1 }, pend := x.pend ++ r.1.map (fun e => owed x 1 e.1 e.2 n) })) p r.2

theorem modPod_modPod (s : State) (p : PodId) (g h : Pod → Pod) : modPod (modPod s p g) p h = modPod s p (fun x => h (g x)) := by
  simp [modPod, vmod]

theorem modPod_congr {s : State} {p : PodId} {g h : Pod → Pod} (e : g (pod s p) = h (pod s p)) : modPod s p g = modPod s p h :=
  congrArg (fun x => { s with pods := s.pods.set p.val x p.isLt }) e

theorem results_left (s : State) (p : PodId) (r : List (Dest × Nat) × VFlags) (n : Nat) : setVuFlags (modPod (nextSerial s p).2 p (fun y =>
    r.1.foldl (fun z w => addPend z (pod s p).core.nextOp 1 w.1 w.2 ((pod s p).core.cycle + n)) y)) p r.2 = vuLeft s p r n := by
  refine congrArg (fun t => setVuFlags t p r.2) ?_
  rw [nextSerial, modCore, modPod_modPod]
  refine modPod_congr ?_
  rw [addPends_eq]
  rfl

theorem issueVu_eq (u : State) (p : PodId) {c : Nat} (f : VuFields) (hred : ¬ (0x18 ≤ c ∧ c ≤ 0x1B)) :
    issueVu (countVu (markVClass u p (.vu c f))) p c f
      = setIntervals (consumeDraw (vuLeft (vuCounted u p c f) p (vuValue u p c f) (vuLatency u p c f)) p c f) p c f := by
  have hissue : issueVu (countVu (markVClass u p (.vu c f))) p c f = setIntervals (consumeDraw (setVuFlags (modPod (nextSerial (vuCounted u p c f) p).2 p
      (fun y => (vuValue (vuCounted u p c f) p c f).1.foldl (fun z w => addPend z (pod (vuCounted u p c f) p).core.nextOp 1 w.1 w.2
        ((pod (vuCounted u p c f) p).core.cycle + vuLatency (vuCounted u p c f) p c f)) y)) p (vuValue (vuCounted u p c f) p c f).2) p c f) p c f := if_neg hred
  have hsame := vuCounted_vuSame u p c f
  rw [hissue, results_left, hsame.vuValue, hsame.vuLatency]

section
variable (s : State) (p : PodId) (c : Nat) (f : VuFields) (r : List (Dest × Nat) × VFlags) (n : Nat)

theorem pod_vuLeft : pod (vuLeft s p r n) p = { pod s p with
    core := { (pod s p).core with nextOp := (pod s p).core.nextOp + 1 }, pend := (pod s p).pend ++ r.1.map (fun e => owed (pod s p) 1 e.1 e.2 n) } := by
  rw [vuLeft, setVuFlags, pod_orReg, pod_modPod]

theorem pod_vuLeft_ne {q : PodId} (hq : q ≠ p) : pod (vuLeft s p r n) q = pod s q := by
  rw [vuLeft, setVuFlags, pod_orReg, pod_modPod_ne _ _ (Ne.symm hq)]

theorem vuLeft_mem : (vuLeft s p r n).mem = s.mem := by rw [vuLeft, setVuFlags, orReg_mem, modPod_mem]

theorem reg_vuLeft : reg (vuLeft s p r n) (rPod p 0x604) = reg s (rPod p 0x604) ||| BitVec.ofNat 32 r.2 := by
  rw [vuLeft, setVuFlags, orReg_reg, reg_modPod]

theorem reg_vuLeft_ne {z : Nat} (hz : z ≠ rPod p 0x604) : reg (vuLeft s p r n) z = reg s z := by
  rw [vuLeft, setVuFlags, reg_orReg_ne _ _ (Ne.symm hz), reg_modPod]

theorem consumeDraw_pods : (consumeDraw s p c f).pods = s.pods := by
  unfold consumeDraw
  split
  · split
    · exact (setReg64_same ..).2
    · rfl
  · rfl

theorem consumeDraw_mem : (consumeDraw s p c f).mem = s.mem := by
  unfold consumeDraw
  split
  · split
    · exact (setReg64_same ..).1
    · rfl
  · rfl

theorem reg_consumeDraw_ne {z : Nat} (h8 : z ≠ rPod p 0x608) (hC : z ≠ rPod p 0x60C) : reg (consumeDraw s p c f) z = reg s z := by
  unfold consumeDraw
  split
  · split
    · exact reg_setReg64_ne s _ (Ne.symm h8) (by unfold rPod at *; omega)
    · rfl
  · rfl

/-- The device after an operation whose results and flags are `r`, taken from the state `s` that has counted it. -/
def vuDone : State := setIntervals (consumeDraw (vuLeft s p r n) p c f) p c f

theorem pod_vuDone : ∃ k, pod (vuDone s p c f r n) p = { pod s p with core := k, pend := (pod s p).pend ++ r.1.map (fun e => owed (pod s p) 1 e.1 e.2 n) } := by
  rw [vuDone, setIntervals, modCore, pod_modPod, pod, consumeDraw_pods, ← pod, pod_vuLeft]
  exact ⟨_, rfl⟩

theorem pod_vuDone_ne {q : PodId} (hq : q ≠ p) : pod (vuDone s p c f r n) q = pod s q := by
  rw [vuDone, setIntervals, modCore, pod_modPod_ne _ _ (Ne.symm hq), pod, consumeDraw_pods, ← pod, pod_vuLeft_ne s p r n hq]

theorem vuDone_mem : (vuDone s p c f r n).mem = s.mem := by rw [vuDone, setIntervals, modCore, modPod_mem, consumeDraw_mem, vuLeft_mem]

theorem reg_vuDone {z : Nat} (h8 : z ≠ rPod p 0x608) (hC : z ≠ rPod p 0x60C) : reg (vuDone s p c f r n) z = reg (vuLeft s p r n) z := by
  rw [vuDone, setIntervals, modCore, reg_modPod, reg_consumeDraw_ne _ p c f h8 hC]

end

/-- An operation of the Vector Unit that is no reduction: its results are in flight, its flags set, it is counted, and all else is as before. -/
theorem vu_issues {s : State} {p : PodId} {c : Nat} {f : VuFields} {i : Instr} (hi : exec i s = .next (runOp s p (.vu c f))) (hc : c ≠ 0)
    (hred : ¬ (0x18 ≤ c ∧ c ≤ 0x1B)) {r : State → Pod → List (Dest × Nat) × Nat} {n : State → Nat}
    (hr : r (settleFor s p (.vu c f)) (pod (settleFor s p (.vu c f)) p) = vuValue (settleFor s p (.vu c f)) p c f)
    (hn : n (settleFor s p (.vu c f)) = vuLatency (settleFor s p (.vu c f)) p c f) (h : Issues s p (.vu c f)) :
    ∃ t, exec i s = .next t ∧ vector s t p (.vu c f) r n := by
  refine ⟨_, hi, ?_⟩
  rintro u x hu rfl
  rw [← hu] at hr hn
  have hrun : runOp s p (.vu c f) = vuDone (vuCounted u p c f) p c f (vuValue u p c f) (vuLatency u p c f) := by
    rw [runOp_issues h, ← hu, vuDone, ← issueVu_eq u p f hred]
    exact congrArg Prod.fst (if_neg hc)
  have hsame := vuCounted_vuSame u p c f
  obtain ⟨hflags, hcount⟩ := regs_vuCounted u p c f
  rw [hrun, hr, hn]
  generalize vuCounted u p c f = v at hsame hflags hcount ⊢
  generalize vuValue u p c f = val
  generalize vuLatency u p c f = lat
  have hold {z : Nat} (h4 : z ≠ rPod p 0x604) (h8 : z ≠ rPod p 0x608) (hC : z ≠ rPod p 0x60C) : reg (vuDone v p c f val lat) z = reg v z :=
    (reg_vuDone v p c f val lat h8 hC).trans (reg_vuLeft_ne v p val lat h4)
  have hcounted : reg64 (vuDone v p c f val lat) (rPod p 0x610) = reg64 v (rPod p 0x610) :=
    reg64_congr (hold (by unfold rPod; omega) (by unfold rPod; omega) (by unfold rPod; omega))
      (hold (by unfold rPod; omega) (by unfold rPod; omega) (by unfold rPod; omega))
  have hflagged : reg (vuDone v p c f val lat) (rPod p 0x604) = reg u (rPod p 0x604) ||| BitVec.ofNat 32 val.2 := by
    rw [reg_vuDone v p c f val lat (by unfold rPod; omega) (by unfold rPod; omega), reg_vuLeft, hflags]
  obtain ⟨k, hk⟩ := pod_vuDone v p c f val lat
  rw [hk, hsame.pod p]
  refine ⟨rfl, hflagged, hcounted.trans hcount, rfl, rfl, rfl, rfl, fun q hq => (pod_vuDone_ne v p c f val lat hq).trans (hsame.pod q),
    memByte_congr ((vuDone_mem v p c f val lat).trans hsame.mem), fun z _ hz => ?_⟩
  simp only [List.map_cons, List.map_nil, List.mem_cons, List.not_mem_nil, or_false, not_or] at hz
  obtain ⟨h604, h608, h60C, h610, h614, h908⟩ := hz
  rw [hold h604 h608 h60C]
  refine hsame.regs z ?_
  simp only [vuCounters, List.mem_cons, List.not_mem_nil, or_false, not_or]
  exact ⟨h604, h610, h614, h908⟩

end Sys2Proof.Machine
end

section
/-! Obligation O46: conversions, XPS and MX blocks, functions, sorting and merging (R65, R110, R112, R114 to R116, R148, R150). -/

namespace Sys2Proof.Machine

open Sys2Proof.Claims (Issues vector lanesOf basic)

/-! ## Sorted lists (R110) -/

theorem keyLe_total {c : Nat} {desc : Bool} {a b : Nat × Nat} (h : ¬ keyLe c desc a b = true) : keyLe c desc b a = true := by
  cases desc <;> simp only [keyLe, Bool.false_eq_true, if_true, if_false, decide_eq_true_eq] at h ⊢ <;> omega

theorem isSorted_cons (c : Nat) (desc : Bool) (a : Nat × Nat) (l : List (Nat × Nat)) :
    isSorted c desc (a :: l) = true ↔ (∀ b ∈ l.head?, keyLe c desc a b = true) ∧ isSorted c desc l = true := by
  cases l <;> simp [isSorted]

section
variable {α : Type} (le : α → α → Bool)

theorem insertBy_perm (a : α) (l : List α) : (insertBy le a l).Perm (a :: l) := by
  induction l with
  | nil => exact List.Perm.refl _
  | cons b t ih =>
    unfold insertBy
    split
    · exact (ih.cons b).trans (List.Perm.swap a b t)
    · exact List.Perm.refl _

theorem head_insertBy {a b : α} {l : List α} (h : b ∈ (insertBy le a l).head?) : b = a ∨ b ∈ l.head? := by
  cases l with
  | nil => exact Or.inl (Option.some.inj h).symm
  | cons x t =>
    unfold insertBy at h
    split at h
    · exact Or.inr h
    · exact Or.inl (Option.some.inj h).symm

theorem sortBy_perm (l : List α) : (sortBy le l).Perm l := by
  have hfold (acc : List α) : (l.foldl (fun acc a => insertBy le a acc) acc).Perm (acc ++ l) := by
    induction l generalizing acc with
    | nil => rw [List.append_nil]; exact List.Perm.refl _
    | cons a t ih => exact (ih (insertBy le a acc)).trans (((insertBy_perm le a acc).append_right t).trans List.perm_middle.symm)
  exact hfold []

end

section
variable {c : Nat} {desc : Bool}

theorem isSorted_insertBy (a : Nat × Nat) {l : List (Nat × Nat)} (h : isSorted c desc l = true) : isSorted c desc (insertBy (keyLe c desc) a l) = true := by
  induction l with
  | nil => rfl
  | cons b t ih =>
    obtain ⟨hhead, ht⟩ := (isSorted_cons c desc b t).1 h
    unfold insertBy
    split
    next hba =>
      refine (isSorted_cons ..).2 ⟨fun x hx => ?_, ih ht⟩
      rcases head_insertBy _ hx with rfl | hx
      · exact hba
      · exact hhead x hx
    next hba => exact (isSorted_cons ..).2 ⟨fun x hx => Option.some.inj hx ▸ keyLe_total hba, h⟩

theorem isSorted_sortBy (l : List (Nat × Nat)) : isSorted c desc (sortBy (keyLe c desc) l) = true := by
  have hfold (acc : List (Nat × Nat)) (h : isSorted c desc acc = true) : isSorted c desc (l.foldl (fun acc a => insertBy (keyLe c desc) a acc) acc) = true := by
    induction l generalizing acc with
    | nil => exact h
    | cons a t ih => exact ih _ (isSorted_insertBy a h)
  exact hfold [] rfl

theorem mergeKeys_cons (n : Nat) (x y : Nat × Nat) (a b : List (Nat × Nat)) : mergeKeys c desc (n + 1) (x :: a) (y :: b)
    = if keyLe c desc x y then x :: mergeKeys c desc n a (y :: b) else y :: mergeKeys c desc n (x :: a) b := rfl

theorem mergeKeys_nil_left (n : Nat) (b : List (Nat × Nat)) : mergeKeys c desc n [] b = b := by cases n <;> rfl

theorem mergeKeys_nil_right (n : Nat) (a : List (Nat × Nat)) : mergeKeys c desc n a [] = a := by
  cases n with
  | zero => exact List.append_nil a
  | succ n => cases a <;> rfl

theorem mergeKeys_perm (n : Nat) (a b : List (Nat × Nat)) : (mergeKeys c desc n a b).Perm (a ++ b) := by
  induction n generalizing a b with
  | zero => exact List.Perm.refl _
  | succ n ih =>
    match a, b with
    | [], b => rw [mergeKeys_nil_left]; exact List.Perm.refl _
    | x :: a, [] => rw [mergeKeys_nil_right, List.append_nil]
    | x :: a, y :: b =>
      rw [mergeKeys_cons]
      split
      · exact (ih a (y :: b)).cons x
      · exact ((ih (x :: a) b).cons y).trans List.perm_middle.symm

theorem head_mergeKeys {n : Nat} {a b : List (Nat × Nat)} {z : Nat × Nat} (h : z ∈ (mergeKeys c desc n a b).head?) : z ∈ a.head? ∨ z ∈ b.head? := by
  match a, b with
  | [], b => exact Or.inr (mergeKeys_nil_left n b ▸ h)
  | x :: a, [] => exact Or.inl (mergeKeys_nil_right n (x :: a) ▸ h)
  | x :: a, y :: b =>
    cases n with
    | zero => exact Or.inl h
    | succ n =>
      rw [mergeKeys_cons] at h
      split at h
      · exact Or.inl h
      · exact Or.inr h

/-- With fuel for both sources the merge of sorted lists is sorted. -/
theorem isSorted_mergeKeys {n : Nat} {a b : List (Nat × Nat)} (hn : a.length + b.length ≤ n) (ha : isSorted c desc a = true) (hb : isSorted c desc b = true) :
    isSorted c desc (mergeKeys c desc n a b) = true := by
  induction n generalizing a b with
  | zero =>
    obtain rfl := List.eq_nil_of_length_eq_zero (l := a) (by omega)
    rw [mergeKeys_nil_left]
    exact hb
  | succ n ih =>
    match a, b with
    | [], b => rw [mergeKeys_nil_left]; exact hb
    | x :: a, [] => rw [mergeKeys_nil_right]; exact ha
    | x :: a, y :: b =>
      obtain ⟨hxa, ha'⟩ := (isSorted_cons c desc x a).1 ha
      obtain ⟨hyb, hb'⟩ := (isSorted_cons c desc y b).1 hb
      simp only [List.length_cons] at hn
      rw [mergeKeys_cons]
      split
      next hxy =>
        refine (isSorted_cons ..).2 ⟨fun z hz => ?_, ih (by simp only [List.length_cons]; omega) ha' hb⟩
        rcases head_mergeKeys hz with hz | hz
        · exact hxa z hz
        · exact Option.some.inj hz ▸ hxy
      next hxy =>
        refine (isSorted_cons ..).2 ⟨fun z hz => ?_, ih (by simp only [List.length_cons]; omega) ha hb'⟩
        rcases head_mergeKeys hz with hz | hz
        · exact Option.some.inj hz ▸ keyLe_total hxy
        · exact hyb z hz

end

theorem keyPairs_length (k v : BitVec 8192) : (keyPairs k v).length = 256 := by
  simp [keyPairs, lanes, upTo]

/-! ## The values of the operations -/

section
variable (u : State) (p : PodId) (f : VuFields)

/-- The lanes that XCVTO writes: its 144, and those past them as the register holds them. -/
def xcvtoNew : List Flagged :=
  xcvtoLanes (vuMode u p f 0) (vReg (pod u p) f.va) ++ ((lanes 32 (vReg (pod u p) f.vd)).drop 144).map (fun v => (v, 0))

theorem vuValue_xcvto : vuValue u p 0x14 f = ([(destV f.vd, joinLanes 32 (mergeLanes (mReg (pod u p) f.mask) (lanes 32 (vReg (pod u p) f.vd))
      ((xcvtoNew u p f).map (·.1))))],
    Nat.lor (maskedFlags (mReg (pod u p) f.mask) (xcvtoNew u p f))
      (unionFlags ((upTo 4).map (fun b => xcvtFlags (regBlock (vReg (pod u p) f.va) b))))) := by
  simp [vuValue, laneResult, xcvtoNew]

theorem vuLatency_trans : vuLatency u p 0x24 f = if isA1 u || flag u (rPod p.val 0x600) 3 then
      (if f.sub.toNat ≤ 3 then 24 else if f.sub.toNat ≤ 6 then 20 else 28)
    else (if f.sub.toNat ≤ 3 then 16 else if f.sub.toNat ≤ 6 then 14 else 18) := by
  have hap1 : (isA1 u || flag u (rPod p.val 0x600) 3) = ap1Active u p := rfl
  change (transTiming u p f.sub.toNat).2 = _
  unfold transTiming
  rw [hap1]
  split <;> rfl

theorem vuValue_sort : vuValue u p 0x20 f = ([(destV f.vd, (pairValues (sortBy (keyLe f.fmt.toNat (f.sub.getLsbD 0)) (keyPairs (vReg (pod u p) f.va)
      (if f.sub.getLsbD 1 then vReg (pod u p) f.vb else BitVec.ofNat 8192 (joinLanes 32 (upTo 256)))))).1),
    (destVn (f.vd.toNat + 1), (pairValues (sortBy (keyLe f.fmt.toNat (f.sub.getLsbD 0)) (keyPairs (vReg (pod u p) f.va)
      (if f.sub.getLsbD 1 then vReg (pod u p) f.vb else BitVec.ofNat 8192 (joinLanes 32 (upTo 256)))))).2)], 0) := rfl

theorem vuValue_merge {a b : List (Nat × Nat)} (ha : a = keyPairs (vReg (pod u p) f.va) (vReg (pod u p) (f.va + 1)))
    (hb : b = keyPairs (vReg (pod u p) f.vb) (vReg (pod u p) (f.vb + 1))) (hsa : isSorted f.fmt.toNat (f.sub.getLsbD 0) a = true)
    (hsb : isSorted f.fmt.toNat (f.sub.getLsbD 0) b = true) {l : List (Nat × Nat)} (hl : l = mergeKeys f.fmt.toNat (f.sub.getLsbD 0) 512 a b) :
    vuValue u p 0x21 f = ([(destV f.vd, (pairValues (l.take 256)).1), (destVn (f.vd.toNat + 1), (pairValues (l.take 256)).2),
      (destVn (f.vd.toNat + 2), (pairValues (l.drop 256)).1), (destVn (f.vd.toNat + 3), (pairValues (l.drop 256)).2)], 0) := by
  have hvalues : mergeValues f.fmt.toNat (f.sub.getLsbD 0) a b
      = [(pairValues (l.take 256)).1, (pairValues (l.take 256)).2, (pairValues (l.drop 256)).1, (pairValues (l.drop 256)).2] := by
    unfold mergeValues
    rw [hsa, hsb, hl]
    rfl
  have hvalue : vuValue u p 0x21 f = ((List.zip (upTo 4) (mergeValues f.fmt.toNat (f.sub.getLsbD 0) a b)).map (fun e => (destVn (f.vd.toNat + e.1), e.2)), 0) := by
    rw [ha, hb]
    rfl
  rw [hvalue, hvalues]
  rfl

end

end Sys2Proof.Machine

open Sys2Proof.Machine in
/-- Settles O46: each operation leaves what its value is, so only the list that SORT and MERGE give needs an argument: it holds the source's pairs and
is sorted. -/
theorem vectorConversionsAndSorting : Obligations.VectorConversionsAndSorting := by
  unfold Obligations.VectorConversionsAndSorting
  intro p f s _
  refine ⟨?cvt, ?xadd, ?xcvti, ?xcvto, ?mxq, ?trans, ?sort, ?merge⟩
  case cvt => exact vu_issues rfl (by decide) (by decide) rfl rfl
  case xadd => exact vu_issues rfl (by decide) (by decide) rfl rfl
  case xcvti => exact vu_issues rfl (by decide) (by decide) rfl rfl
  case xcvto => exact vu_issues rfl (by decide) (by decide) (vuValue_xcvto _ p f).symm rfl
  case mxq => exact vu_issues rfl (by decide) (by decide) rfl rfl
  case trans => exact vu_issues rfl (by decide) (by decide) rfl (vuLatency_trans _ p f).symm
  case sort =>
    rintro x rfl
    exact ⟨_, sortBy_perm _ _, isSorted_sortBy _, vu_issues rfl (by decide) (by decide) (vuValue_sort _ p f).symm rfl⟩
  case merge =>
    rintro x a b rfl ha hb hsa hsb
    have hlen : a.length + b.length ≤ 512 := by rw [ha, hb, keyPairs_length, keyPairs_length]
    exact ⟨_, mergeKeys_perm 512 a b, isSorted_mergeKeys hlen hsa hsb, vu_issues rfl (by decide) (by decide) (vuValue_merge _ p f ha hb hsa hsb rfl).symm rfl⟩
end

section
/-! The accumulators of a Matrix Engine as tables: what a cell or column reads after an ME.MMA (R43, R45, R51, R54, R55, R63). -/

namespace Sys2Proof.Machine

open Sys2Proof.Claims (tile)

/-! ## Ranges of a table -/

theorem tabGet_updateRange {α : Type} [DecidableEq α] (d : α) (f : Nat → α → α) (lo n : Nat) (t : Tab α) (k : Nat) :
    tabGet d (tabUpdateRange d f lo n t) k = if lo ≤ k ∧ k < lo + n then f k (tabGet d t k) else tabGet d t k := by
  induction n generalizing lo t with
  | zero => rw [if_neg (by omega)]; rfl
  | succ n ih =>
    have hset := tabGet_set (d := fun _ => d) (t := t) lo k (f lo (tabGet d t lo))
    rw [tabUpdateRange, ih, hset]
    by_cases hk : lo = k
    · subst hk
      rw [if_neg (by omega), if_pos rfl, if_pos (by omega)]
    · rw [if_neg hk]
      by_cases hin : lo + 1 ≤ k ∧ k < lo + 1 + n
      · rw [if_pos hin, if_pos (by omega)]
      · rw [if_neg hin, if_neg (by omega)]

/-! ## Cells -/

/-- First row and column of the tile of a quadrant, or of the whole array. -/
def tileRow (q : Nat) : Nat := if q < 4 then quadRows q else 0
def tileCol (q : Nat) : Nat := if q < 4 then quadCols q else 0

theorem tile_eq (f : MeFields) (i j : Nat) : tile f i j = (tileRow (quadOf f) + i, tileCol (quadOf f) + j) := by
  unfold tile tileRow tileCol
  split <;> simp

theorem tile_fits (q : Nat) : tileRow q + quadSize q ≤ 64 ∧ tileCol q + quadSize q ≤ 64 := by
  unfold tileRow tileCol quadRows quadCols quadSize
  split_ifs <;> omega

/-- The cells once the first `m` rows of the tile have been updated. -/
def rowsUpdated (t : Tab Acc) (acc q : Nat) (g : Nat → Nat → Acc → Acc) (m : Nat) : Tab Acc :=
  (upTo m).foldl (fun t i => tabUpdateRange Acc.zero (fun k a => g i (k - (acc * 4096 + (tileRow q + i) * 64 + tileCol q)) a)
    (acc * 4096 + (tileRow q + i) * 64 + tileCol q) (quadSize q) t) t

theorem updCells_cells (e : Engine) (acc q : Nat) (g : Nat → Nat → Acc → Acc) : (updCells e acc q g).cells = rowsUpdated e.cells acc q g (quadSize q) := rfl

theorem rowsUpdated_succ (t : Tab Acc) (acc q : Nat) (g : Nat → Nat → Acc → Acc) (m : Nat) : rowsUpdated t acc q g (m + 1)
    = tabUpdateRange Acc.zero (fun k a => g m (k - (acc * 4096 + (tileRow q + m) * 64 + tileCol q)) a)
        (acc * 4096 + (tileRow q + m) * 64 + tileCol q) (quadSize q) (rowsUpdated t acc q g m) := by
  unfold rowsUpdated upTo
  rw [List.range_succ, List.foldl_append]
  rfl

/-- A cell of the tile takes its new value. -/
theorem cellOf_updCells (e : Engine) (acc q : Nat) (g : Nat → Nat → Acc → Acc) {i j : Nat} (hi : i < quadSize q) (hj : j < quadSize q) :
    cellOf (updCells e acc q g) acc (tileRow q + i) (tileCol q + j) = g i j (cellOf e acc (tileRow q + i) (tileCol q + j)) := by
  have hrows (m : Nat) : tabGet Acc.zero (rowsUpdated e.cells acc q g m) (acc * 4096 + (tileRow q + i) * 64 + (tileCol q + j))
      = if i < m then g i j (cellOf e acc (tileRow q + i) (tileCol q + j)) else cellOf e acc (tileRow q + i) (tileCol q + j) := by
    have hcols := (tile_fits q).2
    induction m with
    | zero => rw [if_neg (by omega)]; rfl
    | succ m ih =>
      rw [rowsUpdated_succ, tabGet_updateRange, ih]
      by_cases him : i = m
      · subst him
        have hcol : acc * 4096 + (tileRow q + i) * 64 + (tileCol q + j) - (acc * 4096 + (tileRow q + i) * 64 + tileCol q) = j := by omega
        rw [if_pos (by omega), if_neg (by omega), if_pos (by omega), hcol]
      · rw [if_neg (by omega)]
        by_cases hlt : i < m
        · rw [if_pos hlt, if_pos (by omega)]
        · rw [if_neg hlt, if_neg (by omega)]
  unfold cellOf
  rw [updCells_cells, hrows, if_pos hi]
  rfl

/-- A cell of another accumulator stays. -/
theorem cellOf_updCells_ne (e : Engine) {acc b : Nat} (q : Nat) (g : Nat → Nat → Acc → Acc) (hb : b ≠ acc) {r c : Nat} (hr : r < 64) (hc : c < 64) :
    cellOf (updCells e acc q g) b r c = cellOf e b r c := by
  obtain ⟨hrow, hcol⟩ := tile_fits q
  have hrows (m : Nat) (hm : m ≤ quadSize q) : tabGet Acc.zero (rowsUpdated e.cells acc q g m) (b * 4096 + r * 64 + c) = cellOf e b r c := by
    induction m with
    | zero => rfl
    | succ m ih => rw [rowsUpdated_succ, tabGet_updateRange, if_neg (by omega), ih (by omega)]
  exact hrows _ (Nat.le_refl _)

/-! ## Columns -/

theorem colOf_updCols (e : Engine) (acc : Nat) (g : Nat → Col → Col) {j : Nat} (hj : j < 64) : colOf (updCols e acc g) acc j = g j (colOf e acc j) := by
  have hcol : acc * 64 + j - acc * 64 = j := by omega
  unfold colOf updCols
  dsimp only
  rw [tabGet_updateRange, if_pos (by omega), hcol]

/-! ## The starts (R54, R63) -/

section
variable (s : State) (p : PodId) (f : MeFields) (d : MeDesc) (e : Engine)

/-- The start of a cell of the tile. -/
def startOf (i j : Nat) : Acc :=
  if f.start = 0 then Acc.zero
  else if f.start = 2 then seedCell d.eBase (seedBlock s p (mmaSeed (pod s p) f d + i * d.dstStride) (quadOf f) j).1
    (seedBlock s p (mmaSeed (pod s p) f d + i * d.dstStride) (quadOf f) j).2
  else cellOf e f.acc.toNat (tileRow (quadOf f) + i) (tileCol (quadOf f) + j)

theorem cellOf_startCells {i j : Nat} (hi : i < quadSize (quadOf f)) (hj : j < quadSize (quadOf f)) :
    cellOf (startCells s p f d e) f.acc.toNat (tileRow (quadOf f) + i) (tileCol (quadOf f) + j) = startOf s p f d e i j := by
  unfold startCells startOf
  dsimp only
  split
  · exact cellOf_updCells e _ _ _ hi hj
  · split
    · exact cellOf_updCells e _ _ _ hi hj
    · rfl

theorem cellOf_startCells_ne {b r c : Nat} (hb : b ≠ f.acc.toNat) (hr : r < 64) (hc : c < 64) : cellOf (startCells s p f d e) b r c = cellOf e b r c := by
  unfold startCells
  dsimp only
  split
  · exact cellOf_updCells_ne e _ _ hb hr hc
  · split
    · exact cellOf_updCells_ne e _ _ hb hr hc
    · rfl

theorem colOf_startCols {j : Nat} (hj : j < 64) : colOf (startCols s p f d e) f.acc.toNat j = if f.start = 0 then Col.zero
    else if f.start = 2 then seedCol (seedBlock s p (mmaSeed (pod s p) f d) 4 j).1 (seedBlock s p (mmaSeed (pod s p) f d) 4 j).2
    else colOf e f.acc.toNat j := by
  unfold startCols
  dsimp only
  split
  · exact colOf_updCols e _ _ hj
  · split
    · exact colOf_updCols e _ _ hj
    · rfl

/-! ## The products -/

/-- What K block `kb` adds to a cell of the tile. -/
def blockAdded (kb i j : Nat) (a : Acc) : Acc :=
  accBlock d.eBase (rowScale s p (aScaled d) d.sa kb i) (rowScale s p (bScaled d) d.sb kb j)
    (rowElems s p d.fmtA (mmaA (pod s p) f d) d.aStride d.k kb i) (rowElems s p d.fmtB (mmaB (pod s p) f d) d.bStride d.k kb j) a

/-- The rows and scales of a K block, listed for the whole tile. -/
def tileAdded (kb i j : Nat) (a : Acc) : Acc :=
  let n := quadSize (quadOf f)
  accBlock d.eBase (((upTo n).map (fun i => rowScale s p (aScaled d) d.sa kb i)).getD i 0) (((upTo n).map (fun i => rowScale s p (bScaled d) d.sb kb i)).getD j 0)
    (((upTo n).map (fun i => rowElems s p d.fmtA (mmaA (pod s p) f d) d.aStride d.k kb i)).getD i [])
    (((upTo n).map (fun i => rowElems s p d.fmtB (mmaB (pod s p) f d) d.bStride d.k kb i)).getD j []) a

theorem getD_map_upTo {α : Type} (n : Nat) (g : Nat → α) (x : α) {i : Nat} (hi : i < n) : ((upTo n).map g).getD i x = g i := by
  simp [upTo, hi]

theorem tileAdded_eq (kb : Nat) {i j : Nat} (a : Acc) (hi : i < quadSize (quadOf f)) (hj : j < quadSize (quadOf f)) :
    tileAdded s p f d kb i j a = blockAdded s p f d kb i j a := by
  unfold tileAdded blockAdded
  dsimp only
  rw [getD_map_upTo _ _ _ hi, getD_map_upTo _ _ _ hj, getD_map_upTo _ _ _ hi, getD_map_upTo _ _ _ hj]

theorem narrowTile_eq : narrowTile s p f d e = (upTo (kBlocks d.k)).foldl (fun e kb => updCells e f.acc.toNat (quadOf f) (tileAdded s p f d kb)) e := rfl

theorem cellOf_narrowTile {i j : Nat} (hi : i < quadSize (quadOf f)) (hj : j < quadSize (quadOf f)) :
    cellOf (narrowTile s p f d e) f.acc.toNat (tileRow (quadOf f) + i) (tileCol (quadOf f) + j)
      = (upTo (kBlocks d.k)).foldl (fun a kb => blockAdded s p f d kb i j a) (cellOf e f.acc.toNat (tileRow (quadOf f) + i) (tileCol (quadOf f) + j)) := by
  rw [narrowTile_eq]
  generalize upTo (kBlocks d.k) = l
  induction l generalizing e with
  | nil => rfl
  | cons kb l ih => rw [List.foldl_cons, ih, List.foldl_cons, cellOf_updCells e _ _ _ hi hj, tileAdded_eq s p f d kb _ hi hj]

theorem cellOf_narrowTile_ne {b r c : Nat} (hb : b ≠ f.acc.toNat) (hr : r < 64) (hc : c < 64) : cellOf (narrowTile s p f d e) b r c = cellOf e b r c := by
  rw [narrowTile_eq]
  generalize upTo (kBlocks d.k) = l
  induction l generalizing e with
  | nil => rfl
  | cons kb l ih => rw [List.foldl_cons, ih, cellOf_updCells_ne e _ _ hb hr hc]

/-! ## The accumulators after an ME.MMA -/

/-- The cells of the tile marked RANGE. -/
def rangeMarked : Engine := updCells e f.acc.toNat (quadOf f) (fun _ _ a => { a with range := true })

theorem mmaResult_column (hcol : isColFmt d.fmtA = true) : mmaResult s p f d e = columnRow s p f d (startCols s p f d e) := if_pos hcol

theorem mmaResult_mismatch (hcol : isColFmt d.fmtA = false) (hbase : baseMismatch f d e = true) :
    mmaResult s p f d e = storeBases f d (rangeMarked f e) := by
  unfold mmaResult
  rw [hcol, hbase]
  rfl

theorem mmaResult_narrow (hcol : isColFmt d.fmtA = false) (hbase : baseMismatch f d e = false) :
    mmaResult s p f d e = narrowTile s p f d (storeBases f d (startCells s p f d e)) := by
  unfold mmaResult
  rw [hcol, hbase]
  rfl

theorem cellOf_storeBases (b r c : Nat) : cellOf (storeBases f d e) b r c = cellOf e b r c := rfl

/-- Cells of a narrow ME.MMA: the start and the products of every K block. -/
theorem cellOf_mmaResult (hcol : isColFmt d.fmtA = false) (hbase : baseMismatch f d e = false) {i j : Nat} (hi : i < quadSize (quadOf f))
    (hj : j < quadSize (quadOf f)) : cellOf (mmaResult s p f d e) f.acc.toNat (tileRow (quadOf f) + i) (tileCol (quadOf f) + j)
      = (upTo (kBlocks d.k)).foldl (fun a kb => blockAdded s p f d kb i j a) (startOf s p f d e i j) := by
  rw [mmaResult_narrow s p f d e hcol hbase, cellOf_narrowTile s p f d _ hi hj, cellOf_storeBases, cellOf_startCells s p f d e hi hj]

/-- A CONTINUE on another E_BASE marks the cells of its tile. -/
theorem cellOf_mmaResult_mismatch (hcol : isColFmt d.fmtA = false) (hbase : baseMismatch f d e = true) {i j : Nat} (hi : i < quadSize (quadOf f))
    (hj : j < quadSize (quadOf f)) : cellOf (mmaResult s p f d e) f.acc.toNat (tileRow (quadOf f) + i) (tileCol (quadOf f) + j)
      = { cellOf e f.acc.toNat (tileRow (quadOf f) + i) (tileCol (quadOf f) + j) with range := true } := by
  rw [mmaResult_mismatch s p f d e hcol hbase, cellOf_storeBases]
  exact cellOf_updCells e _ _ _ hi hj

/-- The cells of the other accumulator stay. -/
theorem cellOf_mmaResult_ne (hcol : isColFmt d.fmtA = false) {b r c : Nat} (hb : b ≠ f.acc.toNat) (hr : r < 64) (hc : c < 64) :
    cellOf (mmaResult s p f d e) b r c = cellOf e b r c := by
  cases hbase : baseMismatch f d e with
  | true =>
    rw [mmaResult_mismatch s p f d e hcol hbase, cellOf_storeBases]
    exact cellOf_updCells_ne e _ _ hb hr hc
  | false =>
    rw [mmaResult_narrow s p f d e hcol hbase, cellOf_narrowTile_ne s p f d _ hb hr hc, cellOf_storeBases, cellOf_startCells_ne s p f d e hb hr hc]

/-! ## What the accumulators leave of their engine -/

/-- Accumulators and the stored E_BASE may differ, and nothing else of an engine. -/
def AccsOnly (e g : Engine) : Prop := g = { e with cells := g.cells, cols := g.cols, bases := g.bases }

theorem AccsOnly.trans {e g h : Engine} (hg : AccsOnly e g) (hh : AccsOnly g h) : AccsOnly e h := by
  unfold AccsOnly at *
  rw [hh, hg]

theorem updCells_accsOnly (acc q : Nat) (g : Nat → Nat → Acc → Acc) : AccsOnly e (updCells e acc q g) := rfl

theorem updCols_accsOnly (acc : Nat) (g : Nat → Col → Col) : AccsOnly e (updCols e acc g) := rfl

theorem startCells_accsOnly : AccsOnly e (startCells s p f d e) := by
  unfold startCells
  dsimp only
  split
  · exact updCells_accsOnly ..
  · split
    · exact updCells_accsOnly ..
    · rfl

theorem startCols_accsOnly : AccsOnly e (startCols s p f d e) := by
  unfold startCols
  dsimp only
  split
  · exact updCols_accsOnly ..
  · split
    · exact updCols_accsOnly ..
    · rfl

theorem narrowTile_accsOnly : AccsOnly e (narrowTile s p f d e) := by
  rw [narrowTile_eq]
  generalize upTo (kBlocks d.k) = l
  induction l generalizing e with
  | nil => rfl
  | cons kb l ih => exact (updCells_accsOnly e _ _ _).trans (ih _)

theorem storeBases_accsOnly : AccsOnly e (storeBases f d e) := rfl

theorem columnRow_accsOnly : AccsOnly e (columnRow s p f d e) := by
  unfold columnRow
  exact updCols_accsOnly e _ _

theorem mmaResult_accsOnly : AccsOnly e (mmaResult s p f d e) := by
  unfold mmaResult
  split
  · exact (startCols_accsOnly s p f d e).trans (columnRow_accsOnly ..)
  · split
    · exact (updCells_accsOnly ..).trans (storeBases_accsOnly ..)
    · exact ((startCells_accsOnly s p f d e).trans (storeBases_accsOnly ..)).trans (narrowTile_accsOnly ..)

/-- Columns of a column ME.MMA: the start and the products of the row. -/
theorem colOf_mmaResult (hcol : isColFmt d.fmtA = true) {j : Nat} (hj : j < 64) : colOf (mmaResult s p f d e) f.acc.toNat j
    = (List.zip ((upTo d.k).map (fun i => meElem d.fmtA (partA d) (numAt (memRead s (podAddr p (mmaA (pod s p) f d)) (d.k * colBytes d.fmtA))
          (i * colBytes d.fmtA) (colBytes d.fmtA)))) (bufElems (vget e.bufs (fin 2 (by decide) f.buf.toNat)) d j)).foldl (fun a y => colProduct a y.1 y.2)
        (if f.start = 0 then Col.zero
          else if f.start = 2 then seedCol (seedBlock s p (mmaSeed (pod s p) f d) 4 j).1 (seedBlock s p (mmaSeed (pod s p) f d) 4 j).2
          else colOf e f.acc.toNat j) := by
  have hbufs : (startCols s p f d e).bufs = e.bufs := (congrArg Engine.bufs (startCols_accsOnly s p f d e) :)
  rw [mmaResult_column s p f d e hcol, ← colOf_startCols s p f d e hj, ← hbufs]
  unfold columnRow
  exact colOf_updCols _ _ _ hj

end

/-- The accumulators depend on the device through memory and the scalar registers of the Pod alone. -/
theorem mmaResult_congr {s t : State} {p : PodId} (hm : t.mem = s.mem) (hs : (pod t p).s = (pod s p).s) (f : MeFields) (d : MeDesc) (e : Engine) :
    mmaResult t p f d e = mmaResult s p f d e := by
  have hnum (i : BitVec 5) : sNum (pod t p) i = sNum (pod s p) i := by
    unfold sNum sReg
    rw [hs]
  have hread : memRead t = memRead s := funext (fun a => funext (fun n => memRead_of_mem hm a n))
  have hbyte : memByte t = memByte s := funext (memByte_congr hm)
  unfold mmaResult narrowTile columnRow startCells startCols seedBlock rowElems rowScale mmaA mmaB mmaSeed
  simp only [hnum, hread, hbyte]

end Sys2Proof.Machine
end

section
/-! What the parts of a Matrix Engine operation leave alone: the checks of the bytes it reads (R176, R177), the pair digest of the bytes it writes
(R323, R326), and the ranges it holds (R160). -/

namespace Sys2Proof.Machine

theorem Faulting.pod {l : List Nat} {s t : State} (h : Faulting l s t) (q : PodId) : pod t q = pod s q :=
  congrArg (fun v => vget v q) (congrArg State.pods h.frame :)

/-! ## Checks of the bytes read -/

/-- The registers that a read of a Pod store may write. -/
def storeErrRegs (p : PodId) : List Nat := [rPod p 0x700, rPod p 0x704, rErrStoreUe, rErrStoreUe + 4] ++ capRegs 6 ++ faultRegs

theorem raisePodErr_faulting (s : State) (b off : Nat) (p : PodId) (addr : Nat) :
    Faulting ([off, off + 4] ++ capRegs b ++ faultRegs) s (raisePodErr s b off p addr true) := by
  have hoff : off + 4 * (p.val / 32) ∈ [off, off + 4] ++ capRegs b := by
    have hhalf : p.val / 32 = 0 ∨ p.val / 32 = 1 := by omega
    rcases hhalf with h | h <;> rw [h] <;> simp
  exact raiseFault_faulting s b _ _ _ _ hoff (List.subset_append_right _ _)

theorem storeRead_faulting (s : State) (p : PodId) (o n : Nat) : Faulting (storeErrRegs p) s (storeRead s p o n).1 := by
  have hcount (l : List Nat) : Faulting (storeErrRegs p) s
      (forEach l s (fun t w => addSat t (rPod p (if w < podAddr p 0x1000000 then 0x700 else 0x704)) 1)) := by
    refine Faulting.foldl l s (fun t w _ => setReg_faulting_mem t _ ?_)
    split <;> simp [storeErrRegs]
  unfold storeRead
  dsimp only
  split
  · refine (hcount _).trans ((raisePodErr_faulting ..).mono ?_)
    simp [storeErrRegs, List.subset_def]
    tauto
  · exact hcount _

theorem checkPieces_faulting (s : State) (p : PodId) (l : List (Nat × Nat)) : Faulting (storeErrRegs p) s (checkPieces s p l) :=
  Faulting.foldl l s (fun t e _ => storeRead_faulting t p e.1 e.2)

/-- The registers of the Matrix Engines are not among them. -/
theorem faulting_meReg {s t : State} {p : PodId} {l : List Nat} (h : Faulting l s t) (hl : ∀ o ∈ l, o < 0x1000000 ∨ o = rPod p 0x700 ∨ o = rPod p 0x704)
    {z : Nat} (hz : z = 0x404 ∨ z = 0x408 ∨ z = 0x40C) : reg t (rPod p z) = reg s (rPod p z) := by
  refine h.regs _ (fun hm => ?_) ?_
  · have := hl _ hm
    unfold rPod at this
    omega
  · rintro (hw | hp | hs | ⟨q, hq⟩)
    · exact noCode_of_low (o := rWeaveState) (by decide) p (by unfold rPod at *; revert hw; unfold rWeaveState; omega)
    · have := (by decide : ∀ o ∈ pbaRegs, o < 0x1000000) _ hp
      unfold rPod at this
      omega
    · unfold rPod at hs
      omega
    · unfold rPod at hq
      omega

/-! ## The pair digest -/

/-- The pair digest and the capture of a write of Pod `p` may lie between the two states: its control core may differ, registers of the pair's error,
and memory where LOCATE captures. -/
structure Digested (p : PodId) (s t : State) : Prop where
  others : ∀ q, q ≠ p → pod t q = pod s q
  own : ∃ k, pod t p = { pod s p with core := k }
  regs : ∀ o, o ∉ rErrPair :: capRegs 13 → o ∉ pbaRegs → reg t o = reg s o
  mem : locating s p = false → t.mem = s.mem ∧ locating t p = false

theorem Digested.refl (p : PodId) (s : State) : Digested p s s := ⟨fun _ _ => rfl, ⟨_, rfl⟩, fun _ _ _ => rfl, fun h => ⟨rfl, h⟩⟩

theorem Digested.trans {p : PodId} {s t u : State} (h : Digested p s t) (g : Digested p t u) : Digested p s u := by
  obtain ⟨k, hk⟩ := h.own
  obtain ⟨m, hm⟩ := g.own
  refine ⟨fun q hq => (g.others q hq).trans (h.others q hq), ⟨m, by rw [hm, hk]⟩, fun o ho hp => (g.regs o ho hp).trans (h.regs o ho hp), fun hl => ?_⟩
  obtain ⟨hmem, hl'⟩ := h.mem hl
  exact ⟨(g.mem hl').1.trans hmem, (g.mem hl').2⟩

theorem Digested.foldl {α : Type} {p : PodId} {f : State → α → State} (hf : ∀ t a, Digested p t (f t a)) (l : List α) (s : State) : Digested p s (l.foldl f s) := by
  induction l generalizing s with
  | nil => exact Digested.refl p s
  | cons a l ih => exact (hf s a).trans (ih (f s a))

theorem modCore_digested (s : State) (p : PodId) (g : Core → Core) : Digested p s (modCore s p g) :=
  ⟨fun _ hq => pod_modPod_ne s _ (Ne.symm hq), ⟨_, pod_modPod s p _⟩, fun _ _ _ => rfl, fun h => ⟨rfl, h⟩⟩

/-- In LOCATE mode a unit is captured, or its error is raised. -/
theorem captureUnit_digested {s : State} {p : PodId} (hl : locating s p = true) (slot addr : Nat) (h : Word64) : Digested p s (captureUnit s p slot addr h) := by
  have hno (t : State) : locating s p = false → t.mem = s.mem ∧ locating t p = false := fun hf => absurd (hl.symm.trans hf) (by decide)
  unfold captureUnit
  dsimp only
  split
  · exact ⟨fun _ _ => rfl, ⟨_, rfl⟩, fun _ _ _ => rfl, hno _⟩
  · have herr := raiseErr_noted s 13 rErrPair 2 0xFF (weaveFrame s) (l := rErrPair :: capRegs 13) List.mem_cons_self (List.subset_cons_self ..)
    have hpods (q : PodId) : pod (raiseErr s 13 rErrPair 2 0xFF (weaveFrame s)) q = pod s q := herr.faulting.pod q
    exact ⟨fun q _ => hpods q, ⟨_, hpods p⟩, herr.regs, hno _⟩

theorem digestWrite_digested (s : State) (p : PodId) (slot a : Nat) (b : List Byte) : Digested p s (digestWrite s p slot a b) := by
  refine Digested.foldl (fun t u => ?_) _ s
  dsimp only
  split
  next hl => exact (modCore_digested t p _).trans (captureUnit_digested hl slot _ _)
  next => exact modCore_digested t p _

/-! ## Ranges and serials -/

/-- The ranges of a Pod may differ, and nothing else. -/
def RangesOnly (x y : Pod) : Prop := y = { x with ranges := y.ranges }

theorem addRange_rangesOnly (x : Pod) (op cls : Nat) (w : Bool) (span : Option (Nat × Nat)) (due : Option Nat) (l : List (Nat × List Byte)) :
    RangesOnly x (addRange x op cls w span due l) := by
  unfold addRange
  split <;> rfl

theorem RangesOnly.trans {x y z : Pod} (h : RangesOnly x y) (g : RangesOnly y z) : RangesOnly x z := by
  unfold RangesOnly at *
  rw [g, h]

theorem RangesOnly.foldl {α : Type} {f : Pod → α → Pod} (hf : ∀ x a, RangesOnly x (f x a)) (l : List α) (x : Pod) : RangesOnly x (l.foldl f x) := by
  induction l generalizing x with
  | nil => rfl
  | cons a l ih => exact (hf x a).trans (ih (f x a))

theorem spanOf_isSome {l : List (Nat × Nat)} (h : l ≠ []) : ∃ e, spanOf l = some e := by
  cases l with
  | nil => exact absurd rfl h
  | cons a l =>
    unfold spanOf
    split <;> exact ⟨_, rfl⟩

/-- A Pod whose next operation has its serial. -/
def numbered (x : Pod) : Pod := { x with core := { x.core with nextOp := x.core.nextOp + 1 } }

theorem pod_nextSerial (s : State) (p : PodId) : pod (nextSerial s p).2 p = numbered (pod s p) := pod_modPod s p _

theorem pod_nextSerial_ne (s : State) {p q : PodId} (h : q ≠ p) : pod (nextSerial s p).2 q = pod s q := pod_modPod_ne s _ (Ne.symm h)

theorem nextSerial_mem (s : State) (p : PodId) : (nextSerial s p).2.mem = s.mem := rfl

theorem reg_nextSerial (s : State) (p : PodId) (o : Nat) : reg (nextSerial s p).2 o = reg s o := rfl

end Sys2Proof.Machine
end

section
/-! ME.MMA, ME.DRAIN and ME.BLOAD as they issue (R142, R144, R145, R146, R160, R167, R168). -/

namespace Sys2Proof.Machine

open Sys2Proof.Claims (Issues)

theorem runOp_me {s : State} {p : PodId} {c : Nat} {f : MeFields} (h : Issues s p (.me c f)) (hc : c ≠ 0) : runOp s p (.me c f)
    = (if c = 1 then issueMma (settleFor s p (.me c f)) p f else if c = 2 then issueDrain (settleFor s p (.me c f)) p f
        else issueBload (settleFor s p (.me c f)) p f) := by
  rw [runOp_issues h]
  exact congrArg Prod.fst (if_neg hc)

/-! ## ME.MMA -/

section
variable (s : State) (p : PodId) (f : MeFields)

/-- The descriptor of an operation. -/
def descOf : MeDesc := meDesc (mdReg (pod s p) f.md)

/-- The engine of an ME.MMA once it has issued. -/
def mmaEngine (v : State) (op c : Nat) (d : MeDesc) (e : Engine) : Engine :=
  { mmaFigures v p op c f d (mmaResult v p f d e) with forming := (mmaFigures v p op c f d (mmaResult v p f d e)).forming ++ [formingOf op f d] }

/-- The job of an ME.MMA, with the bytes that stand in the store at its issue. -/
def mmaJobOf (x : Pod) (v : State) : MmaJob :=
  let d := meDesc (mdReg x f.md)
  ⟨x.core.nextOp, engineOf f, f, mdReg x f.md, (mmaA x f d, mmaB x f d, mmaSeed x f d), vget x.me (engineOf f), mmaPieces x f d,
    (mmaPieces x f d).flatMap (fun e => memRead v (podAddr p e.1) e.2), false⟩

theorem cellOf_mmaEngine (v : State) (op c : Nat) (d : MeDesc) (e : Engine) (b i j : Nat) :
    cellOf (mmaEngine p f v op c d e) b i j = cellOf (mmaResult v p f d e) b i j := rfl

theorem colOf_mmaEngine (v : State) (op c : Nat) (d : MeDesc) (e : Engine) (b j : Nat) :
    colOf (mmaEngine p f v op c d e) b j = colOf (mmaResult v p f d e) b j := rfl

theorem forming_mmaEngine (v : State) (op c : Nat) (d : MeDesc) (e : Engine) : (mmaEngine p f v op c d e).forming = e.forming ++ [formingOf op f d] := by
  have h : (mmaResult v p f d e).forming = e.forming := (congrArg Engine.forming (mmaResult_accsOnly v p f d e) :)
  exact congrArg (· ++ [formingOf op f d]) h

/-- ME.MMA checks its pieces of store, then leaves its engine, its lines, its job and its ranges. -/
theorem issueMma_eq : ∃ g : Pod → Pod, issueMma s p f = modPod (checkPieces (nextSerial s p).2 p (mmaPieces (pod s p) f (descOf s p f))) p g
    ∧ ∀ y, RangesOnly { y with
        me := vput y.me (engineOf f) (mmaEngine p f (nextSerial s p).2 (pod s p).core.nextOp (pod s p).core.cycle (descOf s p f) (vget (pod s p).me (engineOf f)))
        lines := y.lines ++ mmaLines (pod s p) (pod s p).core.nextOp f (descOf s p f) (pod s p).core.cycle
        mmas := y.mmas ++ [mmaJobOf p f (pod s p) (nextSerial s p).2] } (g y) := by
  refine ⟨_, rfl, fun y => ?_⟩
  dsimp only
  split
  · exact (RangesOnly.foldl (fun z l => addRange_rangesOnly ..) _ _).trans (addRange_rangesOnly ..)
  · exact RangesOnly.foldl (fun z l => addRange_rangesOnly ..) _ _

theorem storeErrRegs_low : ∀ o ∈ storeErrRegs p, o < 0x1000000 ∨ o = rPod p 0x700 ∨ o = rPod p 0x704 := by
  have hlow := (by decide : ∀ o ∈ [rErrStoreUe, rErrStoreUe + 4] ++ capRegs 6 ++ faultRegs, o < 0x1000000)
  intro o ho
  have hsplit : o = rPod p 0x700 ∨ o = rPod p 0x704 ∨ o ∈ [rErrStoreUe, rErrStoreUe + 4] ++ capRegs 6 ++ faultRegs := by
    simpa [storeErrRegs] using ho
  rcases hsplit with h | h | h
  · exact Or.inr (Or.inl h)
  · exact Or.inr (Or.inr h)
  · exact Or.inl (hlow o h)

end

/-- What ME.MMA leaves of the device. -/
theorem issueMma_left (u : State) (p : PodId) (f : MeFields) :
    let t := issueMma u p f
    let x := pod u p
    let d := descOf u p f
    let e := mmaEngine p f (nextSerial u p).2 x.core.nextOp x.core.cycle d (vget x.me (engineOf f))
    MemSame u t ∧ (∀ q, q ≠ p → pod t q = pod u q) ∧ (pod t p).me = vput x.me (engineOf f) e
      ∧ (pod t p).mmas = x.mmas ++ [mmaJobOf p f x (nextSerial u p).2] ∧ reg64 t (rPod p 0x408) = reg64 u (rPod p 0x408) := by
  obtain ⟨g, hg, hleft⟩ := issueMma_eq u p f
  dsimp only
  have hcheck := checkPieces_faulting (nextSerial u p).2 p (mmaPieces (pod u p) f (descOf u p f))
  rw [hg]
  generalize checkPieces (nextSerial u p).2 p (mmaPieces (pod u p) f (descOf u p f)) = w at hcheck ⊢
  have hw := (hcheck.pod p).trans (pod_nextSerial u p)
  have hy := hleft (pod w p)
  rw [pod_modPod]
  refine ⟨fun a => ?_, fun q hq => ?_, ?_, ?_, ?_⟩
  · rw [memByte_congr (modPod_mem w p g) a, hcheck.mem a, memByte_congr (nextSerial_mem u p) a]
  · rw [pod_modPod_ne w g (Ne.symm hq), hcheck.pod q, pod_nextSerial_ne u hq]
  · rw [(congrArg Pod.me hy :), hw]
    rfl
  · rw [(congrArg Pod.mmas hy :), hw]
    rfl
  · have hreg {z : Nat} (hz : z = 0x404 ∨ z = 0x408 ∨ z = 0x40C) : reg (modPod w p g) (rPod p z) = reg u (rPod p z) := by
      rw [reg_modPod, faulting_meReg hcheck (storeErrRegs_low p) hz, reg_nextSerial]
    have hnext : rPod p 0x408 + 4 = rPod p 0x40C := by unfold rPod; omega
    refine reg64_congr (hreg (by omega)) ?_
    rw [hnext]
    exact hreg (by omega)

theorem mmaResult_nextSerial (u : State) (p : PodId) (f : MeFields) (d : MeDesc) (e : Engine) :
    mmaResult (nextSerial u p).2 p f d e = mmaResult u p f d e :=
  mmaResult_congr (nextSerial_mem u p) (by rw [pod_nextSerial]; rfl) f d e

theorem data_mmaJobOf {x : Pod} {u v : State} (p : PodId) (f : MeFields) (hm : v.mem = u.mem) :
    (mmaJobOf p f x v).data = (mmaJobOf p f x v).pieces.flatMap (fun y => memRead u (podAddr p y.1) y.2) := by
  have hread : memRead v = memRead u := funext (fun a => funext (fun n => memRead_of_mem hm a n))
  unfold mmaJobOf
  dsimp only
  rw [hread]

/-! ## ME.DRAIN -/

section
variable (s : State) (p : PodId) (f : MeFields) (d : MeDesc) (e : Engine)

/-- The pieces of store that a drain writes, with their bytes. -/
def drainPieces : List (Nat × List Byte) := (drainRows s p f d e).map (fun r => (r.1, r.2.1))

/-- The same at their device addresses. -/
def drainWrites : List (Nat × List Byte) := (drainPieces s p f d e).map (fun w => (podAddr p w.1, w.2))

theorem drainRows_ne_nil : drainRows s p f d e ≠ [] := by
  intro h
  have hrows : 0 ∈ upTo (opRows f d) := by
    unfold upTo opRows quadSize
    rw [List.mem_range]
    split_ifs <;> decide
  have hrow := (List.flatMap_eq_nil_iff.mp h) 0 hrows
  revert hrow
  dsimp only
  split
  · unfold drainBlocks
    split <;> simp [upTo, List.range_succ_eq_map]
  · simp

theorem drainRows_nextSerial : drainRows (nextSerial s p).2 p f d e = drainRows s p f d e := by
  have hmode : drainMode (nextSerial s p).2 p d = drainMode s p d := rfl
  have hnum (i : BitVec 5) : sNum (pod (nextSerial s p).2 p) i = sNum (pod s p) i := by rw [pod_nextSerial]; rfl
  have hreg (o : Nat) : pReg (nextSerial s p).2 p o = pReg s p o := rfl
  unfold drainRows
  dsimp only
  rw [hmode, hnum, hreg]

theorem drainWrites_nextSerial : drainWrites (nextSerial s p).2 p f d e = drainWrites s p f d e := by
  unfold drainWrites drainPieces
  rw [drainRows_nextSerial]

/-- A row of a floating-point target is one piece. -/
theorem drainWrites_float (ht : d.target ≠ 4) : drainWrites s p f d e = (upTo (opRows f d)).map (fun i =>
    (podAddr p (d.dst + sNum (pod s p) f.dreg + i * d.dstStride),
      (upTo (quadSize (quadOf f))).flatMap (fun j => leBytes (if d.target = 0 then 4 else if d.target = 1 then 2 else 1)
        (drainFloat d.target (flag s (rPod p 0x400) 2) (drainMode s p d) (drainAt f d e i j))))) := by
  unfold drainWrites drainPieces drainRows
  simp only [if_neg ht, ← List.map_eq_flatMap, List.map_map, List.flatMap_map]
  rfl

/-- A row of XPS blocks is a piece for each block. -/
theorem drainWrites_xps (ht : d.target = 4) : drainWrites s p f d e = (upTo (opRows f d)).flatMap (fun i =>
    (List.zip (upTo 2) (drainBlocks f d (drainMode s p d) e i)).map (fun b =>
      (podAddr p (d.dst + sNum (pod s p) f.dreg + i * d.dstStride + 256 * b.1), xpsBytes b.2))) := by
  unfold drainWrites drainPieces drainRows
  simp only [if_pos ht, List.map_flatMap, List.map_map]
  rfl

theorem drainWrites_xps_addr (ht : d.target = 4) : (drainWrites s p f d e).map (·.1) = (upTo (opRows f d)).flatMap (fun i =>
    (upTo (if quadOf f < 4 then 1 else 2)).map (fun b => podAddr p (d.dst + sNum (pod s p) f.dreg + i * d.dstStride + 256 * b))) := by
  have hfst (i : Nat) : (List.zip (upTo 2) (drainBlocks f d (drainMode s p d) e i)).map (·.1) = upTo (if quadOf f < 4 then 1 else 2) := by
    unfold drainBlocks
    dsimp only
    split <;> rfl
  rw [drainWrites_xps s p f d e ht, List.map_flatMap]
  refine congrArg (fun g => (upTo (opRows f d)).flatMap g) (funext (fun i => ?_))
  rw [← hfst i, List.map_map, List.map_map]
  rfl

theorem drainWrites_xps_bytes (ht : d.target = 4) : (drainWrites s p f d e).map (·.2)
    = (upTo (opRows f d)).flatMap (fun i => (drainBlocks f d (drainMode s p d) e i).map xpsBytes) := by
  have hsnd (i : Nat) : (List.zip (upTo 2) (drainBlocks f d (drainMode s p d) e i)).map (·.2) = drainBlocks f d (drainMode s p d) e i := by
    unfold drainBlocks
    dsimp only
    split <;> rfl
  rw [drainWrites_xps s p f d e ht, List.map_flatMap]
  refine congrArg (fun g => (upTo (opRows f d)).flatMap g) (funext (fun i => ?_))
  conv_rhs => rw [← hsnd i]
  rw [List.map_map, List.map_map]
  rfl

end

/-- A drain of engine content `e` as operation `op`: its writes enter the digest, then it leaves the engine `g` and the range that holds them. -/
def drainHeld (v : State) (p : PodId) (f : MeFields) (d : MeDesc) (e g : Engine) (op due : Nat) : State :=
  modPod (forEach (drainWrites v p f d e) v (fun t w => digestWrite t p 0 w.1 w.2)) p (fun y =>
    addRange { y with me := vput y.me (engineOf f) g } op 0 true (spanOf ((drainPieces v p f d e).map (fun w => (w.1, w.2.length)))) (some due)
      (drainWrites v p f d e))

/-- The range that a drain leaves, and what else of the device it touches. -/
theorem drainHeld_left (v : State) (p : PodId) (f : MeFields) (d : MeDesc) (e g : Engine) (op due : Nat) : ∃ (k : Core) (lo hi : Nat),
    pod (drainHeld v p f d e g op due) p = { pod v p with
      core := k
      me := vput (pod v p).me (engineOf f) g
      ranges := (pod v p).ranges ++ [⟨op, 0, true, lo, hi, false, some due, drainWrites v p f d e, [], false⟩] }
    ∧ (∀ q, q ≠ p → pod (drainHeld v p f d e g op due) q = pod v q) ∧ (locating v p = false → (drainHeld v p f d e g op due).mem = v.mem)
    ∧ reg (drainHeld v p f d e g op due) (rPod p 0x404) = reg v (rPod p 0x404) := by
  have hdig : Digested p v (forEach (drainWrites v p f d e) v (fun t w => digestWrite t p 0 w.1 w.2)) :=
    Digested.foldl (fun t (w : Nat × List Byte) => digestWrite_digested t p 0 w.1 w.2) _ v
  have hpieces : (drainPieces v p f d e).map (fun w => (w.1, w.2.length)) ≠ [] := by
    simp [drainPieces, drainRows_ne_nil]
  obtain ⟨⟨lo, hi⟩, hspan⟩ := spanOf_isSome hpieces
  unfold drainHeld
  rw [hspan]
  generalize forEach (drainWrites v p f d e) v (fun t w => digestWrite t p 0 w.1 w.2) = w at hdig ⊢
  obtain ⟨k, hk⟩ := hdig.own
  refine ⟨k, lo, hi, ?_, fun q hq => ?_, fun hl => ?_, ?_⟩
  · rw [pod_modPod, hk]
    rfl
  · rw [pod_modPod_ne w _ (Ne.symm hq), hdig.others q hq]
  · rw [modPod_mem, (hdig.mem hl).1]
  · have hlow := (by decide : ∀ o ∈ (rErrPair :: capRegs 13) ++ pbaRegs, o < 0x1000000)
    have hout : rPod p 0x404 ∉ (rErrPair :: capRegs 13) ++ pbaRegs := fun hm => by
      have := hlow _ hm
      unfold rPod at this
      omega
    rw [List.mem_append, not_or] at hout
    rw [reg_modPod, hdig.regs _ hout.1 hout.2]

/-- A residue that disagrees is raised after that. -/
theorem issueDrain_eq (s : State) (p : PodId) (f : MeFields) : ∃ (g : Engine) (op due : Nat), issueDrain s p f
      = (if residueFails f (descOf s p f) (vget (pod s p).me (engineOf f)) then
          raisePodErr (drainHeld (nextSerial s p).2 p f (descOf s p f) (vget (pod s p).me (engineOf f)) g op due) 1 rErrResidue p f.engine.toNat true
        else drainHeld (nextSerial s p).2 p f (descOf s p f) (vget (pod s p).me (engineOf f)) g op due)
    ∧ g.cells = (vget (pod s p).me (engineOf f)).cells ∧ g.cols = (vget (pod s p).me (engineOf f)).cols :=
  ⟨_, _, _, rfl, rfl, rfl⟩

theorem residueErr_left (s : State) (p : PodId) (addr : Nat) : let t := raisePodErr s 1 rErrResidue p addr true
    MemSame s t ∧ (∀ q, pod t q = pod s q) ∧ reg t (rPod p 0x404) = reg s (rPod p 0x404) := by
  have hraise := raisePodErr_faulting s 1 rErrResidue p addr
  have hlow := (by decide : ∀ o ∈ [rErrResidue, rErrResidue + 4] ++ capRegs 1 ++ faultRegs, o < 0x1000000)
  exact ⟨hraise.mem, hraise.pod, faulting_meReg hraise (fun o ho => Or.inl (hlow o ho)) (Or.inl rfl)⟩

/-- What ME.DRAIN leaves of the device. -/
theorem issueDrain_left (u : State) (p : PodId) (f : MeFields) : ∃ (g : Engine) (r : StoreRange),
    (locating u p = false → MemSame u (issueDrain u p f)) ∧ (∀ q, q ≠ p → pod (issueDrain u p f) q = pod u q)
    ∧ (pod (issueDrain u p f) p).me = vput (pod u p).me (engineOf f) g
    ∧ g.cells = (vget (pod u p).me (engineOf f)).cells ∧ g.cols = (vget (pod u p).me (engineOf f)).cols
    ∧ (pod (issueDrain u p f) p).ranges = (pod u p).ranges ++ [r] ∧ r.write = true ∧ r.due.isSome = true ∧ r.landing = []
    ∧ reg (issueDrain u p f) (rPod p 0x404) = reg u (rPod p 0x404)
    ∧ r.writes = drainWrites u p f (descOf u p f) (vget (pod u p).me (engineOf f)) := by
  obtain ⟨g, op, due, hissue, hcells, hcols⟩ := issueDrain_eq u p f
  obtain ⟨k, lo, hi, hown, hothers, hmem, hreg⟩ := drainHeld_left (nextSerial u p).2 p f (descOf u p f) (vget (pod u p).me (engineOf f)) g op due
  have hresidue := residueErr_left (drainHeld (nextSerial u p).2 p f (descOf u p f) (vget (pod u p).me (engineOf f)) g op due) p f.engine.toNat
  have hloc : locating (nextSerial u p).2 p = locating u p := rfl
  rw [drainWrites_nextSerial, pod_nextSerial] at hown
  rw [reg_nextSerial] at hreg
  rw [hissue]
  generalize drainHeld (nextSerial u p).2 p f (descOf u p f) (vget (pod u p).me (engineOf f)) g op due = w at *
  have hheld : (locating u p = false → MemSame u w) ∧ (∀ q, q ≠ p → pod w q = pod u q) := by
    refine ⟨fun hl => memByte_congr ((hmem (hloc.trans hl)).trans (nextSerial_mem u p)), fun q hq => ?_⟩
    rw [hothers q hq, pod_nextSerial_ne u hq]
  obtain ⟨hsame, hpods⟩ := hheld
  obtain ⟨hrmem, hrpods, hrreg⟩ := hresidue
  refine ⟨g, ⟨op, 0, true, lo, hi, false, some due, drainWrites u p f (descOf u p f) (vget (pod u p).me (engineOf f)), [], false⟩, ?_⟩
  split
  · rw [hrpods p, hown, hrreg]
    exact ⟨fun hl a => (hrmem a).trans (hsame hl a), fun q hq => (hrpods q).trans (hpods q hq), rfl, hcells, hcols, rfl, rfl, rfl, rfl, hreg, rfl⟩
  · rw [hown]
    exact ⟨hsame, hpods, rfl, hcells, hcols, rfl, rfl, rfl, rfl, hreg, rfl⟩

/-! ## ME.BLOAD -/

/-- The B buffer that ME.BLOAD fills with the bytes that stand in the store at its issue. -/
def bloadBuf (v : State) (p : PodId) (f : MeFields) (x : Pod) (d : MeDesc) : BBuf :=
  ⟨BitVec.ofNat 4 d.fmtB, d.k, bloadData v p f d,
    ⟨x.core.nextOp, x.core.cycle + bloadCycles (isHusk (mmaB x f d)) (64 * (d.k * colBytes d.fmtB))⟩,
    (vget (vget x.me (engineOf f)).bufs (fin 2 (by decide) f.buf.toNat)).used⟩

/-- ME.BLOAD checks its pieces of store, then leaves its buffer, its lines, its read and its range. -/
theorem issueBload_eq (s : State) (p : PodId) (f : MeFields) : ∃ (g : Pod → Pod) (l : List (Nat × Nat)) (lines : List LineStream) (reads : List ReadJob),
    issueBload s p f = modPod (checkPieces (nextSerial s p).2 p l) p g
    ∧ ∀ y, RangesOnly { y with
        me := vmod y.me (engineOf f) (fun e => { e with
          bufs := vput e.bufs (fin 2 (by decide) f.buf.toNat) (bloadBuf (nextSerial s p).2 p f (pod s p) (descOf s p f)) })
        lines := y.lines ++ lines
        reads := y.reads ++ reads } (g y) :=
  ⟨_, _, _, _, rfl, fun _ => addRange_rangesOnly ..⟩

theorem bloadData_nextSerial (u : State) (p : PodId) (f : MeFields) (d : MeDesc) : bloadData (nextSerial u p).2 p f d = bloadData u p f d := by
  have hread : memRead (nextSerial u p).2 = memRead u := funext (fun a => funext (fun n => memRead_of_mem (nextSerial_mem u p) a n))
  unfold bloadData mmaB
  rw [hread, pod_nextSerial]
  rfl

/-- What ME.BLOAD leaves of the device. -/
theorem issueBload_left (u : State) (p : PodId) (f : MeFields) : MemSame u (issueBload u p f) ∧ (∀ q, q ≠ p → pod (issueBload u p f) q = pod u q)
    ∧ (pod (issueBload u p f) p).me = vmod (pod u p).me (engineOf f) (fun e => { e with
        bufs := vput e.bufs (fin 2 (by decide) f.buf.toNat) (bloadBuf u p f (pod u p) (descOf u p f)) }) := by
  obtain ⟨g, l, lines, reads, hg, hleft⟩ := issueBload_eq u p f
  have hcheck := checkPieces_faulting (nextSerial u p).2 p l
  have hbuf : bloadBuf (nextSerial u p).2 p f (pod u p) (descOf u p f) = bloadBuf u p f (pod u p) (descOf u p f) := by
    unfold bloadBuf
    rw [bloadData_nextSerial]
  rw [hg]
  generalize checkPieces (nextSerial u p).2 p l = w at hcheck ⊢
  have hw := (hcheck.pod p).trans (pod_nextSerial u p)
  have hy := hleft (pod w p)
  rw [pod_modPod]
  refine ⟨fun a => ?_, fun q hq => ?_, ?_⟩
  · rw [memByte_congr (modPod_mem w p g) a, hcheck.mem a, memByte_congr (nextSerial_mem u p) a]
  · rw [pod_modPod_ne w g (Ne.symm hq), hcheck.pod q, pod_nextSerial_ne u hq]
  · rw [(congrArg Pod.me hy :), hw, hbuf]
    rfl

theorem bloadCycles_eq (a n : Nat) : bloadCycles (isHusk a) n = if 0x1000000 ≤ a then 7 + ceilDiv n 128 else 2 + ceilDiv n 256 := by
  unfold bloadCycles isHusk
  simp only [decide_eq_true_eq]
  split <;> omega

end Sys2Proof.Machine

open Sys2Proof.Machine in
/-- Settles O48: what ME.MMA, ME.DRAIN and ME.BLOAD leave of the device, and the accumulators as tables of what a K block or a row adds. -/
theorem matrixEnginesAccumulateAndDrain : Obligations.MatrixEnginesAccumulateAndDrain := by
  unfold Obligations.MatrixEnginesAccumulateAndDrain
  intro p f s _
  refine ⟨?mma, ?drain, ?bload⟩
  case mma =>
    rintro h u x d e hu rfl hd rfl
    have hrun : runOp s p (.me 1 f) = issueMma u p f := by rw [runOp_me h (by decide), ← hu]; rfl
    obtain ⟨hmem, hpods, hme, hmmas, hregs⟩ := issueMma_left u p f
    refine ⟨issueMma u p f, congrArg Host.Outcome.next hrun, hmem, hpods, ?_⟩
    rw [hme, vget_vput, hd, ← descOf]
    dsimp only
    refine ⟨fun g hg => vget_vput_ne _ _ (Ne.symm hg), fun hcol hbase i j hi hj => ?_, fun hcol hbase i j hi hj => ?_,
      fun hcol b r c hb hr hc => ?_, fun hcol j hj => ?_, hregs, formingOf _ f _, ?_, rfl, rfl, _, hmmas, rfl, rfl, rfl, rfl, ?_⟩
    · rw [tile_eq, cellOf_mmaEngine, mmaResult_nextSerial]
      exact cellOf_mmaResult u p f _ _ hcol hbase hi hj
    · rw [tile_eq, cellOf_mmaEngine, mmaResult_nextSerial]
      exact cellOf_mmaResult_mismatch u p f _ _ hcol hbase hi hj
    · rw [cellOf_mmaEngine]
      exact cellOf_mmaResult_ne _ p f _ _ hcol hb hr hc
    · rw [colOf_mmaEngine, mmaResult_nextSerial]
      exact colOf_mmaResult u p f _ _ hcol hj
    · exact forming_mmaEngine ..
    · exact data_mmaJobOf p f (nextSerial_mem u p)
  case drain =>
    rintro h u x d e hu rfl hd rfl
    have hrun : runOp s p (.me 2 f) = issueDrain u p f := by rw [runOp_me h (by decide), ← hu]; rfl
    obtain ⟨g, r, hmem, hpods, hme, hcells, hcols, hranges, hwrite, hdue, hlanding, hreg, hwrites⟩ := issueDrain_left u p f
    refine ⟨issueDrain u p f, r, congrArg Host.Outcome.next hrun, hmem, hpods, ?_⟩
    rw [hme, vget_vput, hd, ← descOf, hwrites]
    refine ⟨hcells, hcols, hranges, hwrite, hdue, hlanding, hreg, fun ht => ?_, fun ht => ?_⟩
    · exact drainWrites_float u p f _ _ (by omega)
    · exact ⟨drainWrites_xps_addr u p f _ _ ht, drainWrites_xps_bytes u p f _ _ ht⟩
  case bload =>
    rintro h u x d e hu rfl hd rfl
    have hrun : runOp s p (.me 3 f) = issueBload u p f := by rw [runOp_me h (by decide), ← hu]; rfl
    obtain ⟨hmem, hpods, hme⟩ := issueBload_left u p f
    refine ⟨issueBload u p f, bloadBuf u p f (pod u p) (descOf u p f), congrArg Host.Outcome.next hrun, hmem, hpods, ?_⟩
    rw [hme, vget_vmod, vget_vput, hd, ← descOf]
    refine ⟨rfl, rfl, rfl, rfl, ?_, rfl⟩
    exact congrArg ((pod u p).core.cycle + ·) (bloadCycles_eq _ _)
end

section
/-! What a fault of the machine leaves of a Pod's control status: RUNNING may go, and every other bit stays (R165, R418). -/

namespace Sys2Proof.Machine

/-- POD_CTL_STATUS of Pod `p` may have lost RUNNING between the two states, and no other bit of it has changed. -/
def StatusKept (p : PodId) (s t : State) : Prop :=
  ∀ i, flag t (rPod p 0x100) i = flag s (rPod p 0x100) i ∨ (i = 31 ∧ flag t (rPod p 0x100) 31 = false)

section
variable {p : PodId} {s t u : State}

theorem statusKept_of_reg (h : reg t (rPod p 0x100) = reg s (rPod p 0x100)) : StatusKept p s t := fun i => Or.inl (by rw [flag, flag, h])

theorem StatusKept.trans (h : StatusKept p s t) (g : StatusKept p t u) : StatusKept p s u := fun i => by
  rcases g i with hg | hg
  · rcases h i with hh | ⟨rfl, hh⟩
    · exact Or.inl (hg.trans hh)
    · exact Or.inr ⟨rfl, hg.trans hh⟩
  · exact Or.inr hg

theorem StatusKept.foldl {α : Type} {f : State → α → State} (hf : ∀ t a, StatusKept p t (f t a)) (l : List α) (s : State) : StatusKept p s (l.foldl f s) := by
  induction l generalizing s with
  | nil => exact statusKept_of_reg rfl
  | cons a l ih => exact (hf s a).trans (ih (f s a))

/-- A bit below RUNNING stays. -/
theorem StatusKept.bit (h : StatusKept p s t) {i : Nat} (hi : i ≠ 31) : flag t (rPod p 0x100) i = flag s (rPod p 0x100) i :=
  (h i).resolve_right (fun g => hi g.1)

/-- A Pod that does not run does not begin to. -/
theorem StatusKept.stopped (h : StatusKept p s t) (hs : flag s (rPod p 0x100) 31 = false) : flag t (rPod p 0x100) 31 = false := by
  rcases h 31 with hg | ⟨-, hg⟩
  · exact hg.trans hs
  · exact hg

end

section
variable (p : PodId) (s : State)

theorem setReg_statusKept {o : Nat} (v : Word) (h : o < 0x1000000) : StatusKept p s (setReg s o v) :=
  statusKept_of_reg (reg_setReg_ne s v (by unfold rPod; omega))

theorem setFlag_statusKept {o : Nat} (i : Nat) (b : Bool) (h : o < 0x1000000) : StatusKept p s (setFlag s o i b) := setReg_statusKept p s _ h

theorem modMisc_statusKept (f : Misc → Misc) : StatusKept p s (modMisc s f) := statusKept_of_reg rfl

theorem loadCancelled_statusKept (b : Bool) : StatusKept p s { s with loaded := none, misc := { s.misc with faultCleanup := b } } := statusKept_of_reg rfl

theorem noted_statusKept {l : List Nat} {t : State} (h : Noted l s t) (hl : ∀ o ∈ l, o < 0x1000000) : StatusKept p s t := by
  refine statusKept_of_reg (h.regs _ (fun hm => ?_) (fun hm => ?_))
  · have := hl _ hm
    unfold rPod at this
    omega
  · have := (by decide : ∀ o ∈ pbaRegs, o < 0x1000000) _ hm
    unfold rPod at this
    omega

theorem clearRunning_statusKept (q : PodId) : StatusKept p s (setFlag s (rPod q 0x100) 31 false) := fun i => by
  by_cases hq : q = p
  · subst hq
    by_cases hi : i = 31
    · exact Or.inr ⟨hi, flag_setFlag s _ 31 false (by decide)⟩
    · exact Or.inl (flag_setFlag_ne s _ false (Ne.symm hi))
  · have hval : q.val ≠ p.val := fun e => hq (Fin.ext e)
    exact statusKept_of_reg (reg_setFlag_ne s 31 false (by unfold rPod; omega)) i

theorem faultStreams_statusKept : StatusKept p s (faultStreams s) := by
  have hstream (t : State) (i : StreamId) {o : Nat} (lo len v : Nat) (ho : o < 0x40) : StatusKept p t (setField t (rStream i o) lo len v) :=
    setReg_statusKept p t _ (by unfold rStream; omega)
  have hend (t : State) (i : StreamId) (st : BitVec 7) : StatusKept p t (endStream t i st) := by
    have hsubs : StatusKept p t (modStrm t i (fun x => endSubmissions x st (weaveMask t))) := statusKept_of_reg rfl
    unfold endStream
    dsimp only
    split
    · exact hsubs.trans (hstream _ i _ _ _ (by decide))
    · exact hsubs
  refine StatusKept.foldl (fun t i => ?_) _ s
  split
  · exact statusKept_of_reg rfl
  · refine StatusKept.trans ?_ (hend _ i _)
    split
    · exact hstream t i _ _ _ (by decide)
    · exact statusKept_of_reg rfl

theorem faultWeave_statusKept : StatusKept p s (faultWeave s) := by
  unfold faultWeave
  split
  · have hpods : StatusKept p s (forEach allPods s (fun t q => setFlag t (rPod q 0x100) 31 false)) :=
      StatusKept.foldl (fun t q => clearRunning_statusKept p t q) _ s
    exact ((hpods.trans (setFlag_statusKept p _ (o := rWeaveState) 30 false (by decide))).trans (loadCancelled_statusKept p _ _)).trans
      (faultStreams_statusKept p _)
  · exact statusKept_of_reg rfl

theorem floodNotice_statusKept (k : Packet) (e : Option PortId) : StatusKept p s (floodNotice s k e) :=
  statusKept_of_reg (by rw [floodNotice_frame]; rfl)

theorem faultRecorded_statusKept (b : Bool) (k r e i n : Nat) : StatusKept p s (faultRecorded s b k r e i n) := by
  unfold faultRecorded
  exact ((((setReg_statusKept p s _ (by decide)).trans (setReg_statusKept p _ _ (by decide))).trans (setReg_statusKept p _ _ (by decide))).trans
    (setReg_statusKept p _ _ (by decide))).trans (setReg_statusKept p _ _ (by decide))

theorem enterFaulted_statusKept (k r e i n : Nat) : StatusKept p s (enterFaulted s true k r e i n) := by
  cases h : flag s rFaultState 31 with
  | true =>
    rw [enterFaulted_again h]
    exact statusKept_of_reg rfl
  | false =>
    obtain ⟨d, hd⟩ := enterFaulted_first h true k r e i n
    rw [hd]
    refine ((faultRecorded_statusKept p s true k r e i n).trans (faultWeave_statusKept p _)).trans ?_
    refine ((noted_statusKept p _ (postEvent_noted [] _ 5 e d []) (by simp)).trans (noted_statusKept p _ (msix_noted [] _ (v := 64) (by decide)) (by simp))).trans ?_
    obtain ⟨a, o, ha⟩ := raiseAlert_frame (msix (postEvent (faultWeave (faultRecorded s true k r e i n)) 5 e d []) 64)
    rw [ha]
    exact statusKept_of_reg rfl

theorem machineFault_statusKept (e i n : Nat) : StatusKept p s (machineFault s e i n) := by
  unfold machineFault
  exact ((modMisc_statusKept p s _).trans (floodNotice_statusKept p _ _ _)).trans (enterFaulted_statusKept p _ _ _ _ _ _)

/-- An error that faults the machine stops Pods at most. -/
theorem raiseFault_statusKept (b off bit unit addr : Nat) (hoff : off < 0x1000000) (hb : b < 19) : StatusKept p s (raiseFault s b off bit unit addr) := by
  have hcap : ∀ o ∈ off :: capRegs b, o < 0x1000000 := fun o ho => by
    rcases List.mem_cons.1 ho with rfl | ho
    · exact hoff
    · obtain ⟨i, hi, rfl⟩ := List.mem_map.1 ho
      have := List.mem_range.1 hi
      unfold rCap
      omega
  have herr : StatusKept p s (raiseErr s b off bit unit addr) :=
    noted_statusKept p s (raiseErr_noted s b off bit unit addr List.mem_cons_self (List.subset_cons_self ..)) hcap
  exact herr.trans (machineFault_statusKept p _ _ _ _)

end

end Sys2Proof.Machine
end

section
/-! The causes of a trap, and the trap itself (R131, R158, R416). -/

namespace Sys2Proof.Machine

/-! ## Causes are codes of R158 -/

/-- Every cause of the list fits the field of POD_TRAP_INFO. -/
def Causes (l : List Nat) : Prop := ∀ n ∈ l, n < 256

theorem causes_nil : Causes [] := fun _ h => absurd h List.not_mem_nil

theorem causes_one {n : Nat} (h : n < 256) : Causes [n] := fun _ hm => List.mem_singleton.1 hm ▸ h

theorem causes_trapIf (b : Bool) {n : Nat} (h : n < 256) : Causes (trapIf b n) := by
  unfold trapIf
  split
  · exact causes_one h
  · exact causes_nil

theorem Causes.append {l m : List Nat} (h : Causes l) (g : Causes m) : Causes (l ++ m) := fun n hn => (List.mem_append.1 hn).elim (h n) (g n)

theorem Causes.ite {c : Prop} [Decidable c] {l m : List Nat} (h : Causes l) (g : Causes m) : Causes (if c then l else m) := by
  split
  · exact h
  · exact g

section
variable (s : State) (p : PodId) (c : Nat)

theorem slotTraps_causes (o : SlotOp) : Causes (slotTraps s o) := by
  unfold slotTraps
  split
  · exact causes_one (by decide)
  · refine (causes_trapIf _ (by decide)).append ?_
    split
    · exact causes_trapIf _ (by decide)
    · exact causes_nil

theorem meTraps_causes (f : MeFields) : Causes (meTraps s p c f) :=
  (causes_one (by decide)).ite ((causes_trapIf _ (by decide)).append (causes_trapIf _ (by decide)))

theorem vuTraps_causes (f : VuFields) : Causes (vuTraps s p c f) := (causes_trapIf _ (by decide)).append (causes_trapIf _ (by decide))

theorem teTraps_causes (f : TeFields) : Causes (teTraps s p c f) :=
  (((causes_trapIf _ (by decide)).append (causes_trapIf _ (by decide))).append (causes_trapIf _ (by decide))).ite
    ((causes_trapIf _ (by decide)).ite ((causes_trapIf _ (by decide)).append (causes_trapIf _ (by decide))))

theorem memTraps_causes (f : MemFields) : Causes (memTraps s p c f) := (causes_trapIf _ (by decide)).append (causes_trapIf _ (by decide))

theorem ctlTraps_causes (f : CtlFields) : Causes (ctlTraps s p c f) :=
  (causes_trapIf _ (by decide)).ite ((causes_trapIf _ (by decide)).ite
    (((causes_trapIf _ (by decide)).append (causes_trapIf _ (by decide))).ite
      ((causes_trapIf _ (by decide)).ite ((causes_trapIf _ (by decide)).ite causes_nil))))

theorem opTraps_causes (o : SlotOp) : Causes (opTraps s p o) := by
  have hunit (l : List Nat) (hl : Causes l) : Causes (slotTraps s o ++ l) := (slotTraps_causes s o).append hl
  refine (slotTraps_causes s o).ite ?_
  cases o with
  | me c f => exact hunit _ (meTraps_causes s p c f)
  | vu c f => exact hunit _ (vuTraps_causes s p c f)
  | te c f => exact hunit _ (teTraps_causes s p c f)
  | mem c f => exact hunit _ (memTraps_causes s p c f)
  | ctl c f => exact hunit _ (ctlTraps_causes s p c f)

end

theorem chooseTrap_mem (n : Nat) {l : List Nat} (h : l ≠ []) : chooseTrap n l ∈ l := by
  have hlt : Config.trapChoice n % l.length < l.length := Nat.mod_lt _ (List.length_pos_of_ne_nil h)
  unfold chooseTrap
  rw [List.getD_eq_getElem _ _ hlt]
  exact List.getElem_mem hlt

/-! ## The record of a trap -/

/-- POD_TRAP_INFO as R158 lays it out. -/
def trapWord (slot cause bundle : Nat) : Nat := 2 ^ 31 + slot * 2 ^ 24 + cause * 2 ^ 16 + bundle

theorem trapWord_fields {slot cause bundle : Nat} (hs : slot < 16) (hc : cause < 256) (hb : bundle < 2 ^ 14) :
    let w := BitVec.ofNat 32 (trapWord slot cause bundle)
    getB w 31 = true ∧ getF w 24 4 = slot ∧ getF w 16 8 = cause ∧ getF w 0 14 = bundle := by
  have hw : trapWord slot cause bundle < 2 ^ 32 := by unfold trapWord; omega
  dsimp only
  rw [getB, getF, getF, getF, BitVec.getLsbD_ofNat, BitVec.toNat_ofNat, Nat.mod_eq_of_lt hw, Nat.testBit_eq_decide_div_mod_eq]
  unfold trapWord
  refine ⟨by simp; omega, ?_, ?_, ?_⟩ <;> omega

/-! ## The Pod stops -/

/-- The Pod is TRAPPED and no longer RUNNING, and its record stands in POD_TRAP_INFO. -/
def trapNoted (s : State) (p : PodId) (w : Word) : State :=
  modCore (setReg (setFlag (setFlag s (rPod p 0x100) 31 false) (rPod p 0x100) 29 true) (rPod p 0x104) w) p (fun k => { k with stepping := false })

theorem trapPod_eq (s : State) (p : PodId) (slot : Nat) (causes : List Nat) : trapPod s p slot causes
    = raisePodErr (trapNoted (draw s).2 p (BitVec.ofNat 32 (trapWord slot (chooseTrap (draw s).1 causes) (pcOf (draw s).2 p)))) 5 rErrTrap p
        (trapWord slot (chooseTrap (draw s).1 causes) (pcOf (draw s).2 p)) true := by
  unfold trapPod trapNoted trapWord
  rfl

theorem pcOf_lt (s : State) (p : PodId) : pcOf s p < 2 ^ 14 := getF_lt ..

theorem flag_trapNoted (s : State) (p : PodId) (w : Word) (i : Nat) : flag (trapNoted s p w) (rPod p 0x100) i
    = flag (setFlag (setFlag s (rPod p 0x100) 31 false) (rPod p 0x100) 29 true) (rPod p 0x100) i := by
  unfold trapNoted modCore
  rw [flag, reg_modPod, reg_setReg_ne _ _ (by unfold rPod; omega), ← flag]

theorem reg_trapNoted (s : State) (p : PodId) (w : Word) : reg (trapNoted s p w) (rPod p 0x104) = w := by
  rw [trapNoted, modCore, reg_modPod, reg_setReg]

theorem trapNoted_mem (s : State) (p : PodId) (w : Word) : (trapNoted s p w).mem = s.mem := by
  rw [trapNoted, modCore, modPod_mem, setReg_mem, setFlag, setField, setReg_mem, setFlag, setField, setReg_mem]

theorem pod_trapNoted_ne (s : State) {p q : PodId} (w : Word) (h : q ≠ p) : pod (trapNoted s p w) q = pod s q := by
  rw [trapNoted, modCore, pod_modPod_ne _ _ (Ne.symm h), pod_setReg, setFlag, setField, pod_setReg, setFlag, setField, pod_setReg]

/-- A register of the Pod block other than the control status is no register of a fault. -/
theorem faultWritten_podReg {p : PodId} {z : Nat} (hz : z < 0x10000) (h : z ≠ 0x100) : ¬ FaultWritten (rPod p z) := by
  rintro (hw | hp | hs | ⟨q, hq⟩)
  · unfold rPod rWeaveState at hw
    omega
  · have := (by decide : ∀ o ∈ pbaRegs, o < 0x1000000) _ hp
    unfold rPod at this
    omega
  · unfold rPod at hs
    omega
  · unfold rPod at hq
    omega

theorem raisePodErr_faults (s : State) (b off : Nat) (p : PodId) (addr : Nat) :
    raisePodErr s b off p addr true = raiseFault s b (off + 4 * (p.val / 32)) (p.val % 32) p.val addr := rfl

/-- The error of a trap stops Pods at most and faults the machine. -/
theorem raiseTrap_left (s : State) (p : PodId) (addr : Nat) :
    let t := raisePodErr s 5 rErrTrap p addr true
    StatusKept p s t ∧ reg t (rPod p 0x104) = reg s (rPod p 0x104) ∧ flag t rFaultState 31 = true := by
  have hlow := (by decide : ∀ o ∈ [rErrTrap, rErrTrap + 4] ++ capRegs 5 ++ faultRegs, o < 0x1000000)
  have hreg := (raisePodErr_faulting s 5 rErrTrap p addr).regs (rPod p 0x104)
    (fun hm => by have := hlow _ hm; unfold rPod at this; omega) (faultWritten_podReg (by decide) (by decide))
  refine ⟨?_, hreg, ?_⟩
  · rw [raisePodErr_faults]
    exact raiseFault_statusKept p s _ _ _ _ _ (by unfold rErrTrap; omega) (by decide)
  · rw [raisePodErr_faults]
    exact faulted_raiseFault ..

/-- The Pod that has been noted as trapped is TRAPPED and does not run. -/
theorem trapNoted_status (s : State) (p : PodId) (w : Word) :
    flag (trapNoted s p w) (rPod p 0x100) 29 = true ∧ flag (trapNoted s p w) (rPod p 0x100) 31 = false := by
  rw [flag_trapNoted, flag_trapNoted]
  refine ⟨flag_setFlag _ _ 29 true (by decide), ?_⟩
  rw [flag_setFlag_ne _ _ true (by decide)]
  exact flag_setFlag _ _ 31 false (by decide)

/-- What a trap leaves of the device. -/
theorem trapPod_left (s : State) (p : PodId) {slot : Nat} (hs : slot < 16) {causes : List Nat} (hc : causes ≠ []) (hcodes : Causes causes) :
    let t := trapPod s p slot causes
    podTrapped t p = true ∧ podRunning t p = false ∧ flag t (rPod p 0x104) 31 = true ∧ field t (rPod p 0x104) 24 4 = slot
      ∧ field t (rPod p 0x104) 16 8 ∈ causes ∧ field t (rPod p 0x104) 0 14 = pcOf s p ∧ flag t rFaultState 31 = true
      ∧ MemSame s t ∧ ∀ q, q ≠ p → pod t q = pod s q := by
  have hcause := chooseTrap_mem (draw s).1 hc
  obtain ⟨hvalid, hslot, hcode, hbundle⟩ := trapWord_fields hs (hcodes _ hcause) (pcOf_lt (draw s).2 p)
  dsimp only
  rw [trapPod_eq]
  generalize trapWord slot (chooseTrap (draw s).1 causes) (pcOf (draw s).2 p) = w at hvalid hslot hcode hbundle ⊢
  have hnoted := trapNoted_status (draw s).2 p (BitVec.ofNat 32 w)
  have hword := reg_trapNoted (draw s).2 p (BitVec.ofNat 32 w)
  have hmem := trapNoted_mem (draw s).2 p (BitVec.ofNat 32 w)
  have hpods := fun q => pod_trapNoted_ne (q := q) (draw s).2 (BitVec.ofNat 32 w) (p := p)
  generalize trapNoted (draw s).2 p (BitVec.ofNat 32 w) = v at hnoted hword hmem hpods ⊢
  obtain ⟨hstatus, hinfo, hfaulted⟩ := raiseTrap_left v p w
  have hfault := raisePodErr_faulting v 5 rErrTrap p w
  rw [podTrapped, podRunning, flag.eq_def _ (rPod p 0x104), field, field, field, hinfo, hword, hslot, hcode, hbundle]
  exact ⟨(hstatus.bit (by decide)).trans hnoted.1, hstatus.stopped hnoted.2, hvalid, rfl, hcause, rfl, hfaulted,
    fun a => (hfault.mem a).trans (memByte_congr hmem a), fun q hq => (hfault.pod q).trans (hpods q hq)⟩

/-! ## An operation that does not issue -/

section
variable {s : State} {p : PodId} {o : SlotOp}

/-- A trapped or halted Pod, or one whose clock stands still, issues nothing. -/
theorem runOp_stopped (h : podTrapped s p = true ∨ podHalted s p = true ∨ podClockRuns s p = false) : runOp s p o = s := by
  refine if_pos ?_
  rcases h with h | h | h <;> simp [h]

theorem runOp_running (ht : podTrapped s p = false) (hh : podHalted s p = false) (hc : podClockRuns s p = true) : runOp s p o
    = (match opTraps (withPending s p) p o with
      | a :: t => trapPod s p (slotNo o) (a :: t)
      | [] => if opWaits (settleFor s p o) p o then s else (issueOp (settleFor s p o) p o).1) := by
  unfold runOp
  rw [ht, hh, hc]
  rfl

/-- An operation that has to wait changes nothing. -/
theorem runOp_waits (ht : podTrapped s p = false) (hh : podHalted s p = false) (hc : podClockRuns s p = true)
    (hl : opTraps (withPending s p) p o = []) (hw : opWaits (settleFor s p o) p o = true) : runOp s p o = s := by
  rw [runOp_running ht hh hc, hl]
  exact if_pos hw

theorem runOp_traps (ht : podTrapped s p = false) (hh : podHalted s p = false) (hc : podClockRuns s p = true)
    (hl : opTraps (withPending s p) p o ≠ []) : runOp s p o = trapPod s p (slotNo o) (opTraps (withPending s p) p o) := by
  rw [runOp_running ht hh hc]
  cases h : opTraps (withPending s p) p o with
  | nil => exact absurd h hl
  | cons a t => rfl

/-- The row of a Pod operation is the moment at which the operation comes up. -/
theorem exec_operation {i : Instr} (h : Sys2Proof.Claims.operation i = some (p, o)) (s : State) : exec i s = .next (runOp s p o) := by
  unfold Sys2Proof.Claims.operation at h
  split at h <;> cases h <;> rfl

theorem slotNo_lt (o : SlotOp) : slotNo o < 16 := by cases o <;> simp [slotNo]

end

end Sys2Proof.Machine

open Sys2Proof.Machine in
/-- Settles O38: a row is its operation as it comes up, which stops at the first of what holds it back, a breach and a wait. -/
theorem operationsWaitOrTrap : Obligations.OperationsWaitOrTrap := by
  unfold Obligations.OperationsWaitOrTrap
  intro i p o s h
  have hrow := exec_operation h s
  refine ⟨fun hstop => ?_, fun ht hh hc hl hw => ?_, fun _ ht hh hc hl => ⟨trapPod s p (slotNo o) (opTraps (withPending s p) p o), ?_, ?_⟩⟩
  · rw [hrow, runOp_stopped hstop]
  · rw [hrow, runOp_waits ht hh hc hl hw]
  · rw [hrow, runOp_traps ht hh hc hl]
  · exact trapPod_left s p (slotNo_lt o) hl (opTraps_causes _ p o)
end

section
/-! What completing the work that an operation waits for leaves alone (R72, R95, R102, R145, R155, R160, R323): other Pods, registers but the
engines' own and the pair's error, and each part of the Pod that another part's work does not touch. -/

namespace Sys2Proof.Machine

open Sys2Proof.Claims (ClassDone)

/-! ## Frames -/

/-- The registers of the Matrix Engines and the Tree Engine of Pod `p` that their work writes as it completes. -/
def engineRegs (p : PodId) : List Nat :=
  [rPod p.val 0x404, rPod p.val 0x408, rPod p.val 0x40C, rPod p.val 0x500, rPod p.val 0x508, rPod p.val 0x510, rPod p.val 0x514]

/-- The registers of an error of the pair's digests (R323, R326). -/
def pairRegs : List Nat := rErrPair :: capRegs 13 ++ pbaRegs

/-- Pod `p`, registers of `l`, and what is neither Pod nor register may differ between the two states. -/
structure Settling (p : PodId) (l : List Nat) (s t : State) : Prop where
  others : ∀ q, q ≠ p → pod t q = pod s q
  regs : ∀ o, o ∉ l → reg t o = reg s o

section
variable {p : PodId} {l : List Nat} {s t u : State}

theorem Settling.refl (p : PodId) (l : List Nat) (s : State) : Settling p l s s := ⟨fun _ _ => rfl, fun _ _ => rfl⟩

theorem Settling.trans (h : Settling p l s t) (g : Settling p l t u) : Settling p l s u :=
  ⟨fun q hq => (g.others q hq).trans (h.others q hq), fun o ho => (g.regs o ho).trans (h.regs o ho)⟩

theorem Settling.foldl {α : Type} {f : State → α → State} (xs : List α) (hf : ∀ t, ∀ a ∈ xs, Settling p l t (f t a)) (s : State) :
    Settling p l s (xs.foldl f s) := by
  induction xs generalizing s with
  | nil => exact Settling.refl p l s
  | cons a xs ih => exact (hf s a List.mem_cons_self).trans (ih (fun t b hb => hf t b (List.mem_cons_of_mem a hb)) (f s a))

theorem Settling.ite {c : Prop} [Decidable c] (h : Settling p l s t) : Settling p l s (if c then t else s) := by
  split
  · exact h
  · exact Settling.refl p l s

theorem modPod_settling (p : PodId) (l : List Nat) (s : State) (f : Pod → Pod) : Settling p l s (modPod s p f) :=
  ⟨fun _ hq => pod_modPod_ne s f (Ne.symm hq), fun _ _ => rfl⟩

theorem setPod_settling (p : PodId) (l : List Nat) (s : State) (x : Pod) : Settling p l s (setPod s p x) :=
  ⟨fun _ hq => pod_setPod_ne s x hq, fun _ _ => rfl⟩

theorem setReg_settling (p : PodId) (s : State) {o : Nat} (v : Word) (ho : o ∈ l) : Settling p l s (setReg s o v) :=
  ⟨fun _ _ => rfl, fun _ hz => reg_setReg_ne s v (fun e => hz (e ▸ ho))⟩

theorem add64_settling (p : PodId) (s : State) {o : Nat} (n : Nat) (ho : o ∈ l) (h4 : o + 4 ∈ l) : Settling p l s (add64 s o n) :=
  (setReg_settling p s _ ho).trans (setReg_settling p _ _ h4)

theorem Digested.settling (h : Digested p s t) (hl : pairRegs ⊆ l) : Settling p l s t := by
  refine ⟨h.others, fun o ho => h.regs o (fun hm => ho (hl ?_)) (fun hm => ho (hl ?_))⟩
  · exact List.mem_append_left _ hm
  · exact List.mem_append_right _ hm

theorem StoreOnly.settling (h : StoreOnly s t) : Settling p l s t := ⟨fun q _ => h.pod q, fun o _ => h.reg o⟩

/-! ## Ranges -/

theorem digestRange_digested (s : State) (p : PodId) (r : StoreRange) : Digested p s (digestRange s p r) := by
  unfold digestRange
  split
  · exact Digested.foldl (fun t (w : Nat × List Byte) => digestWrite_digested t p 3 w.1 w.2) _ s
  · exact Digested.refl p s

theorem writeRange_written (p : PodId) (s : State) (r : StoreRange) : StoreOnly (digestRange s p r) (writeRange p s r) := by
  have hlanding := StoreOnly.foldl r.landing (f := fun u w => memWrite u w.2.1 w.2.2) (fun t w _ => memWrite_storeOnly t w.2.1 w.2.2) (digestRange s p r)
  have hwrites := StoreOnly.foldl r.writes (f := fun u w => memWrite u w.1 w.2) (fun t w _ => memWrite_storeOnly t w.1 w.2)
    (r.landing.foldl (fun u w => memWrite u w.2.1 w.2.2) (digestRange s p r))
  unfold writeRange forEach
  unfold StoreOnly at *
  rw [hwrites, hlanding]

theorem writeRange_settling (s : State) {r : StoreRange} (h : r.digest = false ∨ pairRegs ⊆ l) : Settling p l s (writeRange p s r) := by
  rcases h with h | h
  · exact (writeRange_storeOnly p s h).settling
  · exact ((digestRange_digested s p r).settling h).trans (writeRange_written p s r).settling

/-- The core alone of the Pod may differ between the two states. -/
def CoreOnly (x y : Pod) : Prop := y = { x with core := y.core }

theorem CoreOnly.trans {x y z : Pod} (h : CoreOnly x y) (g : CoreOnly y z) : CoreOnly x z := by
  unfold CoreOnly at *
  rw [g, h]

theorem Digested.coreOnly (h : Digested p s t) : CoreOnly (pod s p) (pod t p) := by
  obtain ⟨k, hk⟩ := h.own
  unfold CoreOnly
  rw [hk]

theorem writeRanges_coreOnly (p : PodId) (rs : List StoreRange) (s : State) : CoreOnly (pod s p) (pod (forEach rs s (writeRange p)) p) := by
  unfold forEach
  induction rs generalizing s with
  | nil => rfl
  | cons r rs ih =>
    have hone : CoreOnly (pod s p) (pod (writeRange p s r) p) := by
      rw [(writeRange_written p s r).pod p]
      exact (digestRange_digested s p r).coreOnly
    exact hone.trans (ih _)

theorem writeResults_settling (sel : Nat × Nat × Nat → Bool) (s : State) (h : rPod p 0x404 ∈ l) : Settling p l s (writeResults sel s p) := by
  unfold writeResults
  dsimp only
  split
  · exact Settling.refl p l s
  · exact (setPod_settling p l s _).trans (setReg_settling p _ _ h)

theorem pod_writeResults (sel : Nat × Nat × Nat → Bool) (s : State) (p : PodId) : ∃ m, pod (writeResults sel s p) p = { pod s p with me := m } := by
  unfold writeResults
  dsimp only
  split
  · exact ⟨_, rfl⟩
  · rw [pod_orReg, pod_setPod]
    exact ⟨_, rfl⟩

/-- The timed ranges that `sel` selects. -/
def timed (sel : StoreRange → Bool) (x : Pod) : List StoreRange := x.ranges.filter (fun r => r.due.isSome && sel r)

/-- The Pod without them. -/
def withoutTimed (sel : StoreRange → Bool) (x : Pod) : Pod := { x with ranges := x.ranges.filter (fun r => !(r.due.isSome && sel r)) }

theorem releaseTimed_eq (sel : StoreRange → Bool) (s : State) (p : PodId) : releaseTimed sel s p
    = writeResults (fun w => (timed sel (pod s p)).any (fun r => r.op = w.1))
        (forEach (timed sel (pod s p)) (setPod s p (withoutTimed sel (pod s p))) (writeRange p)) p := rfl

theorem releaseTimed_settling (sel : StoreRange → Bool) (s : State) (h404 : rPod p 0x404 ∈ l)
    (h : (∀ r ∈ (pod s p).ranges, r.digest = false) ∨ pairRegs ⊆ l) : Settling p l s (releaseTimed sel s p) := by
  rw [releaseTimed_eq]
  refine ((setPod_settling p l s _).trans (Settling.foldl _ (fun t r hr => ?_) _)).trans (writeResults_settling _ _ h404)
  exact writeRange_settling t (h.imp_left (fun hd => hd r (List.mem_filter.1 hr).1))

theorem pod_releaseTimed (sel : StoreRange → Bool) (s : State) (p : PodId) : ∃ k m, pod (releaseTimed sel s p) p
    = { withoutTimed sel (pod s p) with core := k, me := m } := by
  rw [releaseTimed_eq]
  obtain ⟨m, hm⟩ := pod_writeResults (fun w => (timed sel (pod s p)).any (fun r => r.op = w.1))
    (forEach (timed sel (pod s p)) (setPod s p (withoutTimed sel (pod s p))) (writeRange p)) p
  have hcore := writeRanges_coreOnly p (timed sel (pod s p)) (setPod s p (withoutTimed sel (pod s p)))
  rw [pod_setPod] at hcore
  exact ⟨_, m, by rw [hm, hcore]⟩

/-- Where no range is selected, nothing is released. -/
theorem releaseTimed_none {sel : StoreRange → Bool} (h : ∀ r ∈ (pod s p).ranges, sel r = false) : releaseTimed sel s p = s := by
  have htimed : timed sel (pod s p) = [] := List.filter_eq_nil_iff.2 (fun r hr => by simp [h r hr])
  have hleft : withoutTimed sel (pod s p) = pod s p := by
    unfold withoutTimed
    rw [List.filter_eq_self.2 (fun r hr => by simp [h r hr])]
  have hself : setPod s p (pod s p) = s := modPod_self (f := fun _ => pod s p) rfl
  rw [releaseTimed_eq, htimed, hleft, hself]
  exact drainRows_none (fun _ _ _ => rfl)

/-! ## Engines -/

theorem finishMma_modPod (p : PodId) (s : State) (j : MmaJob) : ∃ g : Vector Engine 4 → Vector Engine 4, finishMma p s j = modPod s p (fun x => { x with me := g x.me }) := by
  unfold finishMma
  split
  · exact ⟨fun v => vmod v j.engine (takeAccs j (mmaAgain s p j)), rfl⟩
  · exact ⟨id, (modPod_self rfl).symm⟩

theorem finishMmas_modPod (p : PodId) (js : List MmaJob) (s : State) :
    ∃ g : Vector Engine 4 → Vector Engine 4, forEach js s (finishMma p) = modPod s p (fun x => { x with me := g x.me }) := by
  unfold forEach
  induction js generalizing s with
  | nil => exact ⟨id, (modPod_self rfl).symm⟩
  | cons j js ih =>
    obtain ⟨g, hg⟩ := finishMma_modPod p s j
    obtain ⟨k, hk⟩ := ih (finishMma p s j)
    refine ⟨fun v => k (g v), ?_⟩
    rw [List.foldl_cons, hk, hg, modPod_modPod]

/-- The Matrix Engines once their work is complete. -/
theorem settleEngines_eq (s : State) (p : PodId) : ∃ (n : Nat) (ls : List LineStream) (m : Vector Engine 4),
    settleEngines s p = add64 (modPod s p (fun x => { x with mmas := [], lines := ls, me := m.map settledEngine })) (rPod p 0x408) n := by
  obtain ⟨g, hg⟩ := finishMmas_modPod p (pod s p).mmas (setPod s p { pod s p with mmas := [], lines := (pod s p).lines.filter (fun l => decide (l.rank ≠ 1)) })
  refine ⟨((pod s p).me.toList.flatMap (fun e => e.forming.map (·.left))).sum, (pod s p).lines.filter (fun l => decide (l.rank ≠ 1)), g (pod s p).me, ?_⟩
  unfold settleEngines
  dsimp only
  rw [hg]
  refine congrArg (fun t => add64 t (rPod p 0x408) _) ?_
  change modPod (modPod (modPod s p (fun _ => _)) p _) p _ = _
  rw [modPod_modPod, modPod_modPod]
  exact modPod_congr rfl

theorem settleEngines_settling (s : State) (h : rPod p 0x408 ∈ l) (h4 : rPod p 0x408 + 4 ∈ l) : Settling p l s (settleEngines s p) := by
  obtain ⟨n, ls, m, he⟩ := settleEngines_eq s p
  rw [he]
  exact (modPod_settling p l s _).trans (add64_settling p _ _ h h4)

theorem pod_settleEngines (s : State) (p : PodId) : ∃ (ls : List LineStream) (m : Vector Engine 4),
    pod (settleEngines s p) p = { pod s p with mmas := [], lines := ls, me := m.map settledEngine } := by
  obtain ⟨n, ls, m, he⟩ := settleEngines_eq s p
  refine ⟨ls, m, ?_⟩
  rw [he, pod_add64, pod_modPod]

/-! ## The Tree Engine -/

theorem settleTeCfg_settling (s : State) (h : rPod p 0x500 ∈ l) : Settling p l s (settleTeCfg s p) := by
  unfold settleTeCfg
  dsimp only
  split
  · split
    · exact Settling.refl p l s
    · exact (setPod_settling p l s _).trans (setReg_settling p _ _ h)
  · exact Settling.refl p l s

theorem pod_settleTeCfg (s : State) (p : PodId) : ∃ c, pod (settleTeCfg s p) p = { pod s p with te := { (pod s p).te with heldCfg := c } } := by
  unfold settleTeCfg
  dsimp only
  split
  · split
    · exact ⟨_, rfl⟩
    · rw [pod_setReg, pod_setPod]
      exact ⟨_, rfl⟩
  · exact ⟨_, rfl⟩

/-- A window's compares are counted and its flags set. -/
def windowCounted (p : PodId) (t : State) (w : Window) : State := orReg (add64 t (rPod p 0x510) w.steps.sum) (rPod p 0x508) w.flags.toNat

/-- A Tree Engine with nothing left to wait for. -/
def settledTree (e : TreeEngine) : TreeEngine := { e with windows := [], nloads := [], halves := e.halves.map (fun h => { h with loads := [] }) }

theorem settleTree_eq (s : State) (p : PodId) : settleTree s p
    = settleTeCfg (forEach (pod s p).te.windows (setPod s p { pod s p with te := settledTree (pod s p).te }) (windowCounted p)) p := rfl

theorem windowsCounted_pods (p q : PodId) (ws : List Window) (s : State) : pod (forEach ws s (windowCounted p)) q = pod s q := by
  unfold forEach
  induction ws generalizing s with
  | nil => rfl
  | cons w ws ih => rw [List.foldl_cons, ih, windowCounted, pod_orReg, pod_add64]

theorem settleTree_settling (s : State) (h500 : rPod p 0x500 ∈ l) (h508 : rPod p 0x508 ∈ l) (h510 : rPod p 0x510 ∈ l) (h514 : rPod p 0x510 + 4 ∈ l) :
    Settling p l s (settleTree s p) := by
  rw [settleTree_eq]
  refine ((setPod_settling p l s _).trans (Settling.foldl _ (fun t w _ => ?_) _)).trans (settleTeCfg_settling _ h500)
  exact (add64_settling p t _ h510 h514).trans (setReg_settling p _ _ h508)

theorem pod_settleTree (s : State) (p : PodId) : ∃ c, pod (settleTree s p) p = { pod s p with te := { settledTree (pod s p).te with heldCfg := c } } := by
  rw [settleTree_eq]
  obtain ⟨c, hc⟩ := pod_settleTeCfg (forEach (pod s p).te.windows (setPod s p { pod s p with te := settledTree (pod s p).te }) (windowCounted p)) p
  exact ⟨c, by rw [hc, windowsCounted_pods, pod_setPod]⟩

/-! ## Results -/

/-- Register files alone may differ between the two Pods. -/
def FilesOnly (x y : Pod) : Prop := y = { x with s := y.s, v := y.v, m := y.m, md := y.md, sa := y.sa }

theorem writeDests_filesOnly (ws : List PendWrite) (x : Pod) : FilesOnly x (ws.foldl (fun y w => writeDest y w.dest w.value) x) := by
  induction ws generalizing x with
  | nil => rfl
  | cons w ws ih =>
    have hone : FilesOnly x (writeDest x w.dest w.value) := (writeDest_destOnly x w.dest w.value).frame
    have hrest := ih (writeDest x w.dest w.value)
    unfold FilesOnly at *
    rw [List.foldl_cons, hrest, hone]

theorem deliver_filesOnly (sel : PendWrite → Bool) (x : Pod) : FilesOnly { x with pend := x.pend.filter (fun w => !sel w) } (deliver sel x) :=
  writeDests_filesOnly _ _

theorem deliver_none {sel : PendWrite → Bool} {x : Pod} (h : ∀ w ∈ x.pend, sel w = false) : deliver sel x = x := by
  have hready : x.pend.filter sel = [] := List.filter_eq_nil_iff.2 (fun w hw => by simp [h w hw])
  have hleft : x.pend.filter (fun w => !sel w) = x.pend := List.filter_eq_self.2 (fun w hw => by simp [h w hw])
  unfold deliver
  rw [hready, hleft]
  rfl

end

end Sys2Proof.Machine
end

section
/-! What an operation finds complete as it issues: the classes of a barrier, and where there is no barrier only its own registers (R155, R157). -/

namespace Sys2Proof.Machine

open Sys2Proof.Claims (ClassDone Issues)

/-! ## The stages of completion -/

section
variable (s : State) (p : PodId) (o : SlotOp)

/-- The results that operation `o` needs. -/
def resultDue (w : PendWrite) : Bool := (opDepends o).contains w.dest || (inBarrier o 1 && decide (w.slot = 1))

/-- The ranges that it needs released. -/
def rangeNeeded (r : StoreRange) : Bool := (blockers s p o).contains r || (decide (r.cls < 4) && inBarrier o r.cls)

/-- The Pod with those results delivered. -/
def settled1 : State := modPod s p (deliver (resultDue o))

/-- With those ranges released too. -/
def settled2 : State := releaseTimed (rangeNeeded (settled1 s p o) p o) (settled1 s p o) p

/-- With the Matrix Engines' work complete too, before a barrier that names them. -/
def settled3 : State := if inBarrier o 0 then settleEngines (settled2 s p o) p else settled2 s p o

theorem settleFor_eq : settleFor s p o = if inBarrier o 2 then settleTree (settled3 s p o) p else settled3 s p o := rfl

theorem pod_settled1 : FilesOnly { pod s p with pend := (pod s p).pend.filter (fun w => !resultDue o w) } (pod (settled1 s p o) p) := by
  rw [settled1, pod_modPod]
  exact deliver_filesOnly _ _

theorem pod_settled2 : ∃ k m, pod (settled2 s p o) p
    = { withoutTimed (rangeNeeded (settled1 s p o) p o) (pod (settled1 s p o) p) with core := k, me := m } := pod_releaseTimed ..

theorem pod_settled3 : ∃ js ls m, pod (settled3 s p o) p = { pod (settled2 s p o) p with mmas := js, lines := ls, me := m }
    ∧ (inBarrier o 0 = true → js = [] ∧ ∃ v : Vector Engine 4, m = v.map settledEngine) := by
  unfold settled3
  split
  · obtain ⟨ls, m, h⟩ := pod_settleEngines (settled2 s p o) p
    exact ⟨_, _, _, h, fun _ => ⟨rfl, m, rfl⟩⟩
  next hno => exact ⟨_, _, _, rfl, fun hb => absurd hb hno⟩

theorem pod_settleFor : ∃ e, pod (settleFor s p o) p = { pod (settled3 s p o) p with te := e }
    ∧ (inBarrier o 2 = true → ∃ x c, e = { settledTree x with heldCfg := c }) := by
  rw [settleFor_eq]
  split
  · obtain ⟨c, h⟩ := pod_settleTree (settled3 s p o) p
    exact ⟨_, h, fun _ => ⟨_, c, rfl⟩⟩
  next hno => exact ⟨_, rfl, fun hb => absurd hb hno⟩

theorem settleFor_settling {l : List Nat} (hl : engineRegs p ⊆ l) (h : (∀ r ∈ (pod s p).ranges, r.digest = false) ∨ pairRegs ⊆ l) :
    Settling p l s (settleFor s p o) := by
  have hmem {z : Nat} (hz : z ∈ engineRegs p) : z ∈ l := hl hz
  have h404 : rPod p 0x404 ∈ l := hmem (by simp [engineRegs])
  have h408 : rPod p 0x408 ∈ l := hmem (by simp [engineRegs])
  have h40C : rPod p 0x408 + 4 ∈ l := hmem (by simp [engineRegs, rPod])
  have h500 : rPod p 0x500 ∈ l := hmem (by simp [engineRegs])
  have h508 : rPod p 0x508 ∈ l := hmem (by simp [engineRegs])
  have h510 : rPod p 0x510 ∈ l := hmem (by simp [engineRegs])
  have h514 : rPod p 0x510 + 4 ∈ l := hmem (by simp [engineRegs, rPod])
  have hranges : (pod (settled1 s p o) p).ranges = (pod s p).ranges := (congrArg Pod.ranges (pod_settled1 s p o) :)
  have h1 : Settling p l s (settled1 s p o) := modPod_settling ..
  have h2 : Settling p l (settled1 s p o) (settled2 s p o) := releaseTimed_settling _ _ h404 (by rw [hranges]; exact h)
  have h3 : Settling p l (settled2 s p o) (settled3 s p o) := Settling.ite (settleEngines_settling _ h408 h40C)
  rw [settleFor_eq]
  exact ((h1.trans h2).trans h3).trans (Settling.ite (settleTree_settling _ h500 h508 h510 h514))

end

/-! ## Classes -/

/-- What a class asks stands in six fields of the Pod. -/
theorem classDone_congr {s t : State} {p : PodId} {i : Nat} (h : ClassDone s p i) (hm : (pod t p).mmas = (pod s p).mmas) (he : (pod t p).me = (pod s p).me)
    (hr : (pod t p).ranges = (pod s p).ranges) (hp : (pod t p).pend = (pod s p).pend) (ht : (pod t p).te = (pod s p).te) (hq : (pod t p).outq = (pod s p).outq) :
    ClassDone t p i := by
  unfold ClassDone gathersOut outQ at *
  rw [hm, he, hr, hp, ht, hq]
  exact h

/-- A class below 4 that a barrier names is complete as it issues. -/
theorem classDone_settleFor (s : State) (p : PodId) (o : SlotOp) {i : Nat} (hi : i < 4) (hb : inBarrier o i = true) : ClassDone (settleFor s p o) p i := by
  have h1 := pod_settled1 s p o
  obtain ⟨k, m2, h2⟩ := pod_settled2 s p o
  obtain ⟨js, ls, m3, h3, hengines⟩ := pod_settled3 s p o
  obtain ⟨e, h4, htree⟩ := pod_settleFor s p o
  have hranges : (pod (settleFor s p o) p).ranges = (withoutTimed (rangeNeeded (settled1 s p o) p o) (pod (settled1 s p o) p)).ranges := by
    rw [h4, h3, h2]
  have hpend : (pod (settleFor s p o) p).pend = (pod s p).pend.filter (fun w => !resultDue o w) := by
    rw [h4, h3, h2]
    exact (congrArg Pod.pend h1 :)
  have hmmas : (pod (settleFor s p o) p).mmas = js := by rw [h4, h3]
  have hme : (pod (settleFor s p o) p).me = m3 := by rw [h4, h3]
  have hte : (pod (settleFor s p o) p).te = e := by rw [h4]
  have hreleased : ∀ r ∈ (pod (settleFor s p o) p).ranges, r.cls = i → r.due = none := by
    intro r hr hc
    rw [hranges] at hr
    have hkept := (List.mem_filter.1 hr).2
    cases hd : r.due with
    | none => rfl
    | some d =>
      rw [hd, rangeNeeded, hc, hb, decide_eq_true hi] at hkept
      simp at hkept
  unfold ClassDone
  rw [hmmas, hme, hpend, hte]
  refine ⟨?matrix, ?vector, ?tree, fun h3 r hr hc => hreleased r hr (hc.trans h3.symm), fun h4 => by omega, fun h5 => by omega⟩
  case matrix =>
    rintro rfl
    obtain ⟨hjs, v, hv⟩ := hengines hb
    refine ⟨hjs, fun g hg => ?_, hreleased⟩
    rw [hv, Vector.toList_map] at hg
    obtain ⟨a, -, rfl⟩ := List.mem_map.1 hg
    exact ⟨rfl, rfl⟩
  case vector =>
    rintro rfl w hw hslot
    have hkept := (List.mem_filter.1 hw).2
    rw [resultDue, hb, hslot] at hkept
    simp at hkept
  case tree =>
    rintro rfl
    obtain ⟨x, c, rfl⟩ := htree hb
    refine ⟨rfl, rfl, fun h hh => ?_⟩
    have hmap : h ∈ (x.halves.map (fun h => { h with loads := [] })).toList := hh
    rw [Vector.toList_map] at hmap
    obtain ⟨a, -, rfl⟩ := List.mem_map.1 hmap
    rfl

/-! ## Operations of the control core -/

section
variable (s : State) (p : PodId) (c : Nat) (f : CtlFields)

/-- A control operation meets no range. -/
theorem blockers_ctl : blockers s p (.ctl c f) = [] :=
  List.filter_eq_nil_iff.2 (fun r _ => by simp [opRangeReads, opRangeWrites])

/-- A control operation that is no barrier of timed work waits for the results of its registers alone. -/
theorem settleFor_ctl (h : ∀ i, i < 4 → inBarrier (.ctl c f) i = false) :
    settleFor s p (.ctl c f) = modPod s p (deliver (fun w => (opDepends (.ctl c f)).contains w.dest)) := by
  have hdue : resultDue (.ctl c f) = fun w => (opDepends (.ctl c f)).contains w.dest := by
    funext w
    rw [resultDue, h 1 (by decide), Bool.false_and, Bool.or_false]
  have hneeded (t : State) (r : StoreRange) : rangeNeeded t p (.ctl c f) r = false := by
    unfold rangeNeeded
    rw [blockers_ctl]
    by_cases hr : r.cls < 4
    · simp [h r.cls hr]
    · simp [hr]
  have h2 : settled2 s p (.ctl c f) = settled1 s p (.ctl c f) := releaseTimed_none (fun r _ => hneeded _ r)
  have h3 : settled3 s p (.ctl c f) = settled2 s p (.ctl c f) := if_neg (by rw [h 0 (by decide)]; exact Bool.false_ne_true)
  rw [settleFor_eq, h 2 (by decide), if_neg Bool.false_ne_true, h3, h2, settled1, hdue]

theorem settleFor_ctl_idle (h : ∀ i, i < 4 → inBarrier (.ctl c f) i = false) (hd : opDepends (.ctl c f) = []) : settleFor s p (.ctl c f) = s := by
  rw [settleFor_ctl s p c f h, hd]
  exact modPod_self (deliver_none (fun _ _ => rfl))

theorem barrierMask_ctl : barrierMask (.ctl c f) = if c = 0x18 then 0xF else if c = 0x19 then getF f.imm 0 6 else 0 := rfl

theorem inBarrier_none (hc : c ≠ 0x18) (hs : c ≠ 0x19) (i : Nat) : inBarrier (.ctl c f) i = false := by
  rw [inBarrier, barrierMask_ctl, if_neg hc, if_neg hs]
  simp

theorem inBarrier_fend {i : Nat} (hi : i < 4) : inBarrier (.ctl 0x18 f) i = true := by
  rw [inBarrier, barrierMask_ctl, if_pos rfl]
  revert i
  decide

theorem inBarrier_sync {i : Nat} (hi : i < 6) : inBarrier (.ctl 0x19 f) i = getB f.imm i := by
  rw [inBarrier, barrierMask_ctl, if_neg (by decide), if_pos rfl, getF, getB, BitVec.getLsbD, ← Nat.testBit_eq_decide_div_mod_eq, Nat.testBit_mod_two_pow, Nat.pow_zero, Nat.div_one]
  simp [hi]

variable {s p c f}

theorem runOp_ctl (h : Issues s p (.ctl c f)) (hc : c ≠ 0) : runOp s p (.ctl c f) = ctlEffect (markVClass (settleFor s p (.ctl c f)) p (.ctl c f)) p c f := by
  rw [runOp_issues h]
  exact congrArg Prod.fst (if_neg hc)

theorem runOp_ctl_plain (h : Issues s p (.ctl c f)) (hc : c ≠ 0) (hr : c ≠ 0x1B) (hx : c ≠ 0x1F) : runOp s p (.ctl c f) = ctlEffect (settleFor s p (.ctl c f)) p c f := by
  have hclass : vClass (.ctl c f) = none := by
    unfold vClass
    dsimp only
    rw [if_neg (fun e => hr e.1), if_neg (fun e => hx e.1)]
  rw [runOp_ctl h hc, markVClass, hclass]

end

end Sys2Proof.Machine
end

section
/-! What the operations of the frame end, of the barriers and of the Pod's own registers leave (R80, R157, R312, R341, R357). -/

namespace Sys2Proof.Machine

open Sys2Proof.Claims (ClassDone Issues)

/-! ## The frame end -/

theorem rPod_add (p a b : Nat) : rPod p (a + b) = rPod p a + b := (Nat.add_assoc ..).symm

theorem pcOf_setNext (s : State) (p : PodId) (n : Nat) : pcOf (setNext s p n) p = n % 2 ^ 14 := field_setField s (rPod p 0x100) 0 14 n (by decide)

theorem pod_setNext (s : State) (p : PodId) (n : Nat) : pod (setNext s p n) p = { pod s p with core := { (pod s p).core with beyond := decide (16384 ≤ n) } } := by
  rw [setNext, modCore, pod_modPod, setPc, setField, pod_setReg]

theorem ctlTarget_lt (f : CtlFields) : ctlTarget f < 2 ^ 14 := getF_lt ..

/-- The Pod at its frame end. -/
def atFrameEnd (s : State) (p : PodId) (f : CtlFields) : Pod :=
  let x := pod s p
  { x with stack := [], loops := [], core := { x.core with
      beyond := decide (16384 ≤ ctlTarget f), fendTick := some (tick s), fendStep := BitVec.ofNat 64 (stepCount s p) } }

theorem pod_issueFend (s : State) (p : PodId) (f : CtlFields) : pod (issueFend s p f) p = atFrameEnd s p f := by
  unfold issueFend
  dsimp only
  rw [pod_modPod, setFlag, setField, pod_setReg, pod_setNext]
  rfl

theorem podAtFend_issueFend (s : State) (p : PodId) (f : CtlFields) : podAtFend (issueFend s p f) p = true :=
  flag_setFlag (setNext s p (ctlTarget f)) (rPod p 0x100) 28 true (by decide)

theorem pcOf_issueFend (s : State) (p : PodId) (f : CtlFields) : pcOf (issueFend s p f) p = ctlTarget f := by
  have hkept : pcOf (issueFend s p f) p = pcOf (setNext s p (ctlTarget f)) p :=
    field_setField_ne (setNext s p (ctlTarget f)) (rPod p 0x100) 28 1 true.toNat (Or.inl (by decide))
  rw [hkept, pcOf_setNext, Nat.mod_eq_of_lt (ctlTarget_lt f)]

theorem classDone_issueFend {s : State} {p : PodId} {i : Nat} (h : ClassDone s p i) (f : CtlFields) : ClassDone (issueFend s p f) p i := by
  have hpod := pod_issueFend s p f
  exact classDone_congr h (by rw [hpod]; rfl) (by rw [hpod]; rfl) (by rw [hpod]; rfl) (by rw [hpod]; rfl) (by rw [hpod]; rfl) (by rw [hpod]; rfl)

/-! ## The counters -/

/-- The registers that completing work may write, all told, are neither the tick nor the step counter. -/
theorem settleFor_counters (s : State) (p : PodId) (o : SlotOp) : tick (settleFor s p o) = tick s ∧ stepCount (settleFor s p o) p = stepCount s p := by
  have hregs := (settleFor_settling s p o (l := engineRegs p ++ pairRegs) (List.subset_append_left ..) (Or.inr (List.subset_append_right ..))).regs
  have hpair := (by decide : ∀ z ∈ pairRegs, z < 0x1000000 ∧ z ≠ rTick ∧ z ≠ rTick + 4)
  have htick {z : Nat} (hz : z < 0x1000000) (h : z ∉ pairRegs) : z ∉ engineRegs p ++ pairRegs := by
    rw [List.mem_append, not_or]
    refine ⟨fun hm => ?_, h⟩
    simp only [engineRegs, rPod, List.mem_cons, List.not_mem_nil, or_false] at hm
    omega
  have hstep {d : Nat} (hd : d = 0x900 ∨ d = 0x904) : rPod p d ∉ engineRegs p ++ pairRegs := by
    rw [List.mem_append, not_or]
    refine ⟨fun hm => ?_, fun hm => ?_⟩
    · simp only [engineRegs, rPod, List.mem_cons, List.not_mem_nil, or_false] at hm
      omega
    · have := (hpair _ hm).1
      unfold rPod at this
      omega
  refine ⟨reg64_congr (hregs _ (htick (by decide) (by decide))) (hregs _ (htick (by decide) (by decide))),
    reg64_congr (hregs _ (hstep (Or.inl rfl))) (hregs _ ?_)⟩
  rw [← rPod_add]
  exact hstep (Or.inr rfl)

/-- C.STEP advances the counter and clears the draws. -/
theorem issueStep_left (s : State) (p : PodId) : reg64 (issueStep s p) (rPod p.val 0x900) = (reg64 s (rPod p.val 0x900) + 1) % 2 ^ 64
    ∧ reg64 (issueStep s p) (rPod p.val 0x608) = 0 ∧ OnlyRegs [rPod p.val 0x900, rPod p.val 0x904, rPod p.val 0x608, rPod p.val 0x60C] s (issueStep s p) := by
  have h904 : rPod p.val 0x900 + 4 = rPod p.val 0x904 := (rPod_add ..).symm
  have h60C : rPod p.val 0x608 + 4 = rPod p.val 0x60C := (rPod_add ..).symm
  unfold issueStep stepCount
  refine ⟨?_, reg64_setReg64 .., ?_⟩
  · rw [reg64_setReg64_ne _ _ (by unfold rPod; omega), reg64_setReg64, Nat.mod_mod]
  · unfold setReg64
    rw [h904, h60C]
    exact ((((OnlyRegs.refl _ s).setReg _ (by simp)).setReg _ (by simp)).setReg _ (by simp)).setReg _ (by simp)

end Sys2Proof.Machine
end

section
/-! The Pod's own registers as C.CSRW writes and C.CSRR reads them (R72, R80, R102, R129, R341, R439). -/

namespace Sys2Proof.Machine

/-! ## Writes -/

section
variable (s : State) (p : PodId) (v : Word)

theorem writePodReg_round {o : Nat} (h : o = 0x400 ∨ o = 0x600) : writePodReg s p true o v = setField s (rPod p.val o) 0 3 (getF v 0 3) := if_pos h

theorem writePodReg_clears {o m : Nat} (h : (o, m) ∈ [(0x404, 0x00FFFFFF), (0x508, 0x0000000F), (0x604, 0x0000003F)]) :
    writePodReg s p true o v = setReg s (rPod p.val o) (reg s (rPod p.val o) &&& ~~~ (v &&& BitVec.ofNat 32 m)) := by
  simp only [List.mem_cons, Prod.mk.injEq, List.not_mem_nil, or_false] at h
  rcases h with ⟨rfl, rfl⟩ | ⟨rfl, rfl⟩ | ⟨rfl, rfl⟩ <;> rfl

theorem writePodReg_egress : writePodReg s p true 0xA00 v = writeEgress s p v := rfl

theorem writePodReg_teCfg : writePodReg s p true 0x500 v = writeTeCfg s p v := rfl

theorem writePodReg_dropped {o : Nat} (h : o ∉ [0x400, 0x404, 0x500, 0x508, 0x600, 0x604, 0xA00]) : writePodReg s p true o v = s := by
  simp only [List.mem_cons, List.not_mem_nil, or_false, not_or] at h
  obtain ⟨h400, h404, h500, h508, h600, h604, hA00⟩ := h
  unfold writePodReg
  rw [if_neg (by omega), if_neg h404, if_neg h500, if_neg h508, if_neg h604, if_neg (by omega)]

/-- A write of POD_TE_CFG to an idle engine is in force at once. -/
theorem writeTeCfg_left (h : teBusy (pod s p) = false) : reg (writeTeCfg s p v) (rPod p.val 0x500) = v &&& 0x07FFFF01
    ∧ (pod (writeTeCfg s p v) p).te.heldCfg = none ∧ (∀ q, q ≠ p → pod (writeTeCfg s p v) q = pod s q) ∧ MemSame s (writeTeCfg s p v)
    ∧ RegsBut [rPod p.val 0x500] s (writeTeCfg s p v) := by
  rw [writeTeCfg_idle v h]
  refine ⟨reg_setReg .., ?_, fun q hq => ?_, memByte_congr (by rw [setReg_mem]; rfl), fun o _ ho => ?_⟩
  · rw [pod_setReg, pod_setPod]
  · rw [pod_setReg, pod_setPod_ne _ _ hq, holdTeCfg, pod_modPod_ne _ _ (Ne.symm hq)]
  · rw [reg_setReg_ne _ _ (fun e => ho (by rw [e]; exact List.mem_singleton_self _))]
    rfl

theorem postOf_counted (h : getF v 8 8 ≠ 0) :
    postOf s p v = [⟨toStream (getF v 0 6), getF v 8 8, BitVec.ofNat 64 (stepCount s p), s.misc.weightNow, false⟩] := if_neg h

end

/-! ## Reads -/

/-- The registers that C.CSRR is said to read: none of them is counted, latched or derived. -/
def plainPodRegs : List Nat := [0x100, 0x104, 0x108, 0x400, 0x404, 0x500, 0x508, 0x600, 0x604]

/-- What a read at offset `r` of a Pod's block latches: the HI of a counter. -/
def podLatches (r : Nat) : List Nat :=
  if [0x110, 0x118, 0x408, 0x410, 0x510, 0x518, 0x608, 0x610].contains r ∨ (0x200 ≤ r ∧ r < 0x300 ∧ r % 8 = 0) then [4] else []

theorem plainPodRegs_lt {r : Nat} (hr : r ∈ plainPodRegs) : r < 0x10000 := (by decide : ∀ r ∈ plainPodRegs, r < 0x10000) r hr

section
variable (p : PodId) {r : Nat}

/-- Where the block of Pod `p` stands, and what an address in it says. -/
theorem rPod_block (hr : r < 0x10000) : 0x1000000 ≤ rPod p.val r ∧ rPod p.val r < 0x1400000 ∧ rPod p.val r % 0x10000 = r
    ∧ toPod ((rPod p.val r - 0x1000000) / 0x10000) = p := by
  have hp := p.isLt
  have hquot : (rPod p.val r - 0x1000000) / 0x10000 = p.val := by unfold rPod; omega
  refine ⟨by unfold rPod; omega, by unfold rPod; omega, by unfold rPod; omega, ?_⟩
  rw [hquot]
  exact Fin.ext (Nat.mod_eq_of_lt hp)

theorem latchedBy_pod (hr : r < 0x10000) : latchedBy (rPod p.val r) = podLatches r := by
  have hlow : ∀ z ∈ [rStake, rStakeStart, rHoldTotal, rWeaveStake, rStartStake, rSeedId, rPairLocStake, rPairLocAddr, rFaultStake,
      rCkptLast, rCkptLastStep, rCkptPrev, rCkptPrevStep, rRestart], z < 0x1000000 := by decide
  obtain ⟨hlo, hhi, hoff, -⟩ := rPod_block p hr
  unfold latchedBy
  rw [if_neg (by unfold rTick; omega), if_neg (by unfold rNowNs; omega), if_neg (by unfold rEpochTick; omega),
    if_neg (fun hc => Nat.not_lt.2 hlo (hlow _ (List.contains_iff_mem.1 hc))), if_neg (by omega), if_pos ⟨hlo, hhi⟩, hoff]
  rfl

theorem isLatched_pod (hr : r ∈ plainPodRegs) : isLatched (rPod p.val r) = false := by
  have hnone : ∀ r ∈ plainPodRegs, ∀ d ∈ [4, 8, 12, 16, 20], d ≤ r ∧ (podLatches (r - d)).contains d = false := by decide
  have hlt := plainPodRegs_lt hr
  refine List.any_eq_false.2 (fun d hd => ?_)
  obtain ⟨hle, hfree⟩ := hnone r hr d hd
  have hback : rPod p.val r - d = rPod p.val (r - d) := by unfold rPod; omega
  rw [hback, latchedBy_pod p (by omega), hfree]
  simp

theorem gatedOff_pod (s : State) (hr : r < 0x10000) : gatedOff s (rPod p.val r) = false := by
  have hlow : ∀ z ∈ [rFcountCtrl, rFcount, rPtpCtrl, rPtpLat], rPod p.val r ≠ z := fun z hz e =>
    Nat.not_lt.2 (rPod_block p hr).1 (e ▸ (by decide : ∀ z ∈ [rFcountCtrl, rFcount, rPtpCtrl, rPtpLat], z < 0x1000000) z hz)
  simp [gatedOff, hlow]

/-- Which offsets of a Pod's block are counters does not depend on the Pod. -/
theorem isCounter_pod (q : PodId) (hr : r < 0x10000) : isCounter (rPod p.val r) = isCounter (rPod q.val r) := by
  obtain ⟨hlo, hhi, hoff, -⟩ := rPod_block p hr
  obtain ⟨hloq, hhiq, hoffq, -⟩ := rPod_block q hr
  unfold isCounter
  rw [if_pos ⟨hlo, hhi⟩, if_pos ⟨hloq, hhiq⟩, hoff, hoffq]

theorem plainRead_pod (s : State) (hr : r ∈ plainPodRegs) : plainRead s (rPod p.val r) = reg s (rPod p.val r) := by
  have hplain : ∀ r ∈ plainPodRegs, isCounter (rPod (0 : PodId).val r) = false ∧ r ≠ 0x504 ∧ r < 0x800 := by decide
  have hlt := plainPodRegs_lt hr
  obtain ⟨hcounter, h504, h800⟩ := hplain r hr
  obtain ⟨hlo, hhi, hoff, hpod⟩ := rPod_block p hlt
  unfold plainRead
  rw [gatedOff_pod p s hlt, isCounter_pod p 0 hlt, hcounter, if_neg Bool.false_ne_true, Bool.and_false, if_neg Bool.false_ne_true]
  unfold liveReg
  dsimp only
  rw [if_pos ⟨hlo, hhi⟩, hoff, hpod]
  unfold podRead
  dsimp only
  rw [if_neg h504, if_neg (by omega), if_neg (by omega), if_neg (by omega), pReg]

theorem readReg_pod (s : State) (a : Agent) (hr : r ∈ plainPodRegs) : readReg s a (rPod p.val r) = (reg s (rPod p.val r), s) := by
  have hnone : latchedBy (rPod p.val r) = [] :=
    (latchedBy_pod p (plainPodRegs_lt hr)).trans ((by decide : ∀ r ∈ plainPodRegs, podLatches r = []) r hr)
  unfold readReg
  rw [isLatched_pod p hr, hnone, if_neg Bool.false_ne_true, plainRead_pod p s hr]
  rfl

end

end Sys2Proof.Machine
end

section
/-! The frame end, the barriers and the Pod's own registers (R80, R155, R157, R312, R341). -/

namespace Sys2Proof.Machine

open Sys2Proof.Claims (ClassDone Issues)

/-! ## Barriers of tokens and gathers -/

/-- What C.SYNC still waits for once the timed classes are complete. -/
theorem syncWaits_untimed {x : Pod} {m : Nat} (h : syncWaits x m = false) :
    (m / 2 ^ 4 % 2 = 1 → ∀ q : Fin 8, (outQ x q).tokens = []) ∧ (m / 2 ^ 5 % 2 = 1 → gathersOut x = 0) := by
  unfold syncWaits at h
  simp only [Bool.or_eq_false_iff, Bool.and_eq_false_imp, decide_eq_true_eq, decide_eq_false_iff_not] at h
  obtain ⟨⟨-, htokens⟩, hgathers⟩ := h
  refine ⟨fun h4 q => ?_, fun h5 => by have := hgathers h5; omega⟩
  have hq := List.any_eq_false.1 (htokens h4) (outQ x q) (by
    rw [toList_eq_map_vget]
    exact List.mem_map_of_mem (List.mem_finRange q))
  simpa using hq

/-- Every class that C.SYNC names is complete as it issues. -/
theorem classDone_sync {s : State} {p : PodId} {f : CtlFields} (h : Issues s p (.ctl 0x19 f)) {i : Nat} (hi : i < 6) (hb : getB f.imm i = true) :
    ClassDone (settleFor s p (.ctl 0x19 f)) p i := by
  have hin : inBarrier (.ctl 0x19 f) i = true := (inBarrier_sync f hi).trans hb
  by_cases h4 : i < 4
  · exact classDone_settleFor s p _ h4 hin
  have hbit : getF f.imm 0 6 / 2 ^ i % 2 = 1 := of_decide_eq_true hin
  have hmask : barrierMask (.ctl 0x19 f) = getF f.imm 0 6 := rfl
  obtain ⟨-, -, -, -, hwaits⟩ := h
  have hsync : syncWaits (pod (settleFor s p (.ctl 0x19 f)) p) (getF f.imm 0 6 / 16 * 16) = false := by
    have hlast := (Bool.or_eq_false_iff.1 hwaits).2
    rwa [hmask, if_neg (fun e => by rw [e] at hbit; simp at hbit)] at hlast
  obtain ⟨htokens, hgathers⟩ := syncWaits_untimed hsync
  obtain rfl | rfl : i = 4 ∨ i = 5 := by omega
  · refine ⟨by simp, by simp, by simp, by simp, fun _ => htokens (by omega), by simp⟩
  · refine ⟨by simp, by simp, by simp, by simp, by simp, fun _ => hgathers (by omega)⟩

/-- C.SYNC of tokens and gathers alone is a barrier of no timed class. -/
theorem inBarrier_sync_untimed {f : CtlFields} (h : getF f.imm 0 4 = 0) (i : Nat) (hi : i < 4) : inBarrier (.ctl 0x19 f) i = false := by
  rw [inBarrier_sync f (by omega), getB, BitVec.getLsbD]
  have hbit : (f.imm.toNat % 2 ^ 4).testBit i = false := by
    rw [getF, Nat.pow_zero, Nat.div_one] at h
    rw [h, Nat.zero_testBit]
  rwa [Nat.testBit_mod_two_pow, decide_eq_true hi, Bool.true_and] at hbit

/-! ## An own register, read and written -/

theorem deliver_own (sel : PendWrite → Bool) (x : Pod) : (deliver sel x).posts = x.posts := (congrArg Pod.posts (deliver_filesOnly sel x) :)

/-- Before C.CSRW and C.CSRR only results are delivered. -/
theorem settleFor_own (s : State) (p : PodId) {c : Nat} (f : CtlFields) (hc : c = 0x1E ∨ c = 0x1F) :
    settleFor s p (.ctl c f) = modPod s p (deliver (fun w => (opDepends (.ctl c f)).contains w.dest)) :=
  settleFor_ctl s p c f (fun i _ => inBarrier_none c f (by omega) (by omega) i)

/-- C.CSRW is its write of the Pod's own block. -/
theorem runOp_csrw {s : State} {p : PodId} {f : CtlFields} (h : Issues s p (.ctl 0x1E f)) : runOp s p (.ctl 0x1E f)
    = writePodReg (settleFor s p (.ctl 0x1E f)) p true (getF f.imm 0 16) ((sReg (pod (settleFor s p (.ctl 0x1E f)) p) f.ra).setWidth 32) :=
  runOp_ctl_plain h (by decide) (by decide) (by decide)

/-- C.CSRW of POD_TE_CFG finds the Tree Engine idle. -/
theorem teIdle_csrw {s : State} {p : PodId} {f : CtlFields} (h : Issues s p (.ctl 0x1E f)) (hcfg : getF f.imm 0 16 = 0x500) :
    teBusy (pod (settleFor s p (.ctl 0x1E f)) p) = false := by
  obtain ⟨-, -, -, -, hwaits⟩ := h
  have hlast := (Bool.or_eq_false_iff.1 hwaits).2
  rw [show barrierMask (.ctl 0x1E f) = 0 from rfl, if_pos rfl] at hlast
  have hstalls : unitStalls (settleFor s p (.ctl 0x1E f)) p (.ctl 0x1E f) = trapIf (teBusy (pod (settleFor s p (.ctl 0x1E f)) p)) 0x0D := by
    unfold unitStalls ctlStalls
    dsimp only
    rw [if_neg (by decide), if_neg (by decide), if_pos ⟨rfl, hcfg⟩]
  rw [hstalls] at hlast
  cases hbusy : teBusy (pod (settleFor s p (.ctl 0x1E f)) p) with
  | false => rfl
  | true => rw [hbusy] at hlast; exact absurd hlast (by decide)

theorem ctlEffect_csrr (v : State) (p : PodId) {f : CtlFields} (h : getF f.imm 0 16 % 4 = 0) : ctlEffect v p 0x1F f
    = ctlResult (readReg v (.pod p) (rPod p.val (getF f.imm 0 16))).2 p f (readReg v (.pod p) (rPod p.val (getF f.imm 0 16))).1.toNat 4 :=
  congrArg (fun r : Word × State => ctlResult r.2 p f r.1.toNat 4) (if_pos h)

/-- C.CSRR gives the register, four cycles later. -/
theorem runOp_csrr {s : State} {p : PodId} {f : CtlFields} (h : Issues s p (.ctl 0x1F f)) {o : Nat} (ho : getF f.imm 0 16 = o) (hm : o ∈ plainPodRegs) :
    runOp s p (.ctl 0x1F f) = Sys2Proof.Claims.gives s p (.ctl 0x1F f) (fun _ => [(destS f.rd, (reg s (rPod p.val o)).toNat)]) 4 := by
  have h4 : ∀ r ∈ plainPodRegs, r % 4 = 0 ∧ r ≠ 0x908 := by decide
  obtain ⟨halign, hne⟩ := h4 o hm
  have hreg : reg (markVClass (settleFor s p (.ctl 0x1F f)) p (.ctl 0x1F f)) (rPod p.val o) = reg s (rPod p.val o) := by
    rw [reg_markVClass_ne _ _ _ (by unfold rPod; omega), settleFor_own s p f (Or.inr rfl), reg_modPod]
  rw [runOp_ctl h (by decide), ctlEffect_csrr _ p (ho ▸ halign), ho, readReg_pod p _ _ hm, hreg]
  unfold ctlResult nextSerial modCore Sys2Proof.Claims.gives Sys2Proof.Claims.result
  dsimp only
  rw [modPod_modPod]
  exact modPod_congr rfl

end Sys2Proof.Machine

open Sys2Proof.Machine in
/-- Settles O41: each of the five is its own effect after the completion that the scoreboard requires of it. -/
theorem frameEndBarriersAndOwnRegisters : Obligations.FrameEndBarriersAndOwnRegisters := by
  unfold Obligations.FrameEndBarriersAndOwnRegisters
  intro p f s _
  refine ⟨?fend, ?sync, ?step, ?csrw, ?csrr⟩
  case fend =>
    intro h
    have hrun : runOp s p (.ctl 0x18 f) = issueFend (settleFor s p (.ctl 0x18 f)) p f := runOp_ctl_plain h (by decide) (by decide) (by decide)
    obtain ⟨htick, hstep⟩ := settleFor_counters s p (.ctl 0x18 f)
    refine ⟨_, congrArg Host.Outcome.next hrun, podAtFend_issueFend .., pcOf_issueFend .., ?_⟩
    rw [pod_issueFend, ← htick, ← hstep]
    exact ⟨rfl, rfl, rfl, rfl, fun i hi => classDone_issueFend (classDone_settleFor s p _ hi (inBarrier_fend f hi)) f⟩
  case sync =>
    intro h
    have hrun : runOp s p (.ctl 0x19 f) = settleFor s p (.ctl 0x19 f) := runOp_ctl_plain h (by decide) (by decide) (by decide)
    refine ⟨_, congrArg Host.Outcome.next hrun, fun i hi hb => classDone_sync h hi hb, fun hnone => ?_, ?_, fun hd o _ ho => ?_⟩
    · exact settleFor_ctl_idle s p 0x19 f (inBarrier_sync_untimed hnone) rfl
    · exact (settleFor_settling s p (.ctl 0x19 f) (l := engineRegs p ++ pairRegs) (List.subset_append_left ..) (Or.inr (List.subset_append_right ..))).others
    · exact (settleFor_settling s p (.ctl 0x19 f) (l := engineRegs p) (List.Subset.refl _) (Or.inl hd)).regs o ho
  case step =>
    intro h
    have hidle : settleFor s p (.ctl 0x1A f) = s := settleFor_ctl_idle s p 0x1A f (fun i _ => inBarrier_none 0x1A f (by decide) (by decide) i) rfl
    have hrun : runOp s p (.ctl 0x1A f) = issueStep (settleFor s p (.ctl 0x1A f)) p := runOp_ctl_plain h (by decide) (by decide) (by decide)
    rw [hidle] at hrun ⊢
    exact ⟨_, congrArg Host.Outcome.next hrun, issueStep_left s p⟩
  case csrw =>
    rintro v hv h
    have hrun := runOp_csrw h
    rw [← hv] at hrun
    have hidle := teIdle_csrw h
    have hsettled := settleFor_own s p f (Or.inl (rfl : 0x1E = 0x1E))
    have hregs : (settleFor s p (.ctl 0x1E f)).regs = s.regs := by rw [hsettled]; rfl
    have hmisc : (settleFor s p (.ctl 0x1E f)).misc = s.misc := by rw [hsettled]; rfl
    have hposts : (pod (settleFor s p (.ctl 0x1E f)) p).posts = (pod s p).posts := by rw [hsettled, pod_modPod, deliver_own]
    have hothers : ∀ q, q ≠ p → pod (settleFor s p (.ctl 0x1E f)) q = pod s q := fun q hq => by rw [hsettled, pod_modPod_ne _ _ (Ne.symm hq)]
    generalize settleFor s p (.ctl 0x1E f) = u at *
    have hreg (o : Nat) : reg u o = reg s o := by unfold reg; rw [hregs]
    refine ⟨fun o ho hround => ?_, fun o m ho hclear => ?_, fun ho hcount => ?_, fun ho => ?_, fun ho => ?_⟩
    · refine ⟨_, congrArg Host.Outcome.next hrun, ?_⟩
      rw [ho, writePodReg_round u p v hround]
      refine ⟨?_, fun b hb => ?_, setReg_only u _ (by simp)⟩
      · rw [field_setField _ _ _ _ _ (by decide)]
        exact Nat.mod_eq_of_lt (getF_lt ..)
      · rw [flag, reg_setField, getB, getLsbD_setF_ne _ _ _ _ _ (Or.inr hb), hreg]
        rfl
    · refine ⟨_, congrArg Host.Outcome.next hrun, ?_⟩
      rw [ho, writePodReg_clears u p v hclear, ← hreg]
      exact ⟨reg_setReg .., setReg_only u _ (by simp)⟩
    · refine ⟨_, congrArg Host.Outcome.next hrun, ?_⟩
      rw [ho, writePodReg_egress]
      have hstep : stepCount u p = stepCount s p := reg64_congr (hreg _) (hreg _)
      refine ⟨?_, hregs, fun a => rfl⟩
      rw [writeEgress_posts, postOf_counted u p v hcount, hposts, hmisc, hstep]
    · refine ⟨_, congrArg Host.Outcome.next hrun, ?_⟩
      rw [ho, writePodReg_teCfg]
      obtain ⟨hcfg, hheld, hpods, hmem, hbut⟩ := writeTeCfg_left u p v (hidle ho)
      exact ⟨hcfg, hheld, fun q hq => (hpods q hq).trans (hothers q hq), hmem, hbut⟩
    · exact congrArg Host.Outcome.next (hrun.trans (writePodReg_dropped u p v ho))
  case csrr =>
    intro o ho hm h
    exact congrArg Host.Outcome.next (runOp_csrr h ho hm)
end

section
/-! Bytes as the Tree Engine reads and writes them: pieces of what is read, pieces of what is put together, and a record of lanes (R92, R99). -/

namespace Sys2Proof.Machine

/-! ## Pieces of what is read -/

theorem memRead_length (s : State) (a n : Nat) : (memRead s a n).length = n := by
  induction n generalizing a with
  | zero => rfl
  | succ n ih => rw [memRead, List.length_cons, ih]

theorem memRead_add (s : State) (a m n : Nat) : memRead s a (m + n) = memRead s a m ++ memRead s (a + m) n := by
  induction m generalizing a with
  | zero => rw [Nat.zero_add, memRead, List.nil_append, Nat.add_zero]
  | succ m ih => rw [Nat.succ_add, memRead, memRead, ih, List.cons_append, Nat.add_assoc, Nat.add_comm 1 m]

/-- A piece inside a list of bytes. -/
theorem sliceB_middle (a m b : List Byte) : sliceB (a ++ (m ++ b)) a.length m.length = m := by
  unfold sliceB
  dsimp only
  rw [List.drop_left, List.take_left, Nat.sub_self, List.replicate_zero, List.append_nil]

/-- A piece of what is read is what is read there. -/
theorem sliceB_memRead (s : State) (a : Nat) {k n m : Nat} (h : k + n ≤ m) : sliceB (memRead s a m) k n = memRead s (a + k) n := by
  obtain ⟨r, rfl⟩ := Nat.exists_eq_add_of_le h
  have hpiece := sliceB_middle (memRead s a k) (memRead s (a + k) n) (memRead s (a + k + n) r)
  rw [memRead_length, memRead_length] at hpiece
  rw [Nat.add_assoc, memRead_add, memRead_add, hpiece]

theorem sliceB_drop (l : List Byte) (a o n : Nat) : sliceB (l.drop a) o n = sliceB l (a + o) n := by
  unfold sliceB
  dsimp only
  rw [List.drop_drop]

theorem chunksB_getD (n : Nat) {k i : Nat} (l : List Byte) (h : i < k) : (chunksB n k l).getD i [] = sliceB l (n * i) n := by
  induction k generalizing l i with
  | zero => omega
  | succ k ih =>
    cases i with
    | zero => rfl
    | succ i => rw [chunksB, List.getD_cons_succ, ih _ (by omega), sliceB_drop, Nat.mul_succ, Nat.add_comm]

/-! ## Pieces of what is put together -/

theorem sliceB_flatMap {α : Type} {g : α → List Byte} {k : Nat} (hg : ∀ x, (g x).length = k) (d : α) (l : List α) (b : List Byte) {j : Nat} (h : j < l.length) :
    sliceB (l.flatMap g ++ b) (k * j) k = g (l.getD j d) := by
  induction l generalizing j with
  | nil => simp at h
  | cons x l ih =>
    cases j with
    | zero =>
      have hfirst := sliceB_prefix (g x) (l.flatMap g ++ b)
      rwa [hg, ← List.append_assoc] at hfirst
    | succ j =>
      have hrest : ((x :: l).flatMap g ++ b).drop k = l.flatMap g ++ b := by rw [List.flatMap_cons, List.append_assoc, ← hg x, List.drop_left]
      rw [List.getD_cons_succ, ← ih (Nat.lt_of_succ_lt_succ h), ← hrest, sliceB_drop, Nat.mul_succ, Nat.add_comm]

theorem length_flatMap_const {α : Type} {g : α → List Byte} {k : Nat} (hg : ∀ x, (g x).length = k) (l : List α) : (l.flatMap g).length = k * l.length := by
  induction l with
  | nil => rfl
  | cons x l ih => rw [List.flatMap_cons, List.length_append, hg, ih, List.length_cons, Nat.mul_succ, Nat.add_comm]

theorem numAt_leBytes {a b : List Byte} {n v : Nat} : numAt (a ++ (leBytes n v ++ b)) a.length n = v % 256 ^ n := by
  have hpiece := sliceB_middle a (leBytes n v) b
  rw [leBytes_length] at hpiece
  rw [numAt, hpiece, leNat_leBytes]

/-- One bit of a mask of lanes. -/
theorem joinLanes_bit (l : List Nat) (j : Nat) : joinLanes 1 l / 2 ^ j % 2 = l.getD j 0 % 2 := by
  induction l generalizing j with
  | nil => simp [joinLanes]
  | cons x l ih =>
    cases j with
    | zero =>
      rw [joinLanes, List.getD_cons_zero]
      omega
    | succ j =>
      have hhalf : (x % 2 ^ 1 + 2 ^ 1 * joinLanes 1 l) / 2 = joinLanes 1 l := by omega
      rw [joinLanes, List.getD_cons_succ, ← ih, Nat.pow_succ' (n := j), ← Nat.div_div_eq_div_mul, hhalf]

/-! ## The record of a window (R99) -/

section
variable (xps : Bool) (leafExp : Int) (valid err : Word64) (windowNo : Nat) (scores : List Int)

theorem xpsBytes_length (x : Xps) : (xpsBytes x).length = 256 := by
  unfold xpsBytes
  rw [List.length_append, List.length_append, List.length_append, leBytes_length, leBytes_length, leBytes_length,
    length_flatMap_const (fun i => leBytes_length 7 _)]
  rfl

/-- The record is its scores, then the mask, the error mask and the window number in eight bytes each, then zeros. -/
theorem windowRecord_parts (h : scores.length = 64) : ∃ b, b.length = 512 ∧ (xps = false → b = scores.flatMap (fun v => leBytes 8 (wrap 64 v)))
    ∧ windowRecord xps leafExp valid err windowNo scores
      = b ++ (leBytes 8 valid.toNat ++ (leBytes 8 err.toNat ++ (leBytes 8 windowNo ++ List.replicate 104 0))) := by
  unfold windowRecord
  simp only [List.append_assoc]
  refine ⟨_, ?_, ?_, rfl⟩
  · split
    · rw [List.length_append, xpsBytes_length, xpsBytes_length]
    · rw [length_flatMap_const (fun i => leBytes_length 8 _), h]
  · rintro rfl
    rfl

theorem windowRecord_length (h : scores.length = 64) : (windowRecord xps leafExp valid err windowNo scores).length = 640 := by
  obtain ⟨b, hb, -, hrec⟩ := windowRecord_parts xps leafExp valid err windowNo scores h
  rw [hrec]
  simp only [List.length_append, leBytes_length, List.length_replicate, hb]

theorem windowRecord_score (h : scores.length = 64) {j : Nat} (hj : j < 64) :
    sliceB (windowRecord false leafExp valid err windowNo scores) (8 * j) 8 = leBytes 8 (wrap 64 (scores.getD j 0)) := by
  obtain ⟨b, -, hscores, hrec⟩ := windowRecord_parts false leafExp valid err windowNo scores h
  rw [hrec, hscores rfl]
  exact sliceB_flatMap (fun v => leBytes_length 8 _) 0 scores _ (h ▸ hj)

theorem windowRecord_mask (h : scores.length = 64) : sliceB (windowRecord xps leafExp valid err windowNo scores) 512 8 = leBytes 8 valid.toNat := by
  obtain ⟨b, hb, -, hrec⟩ := windowRecord_parts xps leafExp valid err windowNo scores h
  have hpiece := sliceB_middle b (leBytes 8 valid.toNat) (leBytes 8 err.toNat ++ (leBytes 8 windowNo ++ List.replicate 104 0))
  rwa [hb, leBytes_length, ← hrec] at hpiece

theorem windowRecord_err (h : scores.length = 64) : numAt (windowRecord xps leafExp valid err windowNo scores) 520 8 = err.toNat := by
  obtain ⟨b, hb, -, hrec⟩ := windowRecord_parts xps leafExp valid err windowNo scores h
  have hpiece := numAt_leBytes (a := b ++ leBytes 8 valid.toNat) (b := leBytes 8 windowNo ++ List.replicate 104 0) (n := 8) (v := err.toNat)
  rw [List.length_append, hb, leBytes_length, List.append_assoc, ← hrec] at hpiece
  exact hpiece.trans (Nat.mod_eq_of_lt err.isLt)

theorem windowRecord_number (h : scores.length = 64) : sliceB (windowRecord xps leafExp valid err windowNo scores) 528 8 = leBytes 8 windowNo := by
  obtain ⟨b, hb, -, hrec⟩ := windowRecord_parts xps leafExp valid err windowNo scores h
  have hpiece := sliceB_middle (b ++ (leBytes 8 valid.toNat ++ leBytes 8 err.toNat)) (leBytes 8 windowNo) (List.replicate 104 0)
  rw [List.length_append, List.length_append, hb, leBytes_length, leBytes_length, leBytes_length, List.append_assoc, List.append_assoc, ← hrec] at hpiece
  exact hpiece

end

end Sys2Proof.Machine
end

section
/-! What the operations of the Tree Engine leave: its loads (R92, R94, R96), and a window (R88, R95, R98 to R100). -/

namespace Sys2Proof.Machine

open Sys2Proof.Claims (Issues Stored)

theorem runOp_te {s : State} {p : PodId} {c : Nat} {f : TeFields} (h : Issues s p (.te c f)) (hc : c ≠ 0) :
    runOp s p (.te c f) = issueTe (settleFor s p (.te c f)) p c f := by
  rw [runOp_issues h]
  exact congrArg Prod.fst (if_neg hc)

section
variable (u : State) (p : PodId) (f : TeFields)

/-! ## Loads -/

/-- What a load of the Tree Engine has read, and the device it leaves of the read. -/
theorem loadRead_left (o n : Nat) : Faulting (storeErrRegs p) (nextSerial u p).2 (storeRead (nextSerial u p).2 p o n).1
    ∧ (storeRead (nextSerial u p).2 p o n).2 = memRead u (podAddr p o) n :=
  ⟨storeRead_faulting .., memRead_of_mem (nextSerial_mem u p) ..⟩

/-- The slots of TE.NLOAD lie in the node region. -/
theorem nloadSlots_fit (b : Word64) (l : List Byte) :
    0xC00000 + getF b 0 6 * 0x10000 + 16 * getF b 6 12 + (l.take (16 * min (getF b 18 13) (4096 - getF b 6 12))).length ≤ podSize := by
  have hpart : getF b 0 6 < 64 := getF_lt ..
  have hslot : getF b 6 12 < 4096 := getF_lt ..
  rw [List.length_take]
  unfold podSize
  omega

/-- TE.NLOAD writes its slots, then leaves its load, its lines, its read and its range. -/
theorem issueNload_eq : ∃ (g : Pod → Pod) (loads : Pod → List Due) (lines : Pod → List LineStream) (reads : List ReadJob),
    issueNload u p f = modPod (memWrite (storeRead (nextSerial u p).2 p (sNum (pod u p) f.xa) (16 * nloadCount (sReg (pod u p) f.xb))).1
        (slotAddr p (nloadPart (sReg (pod u p) f.xb)) (nloadSlot (sReg (pod u p) f.xb)))
        ((storeRead (nextSerial u p).2 p (sNum (pod u p) f.xa) (16 * nloadCount (sReg (pod u p) f.xb))).2.take
          (16 * min (nloadCount (sReg (pod u p) f.xb)) (4096 - nloadSlot (sReg (pod u p) f.xb))))) p g
    ∧ ∀ y, RangesOnly { y with te := { y.te with nloads := loads y }, lines := lines y, reads := y.reads ++ reads } (g y) :=
  ⟨_, _, _, _, rfl, fun _ => addRange_rangesOnly ..⟩

/-- What TE.NLOAD leaves of the device. -/
theorem issueNload_left (b : Word64) (hb : b = sReg (pod u p) f.xb) :
    Stored u (issueNload u p f) (podAddr p (0xC00000 + getF b 0 6 * 0x10000 + 16 * getF b 6 12))
      ((memRead u (podAddr p (sNum (pod u p) f.xa)) (16 * getF b 18 13)).take (16 * min (getF b 18 13) (4096 - getF b 6 12)))
    ∧ (pod u p).te.halves = (pod (issueNload u p f) p).te.halves ∧ (pod (issueNload u p f) p).pend = (pod u p).pend
    ∧ ∀ q, q ≠ p → pod (issueNload u p f) q = pod u q := by
  obtain ⟨g, loads, lines, reads, hg, hleft⟩ := issueNload_eq u p f
  obtain ⟨hfault, hdata⟩ := loadRead_left u p (sNum (pod u p) f.xa) (16 * nloadCount (sReg (pod u p) f.xb))
  rw [hg, hdata, ← hb]
  rw [← hb] at hfault
  generalize (storeRead (nextSerial u p).2 p (sNum (pod u p) f.xa) (16 * nloadCount b)).1 = v at hfault ⊢
  have hmem : v.mem = u.mem := (congrArg State.mem hfault.frame :)
  have hstored := stored_podWrite (p := p) hmem (nloadSlots_fit b (memRead u (podAddr p (sNum (pod u p) f.xa)) (16 * getF b 18 13)))
  have hpods (q : PodId) (addr : Nat) (l : List Byte) : pod (memWrite v addr l) q = pod (nextSerial u p).2 q := hfault.pod q
  have hy := hleft (numbered (pod u p))
  refine ⟨fun a => (memByte_congr (modPod_mem _ p g) a).trans (hstored a), ?_, ?_, fun q hq => ?_⟩
  · rw [pod_modPod, hpods, pod_nextSerial]
    exact (congrArg (fun y : Pod => y.te.halves) hy.symm :)
  · rw [pod_modPod, hpods, pod_nextSerial]
    exact (congrArg Pod.pend hy :)
  · rw [pod_modPod_ne _ g (Ne.symm hq), hpods, pod_nextSerial_ne u hq]

/-- The features that TE.FLOAD takes. -/
def loadedHalf (x : Pod) (loads : List Due) : FeatureHalf :=
  ⟨featureCount u p, (chunksB 4 (64 * featureCount u p) (memRead u (podAddr p (sNum x f.xa)) (256 * featureCount u p))).map (fun b => BitVec.ofNat 32 (leNat b)), loads⟩

/-- TE.FLOAD leaves its half, its lines, its read and its range. -/
theorem issueFload_eq : ∃ (g : Pod → Pod) (half : FeatureHalf) (loads : List Due) (lines : Pod → List LineStream) (reads : List ReadJob),
    issueFload u p f = modPod (storeRead (nextSerial u p).2 p (sNum (pod u p) f.xa) (256 * featureCount u p)).1 p g
    ∧ half = loadedHalf u p f (pod u p) loads
    ∧ ∀ y, RangesOnly { y with te := { y.te with halves := vput y.te.halves (halfOf f) half }, lines := lines y, reads := y.reads ++ reads } (g y) :=
  ⟨_, _, _, _, _, rfl, congrArg (fun l => FeatureHalf.mk _ (List.map _ (chunksB 4 _ l)) _) (loadRead_left u p _ _).2, fun _ => addRange_rangesOnly ..⟩

/-- What TE.FLOAD leaves of the device. -/
theorem issueFload_left : ∃ loads, MemSame u (issueFload u p f) ∧ (∀ q, q ≠ p → pod (issueFload u p f) q = pod u q)
    ∧ (pod (issueFload u p f) p).te.halves = vput (pod u p).te.halves (halfOf f) (loadedHalf u p f (pod u p) loads) := by
  obtain ⟨g, half, loads, lines, reads, hg, hhalf, hleft⟩ := issueFload_eq u p f
  have hfault := (loadRead_left u p (sNum (pod u p) f.xa) (256 * featureCount u p)).1
  refine ⟨loads, ?_⟩
  rw [hg, ← hhalf]
  generalize (storeRead (nextSerial u p).2 p (sNum (pod u p) f.xa) (256 * featureCount u p)).1 = v at hfault ⊢
  refine ⟨fun a => (memByte_congr (modPod_mem v p g) a).trans (hfault.mem a), fun q hq => ?_, ?_⟩
  · rw [pod_modPod_ne v g (Ne.symm hq), hfault.pod q, pod_nextSerial_ne u hq]
  · rw [pod_modPod, hfault.pod p, pod_nextSerial]
    exact (congrArg (fun y : Pod => y.te.halves) (hleft (numbered (pod u p))) :)

/-- Feature `i` of a half that has been loaded, counted over all its samples. -/
theorem loadedHalf_word (x : Pod) (loads : List Due) {i : Nat} (hi : i < 64 * featureCount u p) :
    (loadedHalf u p f x loads).words.getD i 0 = BitVec.ofNat 32 (memNum u (podAddr p (sNum x f.xa + 4 * i)) 4) := by
  have hword : (loadedHalf u p f x loads).words.getD i 0 = BitVec.ofNat 32 (leNat
      ((chunksB 4 (64 * featureCount u p) (memRead u (podAddr p (sNum x f.xa)) (256 * featureCount u p))).getD i [])) :=
    List.getD_map _ [] (fun b => BitVec.ofNat 32 (leNat b))
  rw [hword, chunksB_getD 4 _ hi, sliceB_memRead u _ (by omega), memNum]
  congr 3
  unfold podAddr
  omega

end

end Sys2Proof.Machine
end

section
/-! A window of the Tree Engine: what it counts, its record, and its range (R88, R95, R98 to R100). -/

namespace Sys2Proof.Machine

open Sys2Proof.Claims (Issues)

section
variable (u : State) (p : PodId) (f : TeFields)

/-! ## The lanes of a window -/

/-- The walk of lane `j`, or nothing where the mask leaves it out. -/
def windowLane (j : Nat) : Int × Nat × List Nat × List (Nat × Nat) :=
  if (sReg (pod u p) f.xa).getLsbD j then walkLane u p (vget (pod u p).te.halves (halfOf f)) j else (0, 0, [], [])

theorem windowLanes_eq : windowLanes u p f = (upTo 64).map (windowLane u p f) := rfl

theorem windowScores_eq : (windowLanes u p f).map (·.1) = (upTo 64).map (fun j => (windowLane u p f j).1) := by
  rw [windowLanes_eq, List.map_map]
  rfl

theorem windowScores_length : ((windowLanes u p f).map (·.1)).length = 64 := by
  rw [windowScores_eq, List.length_map, upTo, List.length_range]

/-- Intact check bits mark no slot. -/
theorem slotMark_clean {u : State} (h : u.ecc = []) (k : Nat) (reads : List (Nat × Nat)) : slotMark u k reads = none := by
  have hnone : reads.filter (fun e => !(eccIn u k e.2 16).isEmpty) = [] := List.filter_eq_nil_iff.2 (fun e _ => by simp [eccIn_clean h])
  rw [slotMark, hnone]
  rfl

/-- With intact check bits the error mask is that of the lanes that met an error. -/
theorem windowErr_clean {u : State} (h : u.ecc = []) (p : PodId) (f : TeFields) : windowErr u p f
    = BitVec.ofNat 64 (joinLanes 1 ((upTo 64).map (fun j => b2n ((sReg (pod u p) f.xa).getLsbD j && decide ((windowLane u p f j).2.1 ≠ 0))))) := by
  have hbad : (windowLanes u p f).map (fun l => decide (l.2.1 ≠ 0) || (slotMark u 2 l.2.2.2).isSome)
      = (upTo 64).map (fun j => decide ((windowLane u p f j).2.1 ≠ 0)) := by
    rw [windowLanes_eq, List.map_map]
    exact List.map_congr_left (fun j _ => by simp [slotMark_clean h])
  have hzip : List.zip ((upTo 64).map (fun j => decide ((windowLane u p f j).2.1 ≠ 0))) (upTo 64)
      = (upTo 64).map (fun j => (decide ((windowLane u p f j).2.1 ≠ 0), j)) := by
    have hboth := List.zip_map' (f := fun j => decide ((windowLane u p f j).2.1 ≠ 0)) (g := id) (l := upTo 64)
    rwa [List.map_id] at hboth
  unfold windowErr
  dsimp only
  rw [hbad, hzip, List.map_map, slotMark_clean h]
  congr 3
  funext j
  simp

theorem windowErr_bit {u : State} (h : u.ecc = []) (p : PodId) (f : TeFields) {j : Nat} (hj : j < 64) : (windowErr u p f).toNat / 2 ^ j % 2 = 1
    ↔ (sReg (pod u p) f.xa).getLsbD j = true ∧ (walkLane u p (vget (pod u p).te.halves (halfOf f)) j).2.1 ≠ 0 := by
  have hlow (x : Nat) : x % 2 ^ 64 / 2 ^ j % 2 = x / 2 ^ j % 2 := by
    have hbit := Nat.testBit_mod_two_pow x 64 j
    rw [decide_eq_true hj, Bool.true_and, Nat.testBit_eq_decide_div_mod_eq, Nat.testBit_eq_decide_div_mod_eq, decide_eq_decide] at hbit
    omega
  rw [windowErr_clean h, BitVec.toNat_ofNat, hlow, joinLanes_bit, getD_map_upTo 64 _ 0 hj, windowLane]
  cases (sReg (pod u p) f.xa).getLsbD j with
  | false => simp [b2n]
  | true =>
    by_cases he : (walkLane u p (vget (pod u p).te.halves (halfOf f)) j).2.1 = 0 <;> simp [b2n, he]

/-! ## The record -/

theorem teRecord_length : (teRecord u p f).length = 640 := windowRecord_length _ _ _ _ _ _ (windowScores_length ..)

theorem teRecord_score (hf : f.fmt = 0) {j : Nat} (hj : j < 64) : sliceB (teRecord u p f) (8 * j) 8 = leBytes 8 (if (sReg (pod u p) f.xa).getLsbD j then
    wrap 64 (walkLane u p (vget (pod u p).te.halves (halfOf f)) j).1 else 0) := by
  have hfmt : decide (f.fmt = 1) = false := by rw [hf]; rfl
  rw [teRecord, hfmt, windowRecord_score _ _ _ _ _ (windowScores_length ..) hj, windowScores_eq, getD_map_upTo 64 _ 0 hj, windowLane]
  split <;> rfl

theorem teRecord_mask : sliceB (teRecord u p f) 512 8 = leBytes 8 (sNum (pod u p) f.xa) :=
  windowRecord_mask _ _ _ _ _ _ (windowScores_length ..)

theorem teRecord_number : sliceB (teRecord u p f) 528 8 = leBytes 8 (reg64 u (rPod p.val 0x518)) :=
  windowRecord_number _ _ _ _ _ _ (windowScores_length ..)

theorem teRecord_err : numAt (teRecord u p f) 520 8 = (windowErr u p f).toNat :=
  windowRecord_err _ _ _ _ _ _ (windowScores_length ..)

/-! ## What a window leaves -/

/-- The device as the corrected units among the window's nodes have been counted. -/
def correctedIn : State := addSat (nextSerial u p).2 (rPod p 0x520) (slotCorrected u (windowSlots u p f))

theorem reg_correctedIn {z : Nat} (hz : z ≠ rPod p 0x520) : reg (correctedIn u p f) z = reg u z := by
  rw [correctedIn, addSat, reg_setReg_ne _ _ (Ne.symm hz), reg_nextSerial]

theorem locating_correctedIn : locating (correctedIn u p f) p = locating u p := by
  have hreg {z : Nat} (hz : z < 0x1000000) : reg (correctedIn u p f) z = reg u z := reg_correctedIn u p f (by unfold rPod; omega)
  have hframe : weaveFrame (correctedIn u p f) = weaveFrame u := by
    rw [correctedIn, addSat, weaveFrame, setReg_stake]
    rfl
  unfold locating flag field
  rw [hreg (by decide), hreg (by decide), reg64_congr (hreg (by decide)) (hreg (by decide)), hframe]

/-- The device as the window has been counted and its length recorded. -/
def windowCountedIn : State :=
  setField (add64 (digestWrite (correctedIn u p f) p 2 (podAddr p (sNum (pod u p) f.xb)) (teRecord u p f)) (rPod p 0x518) 1) (rPod p 0x504) 0 17 (walkLength u p)

theorem issueWin_eq : issueWin u p f = match slotMark u 2 (windowSlots u p f) with
    | some a => raisePodErr (modPod (windowCountedIn u p f) p (openWindow u p f (pod u p).core.nextOp)) 2 rErrTeEcc p a true
    | none => modPod (windowCountedIn u p f) p (openWindow u p f (pod u p).core.nextOp) := rfl

/-- Counting a window leaves the other Pods, and all of its own but the core. -/
theorem windowCountedIn_left : (locating u p = false → (windowCountedIn u p f).mem = u.mem) ∧ (∃ k, pod (windowCountedIn u p f) p = { pod u p with core := k })
    ∧ reg64 (windowCountedIn u p f) (rPod p.val 0x518) = (reg64 u (rPod p.val 0x518) + 1) % 2 ^ 64
    ∧ field (windowCountedIn u p f) (rPod p.val 0x504) 0 17 = walkLength u p % 2 ^ 17 := by
  have hdigest := digestWrite_digested (correctedIn u p f) p 2 (podAddr p (sNum (pod u p) f.xb)) (teRecord u p f)
  unfold windowCountedIn
  generalize digestWrite (correctedIn u p f) p 2 (podAddr p (sNum (pod u p) f.xb)) (teRecord u p f) = v at hdigest ⊢
  have hreg {z : Nat} (hz : z ≠ 0x520) : reg v (rPod p z) = reg u (rPod p z) := by
    have hlow := (by decide : ∀ o ∈ (rErrPair :: capRegs 13) ++ pbaRegs, o < 0x1000000)
    have hkept := hdigest.regs (rPod p z) (fun hm => by have := hlow _ (List.mem_append_left _ hm); unfold rPod at this; omega)
      (fun hm => by have := hlow _ (List.mem_append_right _ hm); unfold rPod at this; omega)
    rw [hkept, reg_correctedIn u p f (by unfold rPod; omega)]
  obtain ⟨k, hk⟩ := hdigest.own
  refine ⟨fun hl => ?_, ⟨k, ?_⟩, ?_, field_setField _ _ 0 17 _ (by decide)⟩
  · rw [setField, setReg_mem, add64, setReg64, setReg_mem, setReg_mem, (hdigest.mem ((locating_correctedIn u p f).trans hl)).1, correctedIn, addSat, setReg_mem, nextSerial_mem]
  · rw [setField, pod_setReg, pod_add64, hk, correctedIn, addSat, pod_setReg, pod_nextSerial]
    rfl
  · rw [setField, reg64_setReg_ne _ _ (by unfold rPod; omega) (by unfold rPod; omega), reg64_add64, reg64_congr (hreg (by decide))]
    rw [← rPod_add]
    exact hreg (by decide)

/-- An uncorrectable node faults the machine and leaves the Pods, the memory and the engine's counters. -/
theorem issueWin_fault : Faulting ([rErrTeEcc, rErrTeEcc + 4] ++ capRegs 2 ++ faultRegs)
    (modPod (windowCountedIn u p f) p (openWindow u p f (pod u p).core.nextOp)) (issueWin u p f) := by
  rw [issueWin_eq]
  split
  · exact raisePodErr_faulting ..
  · exact Faulting.refl ..

/-- The window opens with one range: its record, written as it is released. -/
theorem openWindow_left (op : Nat) (y : Pod) : ∃ r : StoreRange, (openWindow u p f op y).ranges = y.ranges ++ [r]
    ∧ (openWindow u p f op y).te.windows = y.te.windows ++ [teWindow u p f op] ∧ r.write = true ∧ r.due = some (teWindow u p f op).due
    ∧ r.writes = [(podAddr p (sNum (pod u p) f.xb), teRecord u p f)] := by
  obtain ⟨e, he⟩ := spanOf_isSome (l := [(sNum (pod u p) f.xb, 640)]) (by simp)
  unfold openWindow
  dsimp only
  rw [he]
  exact ⟨_, rfl, rfl, rfl, rfl, rfl⟩

/-- What TE.WIN leaves of the device. -/
theorem issueWin_left : ∃ (r : StoreRange) (op : Nat), (locating u p = false → MemSame u (issueWin u p f))
    ∧ (pod (issueWin u p f) p).ranges = (pod u p).ranges ++ [r] ∧ (pod (issueWin u p f) p).te.windows = (pod u p).te.windows ++ [teWindow u p f op]
    ∧ r.write = true ∧ r.due = some (teWindow u p f op).due ∧ r.writes = [(podAddr p (sNum (pod u p) f.xb), teRecord u p f)]
    ∧ reg64 (issueWin u p f) (rPod p.val 0x518) = (reg64 u (rPod p.val 0x518) + 1) % 2 ^ 64
    ∧ field (issueWin u p f) (rPod p.val 0x504) 0 17 = walkLength u p % 2 ^ 17 := by
  obtain ⟨hmem, ⟨k, hpod⟩, hcount, hlength⟩ := windowCountedIn_left u p f
  have hfault := issueWin_fault u p f
  have hreg {z : Nat} (hz : z < 0x10000) (h : z ≠ 0x100) : reg (issueWin u p f) (rPod p.val z) = reg (windowCountedIn u p f) (rPod p.val z) := by
    have hlow := (by decide : ∀ o ∈ [rErrTeEcc, rErrTeEcc + 4] ++ capRegs 2 ++ faultRegs, o < 0x1000000)
    have hkept := hfault.regs (rPod p.val z) (fun hm => by have := hlow _ hm; unfold rPod at this; omega) (faultWritten_podReg hz h)
    rwa [reg_modPod] at hkept
  obtain ⟨r, hranges, hwindows, hwrite, hdue, hwrites⟩ := openWindow_left u p f (pod u p).core.nextOp (pod (windowCountedIn u p f) p)
  refine ⟨r, _, fun hl a => ?_, ?_, ?_, hwrite, hdue, hwrites, ?_, ?_⟩
  · exact (hfault.mem a).trans ((memByte_congr (modPod_mem ..) a).trans (memByte_congr (hmem hl) a))
  · rw [hfault.pod p, pod_modPod, hranges, hpod]
  · rw [hfault.pod p, pod_modPod, hwindows, hpod]
  · rw [← hcount]
    refine reg64_congr (hreg (by decide) (by decide)) ?_
    rw [← rPod_add]
    exact hreg (by decide) (by decide)
  · rw [← hlength, field, field, hreg (by decide) (by decide)]

end

end Sys2Proof.Machine

open Sys2Proof.Machine in
/-- Settles O49: the loads bring what the store holds, and a window is its counts, its record and its range. -/
theorem treeEngineLoadsAndWalks : Obligations.TreeEngineLoadsAndWalks := by
  unfold Obligations.TreeEngineLoadsAndWalks
  intro p f s _
  refine ⟨?nload, ?fload, ?win⟩
  case nload =>
    rintro h u x b hu rfl hb
    have hrun : runOp s p (.te 1 f) = issueNload u p f := by rw [runOp_te h (by decide), ← hu]; rfl
    exact ⟨_, congrArg Host.Outcome.next hrun, issueNload_left u p f b hb⟩
  case fload =>
    rintro h u x n hu rfl rfl
    have hrun : runOp s p (.te 2 f) = issueFload u p f := by rw [runOp_te h (by decide), ← hu]; rfl
    obtain ⟨loads, hmem, hpods, hhalves⟩ := issueFload_left u p f
    refine ⟨_, congrArg Host.Outcome.next hrun, hmem, hpods, ?_⟩
    rw [hhalves, ← halfOf, vget_vput]
    exact ⟨rfl, fun i hi => loadedHalf_word u p f _ loads hi, fun g hg => vget_vput_ne _ _ (Ne.symm hg)⟩
  case win =>
    rintro h u x hu rfl
    have hrun : runOp s p (.te 3 f) = issueWin u p f := by rw [runOp_te h (by decide), ← hu]; rfl
    obtain ⟨r, op, hmem, hranges, hwindows, hwrite, hdue, hwrites, hcount, hlength⟩ := issueWin_left u p f
    refine ⟨_, r, teWindow u p f op, teRecord u p f, congrArg Host.Outcome.next hrun, hmem, hranges, hwindows, hwrite, hdue, rfl, rfl, hwrites,
      teRecord_length u p f, fun hf j hj => teRecord_score u p f hf hj, teRecord_mask u p f, teRecord_number u p f, fun hclean j hj => ?_, hcount, hlength⟩
    rw [teRecord_err]
    exact windowErr_bit hclean p f hj
end

section
/-! Obligation O45: the arithmetic of the lanes (R104 to R106, R148, R149). -/

namespace Sys2Proof.Machine

open Sys2Proof.Claims (Issues vector lanesOf basic)

/-! ## Lanes by their numbers -/

/-- A table over the numbers below `n` taken with those numbers. -/
theorem map_zip_upTo {α β : Type} (n : Nat) (g : Nat → α) (k : α × Nat → β) :
    (List.zip ((upTo n).map g) (upTo ((upTo n).map g).length)).map k = (upTo n).map (fun j => k (g j, j)) := by
  have hlen : ((upTo n).map g).length = n := by simp [upTo]
  rw [hlen, List.zip_map_left, List.map_map, ← List.map_id (upTo n), List.zip_map', List.map_map]
  simp

theorem pairLanes_eq (w : Nat) (a b : BitVec 8192) : pairLanes w a b = (upTo (8192 / w)).map (fun j => (getF a (w * j) w, getF b (w * j) w)) :=
  List.zip_map' ..

/-! ## One lane -/

section
variable {c : Nat} (m : BitVec 4) (mode : RMode) (a b : Nat)

/-- The exact result of operation `c` of two integers (R105, R106). -/
def exactInt (c : Nat) (x y : Int) : Int := [x + y, x - y, x * y, min x y, max x y, (x.natAbs : Int), -x].getD (c - 1) 0

theorem vuArith_int (hc : 1 ≤ c ∧ c ≤ 7) (h : fmtIsInt m.toNat = true) : vuArith c m.toNat mode a b
    = (intResult c m.toNat a b (exactInt c (intLane m.toNat a) (intLane m.toNat b)), 0) := by
  obtain ⟨h1, h7⟩ := hc
  unfold vuArith
  rw [if_pos h]
  interval_cases c <;> rfl

theorem intResult_eq (c : Nat) (v : Int) : intResult c m.toNat a b v
    = if (intRange m.toNat).1 ≤ v ∧ v ≤ (intRange m.toNat).2 then wrap (laneBits m.toNat) v
      else (Config.intOutOfRange c m (BitVec.ofNat 32 a) (BitVec.ofNat 32 b)).toNat % 2 ^ laneBits m.toNat := by
  have hfmt : BitVec.ofNat 4 m.toNat = m := by simp
  unfold intResult
  rw [hfmt]

/-- MIN, MAX, ABS and NEG of a float lane are exact and set no flag; ADD, SUB and MUL round once. -/
theorem vuArith_float (hc : 1 ≤ c ∧ c ≤ 7) (h : fmtIsInt m.toNat = false) : vuArith c m.toNat mode a b
    = let v := fpDecode m.toNat a
      let w := fpDecode m.toNat b
      if c = 1 then floatResult m.toNat mode [v, w] (fpAdd mode v w)
      else if c = 2 then floatResult m.toNat mode [v, w] (fpAdd mode v (fpNeg w))
      else if c = 3 then floatResult m.toNat mode [v, w] (fpMul v w)
      else ((fpFinish m.toNat .rne ([fpMin v w, fpMax v w, fpAbs v, fpNeg v].getD (c - 4) v)).code, 0) := by
  obtain ⟨h1, h7⟩ := hc
  unfold vuArith
  rw [h]
  interval_cases c <;> rfl

end

/-! ## The values of the operations -/

section
variable (u : State) (p : PodId) (f : VuFields)

theorem vuValue_arith {c : Nat} (hc : 1 ≤ c ∧ c ≤ 7) :
    vuValue u p c f = lanesOf f (pod u p) (vuArith c f.fmt.toNat (vuMode u p f 0)) := if_pos hc

theorem vuValue_bits {c : Nat} (hc : 0xA ≤ c ∧ c ≤ 0xE) : vuValue u p c f = lanesOf f (pod u p) (fun a b => (vuBits c f.fmt.toNat a b, 0)) := by
  unfold vuValue
  dsimp only
  rw [if_neg (by omega), if_neg (by omega), if_neg (by omega), if_pos hc]
  rfl

theorem vuBits_shr (a b : Nat) : vuBits 0xE f.fmt.toNat a b = if f.fmt = 0xB ∨ f.fmt = 0xD then
      wrap (laneBits f.fmt.toNat) (signed (laneBits f.fmt.toNat) a / (2 : Int) ^ (b % laneBits f.fmt.toNat))
    else a / 2 ^ (b % laneBits f.fmt.toNat) := by
  have hfmt : (f.fmt.toNat = 0xB ∨ f.fmt.toNat = 0xD) ↔ (f.fmt = 0xB ∨ f.fmt = 0xD) := by
    rw [← BitVec.toNat_inj, ← BitVec.toNat_inj]
    rfl
  unfold vuBits
  simp only [hfmt]
  rfl

theorem cmpMask_eq (x : Pod) : cmpMask x f = joinLanes 1 ((upTo (8192 / laneBits f.fmt.toNat)).map (fun j => b2n (if (mReg x f.mask).getLsbD j then
      vuCompare f.sub.toNat f.fmt.toNat (getF (vReg x f.va) (laneBits f.fmt.toNat * j) (laneBits f.fmt.toNat))
        (getF (vReg x f.vb) (laneBits f.fmt.toNat * j) (laneBits f.fmt.toNat))
    else (mReg x (f.vd.setWidth 3)).getLsbD j))) := by
  unfold cmpMask
  dsimp only
  rw [pairLanes_eq, map_zip_upTo]

theorem vuValue_sel : vuValue u p 9 f = ([(destV f.vd, joinLanes (laneBits f.fmt.toNat) ((upTo (8192 / laneBits f.fmt.toNat)).map (fun j =>
    getF (if (mReg (pod u p) f.mask).getLsbD j then vReg (pod u p) f.va else vReg (pod u p) f.vb) (laneBits f.fmt.toNat * j) (laneBits f.fmt.toNat))))], 0) := by
  have hsel : vuValue u p 9 f = ([(destV f.vd, joinLanes (laneBits f.fmt.toNat) ((List.zip (pairLanes (laneBits f.fmt.toNat) (vReg (pod u p) f.va) (vReg (pod u p) f.vb))
      (upTo (pairLanes (laneBits f.fmt.toNat) (vReg (pod u p) f.va) (vReg (pod u p) f.vb)).length)).map (fun e =>
        if (mReg (pod u p) f.mask).getLsbD e.2 then e.1.1 else e.1.2)))], 0) := rfl
  have hlane (j : Nat) : (if (mReg (pod u p) f.mask).getLsbD j then getF (vReg (pod u p) f.va) (laneBits f.fmt.toNat * j) (laneBits f.fmt.toNat)
        else getF (vReg (pod u p) f.vb) (laneBits f.fmt.toNat * j) (laneBits f.fmt.toNat))
      = getF (if (mReg (pod u p) f.mask).getLsbD j then vReg (pod u p) f.va else vReg (pod u p) f.vb) (laneBits f.fmt.toNat * j) (laneBits f.fmt.toNat) :=
    (apply_ite (fun v : BitVec 8192 => getF v _ _) ..).symm
  rw [hsel, pairLanes_eq, map_zip_upTo]
  simp only [hlane]

theorem vuLatency_basic {c : Nat} (hc : 1 ≤ c ∧ c ≤ 0xE ∨ c = 0x29) : vuLatency u p c f = basic p 4 3 u := by
  unfold vuLatency
  rw [if_neg (by omega), if_neg (by omega), if_neg (by omega), if_neg (by omega), if_neg (by omega), if_neg (by omega), if_neg (by omega), if_neg (by omega),
    if_neg (by omega)]
  rfl

end

end Sys2Proof.Machine

open Sys2Proof.Machine in
/-- Settles O45: each operation leaves what its value is, lane by lane. -/
theorem vectorLanesAreComputed : Obligations.VectorLanesAreComputed := by
  unfold Obligations.VectorLanesAreComputed
  intro p f s _
  refine ⟨?arith, ?bits, ?cmp, ?sel, ?fma, ?bcast, ?movs⟩
  case arith =>
    intro i c hi
    have hop : exec i s = .next (runOp s p (.vu c f)) ∧ 1 ≤ c ∧ c ≤ 7 := by
      simp only [List.mem_cons, Prod.mk.injEq, List.not_mem_nil, or_false] at hi
      rcases hi with ⟨rfl, rfl⟩ | ⟨rfl, rfl⟩ | ⟨rfl, rfl⟩ | ⟨rfl, rfl⟩ | ⟨rfl, rfl⟩ | ⟨rfl, rfl⟩ | ⟨rfl, rfl⟩ <;>
        exact ⟨rfl, by decide, by decide⟩
    obtain ⟨hexec, hc⟩ := hop
    refine vu_issues hexec (by omega) (by omega) ?_ (vuLatency_basic _ p f (by omega)).symm
    rw [vuValue_arith _ p f hc]
    refine congrArg (Sys2Proof.Claims.lanesOf f _) (funext fun a => funext fun b => ?_)
    cases h : fmtIsInt f.fmt.toNat with
    | true => rw [vuArith_int f.fmt _ a b hc h, intResult_eq]; rfl
    | false => rw [vuArith_float f.fmt _ a b hc h]; rfl
  case bits =>
    intro i c g hi
    have hop : exec i s = .next (runOp s p (.vu c f)) ∧ (0xA ≤ c ∧ c ≤ 0xE) ∧ ∀ a b, g a b = vuBits c f.fmt.toNat a b := by
      simp only [List.mem_cons, Prod.mk.injEq, List.not_mem_nil, or_false] at hi
      rcases hi with ⟨rfl, rfl, rfl⟩ | ⟨rfl, rfl, rfl⟩ | ⟨rfl, rfl, rfl⟩ | ⟨rfl, rfl, rfl⟩ | ⟨rfl, rfl, rfl⟩
      case inr.inr.inr.inr => exact ⟨rfl, by decide, fun a b => (vuBits_shr f a b).symm⟩
      all_goals exact ⟨rfl, by decide, fun _ _ => rfl⟩
    obtain ⟨hexec, hc, hg⟩ := hop
    refine vu_issues hexec (by omega) (by omega) ?_ (vuLatency_basic _ p f (by omega)).symm
    simp only [vuValue_bits _ p f hc, hg]
  case cmp => exact vu_issues rfl (by decide) (by decide) (by rw [← cmpMask_eq]; rfl) rfl
  case sel => exact vu_issues rfl (by decide) (by decide) (vuValue_sel _ p f).symm rfl
  case fma => exact vu_issues rfl (by decide) (by decide) rfl rfl
  case bcast => exact vu_issues rfl (by decide) (by decide) rfl rfl
  case movs => exact vu_issues rfl (by decide) (by decide) rfl rfl
end

section
/-! Obligation O47: reductions into a scalar accumulator, and its move (R107, R109, R148). -/

namespace Sys2Proof.Machine

open Sys2Proof.Claims (Issues vector owed)

/-- The accumulator and the flags that a reduction gives. -/
def reductionOf (x : Pod) (c : Nat) (f : VuFields) : ScalarAcc × VFlags :=
  if c = 0x1B then (argmaxInto f.fmt.toNat (decide (f.start = 0)) (mReg x f.mask) (vReg x f.va) (saNow x (saIx f)), 0)
  else reduceInto c f.fmt.toNat (decide (f.start = 0)) (mReg x f.mask) (vReg x f.va) (saNow x (saIx f))

/-- What a reduction leaves in flight, and its flags. -/
def reductionValue (x : Pod) (c : Nat) (f : VuFields) : List (Dest × Nat) × VFlags :=
  ([(.sa (saIx f), (reductionOf x c f).1.val.toNat + 2 ^ 32 * (reductionOf x c f).1.idx.toNat)], (reductionOf x c f).2)

theorem modPod_orReg (s : State) (p : PodId) (o n : Nat) (g : Pod → Pod) : modPod (orReg s o n) p g = orReg (modPod s p g) o n := rfl

/-- A reduction leaves its value in flight, and notes with its accumulator how far it has come. -/
theorem issueReduction_eq (s : State) (p : PodId) (c : Nat) (f : VuFields) : ∃ g : Vector ScalarAcc 4 → Vector ScalarAcc 4,
    issueReduction s p c f = modPod (vuLeft s p (reductionValue (pod s p) c f) (vuLatency s p c f)) p (fun y => { y with sa := g y.sa }) := by
  have hlat : vuLatency (nextSerial s p).2 p c f = vuLatency s p c f := rfl
  let acc := (reductionOf (pod s p) c f).1
  refine ⟨fun v => vmod v (saIx f) (fun a => { a with runs := acc.runs, sawNan := acc.sawNan, started := acc.started }), ?_⟩
  have hissue : issueReduction s p c f = setVuFlags (modPod (nextSerial s p).2 p (fun y => addPend
      { y with sa := vmod y.sa (saIx f) (fun a => { a with runs := acc.runs, sawNan := acc.sawNan, started := acc.started }) }
      (pod s p).core.nextOp 1 (.sa (saIx f)) (acc.val.toNat + 2 ^ 32 * acc.idx.toNat) ((pod s p).core.cycle + vuLatency s p c f))) p
      (reductionOf (pod s p) c f).2 := rfl
  rw [hissue, nextSerial, modCore, modPod_modPod, vuLeft, setVuFlags, setVuFlags, modPod_orReg, modPod_modPod]
  exact congrArg (fun t => orReg t _ (reductionOf (pod s p) c f).2) (modPod_congr rfl)

/-- A reduction: its value is in flight, its flags set, it is counted, and all else but its accumulator's notes is as before. -/
theorem reduction_issues {s : State} {p : PodId} {c : Nat} {f : VuFields} {i : Instr} (hi : exec i s = .next (runOp s p (.vu c f)))
    (hc : 0x18 ≤ c ∧ c ≤ 0x1B) {r : State → Pod → List (Dest × Nat) × Nat} {n : State → Nat}
    (hr : ∀ u x, r u x = reductionValue x c f) (hn : n (settleFor s p (.vu c f)) = vuLatency (settleFor s p (.vu c f)) p c f)
    (h : Issues s p (.vu c f)) : ∃ t, exec i s = .next t ∧ vector s t p (.vu c f) r n := by
  refine ⟨_, hi, ?_⟩
  rintro u x hu rfl
  rw [← hu] at hn
  have hsame := vuCounted_vuSame u p c f
  obtain ⟨hflags, hcount⟩ := regs_vuCounted u p c f
  have hrun : runOp s p (.vu c f) = issueReduction (vuCounted u p c f) p c f := by
    rw [runOp_issues h, ← hu]
    exact (congrArg Prod.fst (if_neg (show c ≠ 0 by omega)) : _ = issueVu (countVu (markVClass u p (.vu c f))) p c f).trans (if_pos hc)
  obtain ⟨g, hg⟩ := issueReduction_eq (vuCounted u p c f) p c f
  rw [hrun, hg, hr, hn, hsame.pod p, hsame.vuLatency]
  generalize vuCounted u p c f = v at hsame hflags hcount ⊢
  generalize reductionValue (pod u p) c f = val
  generalize vuLatency u p c f = lat
  generalize hleft : modPod (vuLeft v p val lat) p _ = w
  have hold {z : Nat} (h4 : z ≠ rPod p 0x604) : reg w z = reg v z := by rw [← hleft, reg_modPod, reg_vuLeft_ne v p val lat h4]
  have hcounted : reg64 w (rPod p 0x610) = reg64 v (rPod p 0x610) :=
    reg64_congr (hold (by unfold rPod; omega)) (hold (by unfold rPod; omega))
  have hpod : pod w p = { pod v p with
      core := { (pod v p).core with nextOp := (pod v p).core.nextOp + 1 },
      pend := (pod v p).pend ++ val.1.map (fun e => owed (pod v p) 1 e.1 e.2 lat), sa := g (pod v p).sa } := by rw [← hleft, pod_modPod, pod_vuLeft]
  rw [hpod, hsame.pod p]
  refine ⟨rfl, ?_, hcounted.trans hcount, rfl, rfl, rfl, rfl, fun q hq => ?_, memByte_congr ?_, fun z _ hz => ?_⟩
  · rw [← hleft, reg_modPod, reg_vuLeft, hflags]
  · rw [← hleft, pod_modPod_ne _ _ (Ne.symm hq), pod_vuLeft_ne v p val lat hq, hsame.pod q]
  · rw [← hleft, modPod_mem, vuLeft_mem, hsame.mem]
  · simp only [List.map_cons, List.map_nil, List.mem_cons, List.not_mem_nil, or_false, not_or] at hz
    obtain ⟨h604, h608, h60C, h610, h614, h908⟩ := hz
    rw [hold h604]
    refine hsame.regs z ?_
    simp only [vuCounters, List.mem_cons, List.not_mem_nil, or_false, not_or]
    exact ⟨h604, h610, h614, h908⟩

/-- The value of RSUM, RMAX and RMIN: the tree over the lanes, joined to the accumulator unless START is ZERO. -/
theorem reductionValue_tree (x : Pod) {c : Nat} (f : VuFields) (hc : c ≠ 0x1B) :
    let k := redKind f.fmt.toNat
    let t := redTree c k (if laneBits f.fmt.toNat = 32 then 8 else 9) (redLanes c f.fmt.toNat (mReg x f.mask) (vReg x f.va))
    let r := if f.start = 0 then (t.1, 0) else redOp c k (saNow x (saIx f)).val.toNat t.1
    reductionValue x c f = ([(.sa (saIx f), r.1 % 2 ^ 32)], Nat.lor t.2 r.2) := by
  simp only [reductionValue, reductionOf, reduceInto, if_neg hc, decide_eq_true_eq, BitVec.toNat_ofNat]
  simp

theorem vuLatency_reduction (u : State) (p : PodId) {c : Nat} (f : VuFields) (hc : 0x18 ≤ c ∧ c ≤ 0x1B) : vuLatency u p c f = latVuRsum u p := by
  unfold vuLatency
  rw [if_neg (by omega), if_neg (by omega), if_neg (by omega), if_pos hc]

end Sys2Proof.Machine

open Sys2Proof.Machine in
/-- Settles O47: a reduction leaves its value in flight for its accumulator, and SAMOV what the accumulator holds. -/
theorem reductionsAccumulate : Obligations.ReductionsAccumulate := by
  unfold Obligations.ReductionsAccumulate
  intro p f s _
  refine ⟨?tree, ?argmax, ?samov⟩
  case tree =>
    intro i c hi
    have hop : exec i s = .next (runOp s p (.vu c f)) ∧ 0x18 ≤ c ∧ c ≤ 0x1A := by
      simp only [List.mem_cons, Prod.mk.injEq, List.not_mem_nil, or_false] at hi
      rcases hi with ⟨rfl, rfl⟩ | ⟨rfl, rfl⟩ | ⟨rfl, rfl⟩ <;> exact ⟨rfl, by decide, by decide⟩
    obtain ⟨hexec, hc⟩ := hop
    exact reduction_issues hexec (by omega) (fun _ x => (reductionValue_tree x f (by omega)).symm) (vuLatency_reduction _ p f (by omega)).symm
  case argmax => exact reduction_issues rfl (by decide) (fun _ _ => rfl) rfl
  case samov => exact vu_issues rfl (by decide) (by decide) rfl rfl
end

section
/-! A MEM operation as it comes up: what it waits for leaves the values that its checks have read, the entries of the inbound queues and the stake
(R158, R160, R162), and what breaches no rule and waits for nothing (R152, R153, R164). -/

namespace Sys2Proof.Machine

open Sys2Proof.Claims (Issues)

/-! ## The results that it waits for -/

/-- A result for another register does not show in S[i]. -/
theorem writeDest_s_ne (x : Pod) {d : Dest} {i : Fin 32} (h : d ≠ .s i) (v : BitVec 8192) : vget (writeDest x d v).s i = vget x.s i :=
  (writeDest_destOnly x d v).s i h

theorem writeDest_s_congr {x y : Pod} {i : Fin 32} (h : vget x.s i = vget y.s i) (d : Dest) (v : BitVec 8192) :
    vget (writeDest x d v).s i = vget (writeDest y d v).s i := by
  by_cases hd : d = .s i
  · subst hd
    by_cases hi : i = 0
    · rw [writeDest, writeDest, if_pos hi, if_pos hi, h]
    · rw [writeDest_s x hi, writeDest_s y hi, vget_vput, vget_vput]
  · rw [writeDest_s_ne x hd, writeDest_s_ne y hd, h]

/-- Results that are all of S[i], and some others, give S[i] what all the results give it. -/
theorem writeDests_s {sel : PendWrite → Bool} {i : Fin 32} (ws : List PendWrite) (hsel : ∀ w ∈ ws, w.dest = .s i → sel w = true) {x y : Pod}
    (h : vget x.s i = vget y.s i) : vget ((ws.filter sel).foldl (fun z w => writeDest z w.dest w.value) x).s i
      = vget (ws.foldl (fun z w => writeDest z w.dest w.value) y).s i := by
  induction ws generalizing x y with
  | nil => exact h
  | cons w ws ih =>
    have hrest : ∀ v ∈ ws, v.dest = .s i → sel v = true := fun v hv => hsel v (List.mem_cons_of_mem w hv)
    rw [List.foldl_cons]
    cases hw : sel w with
    | true =>
      rw [List.filter_cons_of_pos hw, List.foldl_cons]
      exact ih hrest (writeDest_s_congr h w.dest w.value)
    | false =>
      have hne : w.dest ≠ .s i := fun e => by rw [hsel w List.mem_cons_self e] at hw; exact absurd hw (by decide)
      rw [List.filter_cons_of_neg (by simp [hw])]
      exact ih hrest (h.trans (writeDest_s_ne y hne w.value).symm)

/-! ## Completion before it -/

section
variable (s : State) (p : PodId) (c : Nat) (f : MemFields)

theorem inBarrier_mem (i : Nat) : inBarrier (.mem c f) i = false := by
  have hnone : barrierMask (.mem c f) = 0 := rfl
  rw [inBarrier, hnone]
  simp

theorem settleFor_mem : settleFor s p (.mem c f) = settled2 s p (.mem c f) := by
  have h3 : settled3 s p (.mem c f) = settled2 s p (.mem c f) := if_neg (by rw [inBarrier_mem]; exact Bool.false_ne_true)
  rw [settleFor_eq, inBarrier_mem, if_neg Bool.false_ne_true, h3]

/-- Only results are delivered and ranges released before it; its Pod's core and engines may note it. -/
theorem pod_settleFor_mem : ∃ k m, pod (settleFor s p (.mem c f)) p
    = { withoutTimed (rangeNeeded (settled1 s p (.mem c f)) p (.mem c f)) (deliver (resultDue (.mem c f)) (pod s p)) with core := k, me := m } := by
  obtain ⟨k, m, h⟩ := pod_settled2 s p (.mem c f)
  rw [settled1, pod_modPod] at h
  rw [settleFor_mem]
  exact ⟨k, m, h⟩

/-- A register that it reads holds what its checks have read in it. -/
theorem sReg_settleFor_mem {r : BitVec 5} (h : destS r ∈ memReads c f) : sReg (pod (settleFor s p (.mem c f)) p) r = sReg (pod (withPending s p) p) r := by
  obtain ⟨k, m, hpod⟩ := pod_settleFor_mem s p c f
  have hdue : ∀ w ∈ (pod s p).pend, w.dest = destS r → resultDue (.mem c f) w = true := fun w _ hw => by
    have hdep : (opDepends (.mem c f)).contains w.dest = true :=
      List.contains_iff_mem.2 (List.mem_append_left _ (List.mem_append_left _ (hw ▸ h)))
    rw [resultDue, hdep, Bool.true_or]
  unfold sReg
  rw [hpod, withPending, pod_modPod]
  exact if_congr Iff.rfl rfl (writeDests_s _ hdue rfl)

theorem sNum_settleFor_mem {r : BitVec 5} (h : destS r ∈ memReads c f) : sNum (pod (settleFor s p (.mem c f)) p) r = sNum (pod (withPending s p) p) r :=
  congrArg BitVec.toNat (sReg_settleFor_mem s p c f h)

theorem inq_settleFor_mem : (pod (settleFor s p (.mem c f)) p).inq = (pod s p).inq := by
  obtain ⟨k, m, hpod⟩ := pod_settleFor_mem s p c f
  rw [hpod]
  exact (congrArg Pod.inq (deliver_filesOnly (resultDue (.mem c f)) (pod s p)) :)

theorem settleFor_mem_calm : Calm false s (settleFor s p (.mem c f)) := by
  have hranges : Calm false s (forEach (timed (rangeNeeded (settled1 s p (.mem c f)) p (.mem c f)) (pod (settled1 s p (.mem c f)) p))
      (setPod (settled1 s p (.mem c f)) p (withoutTimed (rangeNeeded (settled1 s p (.mem c f)) p (.mem c f)) (pod (settled1 s p (.mem c f)) p))) (writeRange p)) :=
    Calm.forEach ((modPod_calm false s p _).trans (setPod_calm false _ p _)) (fun t r => writeRange_calm t p r)
  rw [settleFor_mem, settled2, releaseTimed_eq]
  refine hranges.trans ?_
  unfold writeResults
  dsimp only
  split
  · exact Calm.refl false _
  · exact (setPod_calm false _ p _).trans (setReg_calm false _ _ (noCode_pod p (by decide) (by decide)))

/-- The entry that Q.POP takes is not another once the work that it waits for is complete. -/
theorem visibleHead_settleFor_mem (q : Fin 8) : visibleHead (settleFor s p (.mem c f)) p q = visibleHead s p q := by
  have hstamped (e : Entry) : stampedBefore (settleFor s p (.mem c f)) e = stampedBefore s e := by
    unfold stampedBefore
    rw [(settleFor_mem_calm s p c f).stake]
  unfold visibleHead
  rw [inq_settleFor_mem]
  simp only [hstamped]

end

/-! ## No breach, no wait -/

section
variable {s : State} {p : PodId} {c : Nat} {f : MemFields}

theorem trapIf_nil {b : Bool} {n : Nat} (h : trapIf b n = []) : b = false := by
  cases b
  · rfl
  · exact absurd h (by simp [trapIf])

theorem memTraps_none (hc : c ≠ 0) (h : opTraps s p (.mem c f) = []) : memBadOperand (pod s p) c f = false ∧ memBadAddress s p c f = false := by
  have htraps : memTraps s p c f = [] := by
    unfold opTraps at h
    split at h
    next hopcode =>
      rcases hopcode with h0 | hnone
      · exact absurd h0 hc
      · rw [slotTraps, Option.isNone_iff_eq_none.1 hnone] at h
        exact absurd h (by simp)
    next => exact (List.append_eq_nil_iff.1 h).2
  obtain ⟨hoperand, haddress⟩ := List.append_eq_nil_iff.1 htraps
  exact ⟨trapIf_nil hoperand, trapIf_nil haddress⟩

/-- An operation that issues breaks no rule of its operands and addresses, and its unit holds it back no more. -/
theorem issues_mem (h : Issues s p (.mem c f)) (hc : c ≠ 0) : memBadOperand (pod (withPending s p) p) c f = false
    ∧ memBadAddress (withPending s p) p c f = false ∧ memStalls (pod (settleFor s p (.mem c f)) p) c f = [] := by
  obtain ⟨-, -, -, htraps, hwaits⟩ := h
  obtain ⟨hoperand, haddress⟩ := memTraps_none hc htraps
  have hlast := (Bool.or_eq_false_iff.1 hwaits).2
  rw [show barrierMask (.mem c f) = 0 from rfl, if_pos rfl] at hlast
  have hstalls : unitStalls (settleFor s p (.mem c f)) p (.mem c f) = [] := by simpa using hlast
  exact ⟨hoperand, haddress, hstalls⟩

theorem runOp_mem (h : Issues s p (.mem c f)) (hc : c ≠ 0) : runOp s p (.mem c f) = issueMem (markVClass (settleFor s p (.mem c f)) p (.mem c f)) p c f := by
  rw [runOp_issues h]
  exact congrArg Prod.fst (if_neg hc)

/-- Only Q.SEL, TW.FADD and a Q.WAIT with a timeout are of a V class. -/
theorem runOp_mem_plain (h : Issues s p (.mem c f)) (hc : c ≠ 0) (hv : vClass (.mem c f) = none) :
    runOp s p (.mem c f) = issueMem (settleFor s p (.mem c f)) p c f := by
  rw [runOp_mem h hc, markVClass, hv]

theorem pod_markVClass (u : State) (o : SlotOp) (q : PodId) : pod (markVClass u p o) q = pod u q := by
  unfold markVClass
  split
  · exact pod_orReg ..
  · rfl

end

end Sys2Proof.Machine
end

section
/-! The token of a queue operation, and what issues with it (R120, R160, R185, R186). -/

namespace Sys2Proof.Machine

open Sys2Proof.Claims (Issues Queued newToken owed Sane)

/-! ## Frames -/

theorem OnlyRegs.pod {l : List Nat} {s t : State} (h : OnlyRegs l s t) (q : PodId) : pod t q = pod s q :=
  congrArg (fun v => vget v q) (congrArg State.pods h.1 :)

theorem noteDepth_onlyRegs (s : State) (p : PodId) (q depth : Nat) : OnlyRegs [rPod p.val (0x800 + 4 * q)] s (noteDepth s p q depth) := by
  obtain ⟨v, h | h⟩ := noteDepth_frame s p q depth
  · rw [h]
    exact (OnlyRegs.refl _ s).setReg v (List.mem_singleton_self _)
  · rw [h]
    exact OnlyRegs.refl _ s

/-- Pods and registers of `l` may differ between the two states, and nothing else of the device. -/
def PodsAndRegs (l : List Nat) (s t : State) : Prop := RegsBut l s t ∧ t = { s with regs := t.regs, pods := t.pods }

theorem PodsAndRegs.trans {l : List Nat} {s t u : State} (h : PodsAndRegs l s t) (g : PodsAndRegs l t u) : PodsAndRegs l s u :=
  ⟨h.1.trans g.1, by rw [g.2, h.2]⟩

theorem modPod_podsAndRegs (l : List Nat) (s : State) (p : PodId) (g : Pod → Pod) : PodsAndRegs l s (modPod s p g) := ⟨fun _ _ _ => rfl, rfl⟩

theorem nextSerial_podsAndRegs (l : List Nat) (s : State) (p : PodId) : PodsAndRegs l s (nextSerial s p).2 := modPod_podsAndRegs ..

theorem OnlyRegs.podsAndRegs {l : List Nat} {s t : State} (h : OnlyRegs l s t) : PodsAndRegs l s t := ⟨h.2, by rw [h.1]⟩

/-! ## A token on its queue -/

section
variable (v : State) (p : PodId) (q : Fin 8) (k : TokenKind) (op root store len : Nat) (data : List Byte) (dst : Nat)

/-- The queue with one token more. -/
def tokenTaken (o : OutQueue) : OutQueue :=
  ⟨o.nextSeq + 1, o.tokens ++ [⟨o.nextSeq, k, op, tick v, weaveFrame v, false, false, root, store, len, data, dst⟩]⟩

/-- The Pod with it. -/
def withToken (x : Pod) : Pod := { x with outq := vput x.outq q (tokenTaken v k op root store len data dst (outQ x q)) }

theorem pod_addToken : pod (addToken v p q k op root store len data dst).2 p = withToken v q k op root store len data dst (pod v p) := by
  unfold addToken
  dsimp only
  rw [(noteDepth_onlyRegs ..).pod, pod_modPod]
  rfl

theorem addToken_frame : PodsAndRegs [rPod p.val (0x800 + 4 * q.val)] v (addToken v p q k op root store len data dst).2 :=
  (modPod_podsAndRegs _ v p _).trans (noteDepth_onlyRegs ..).podsAndRegs

end

/-- What an operation with a token does to its Pod beside: its result is in flight, and queues and registers stay. -/
structure TokenOwed (op : Nat) (rt : BitVec 5) (value due : Nat) (x y : Pod) : Prop where
  outq : y.outq = x.outq
  pend : y.pend = x.pend ++ [⟨op, 3, destS rt, BitVec.ofNat 8192 value, due⟩]
  s : y.s = x.s
  v : y.v = x.v

section
variable {u v : State} {p : PodId} {q : Fin 8} {k : TokenKind} {rt : BitVec 5} {root store len : Nat} {data : List Byte} {dst : Nat} {g : Pod → Pod}

/-- The device after an operation of serial `op` has put its token on queue `q` and changed its Pod by `g`. -/
def tokenLeft (v : State) (p : PodId) (q : Fin 8) (k : TokenKind) (op root store len : Nat) (data : List Byte) (dst : Nat) (g : Pod → Pod) : State :=
  modPod (addToken v p q k op root store len data dst).2 p g

theorem pod_tokenLeft (op : Nat) : pod (tokenLeft v p q k op root store len data dst g) p
    = g (withToken v q k op root store len data dst (pod v p)) := by
  rw [tokenLeft, pod_modPod, pod_addToken]

theorem tokenLeft_frame (op : Nat) : PodsAndRegs [rPod p.val (0x800 + 4 * q.val)] v (tokenLeft v p q k op root store len data dst g) :=
  (addToken_frame ..).trans (modPod_podsAndRegs ..)

theorem tick_storeRead {s t : State} (h : Faulting (storeErrRegs p) s t) : tick t = tick s := by
  have hlow : ∀ o ∈ [rErrStoreUe, rErrStoreUe + 4] ++ capRegs 6 ++ faultRegs ++ pbaRegs, o ≠ rTick ∧ o ≠ rTick + 4 := by decide
  have hkept {o : Nat} (ho : o = rTick ∨ o = rTick + 4) : reg t o = reg s o := by
    have hsmall : o < 0x100000 := by rcases ho with rfl | rfl <;> decide
    refine h.regs o (fun hm => ?_) ?_
    · simp only [storeErrRegs, List.mem_append, List.mem_cons, List.not_mem_nil, or_false] at hm hlow
      have hpod (z : Nat) : o ≠ rPod p z := by unfold rPod; omega
      have := hlow o
      have := hpod 0x700
      have := hpod 0x704
      tauto
    · rintro (hw | hp | hs | ⟨r, hr⟩)
      · rcases ho with rfl | rfl <;> exact absurd hw (by decide)
      · have := hlow o (List.mem_append_right _ hp)
        tauto
      · omega
      · unfold rPod at hr
        omega
  exact reg64_congr (hkept (Or.inl rfl)) (hkept (Or.inr rfl))

/-- An operation that has taken its serial, and checked what it reads, has its token on the queue and its result in flight. -/
theorem tokenLeft_queued (hv : Faulting (storeErrRegs p) (nextSerial u p).2 v)
    (hg : ∀ y, TokenOwed (pod u p).core.nextOp rt (tokenValue q (outQ (pod u p) q).nextSeq) ((pod u p).core.cycle + 1) y (g y)) :
    Queued u (tokenLeft v p q k (pod u p).core.nextOp root store len data dst g) p q rt (newToken u p q k root store len data dst) := by
  have hpod : pod v p = numbered (pod u p) := (hv.pod p).trans (pod_nextSerial u p)
  have hleft := pod_tokenLeft (v := v) (p := p) (q := q) (k := k) (root := root) (store := store) (len := len) (data := data) (dst := dst) (g := g)
    (pod u p).core.nextOp
  have htick : tick v = tick (nextSerial u p).2 := tick_storeRead hv
  have hframe : weaveFrame v = weaveFrame u := (congrArg (fun s : State => s.stake.frame) hv.frame :)
  have hmem : (tokenLeft v p q k (pod u p).core.nextOp root store len data dst g).mem = u.mem :=
    (congrArg State.mem (tokenLeft_frame (pod u p).core.nextOp).2 :).trans (congrArg State.mem hv.frame :)
  obtain ⟨houtq, hpend, hs, hvv⟩ := hg (withToken v q k (pod u p).core.nextOp root store len data dst (pod v p))
  rw [← hleft, hpod] at houtq hpend hs hvv
  refine ⟨?_, hpend, memByte_congr hmem, hs, hvv⟩
  rw [outQ, houtq, withToken, vget_vput, tokenTaken, htick, hframe]
  rfl

end

end Sys2Proof.Machine
end

section
/-! Obligation O43: the queue operations of the MEM slot (R120, R121, R152 to R154, R160, R185 to R188). -/

namespace Sys2Proof.Machine

open Sys2Proof.Claims (Issues Queued newToken owed result gives Sane PodOnly)

/-! ## Ranges in whole units of 64 bytes -/

theorem addRange_aligned (x : Pod) (op cls : Nat) (w : Bool) {a n : Nat} (ha : a % 64 = 0) (hn : n % 64 = 0) (due : Option Nat) (l : List (Nat × List Byte)) :
    addRange x op cls w (spanOf [(a, n)]) due l = { x with ranges := x.ranges ++ [⟨op, cls, w, a, a + n, cls = 5, due, l, [], false⟩] } := by
  have hlo : a / 64 * 64 = a := by omega
  have hhi : ceilTo 64 (a + n) = a + n := by unfold ceilTo; omega
  have hspan : spanOf [(a, n)] = some (a, a + n) := by rw [spanOf, spanOf, hlo, hhi]
  rw [hspan]
  rfl

theorem moveBytes_aligned (f : MemFields) : moveBytes f % 64 = 0 := by unfold moveBytes; omega

section
variable {s : State} {p : PodId} {f : MemFields}

theorem badQueued_aligned {a n : Nat} (h : badQueued s p a n = false) : a % 64 = 0 := by
  unfold badQueued at h
  simp only [Bool.or_eq_false_iff, decide_eq_false_iff_not, not_not] at h
  exact h.1.1

theorem fetch_aligned (h : Issues s p (.mem 8 f)) : sNum (pod (settleFor s p (.mem 8 f)) p) f.rd % 64 = 0 := by
  have hbad : (badRoot _ _ || badQueued _ p (sNum (pod (withPending s p) p) f.rd) (moveBytes f)) = false := (issues_mem h (by decide)).2.1
  rw [sNum_settleFor_mem s p 8 f (by simp [memReads])]
  exact badQueued_aligned (Bool.or_eq_false_iff.1 hbad).2

theorem store_aligned (h : Issues s p (.mem 9 f)) : sNum (pod (settleFor s p (.mem 9 f)) p) f.ra % 64 = 0 := by
  have hbad : (badRoot _ _ || badQueued _ p (sNum (pod (withPending s p) p) f.ra) (moveBytes f)) = false := (issues_mem h (by decide)).2.1
  rw [sNum_settleFor_mem s p 9 f (by simp [memReads])]
  exact badQueued_aligned (Bool.or_eq_false_iff.1 hbad).2

theorem pop_aligned (h : Issues s p (.mem 0xB f)) : sNum (pod (settleFor s p (.mem 0xB f)) p) f.rd % 64 = 0 := by
  have hbad : badStore (withPending s p) p (sNum (pod (withPending s p) p) f.rd) 64 64 = false := (issues_mem h (by decide)).2.1
  rw [sNum_settleFor_mem s p 0xB f (by simp [memReads])]
  unfold badStore at hbad
  simp only [Bool.or_eq_false_iff, decide_eq_false_iff_not, not_not] at hbad
  exact hbad.1.1

end

/-! ## Q.FETCH, Q.STORE and GE.REQ -/

theorem tokenOwed_of_ranges {op : Nat} {rt : BitVec 5} {value due : Nat} {x y : Pod} (h : RangesOnly (addPend x op 3 (destS rt) value due) y) :
    TokenOwed op rt value due x y :=
  ⟨(congrArg Pod.outq h :), (congrArg Pod.pend h :), (congrArg Pod.s h :), (congrArg Pod.v h :)⟩

section
variable (u : State) (p : PodId) (f : MemFields)

/-- The queue that the operation names, and the token value that it gives. -/
def opQueue : Fin 8 := queueIx f.q.toNat
def opToken : Nat := tokenValue (opQueue f) (outQ (pod u p) (opQueue f)).nextSeq

theorem addToken_fst {v : State} (hv : Faulting (storeErrRegs p) (nextSerial u p).2 v) (q : Fin 8) (k : TokenKind) (op root store len : Nat) (data : List Byte)
    (dst : Nat) : (addToken v p q k op root store len data dst).1 = (outQ (pod u p) q).nextSeq := by
  have hpod : pod v p = numbered (pod u p) := (hv.pod p).trans (pod_nextSerial u p)
  change (outQ (pod v p) q).nextSeq = _
  rw [hpod]
  rfl

/-- The Pod as its result is in flight. -/
def tokenPend (y : Pod) : Pod := addPend y (pod u p).core.nextOp 3 (destS f.rt) (opToken u p f) ((pod u p).core.cycle + 1)

/-- Q.FETCH registers its destination. -/
def fetchPod (y : Pod) : Pod :=
  addRange (tokenPend u p f y) (pod u p).core.nextOp 4 true (spanOf [(sNum (pod u p) f.rd, moveBytes f)]) none []

theorem issueFetch_eq : issueFetch u p f = tokenLeft (nextSerial u p).2 p (opQueue f) .fetch (pod u p).core.nextOp (sNum (pod u p) f.ra) (sNum (pod u p) f.rd)
    (moveBytes f) [] 0 (fetchPod u p f) := by
  unfold issueFetch
  dsimp only
  rw [addToken_fst u p (Faulting.refl _ _)]
  rfl

/-- Q.STORE asks the banks for its source and registers it. -/
def storePod (y : Pod) : Pod :=
  addRange (tokenPend u p f { y with
      lines := y.lines ++ unitLines (pod u p).core.nextOp 2 false (sNum (pod u p) f.ra) (moveBytes f) ((pod u p).core.cycle + 1)
      reads := y.reads ++ [⟨(pod u p).core.nextOp, .token (opQueue f), [(sNum (pod u p) f.ra, moveBytes f)]⟩] })
    (pod u p).core.nextOp 4 false (spanOf [(sNum (pod u p) f.ra, moveBytes f)]) none []

/-- The device as the check bits of its source have been read. -/
def sourceChecked : State := (storeRead (nextSerial u p).2 p (sNum (pod u p) f.ra) (moveBytes f)).1

theorem sourceChecked_faulting : Faulting (storeErrRegs p) (nextSerial u p).2 (sourceChecked u p f) := storeRead_faulting ..

theorem sourceChecked_sane (h : Sane u p (sNum (pod u p) f.ra) (moveBytes f)) : sourceChecked u p f = (nextSerial u p).2 := by
  obtain ⟨h1, h2⟩ := h
  have hcorr : eccIn (nextSerial u p).2 1 (podAddr p (sNum (pod u p) f.ra)) (moveBytes f) = [] := h1
  have hbad : eccIn (nextSerial u p).2 2 (podAddr p (sNum (pod u p) f.ra)) (moveBytes f) = [] := h2
  unfold sourceChecked storeRead
  dsimp only
  rw [hcorr, hbad]
  rfl

theorem issueQStore_eq : issueQStore u p f = tokenLeft (sourceChecked u p f) p (opQueue f) .store (pod u p).core.nextOp (sNum (pod u p) f.rd)
    (sNum (pod u p) f.ra) (moveBytes f) (memRead u (podAddr p (sNum (pod u p) f.ra)) (moveBytes f)) 0 (storePod u p f) := by
  have hra : sNum (pod (nextSerial u p).2 p) f.ra = sNum (pod u p) f.ra := by rw [pod_nextSerial]; rfl
  have hcycle : (pod (nextSerial u p).2 p).core.cycle = (pod u p).core.cycle := by rw [pod_nextSerial]; rfl
  have hread : (storeRead (nextSerial u p).2 p (sNum (pod u p) f.ra) (moveBytes f)).2 = memRead u (podAddr p (sNum (pod u p) f.ra)) (moveBytes f) :=
    memRead_of_mem (nextSerial_mem u p) _ _
  unfold issueQStore issueSource
  dsimp only
  rw [hra, hcycle, hread, addToken_fst u p (storeRead_faulting ..)]
  rfl

/-- GE.REQ registers its ranges and waits for the engine with the step counter of its issue. -/
def gatherPod (t : State) (y : Pod) : Pod :=
  let z := (memRangeReads t p 0x14 f).foldl (fun z e => addRange z (pod u p).core.nextOp 5 false (spanOf [e]) none []) (tokenPend u p f y)
  let z := (memRangeWrites t p 0x14 f).foldl (fun z e => addRange z (pod u p).core.nextOp 5 true (spanOf [e]) none []) z
  { z with gathers := z.gathers ++ [⟨(pod u p).core.nextOp, sNum (pod u p) f.ra, opQueue f, (outQ (pod u p) (opQueue f)).nextSeq, BitVec.ofNat 64 (stepCount u p)⟩] }

theorem gatherPod_ranges (t : State) (y : Pod) : ∃ z, RangesOnly (tokenPend u p f y) z ∧ gatherPod u p f t y = { z with gathers := y.gathers ++
    [⟨(pod u p).core.nextOp, sNum (pod u p) f.ra, opQueue f, (outQ (pod u p) (opQueue f)).nextSeq, BitVec.ofNat 64 (stepCount u p)⟩] } := by
  have hreads := RangesOnly.foldl (fun z e => addRange_rangesOnly z (pod u p).core.nextOp 5 false (spanOf [e]) none []) (memRangeReads t p 0x14 f) (tokenPend u p f y)
  have hboth := hreads.trans
    (RangesOnly.foldl (fun z e => addRange_rangesOnly z (pod u p).core.nextOp 5 true (spanOf [e]) none []) (memRangeWrites t p 0x14 f) _)
  refine ⟨_, hboth, ?_⟩
  have hgathers := (congrArg Pod.gathers hboth :)
  unfold gatherPod
  dsimp only
  rw [hgathers]
  rfl

theorem issueGather_eq : ∃ t : State, issueGather u p f
    = tokenLeft (nextSerial u p).2 p (opQueue f) .gather (pod u p).core.nextOp 0 0 0 [] 0 (gatherPod u p f t) := by
  have hstep : stepCount (addToken (nextSerial u p).2 p (opQueue f) .gather (pod u p).core.nextOp 0 0 0 [] 0).2 p = stepCount u p := by
    have hregs := (addToken_frame (nextSerial u p).2 p (opQueue f) .gather (pod u p).core.nextOp 0 0 0 [] 0).1
    have hlt := (opQueue f).isLt
    exact reg64_congr (hregs _ (by unfold rPod; omega) (by simp only [List.mem_singleton, rPod]; omega))
      (hregs _ (by unfold rPod; omega) (by simp only [List.mem_singleton, rPod]; omega))
  refine ⟨(addToken (nextSerial u p).2 p (opQueue f) .gather (pod u p).core.nextOp 0 0 0 [] 0).2, ?_⟩
  unfold gatherPod
  rw [← hstep, ← addToken_fst u p (Faulting.refl _ _) (opQueue f) .gather (pod u p).core.nextOp 0 0 0 [] 0]
  unfold tokenPend opToken
  rw [← addToken_fst u p (Faulting.refl _ _) (opQueue f) .gather (pod u p).core.nextOp 0 0 0 [] 0]
  rfl

end

/-! ## Answers in S[RD] -/

section
variable {s u : State} {p : PodId} {f : MemFields}

/-- A status is a result of one cycle, and nothing else. -/
theorem issueStatus_eq (u : State) (p : PodId) (c : Nat) (f : MemFields) (n : Nat) :
    issueStatus (markVClass u p (.mem c f)) p f n = result u p (.mem c f) [(destS f.rd, n)] 1 := by
  unfold issueStatus nextSerial modCore result
  dsimp only
  rw [modPod_modPod]
  exact modPod_congr rfl

theorem runOp_wait (h : Issues s p (.mem 0xA f)) (hout : tokenOut (pod (settleFor s p (.mem 0xA f)) p) (sReg (pod (settleFor s p (.mem 0xA f)) p) f.ra) = false) :
    runOp s p (.mem 0xA f) = gives s p (.mem 0xA f) (fun _ => [(destS f.rd, 0)]) 1 := by
  rw [runOp_mem h (by decide)]
  change issueStatus _ p f (b2n (tokenOut (pod (markVClass _ p _) p) (sReg (pod (markVClass _ p _) p) f.ra))) = _
  rw [pod_markVClass, hout]
  exact issueStatus_eq ..

/-- Q.WAIT's timeout where the operation has come up: it answers 1 for a token that is still outstanding. -/
theorem exec_qWaitTimeout (ht : podTrapped s p = false) (hh : podHalted s p = false) (hc : podClockRuns s p = true)
    (hl : opTraps (withPending s p) p (.mem 0xA f) = []) : exec (.qWaitTimeout p f) s
    = .next (if f.imm ≠ 0 ∧ tokenOut (pod (settleFor s p (.mem 0xA f)) p) (sReg (pod (settleFor s p (.mem 0xA f)) p) f.ra) = true
        then result (settleFor s p (.mem 0xA f)) p (.mem 0xA f) [(destS f.rd, 1)] 1 else s) := by
  change execQWaitTimeout p f s = _
  unfold execQWaitTimeout
  rw [ht, hh, hc, hl, ← issueStatus_eq]
  exact (apply_ite Host.Outcome.next ..).symm

theorem exec_qWaitTimeout_stopped (h : podClockRuns s p = false) : exec (.qWaitTimeout p f) s = .next s := by
  refine if_pos ?_
  rw [h]
  simp

theorem exec_select {v : Option Nat} {n : Nat} {t : State} {c : Nat} (hv : v = some n) (ht : t = issueSel (markVClass u p (.mem c f)) p f v) :
    t = modCore (result u p (.mem c f) [(destS f.rd, n)] 1) p (fun k => { k with selSeen := [] }) := by
  subst hv ht
  exact congrArg (fun w => modCore w p (fun k => { k with selSeen := [] })) (issueStatus_eq u p c f n)

theorem runOp_sel (h : Issues s p (.mem 0xC f)) {x : Pod} (hx : x = pod (settleFor s p (.mem 0xC f)) p) {n : Nat}
    (hn : (∃ l, maskSeen x f.imm.toNat = n :: l) ∨ (maskSeen x f.imm.toNat = [] ∧ n = 16)) : runOp s p (.mem 0xC f)
    = modCore (result (settleFor s p (.mem 0xC f)) p (.mem 0xC f) [(destS f.rd, n)] 1) p (fun k => { k with selSeen := [] }) := by
  subst hx
  have hstalls : trapIf (selValue (pod (settleFor s p (.mem 0xC f)) p) f.imm.toNat).isNone 0x03 = [] := (issues_mem h (by decide)).2.2
  have hsome := trapIf_nil hstalls
  have hvalue : selValue (pod (settleFor s p (.mem 0xC f)) p) f.imm.toNat = some n := by
    unfold selValue at hsome ⊢
    rcases hn with ⟨l, hl⟩ | ⟨hl, rfl⟩
    · rw [hl]
    · rw [hl] at hsome ⊢
      dsimp only at hsome ⊢
      split at hsome
      next hempty => rw [if_pos hempty]
      next => exact absurd hsome (by decide)
  refine exec_select hvalue ?_
  rw [runOp_mem h (by decide)]
  change issueSel _ p f (selValue (pod (markVClass _ p _) p) f.imm.toNat) = _
  rw [pod_markVClass]

theorem mem_maskSeen {x : Pod} {m q : Nat} (h : q ∈ maskSeen x m) (hm : m ≤ 0xFF) : q < 8 := by
  have hbit := of_decide_eq_true (List.mem_filter.1 h).2
  by_contra hq
  have hbig : m < 2 ^ q := lt_of_lt_of_le (by omega : m < 2 ^ 8) (Nat.pow_le_pow_right (by decide) (by omega))
  rw [Nat.div_eq_of_lt hbig] at hbit
  exact absurd hbit (by decide)

theorem mem_maskOut {x : Pod} {m q : Nat} (h : q ∈ maskOut x m) : q < 8 := List.mem_range.1 (List.mem_filter.1 h).1

theorem runOp_selord (h : Issues s p (.mem 0xD f)) {x : Pod} (hx : x = pod (settleFor s p (.mem 0xD f)) p) : ∃ n,
    ((maskOut x f.imm.toNat = [] ∧ maskSeen x f.imm.toNat = [] ∧ n = 16)
      ∨ (n ∈ maskSeen x f.imm.toNat ∧ ∀ q, q < n → q ∉ maskOut x f.imm.toNat ∧ q ∉ maskSeen x f.imm.toNat))
    ∧ runOp s p (.mem 0xD f) = modCore (result (settleFor s p (.mem 0xD f)) p (.mem 0xD f) [(destS f.rd, n)] 1) p (fun k => { k with selSeen := [] }) := by
  obtain ⟨hoperand, -, hall⟩ := issues_mem h (by decide)
  have hstalls : trapIf (selordValue (pod (settleFor s p (.mem 0xD f)) p) f.imm.toNat).isNone 0x03 = [] := hall
  have hmask : f.imm.toNat ≤ 0xFF := Nat.not_lt.1 (of_decide_eq_false (show decide (0xFF < f.imm.toNat) = false from hoperand))
  have hrun (n : Nat) (hv : selordValue x f.imm.toNat = some n) : runOp s p (.mem 0xD f)
      = modCore (result (settleFor s p (.mem 0xD f)) p (.mem 0xD f) [(destS f.rd, n)] 1) p (fun k => { k with selSeen := [] }) := by
    refine exec_select hv ?_
    rw [runOp_mem h (by decide)]
    change issueSel _ p f (selordValue (pod (markVClass _ p _) p) f.imm.toNat) = _
    rw [pod_markVClass, ← hx]
  have hsome := trapIf_nil hstalls
  rw [← hx] at hsome
  unfold selordValue at hsome hrun
  cases hfind : (upTo 8).find? (fun q => (maskOut x f.imm.toNat).contains q || (maskSeen x f.imm.toNat).contains q) with
  | none =>
    have hnone := List.find?_eq_none.1 hfind
    simp only [Bool.or_eq_true, List.contains_iff_mem, not_or] at hnone
    refine ⟨16, Or.inl ⟨?_, ?_, rfl⟩, hrun 16 (by rw [hfind])⟩
    · exact List.eq_nil_iff_forall_not_mem.2 (fun q hq => (hnone q (List.mem_range.2 (mem_maskOut hq))).1 hq)
    · exact List.eq_nil_iff_forall_not_mem.2 (fun q hq => (hnone q (List.mem_range.2 (mem_maskSeen hq hmask))).2 hq)
  | some n =>
    rw [hfind] at hsome
    dsimp only at hsome
    have hseen : (maskSeen x f.imm.toNat).contains n = true := by
      by_contra hno
      rw [if_neg hno] at hsome
      exact absurd hsome (by decide)
    refine ⟨n, Or.inr ⟨List.contains_iff_mem.1 hseen, fun q hq => ?_⟩, hrun n (by rw [hfind]; exact if_pos hseen)⟩
    obtain ⟨i, hi, hni, hbefore⟩ := List.find?_eq_some_iff_getElem.1 hfind |>.2
    have hin : i = n := by simpa [upTo] using hni
    have hqi : q < i := hin ▸ hq
    have hq := hbefore q hqi
    simpa [upTo] using hq

/-! ## Q.POP -/

/-- Q.POP takes the entry: its bytes are held for the store until they are written. -/
def popPod (x : Pod) (p : PodId) (f : MemFields) (e : Entry) (y : Pod) : Pod :=
  addRange (addPend { y with
      inq := vmod y.inq (opQueue f) List.tail
      lines := y.lines ++ [oneStep x.core.nextOp 4 (2 ^ 40 + x.core.nextOp) true (sNum x f.rd) 64 x.core.cycle] }
    x.core.nextOp 3 (destS f.rt) 1 (x.core.cycle + loadLatency (sNum x f.rd))) x.core.nextOp 6 true (spanOf [(sNum x f.rd, 64)])
    (some (x.core.cycle + loadLatency (sNum x f.rd))) [(podAddr p (sNum x f.rd), sliceB e.bytes 0 64)]

theorem issuePop_none (h : visibleHead u p (opQueue f) = none) :
    issuePop u p f = result u p (.mem 0xB f) [(destS f.rt, 0)] (loadLatency (sNum (pod u p) f.rd)) := by
  have hhead : visibleHead (nextSerial u p).2 p (queueIx f.q.toNat) = none := by
    rw [← h]
    unfold visibleHead
    rw [pod_nextSerial]
    rfl
  unfold issuePop
  dsimp only
  rw [hhead]
  unfold nextSerial modCore result
  dsimp only
  rw [modPod_modPod]
  exact modPod_congr rfl

theorem issuePop_some {e : Entry} (h : visibleHead u p (opQueue f) = some e) :
    issuePop u p f = modPod u p (fun y => popPod (pod u p) p f e (numbered y)) := by
  have hhead : visibleHead (nextSerial u p).2 p (queueIx f.q.toNat) = some e := by
    rw [← h]
    unfold visibleHead
    rw [pod_nextSerial]
    rfl
  unfold issuePop
  dsimp only
  rw [hhead]
  unfold nextSerial modCore
  dsimp only
  rw [modPod_modPod]
  rfl

end

end Sys2Proof.Machine

open Sys2Proof.Machine in
/-- Settles O43: each operation is its issue after what it waits for is complete, and its checks have left the ranges aligned and the mask in bounds. -/
theorem queueOperationsTakeTokens : Obligations.QueueOperationsTakeTokens := by
  unfold Obligations.QueueOperationsTakeTokens
  intro p f s _
  refine ⟨?fetch, ?store, ?gather, fun hout => ⟨fun h => ?wait, fun ht hh hc hl => ?idle⟩, exec_qWaitTimeout_stopped, fun ht hh hc hl himm hout => ?timeout,
    ?pop, ?sel, ?selord⟩
  case fetch =>
    rintro h u x rfl rfl
    have hrun := runOp_mem_plain h (by decide) rfl
    have ha := fetch_aligned h
    generalize settleFor s p (.mem 8 f) = u at *
    refine ⟨_, congrArg Host.Outcome.next (hrun.trans (issueFetch_eq u p f)), tokenLeft_queued (Faulting.refl _ _) (fun y =>
      tokenOwed_of_ranges (addRange_rangesOnly ..)), ?_, ?_⟩
    · rw [pod_tokenLeft, fetchPod, addRange_aligned _ _ _ _ ha (moveBytes_aligned f), pod_nextSerial]
      rfl
    · exact (nextSerial_podsAndRegs _ u p).trans (tokenLeft_frame (q := opQueue f) _)
  case store =>
    rintro h u x rfl rfl
    have hrun := runOp_mem_plain h (by decide) rfl
    have ha := store_aligned h
    generalize settleFor s p (.mem 9 f) = u at *
    refine ⟨_, congrArg Host.Outcome.next (hrun.trans (issueQStore_eq u p f)), tokenLeft_queued (sourceChecked_faulting u p f) (fun y => ?_), ?_, fun hsane => ?_⟩
    · obtain ⟨houtq, hpend, hs, hv⟩ := tokenOwed_of_ranges (addRange_rangesOnly ..)
      exact ⟨houtq, hpend, hs, hv⟩
    · rw [pod_tokenLeft, storePod, addRange_aligned _ _ _ _ ha (moveBytes_aligned f), (sourceChecked_faulting u p f).pod, pod_nextSerial]
      rfl
    · rw [sourceChecked_sane u p f hsane]
      exact (nextSerial_podsAndRegs _ u p).trans (tokenLeft_frame (q := opQueue f) _)
  case gather =>
    rintro h u x rfl rfl
    have hrun := runOp_mem_plain h (by decide) rfl
    rw [← (settleFor_counters s p (.mem 0x14 f)).2]
    generalize settleFor s p (.mem 0x14 f) = u at *
    obtain ⟨t, ht⟩ := issueGather_eq u p f
    refine ⟨_, congrArg Host.Outcome.next (hrun.trans ht), tokenLeft_queued (Faulting.refl _ _) (fun y => ?_), ?_, ?_⟩
    · obtain ⟨z, hz, hy⟩ := gatherPod_ranges u p f t y
      obtain ⟨houtq, hpend, hs, hv⟩ := tokenOwed_of_ranges hz
      rw [hy]
      exact ⟨houtq, hpend, hs, hv⟩
    · obtain ⟨z, -, hy⟩ := gatherPod_ranges u p f t (withToken (nextSerial u p).2 (opQueue f) .gather (pod u p).core.nextOp 0 0 0 [] 0 (pod (nextSerial u p).2 p))
      rw [pod_tokenLeft, hy, pod_nextSerial]
      rfl
    · exact (nextSerial_podsAndRegs _ u p).trans (tokenLeft_frame (q := opQueue f) _)
  case wait => exact congrArg Host.Outcome.next (runOp_wait h hout)
  case idle =>
    rw [exec_qWaitTimeout ht hh hc hl, if_neg (fun e => by rw [hout] at e; exact absurd e.2 (by decide))]
  case timeout => rw [exec_qWaitTimeout ht hh hc hl, if_pos ⟨himm, hout⟩]
  case pop =>
    rintro h u x rfl rfl
    have hrun := runOp_mem_plain h (by decide) rfl
    have ha := pop_aligned h
    rw [← visibleHead_settleFor_mem s p 0xB f (Sys2Proof.Machine.queueIx f.q.toNat)]
    generalize settleFor s p (.mem 0xB f) = u at *
    have hlat : loadLatency (sNum (pod u p) f.rd) = if 0x1000000 ≤ sNum (pod u p) f.rd then 9 else 4 := by
      unfold loadLatency isHusk
      simp only [decide_eq_true_eq]
    rw [← hlat]
    refine ⟨fun hnone => congrArg Host.Outcome.next (hrun.trans (issuePop_none hnone)), fun e he => ⟨_, congrArg Host.Outcome.next (hrun.trans (issuePop_some he)),
      modPod_podOnly u p _, ?_⟩⟩
    rw [pod_modPod, popPod, addRange_aligned _ _ _ _ ha (by decide)]
    exact ⟨vget_vmod .., rfl, rfl⟩
  case sel =>
    intro x n hx h hn
    exact congrArg Host.Outcome.next (runOp_sel h hx hn)
  case selord =>
    intro x hx h
    obtain ⟨n, hn, hrun⟩ := runOp_selord h hx
    exact ⟨n, hn, congrArg Host.Outcome.next hrun⟩
end

section
/-! Root transfers: data on its way into a Pod store, and tokens that complete (R120, R160, R167, R169, R172, R183, R184, R188). -/

namespace Sys2Proof.Machine

open Sys2Proof.Claims (DataArrives Stored)

/-! ## Data on its way into a store -/

/-- A transfer in units of 128 bytes begins with a line at its address. -/
theorem unitLines_base (op order : Nat) (w : Bool) (a start : Nat) {n : Nat} (hn : 0 < n) :
    ∃ l ∈ unitLines op order w a n start, l.op = op ∧ l.write = w ∧ l.base = a := by
  unfold unitLines
  by_cases h : n < 128
  · have hr : n % 128 ≠ 0 := by omega
    have hbase : a + n / 128 * 128 = a := by omega
    exact ⟨_, List.mem_append_right _ (by rw [if_neg hr]; exact List.mem_singleton.2 rfl), rfl, rfl, hbase⟩
  · exact ⟨_, List.mem_append_left _ (by rw [if_neg h]; exact List.mem_singleton.2 rfl), rfl, rfl, rfl⟩

theorem wholeWords_length (o : Nat) (b : List Byte) : (wholeWords o b).length = ceilTo 8 b.length := by
  unfold wholeWords upTo
  rw [List.length_append, List.length_map, List.length_range]
  unfold ceilTo
  omega

/-- Whole words stand as they are. -/
theorem wholeWords_whole (o : Nat) {b : List Byte} (h : b.length % 8 = 0) : wholeWords o b = b := by
  have hnone : ceilTo 8 b.length - b.length = 0 := by unfold ceilTo; omega
  unfold wholeWords
  rw [hnone]
  exact List.append_nil b

theorem wholeWords_isEmpty (o : Nat) (b : List Byte) : (wholeWords o b).isEmpty = b.isEmpty := by
  cases b with
  | nil => rfl
  | cons x b => rfl

/-- The parts that hold bytes, in whole words. -/
def arriving (parts : List (Nat × List Byte)) : List (Nat × List Byte) :=
  (parts.filter (fun e => !e.2.isEmpty)).map (fun e => (e.1, wholeWords e.1 e.2))

section
variable (u : State) (p : PodId) (op : Nat) (w : List (Nat × List Byte))

/-- The Pod with data of operation `op` on its way. -/
def arrivedPod (x : Pod) : Pod := { numbered x with
  lines := x.lines ++ w.flatMap (fun e =>
    (unitLines op 3 true e.1 e.2.length x.core.cycle).map (fun l => { l with order := 3 * 2 ^ 40 + x.core.nextOp }))
  ranges := x.ranges.map (fun r => if r.op = op && r.write then { r with writes := r.writes ++ w.map (fun e => (podAddr p e.1, e.2)) } else r)
  outq := x.outq.map (fun o => { o with tokens := o.tokens.map (fun t => if t.op = op then { t with begun := true } else t) }) }

theorem arriveData_eq : arriveData u p op w = modPod u p (arrivedPod p op w) := by
  unfold arriveData nextSerial modCore
  dsimp only
  rw [modPod_modPod]
  exact modPod_congr rfl

end

/-- The data of an operation, taken from a state whose store and Pods are those of `s`, is on its way. -/
theorem arriveData_arrives {s u : State} (hm : u.mem = s.mem) (hp : u.pods = s.pods) {p : PodId} {q : Fin 8} {k : Token}
    (hk : (outQ (pod s p) q).tokens = [k]) (parts : List (Nat × List Byte)) : DataArrives s (arriveData u p k.op (arriving parts)) p q k parts := by
  have hpod : pod u p = pod s p := congrArg (fun v => vget v p) hp
  rw [arriveData_eq]
  refine ⟨memByte_congr hm, ?_, fun y hy hop hw => ?_, fun e he hne => ?_⟩
  · rw [pod_modPod, hpod, arrivedPod, outQ, vget_map, ← outQ, hk]
    simp
  · rw [pod_modPod, hpod, arrivedPod]
    refine List.mem_map.2 ⟨y, hy, ?_⟩
    rw [hop, hw, arriving, List.map_map]
    exact if_pos (by simp)
  · have hpart : (e.1, wholeWords e.1 e.2) ∈ arriving parts :=
      List.mem_map.2 ⟨e, List.mem_filter.2 ⟨he, by simpa using hne⟩, rfl⟩
    have hlen : 0 < (wholeWords e.1 e.2).length := by
      have := List.length_pos_of_ne_nil hne
      rw [wholeWords_length]
      unfold ceilTo
      omega
    obtain ⟨l, hl, hop, hw, hbase⟩ := unitLines_base k.op 3 true e.1 (pod s p).core.cycle hlen
    rw [pod_modPod, hpod, arrivedPod]
    exact ⟨{ l with order := 3 * 2 ^ 40 + (pod s p).core.nextOp },
      List.mem_append_right _ (List.mem_flatMap.2 ⟨_, hpart, List.mem_map.2 ⟨l, hl, rfl⟩⟩), hop, hw, hbase⟩

theorem pod_arriveData_ne (u : State) {p i : PodId} (op : Nat) (w : List (Nat × List Byte)) (h : i ≠ p) :
    pod (arriveData u p op w) i = pod u i := by
  rw [arriveData_eq, pod_modPod_ne _ _ (Ne.symm h)]

/-! ## Root memory read -/

/-- Memory and Pods are as they were. -/
def StoresSame (s t : State) : Prop := t.mem = s.mem ∧ t.pods = s.pods

theorem StoresSame.trans {s t u : State} (h : StoresSame s t) (g : StoresSame t u) : StoresSame s u := ⟨g.1.trans h.1, g.2.trans h.2⟩

theorem StoresSame.foldl {α : Type} {f : State → α → State} (hf : ∀ t a, StoresSame t (f t a)) (l : List α) (s : State) :
    StoresSame s (l.foldl f s) := by
  induction l generalizing s with
  | nil => exact ⟨rfl, rfl⟩
  | cons a l ih => exact (hf s a).trans (ih (f s a))

theorem Faulting.storesSame {l : List Nat} {s t : State} (h : Faulting l s t) : StoresSame s t :=
  ⟨(congrArg State.mem h.frame :), (congrArg State.pods h.frame :)⟩

theorem rootRead_storesSame (s : State) (a n : Nat) : StoresSame s (rootRead s a n).1 := by
  have hcount (l : List Nat) : StoresSame s (l.foldl (fun t w => addSat t (rRootEcc (rootStack w)) 1) (countRoot s n)) :=
    StoresSame.trans (t := countRoot s n) ⟨rfl, rfl⟩
      (StoresSame.foldl (f := fun t w => addSat t (rRootEcc (rootStack w)) 1) (fun _ _ => ⟨rfl, rfl⟩) l _)
  refine (hcount _).trans (StoresSame.foldl (fun t w => ?_) _ _)
  exact (raiseFault_faulting t 7 rErrRootUe (rootStack w) (rootStack w) w (l := rErrRootUe :: capRegs 7) List.mem_cons_self
    (List.subset_cons_self ..)).storesSame

theorem rootRead_data (s : State) (a n : Nat) : (rootRead s a n).2.1 = memRead s a n := by
  unfold rootRead
  exact memRead_of_mem (s := s) (t := countRoot s n) rfl a n

/-! ## Tokens -/

section
variable {s : State} {p : PodId} {q : Fin 8} {k : Token} {l : List Token}

theorem openToken_head (h : (outQ (pod s p) q).tokens = k :: l) (hr : rootReady k = true) (hd : k.transferDone = false) :
    openToken s p q rootReady = some k := by
  unfold openToken
  rw [h, List.find?_cons_of_pos (by rw [hr, hd]; rfl)]

theorem openToken_none (h : (outQ (pod s p) q).tokens = [k]) (hr : rootReady k = false) : openToken s p q rootReady = none := by
  unfold openToken
  rw [h, List.find?_cons_of_neg (by rw [hr]; simp), List.find?_nil]

/-- While the head is open, no token completes. -/
theorem completeHeads_open (h : (outQ (pod s p) q).tokens = k :: l) (hd : k.transferDone = false) : completeHeads s p q = s := by
  have hgone : takeDone (outQ (pod s p) q).tokens = [] := by
    rw [h, takeDone, hd]
    exact if_neg Bool.false_ne_true
  unfold completeHeads
  dsimp only
  rw [hgone]
  rfl

/-- The Pod as the only token of the queue, of operation `op`, has completed. -/
def completedPod (q : Fin 8) (op : Nat) (x : Pod) : Pod := { x with
  outq := vput x.outq q ⟨(outQ x q).nextSeq, []⟩
  ranges := x.ranges.filter (fun r => !([op].contains r.op && r.due.isNone))
  core := { x.core with selSeen := x.core.selSeen ++ [q.val] } }

/-- The Pod as the token of operation `op` at the head of the queue is done. -/
def markedPod (q : Fin 8) (op : Nat) (x : Pod) : Pod :=
  { x with outq := vmod x.outq q (fun o => { o with tokens := markDone (fun v => decide (v.op = op)) o.tokens }) }

theorem markedPod_queue (q : Fin 8) (op : Nat) (x : Pod) :
    outQ (markedPod q op x) q = { outQ x q with tokens := markDone (fun v => decide (v.op = op)) (outQ x q).tokens } := vget_vmod ..

/-- The only token of a queue completes as its transfer is done, unless that is a cause of R25. -/
theorem finishTransfer_only (h : (outQ (pod s p) q).tokens = [k]) (hd : k.transferDone = false) (hq : weaveActive s = false ∨ ranOver s k = false) :
    finishTransfer s p q (fun v => decide (v.op = k.op)) = modPod s p (completedPod q k.op) := by
  have hmark : markDone (fun v => decide (v.op = k.op)) [k] = [{ k with transferDone := true }] := by
    rw [markDone, hd]
    exact if_pos (by simp)
  have hqueue : outQ (pod (modPod s p (markedPod q k.op)) p) q = ⟨(outQ (pod s p) q).nextSeq, [{ k with transferDone := true }]⟩ := by
    rw [pod_modPod, markedPod_queue, h, hmark]
  have hgone : takeDone [{ k with transferDone := true }] = [{ k with transferDone := true }] := rfl
  have hcause : ([{ k with transferDone := true }].any (ranOver (modPod s p (markedPod q k.op)))
      && weaveActive (modPod s p (markedPod q k.op))) = false := by
    have hover : ranOver (modPod s p (markedPod q k.op)) { k with transferDone := true } = ranOver s k := rfl
    have hactive : weaveActive (modPod s p (markedPod q k.op)) = weaveActive s := rfl
    rw [List.any_cons, hover, hactive]
    rcases hq with hq | hq <;> simp [hq]
  change completeHeads (modPod s p (markedPod q k.op)) p q = _
  unfold completeHeads
  dsimp only
  rw [hqueue, hgone, hcause, if_neg Bool.false_ne_true, List.isEmpty_cons, if_neg Bool.false_ne_true, modPod_modPod]
  refine modPod_congr ?_
  have hput : vput (markedPod q k.op (pod s p)).outq q ⟨(outQ (pod s p) q).nextSeq, []⟩
      = vput (pod s p).outq q ⟨(outQ (pod s p) q).nextSeq, []⟩ := by
    simp [markedPod, vput, vmod]
  change ({ markedPod q k.op (pod s p) with
    outq := vput (markedPod q k.op (pod s p)).outq q ⟨(outQ (pod s p) q).nextSeq, []⟩
    ranges := _
    core := _ } : Pod) = _
  rw [hput]
  rfl

theorem completedPod_queue (op : Nat) (x : Pod) : (outQ (completedPod q op x) q).tokens = [] := by
  rw [outQ, completedPod, vget_vput]

theorem completedPod_ranges (op : Nat) (x : Pod) : ∀ y ∈ (completedPod q op x).ranges, y.op = op → y.due ≠ none := by
  intro y hy hop hdue
  have hkept := (List.mem_filter.1 hy).2
  rw [hop, hdue] at hkept
  simp at hkept

end

end Sys2Proof.Machine
end

section
/-! TOKEN_COMPLETE (R120, R183, R188, R354). -/

namespace Sys2Proof.Machine

open Sys2Proof.Claims (DataArrives Stored)

section
variable {s : State} {p : PodId} {q : Fin 8} {k : Token} {l : List Token}

theorem exec_tokenComplete (p : PodId) (q : Fin 8) (s : State) : exec (.tokenComplete p q) s = .next (completeToken s p q) := rfl

theorem rootReady_fetch (h : k.kind = .fetch) : rootReady k = true := by simp [rootReady, h]

theorem rootReady_store (h : k.kind = .store) : rootReady k = true := by simp [rootReady, h]

theorem rootReady_gather (h : k.kind = .gather) : rootReady k = k.begun := by simp [rootReady, h]

/-- The oldest Root transfer moves on by its kind. -/
theorem completeToken_head (h : (outQ (pod s p) q).tokens = k :: l) (hr : rootReady k = true) (hd : k.transferDone = false) : completeToken s p q
    = if k.kind = .store then
        if sourceOpen (pod s p) k.op || rootHeld s p k then s
        else finishTransfer (memWrite (countRoot s k.len) k.root k.data) p q (fun v => decide (v.op = k.op))
      else if k.begun then if allVisible (pod s p) k.op then finishTransfer s p q (fun v => decide (v.op = k.op)) else s
      else if rootHeld s p k then s else beginFetch s p k := by
  unfold completeToken
  rw [openToken_head h hr hd]

theorem completeToken_fetch (h : (outQ (pod s p) q).tokens = k :: l) (hk : k.kind = .fetch) (hd : k.transferDone = false) (hb : k.begun = false) :
    completeToken s p q = if rootHeld s p k then s else beginFetch s p k := by
  rw [completeToken_head h (rootReady_fetch hk) hd, if_neg (by rw [hk]; decide), hb, if_neg Bool.false_ne_true]

theorem completeToken_begun (h : (outQ (pod s p) q).tokens = k :: l) (hk : k.kind = .fetch ∨ k.kind = .gather) (hd : k.transferDone = false)
    (hb : k.begun = true) : completeToken s p q
      = if allVisible (pod s p) k.op then finishTransfer s p q (fun v => decide (v.op = k.op)) else s := by
  have hready : rootReady k = true := by
    rcases hk with hk | hk
    · exact rootReady_fetch hk
    · exact (rootReady_gather hk).trans hb
  rw [completeToken_head h hready hd, if_neg (by rcases hk with hk | hk <;> rw [hk] <;> decide), if_pos hb]

theorem completeToken_store (h : (outQ (pod s p) q).tokens = k :: l) (hk : k.kind = .store) (hd : k.transferDone = false) : completeToken s p q
    = if sourceOpen (pod s p) k.op || rootHeld s p k then s
      else finishTransfer (memWrite (countRoot s k.len) k.root k.data) p q (fun v => decide (v.op = k.op)) := by
  rw [completeToken_head h (rootReady_store hk) hd, if_pos hk]

theorem rootHeld_eq_false (hr : inRefresh s (k.root + k.len - 1) = false) (ht : transferRuns s p k.root = true) : rootHeld s p k = false := by
  rw [rootHeld, hr, ht]
  rfl

theorem rootHeld_eq_true (h : inRefresh s (k.root + k.len - 1) = true ∨ transferRuns s p k.root = false) : rootHeld s p k = true := by
  rw [rootHeld]
  rcases h with h | h <;> simp [h]

/-- The data of a Q.FETCH is on its way. -/
theorem tokenComplete_arrives (h : (outQ (pod s p) q).tokens = [k]) (hk : k.kind = .fetch) (hd : k.transferDone = false) (hb : k.begun = false)
    (hr : inRefresh s (k.root + k.len - 1) = false) (ht : transferRuns s p k.root = true) (hpos : 0 < k.len) (hlen : k.len % 64 = 0) :
    ∃ t : State, exec (.tokenComplete p q) s = .next t ∧ DataArrives s t p q k [(k.store, memRead s k.root k.len)]
      ∧ (∀ i, i ≠ p → pod t i = pod s i) := by
  obtain ⟨hmem, hpods⟩ := rootRead_storesSame s k.root k.len
  have hparts : arriving [(k.store, memRead s k.root k.len)] = [(k.store, memRead s k.root k.len)] := by
    have hsize := memRead_length s k.root k.len
    have hfull : (memRead s k.root k.len).isEmpty = false := List.isEmpty_eq_false_iff.2 (List.ne_nil_of_length_pos (by rw [hsize]; exact hpos))
    unfold arriving
    rw [List.filter_cons_of_pos (by simp [hfull]), List.filter_nil, List.map_singleton, wholeWords_whole _ (by rw [hsize]; omega)]
  refine ⟨beginFetch s p k, ?_, ?_, fun i hi => ?_⟩
  · rw [exec_tokenComplete, completeToken_fetch h hk hd hb, rootHeld_eq_false hr ht, if_neg Bool.false_ne_true]
  · unfold beginFetch
    dsimp only
    rw [rootRead_data, ← hparts]
    have harrives := arriveData_arrives hmem hpods h [(k.store, memRead s k.root k.len)]
    rwa [hparts] at harrives ⊢
  · exact (pod_arriveData_ne _ _ _ hi).trans (congrArg (fun v => vget v i) hpods)

/-- A fetch or gather whose bytes are all visible completes. -/
theorem tokenComplete_visible (h : (outQ (pod s p) q).tokens = [k]) (hk : k.kind = .fetch ∨ k.kind = .gather) (hd : k.transferDone = false)
    (hb : k.begun = true) (hv : allVisible (pod s p) k.op = true) (hq : weaveActive s = false ∨ ranOver s k = false) :
    ∃ t : State, exec (.tokenComplete p q) s = .next t ∧ (outQ (pod t p) q).tokens = [] ∧ q.val ∈ (pod t p).core.selSeen
      ∧ (∀ y ∈ (pod t p).ranges, y.op = k.op → y.due ≠ none) ∧ MemSame s t ∧ t.regs = s.regs ∧ (∀ i, i ≠ p → pod t i = pod s i) := by
  refine ⟨modPod s p (completedPod q k.op), ?_, ?_⟩
  · rw [exec_tokenComplete, completeToken_begun h hk hd hb, if_pos hv, finishTransfer_only h hd hq]
  · rw [pod_modPod]
    exact ⟨completedPod_queue .., List.mem_append_right _ (List.mem_singleton_self _), completedPod_ranges k.op (pod s p), fun _ => rfl, rfl,
      fun i hi => pod_modPod_ne s _ (Ne.symm hi)⟩

/-- A Q.STORE whose source has been read is written and completes. -/
theorem tokenComplete_stored (h : (outQ (pod s p) q).tokens = [k]) (hk : k.kind = .store) (hd : k.transferDone = false)
    (hs : sourceOpen (pod s p) k.op = false) (hr : inRefresh s (k.root + k.len - 1) = false) (ht : transferRuns s p k.root = true)
    (hend : k.root + k.data.length ≤ rootEnd) (hq : weaveActive s = false ∨ ranOver s k = false) : ∃ t : State, exec (.tokenComplete p q) s = .next t
      ∧ Stored s t k.root k.data ∧ (outQ (pod t p) q).tokens = [] ∧ t.regs = s.regs ∧ (∀ i, i ≠ p → pod t i = pod s i) := by
  refine ⟨modPod (memWrite (countRoot s k.len) k.root k.data) p (completedPod q k.op), ?_, stored_memWrite (u := countRoot s k.len) rfl hend, ?_, rfl,
    fun i hi => pod_modPod_ne _ _ (Ne.symm hi)⟩
  · rw [exec_tokenComplete, completeToken_store h hk hd, hs, rootHeld_eq_false hr ht, Bool.or_self, if_neg Bool.false_ne_true]
    exact congrArg Host.Outcome.next (finishTransfer_only h hd hq)
  · rw [pod_modPod]
    exact completedPod_queue ..

/-- A transfer that waits changes nothing. -/
theorem tokenComplete_waits (h : completeToken s p q = s) : exec (.tokenComplete p q) s = .next s := congrArg Host.Outcome.next h

theorem completeToken_unformed (h : (outQ (pod s p) q).tokens = [k]) (hk : k.kind = .gather) (hd : k.transferDone = false) (hb : k.begun = false) :
    completeToken s p q = s := by
  unfold completeToken
  rw [openToken_none h ((rootReady_gather hk).trans hb)]
  exact completeHeads_open h hd

theorem completeToken_held (h : (outQ (pod s p) q).tokens = k :: l) (hk : (k.kind = .fetch ∧ k.begun = false) ∨ k.kind = .store)
    (hd : k.transferDone = false) (hheld : inRefresh s (k.root + k.len - 1) = true ∨ transferRuns s p k.root = false) : completeToken s p q = s := by
  have hroot := rootHeld_eq_true hheld
  rcases hk with ⟨hk, hb⟩ | hk
  · rw [completeToken_fetch h hk hd hb, if_pos hroot]
  · rw [completeToken_store h hk hd, hroot, Bool.or_true, if_pos rfl]

end

end Sys2Proof.Machine
end

section
/-! GE_REQUEST_SERVE up to the output: an engine that waits, a request that is read over the on-die network, and what a served request leaves
(R120, R128, R169, R181). -/

namespace Sys2Proof.Machine

open Sys2Proof.Claims (DataArrives Served)

/-! ## The engine waits, asks and serves -/

section
variable {s t : State} {d : DieId} {p : PodId} {g : GatherReq} {l : List GatherReq}

/-- A die without requests, or whose engine must wait. -/
theorem geRequestServe_idle (h : geNextPod s d = none
    ∨ (∀ p g, geNextPod s d = some p → (pod s p).gathers.head? = some g → geReady s d p g = false)) :
    exec (.geRequestServe d) s = .next s := by
  change execGeRequestServe d s = _
  unfold execGeRequestServe
  cases hn : geNextPod s d with
  | none => rfl
  | some p =>
    dsimp only
    cases hg : (pod s p).gathers with
    | nil => rfl
    | cons g l =>
      rcases h with h | h
      · rw [hn] at h
        exact absurd h (Option.some_ne_none p)
      · have hwait := h p g hn (by rw [hg]; rfl)
        dsimp only
        rw [hwait]
        rfl

/-- The engine asks for the request and its seeds, or stands waiting for them. -/
theorem geRequestServe_waits (hn : geNextPod s d = some p) (hg : (pod s p).gathers = g :: l) (hr : geReady s d p g = true)
    (hread : netRead s p (.gather d g.op) (gePieces s p g) = (t, none)) : exec (.geRequestServe d) s = .next t := by
  change execGeRequestServe d s = _
  unfold execGeRequestServe
  rw [hn]
  dsimp only
  rw [hg]
  dsimp only
  rw [hr, hread]
  rfl

/-- The engine serves a request whose bytes the banks have granted. -/
theorem geRequestServe_serves {j : NetJob} (hn : geNextPod s d = some p) (hg : (pod s p).gathers = g :: l) (hr : geReady s d p g = true)
    (hj : netJob s (.gather d g.op) = some j) (hd : netDone s j = true) :
    exec (.geRequestServe d) s = .next (geServe (closeJob s (.gather d g.op)) d p g j.data) := by
  change execGeRequestServe d s = _
  unfold execGeRequestServe
  rw [hn]
  dsimp only
  rw [hg]
  dsimp only
  rw [hr, netRead_open hj hd]
  rfl

theorem netRead_ungranted {key : NetKey} {j : NetJob} (hj : netJob s key = some j) (hd : netDone s j = false) (w : List (Nat × Nat)) :
    netRead s p key w = (s, none) := by
  unfold netRead
  rw [hj]
  dsimp only
  rw [hd]
  rfl

/-- The transfer of a read of pieces that has just been asked. -/
def piecesJob (s : State) (p : PodId) (key : NetKey) (w : List (Nat × Nat)) : NetJob :=
  ⟨2 ^ 64 + s.misc.netSerial, p, key, w, w.flatMap (fun e => memRead s (podAddr p e.1) e.2)⟩

/-- Two pieces are asked for with the lines of both, one after the other. -/
theorem askRead_pair (s : State) (p : PodId) (key : NetKey) (a b : Nat × Nat) : askRead s p key [a, b] = { s with
    misc := { s.misc with
      netSerial := s.misc.netSerial + 2
      netLines := s.misc.netLines ++ askedLines s p (2 ^ 64 + s.misc.netSerial) false a.1 a.2
        ++ askedLines (netStream s p (2 ^ 64 + s.misc.netSerial) false a.1 a.2) p (2 ^ 64 + s.misc.netSerial) false b.1 b.2
      netJobs := s.misc.netJobs ++ [piecesJob s p key [a, b]] } } := rfl

/-- A transfer one of whose lines stands at the banks has not been granted. -/
theorem netGranted_of_mem {op : Nat} {x : LineStream} (h : (p, x) ∈ t.misc.netLines) (hx : x.op = op) : netGranted t p op = false := by
  unfold netGranted
  rw [Bool.not_eq_false', List.any_eq_true]
  exact ⟨_, h, by simp [hx]⟩

/-- A read of two pieces, the first of which holds bytes: its transfer stands with the bytes that the store holds, and has not been granted. -/
theorem netRead_pair {key : NetKey} (h : netJob s key = none) (p : PodId) (a b : Nat × Nat) (ha : 0 < a.2) :
    ∃ t j, netRead s p key [a, b] = (t, none) ∧ netJob t key = some j ∧ j.pod = p ∧ j.pieces = [a, b]
      ∧ j.data = [a, b].flatMap (fun e => memRead s (podAddr p e.1) e.2) ∧ netGranted t p j.op = false ∧ StoresSame s t := by
  have hchecked := checkPieces_faulting s p [a, b]
  have heq : netRead s p key [a, b] = (askRead (checkPieces s p [a, b]) p key [a, b], none) := by
    unfold netRead
    rw [h]
    rfl
  have hnone := (netJob_congr hchecked.netSame.jobs key).trans h
  have hstores := hchecked.storesSame
  rw [heq]
  generalize checkPieces s p [a, b] = u at hnone hstores
  obtain ⟨x, hx, hop⟩ := unitLines_op (2 ^ 64 + u.misc.netSerial) 0 false a.1 0 ha
  have hline : (p, { x with rank := 5, order := u.misc.netSerial }) ∈ askedLines u p (2 ^ 64 + u.misc.netSerial) false a.1 a.2 :=
    List.mem_map.2 ⟨x, hx, rfl⟩
  rw [askRead_pair]
  refine ⟨_, piecesJob u p key [a, b], rfl, netJob_appended (s := u) rfl hnone rfl, rfl, rfl, ?_, ?_, hstores⟩
  · exact List.flatMap_congr fun e _ => memRead_of_mem hstores.1 _ _
  · exact netGranted_of_mem (List.mem_append_left _ (List.mem_append_right _ hline)) hop

end

/-! ## Reads that count only -/

/-- Only the units counted for the power estimate differ (R379). -/
def Counted (s t : State) : Prop := t = { s with power := t.power }

section
variable {s t u : State}

theorem Counted.refl (s : State) : Counted s s := rfl

theorem Counted.trans (h : Counted s t) (g : Counted t u) : Counted s u := by
  unfold Counted at *
  rw [g, h]

theorem Counted.ecc (h : Counted s t) : t.ecc = s.ecc := (congrArg State.ecc h :)

theorem Counted.mem (h : Counted s t) : t.mem = s.mem := (congrArg State.mem h :)

theorem Counted.pods (h : Counted s t) : t.pods = s.pods := (congrArg State.pods h :)

theorem Counted.regs (h : Counted s t) : t.regs = s.regs := (congrArg State.regs h :)

theorem Counted.misc (h : Counted s t) : t.misc = s.misc := (congrArg State.misc h :)

theorem countRoot_counted (s : State) (n : Nat) : Counted s (countRoot s n) := rfl

/-- Without error marks a Root read counts its units only. -/
theorem rootRead_counted (h : s.ecc = []) (a n : Nat) : Counted s (rootRead s a n).1 := by
  rw [(rootRead_clean h a n).1]
  exact countRoot_counted s n

theorem rootRead_intact (h : s.ecc = []) (a n : Nat) : (rootRead s a n).2.2 = false := by
  have hc : (countRoot s n).ecc = [] := h
  unfold rootRead
  dsimp only
  rw [eccIn_clean hc]
  rfl

theorem rootUe_clean (h : s.ecc = []) (a n : Nat) : rootUe s a n = none := by
  unfold rootUe
  rw [eccIn_clean h]
  rfl

theorem touchesNodes_regs (h : t.regs = s.regs) (p : PodId) (o n : Nat) : touchesNodes t p o n = touchesNodes s p o n := by
  unfold touchesNodes flag reg
  rw [h]

theorem reg64_regs (h : t.regs = s.regs) (o : Nat) : reg64 t o = reg64 s o := by
  unfold reg64 reg
  rw [h]

end

/-! ## Output -/

/-- A part of the output stays within the store and outside the node region in force. -/
def PartFits (s : State) (p : PodId) (e : Nat × List Byte) : Prop :=
  e.1 + ceilTo 8 e.2.length ≤ podSize ∧ touchesNodes s p e.1 (ceilTo 8 e.2.length) = false

section
variable {s : State} {p : PodId}

/-- Output that fits is on its way as it is. -/
theorem geWrite_fits {parts : List (Nat × List Byte)} (op : Nat) (h : ∀ e ∈ parts, PartFits s p e) :
    geWrite s p op parts = arriveData s p op (arriving parts) := by
  unfold geWrite arriving
  rw [List.filter_map]
  refine congrArg (fun w : List (Nat × List Byte) => arriveData s p op (w.map fun e => (e.1, wholeWords e.1 e.2))) (List.filter_congr fun e he => ?_)
  obtain ⟨hend, hnodes⟩ := h e he
  rw [Function.comp_apply]
  dsimp only
  rw [wholeWords_isEmpty, wholeWords_length, decide_eq_false (by omega), hnodes, Bool.or_false, Bool.or_false]

/-- A header that does not fit is dropped. -/
theorem geWrite_drops {e : Nat × List Byte} (op : Nat) (h : ¬ PartFits s p e) : geWrite s p op [e] = arriveData s p op (arriving []) := by
  unfold geWrite
  refine congrArg (arriveData s p op) ?_
  rw [List.map_singleton, List.filter_cons_of_neg, List.filter_nil]
  · rfl
  · dsimp only
    rw [wholeWords_length]
    intro hkept
    simp only [Bool.not_eq_true', Bool.or_eq_false_iff, decide_eq_false_iff_not] at hkept
    exact h ⟨by omega, hkept.2⟩

end

/-! ## A served request -/

section
variable {s t w : State} {d : DieId} {p : PodId} {g : GatherReq} {l : List GatherReq} {k : Token} {parts : List (Nat × List Byte)}

theorem reg64_geFinish_ne (s : State) (d : DieId) (p : PodId) : reg64 (geFinish s d p) (rGe d.val 0x10) = reg64 s (rGe d.val 0x10) := by
  unfold geFinish
  dsimp only
  rw [reg64_add64_ne _ _ (by unfold rGe; omega)]
  rfl

/-- A request whose output is on its way, `w` differing from that in registers only, is finished. -/
theorem geFinish_served (hc : Counted (closeJob s (.gather d g.op)) t) (hg : (pod s p).gathers = g :: l)
    (hk : (outQ (pod s p) g.queue).tokens = [k]) (hop : k.op = g.op) (hw : w = { arriveData t p g.op (arriving parts) with regs := w.regs })
    (hn : reg64 w (rGe d.val 0x18) = reg64 s (rGe d.val 0x18)) : Served s (geFinish w d p) d p l
      ∧ netJob (geFinish w d p) (.gather d g.op) = none ∧ DataArrives s (geFinish w d p) p g.queue k parts := by
  have hpods : t.pods = s.pods := hc.pods
  have harrive : pod w p = pod (arriveData t p g.op (arriving parts)) p := by rw [hw]; rfl
  have hother (i : PodId) (hi : i ≠ p) : pod w i = pod s i := by
    rw [hw]
    exact (pod_arriveData_ne t g.op _ hi).trans (congrArg (fun v => vget v i) hpods)
  have hdone (i : PodId) : pod (geFinish w d p) i = pod (modPod w p (fun x => { x with gathers := x.gathers.tail })) i := rfl
  have hgathers : (pod w p).gathers = g :: l := by
    rw [harrive, arriveData_eq, pod_modPod, ← hg]
    exact congrArg (fun v => (vget v p).gathers) hpods
  obtain ⟨hmem, htokens, hranges, hlines⟩ := arriveData_arrives (q := g.queue) hc.mem hpods hk parts
  rw [hop, ← harrive] at htokens hranges hlines
  refine ⟨⟨?_, ?_, ?_, fun i hi => ?_⟩, ?_, ?_, ?_, ?_, ?_⟩
  · rw [hdone, pod_modPod, hgathers]
    rfl
  · refine (reg64_add64 _ _ _).trans ?_
    rw [← hn]
    rfl
  · exact vget_vput ..
  · rw [hdone, pod_modPod_ne _ _ (Ne.symm hi), hother i hi]
  · have hjobs : (geFinish w d p).misc.netJobs = (closeJob s (.gather d g.op)).misc.netJobs := by
      change w.misc.netJobs = _
      rw [hw]
      exact congrArg Misc.netJobs hc.misc
    rw [netJob_congr hjobs, netJob_closeJob]
  · have hsame : (geFinish w d p).mem = s.mem := by
      change w.mem = _
      rw [hw]
      exact hc.mem
    exact memByte_congr hsame
  · rw [hdone, pod_modPod, hop]
    exact htokens
  · rw [hdone, pod_modPod, hop]
    exact hranges
  · rw [hdone, pod_modPod, hop]
    exact hlines

end

end Sys2Proof.Machine
end

section
/-! Gather requests that break one rule (R120, R123, R124, R127). -/

namespace Sys2Proof.Machine

open Sys2Proof.Claims (DataArrives Served)

/-! ## Headers -/

/-- One finding alone decides the status. -/
theorem geStatus_one (b : List Byte) (step : Word64) (c : Nat) : geStatus b step [c] = c := by
  unfold geStatus
  rw [List.length_singleton, Nat.mod_one]
  rfl

theorem geHeader_length (a b c d e : Nat) : (geHeader a b c d e).length = 64 := by
  simp only [geHeader, List.length_append, leBytes_length, List.length_replicate]

/-- The header of a refused request names its status only. -/
theorem geHeader_status (c : Nat) : geHeader c 0 0 0 0 = leBytes 2 c ++ List.replicate 62 0 := by
  have hrest : leBytes 2 0 ++ leBytes 4 0 ++ leBytes 8 0 ++ leBytes 8 0 ++ leBytes 8 0 ++ List.replicate 32 0 = List.replicate 62 (0 : Byte) := by decide
  rw [← hrest]
  simp only [geHeader, List.append_assoc]

/-! ## How a request is served -/

section
variable {s : State} {d : DieId} {p : PodId} {g : GatherReq} {data : List Byte} {r : GeReq} {gr : Graph} {c : Nat}

/-- The statuses that the request itself gives. -/
def earlyStatuses (s : State) (p : PodId) (r : GeReq) : List Nat :=
  trapIf (geBadDst s p r) 1 ++ trapIf (geBadGraph r) 2 ++ trapIf (geBadRequest r) 3

/-- The statuses that the graph's descriptor gives. -/
def lateStatuses (r : GeReq) (gr : Graph) : List Nat := trapIf (geBadArrays r gr) 2 ++ trapIf (geBadDescriptor r gr) 3

theorem earlyStatuses_none (h1 : geBadDst s p r = false) (h2 : geBadGraph r = false) (h3 : geBadRequest r = false) : earlyStatuses s p r = [] := by
  rw [earlyStatuses, h1, h2, h3]
  rfl

theorem lateStatuses_none (h1 : geBadArrays r gr = false) (h2 : geBadDescriptor r gr = false) : lateStatuses r gr = [] := by
  rw [lateStatuses, h1, h2]
  rfl

variable (hr : r = geReqOf (maskNodes s p g.addr (data.take 64)) g.step)
include hr

theorem geServe_early (h : earlyStatuses s p r = [c]) :
    geServe s d p g data = geFinish (geWrite s p g.op [(r.dst, geHeader c 0 0 0 0)]) d p := by
  subst hr
  unfold earlyStatuses at h
  unfold geServe
  dsimp only
  rw [h, if_pos (List.cons_ne_nil c []), geStatus_one]

variable (he : s.ecc = []) (hg : gr = graphOf (memRead s r.graph 64)) (hearly : earlyStatuses s p r = [])
include he hg hearly

theorem geServe_late (h : lateStatuses r gr = [c]) :
    geServe s d p g data = geFinish (geWrite (rootRead s r.graph 64).1 p g.op [(r.dst, geHeader c 0 0 0 0)]) d p := by
  subst hr hg
  unfold earlyStatuses at hearly
  unfold lateStatuses at h
  unfold geServe
  dsimp only
  rw [hearly, if_neg (fun hne => hne rfl), rootRead_intact he, if_neg Bool.false_ne_true, rootRead_data, h, if_pos (List.cons_ne_nil c []), geStatus_one]

theorem geServe_runs (h : lateStatuses r gr = []) : geServe s d p g data
    = geFinish (geRun (rootRead s r.graph 64).1 d p g.op r (payloadLanes (maskNodes s p r.seeds (data.drop 64))) gr) d p := by
  subst hr hg
  unfold earlyStatuses at hearly
  unfold lateStatuses at h
  unfold geServe
  dsimp only
  rw [hearly, if_neg (fun hne => hne rfl), rootRead_intact he, if_neg Bool.false_ne_true, rootRead_data, h, if_neg (fun hne => hne rfl)]

end

/-! ## The answer of a refused request -/

section
variable {s t : State} {d : DieId} {p : PodId} {g : GatherReq} {l : List GatherReq} {k : Token}

/-- The header of a refused request is on its way, or is dropped where it leaves the store or touches the node region. -/
theorem refused_answered (hc : Counted (closeJob s (.gather d g.op)) t) (hg : (pod s p).gathers = g :: l)
    (hk : (outQ (pod s p) g.queue).tokens = [k]) (hop : k.op = g.op) (dst c : Nat) {u : State}
    (hu : u = geFinish (geWrite t p g.op [(dst, geHeader c 0 0 0 0)]) d p) : Served s u d p l ∧ netJob u (.gather d g.op) = none
      ∧ DataArrives s u p g.queue k (if dst + 64 ≤ podSize ∧ touchesNodes s p dst 64 = false then
          [(dst, leBytes 2 c ++ List.replicate 62 0)] else []) := by
  have hregs : t.regs = s.regs := hc.regs
  have hsize : ceilTo 8 (geHeader c 0 0 0 0).length = 64 := by rw [geHeader_length]; rfl
  have hfits : PartFits t p (dst, geHeader c 0 0 0 0) ↔ dst + 64 ≤ podSize ∧ touchesNodes s p dst 64 = false := by
    unfold PartFits
    dsimp only
    rw [hsize, touchesNodes_regs hregs]
  have hwrite : geWrite t p g.op [(dst, geHeader c 0 0 0 0)] = arriveData t p g.op
      (arriving (if dst + 64 ≤ podSize ∧ touchesNodes s p dst 64 = false then [(dst, leBytes 2 c ++ List.replicate 62 0)] else [])) := by
    split
    next h => rw [geWrite_fits g.op (fun e he => List.mem_singleton.1 he ▸ hfits.2 h), geHeader_status]
    next h => exact geWrite_drops g.op (fun hf => h (hfits.1 hf))
  rw [hu, hwrite]
  exact geFinish_served hc hg hk hop rfl (reg64_regs hregs _)

end

/-- A request that breaks one rule is answered with a header of that status (R120, R123, R124, R127). -/
theorem geRequestServe_refused {d : DieId} {p : PodId} {g : GatherReq} {l : List GatherReq} {j : NetJob} {r : GeReq} {gr : Graph} {k : Token} {c : Nat}
    {s : State} (he : s.ecc = []) (hn : geNextPod s d = some p) (hg : (pod s p).gathers = g :: l) (hready : geReady s d p g = true)
    (hj : netJob s (.gather d g.op) = some j) (hd : netDone s j = true) (hr : r = geReqOf (maskNodes s p g.addr (j.data.take 64)) g.step)
    (hgr : gr = graphOf (memRead s r.graph 64)) (hk : (outQ (pod s p) g.queue).tokens = [k]) (hop : k.op = g.op)
    (h : earlyStatuses s p r = [c] ∨ (earlyStatuses s p r = [] ∧ lateStatuses r gr = [c])) :
    ∃ t : State, exec (.geRequestServe d) s = .next t ∧ Served s t d p l ∧ netJob t (.gather d g.op) = none
      ∧ DataArrives s t p g.queue k (if r.dst + 64 ≤ podSize ∧ touchesNodes s p r.dst 64 = false then
          [(r.dst, leBytes 2 c ++ List.replicate 62 0)] else []) := by
  refine ⟨_, geRequestServe_serves hn hg hready hj hd, ?_⟩
  have hmem : memRead s r.graph 64 = memRead (closeJob s (.gather d g.op)) r.graph 64 := (memRead_of_mem rfl _ _).symm
  rcases h with h | ⟨hearly, hlate⟩
  · exact refused_answered (Counted.refl _) hg hk hop r.dst c (geServe_early (s := closeJob s (.gather d g.op)) hr h)
  · exact refused_answered (rootRead_counted (s := closeJob s (.gather d g.op)) he r.graph 64) hg hk hop r.dst c
      (geServe_late (s := closeJob s (.gather d g.op)) hr he (hmem ▸ hgr) hearly hlate)

end Sys2Proof.Machine
end

section
/-! The sampling of one seed (R122): distinct candidates in the order of their keys, the first K of them. -/

namespace Sys2Proof.Machine

open Sys2Proof.Claims (Before SlotOf)

/-! ## Sorting -/

section
variable {α : Type} {le : α → α → Bool} (htrans : ∀ a b c, le a b = true → le b c = true → le a c = true) (htotal : ∀ a b, le a b = false → le b a = true)
include htrans htotal

theorem pairwise_insertBy (a : α) {l : List α} (h : l.Pairwise (fun x y => le x y = true)) : (insertBy le a l).Pairwise (fun x y => le x y = true) := by
  induction l with
  | nil => exact List.pairwise_singleton _ _
  | cons b l ih =>
    obtain ⟨hb, hl⟩ := List.pairwise_cons.1 h
    unfold insertBy
    split
    next hba =>
      refine List.pairwise_cons.2 ⟨fun x hx => ?_, ih hl⟩
      rcases List.mem_cons.1 ((insertBy_perm le a l).mem_iff.1 hx) with rfl | hx
      · exact hba
      · exact hb x hx
    next hba =>
      have hab := htotal b a (Bool.eq_false_iff.2 hba)
      refine List.pairwise_cons.2 ⟨fun x hx => ?_, h⟩
      rcases List.mem_cons.1 hx with rfl | hx
      · exact hab
      · exact htrans a b x hab (hb x hx)

theorem pairwise_sortBy (l : List α) : (sortBy le l).Pairwise (fun x y => le x y = true) := by
  have hfold (acc : List α) (h : acc.Pairwise (fun x y => le x y = true)) :
      (l.foldl (fun acc a => insertBy le a acc) acc).Pairwise (fun x y => le x y = true) := by
    induction l generalizing acc with
    | nil => exact h
    | cons a l ih => exact ih _ (pairwise_insertBy htrans htotal a h)
  exact hfold [] List.Pairwise.nil

end

/-! ## Distinct candidates -/

theorem mem_distinct {a : Nat} {l : List Nat} : a ∈ distinct l ↔ a ∈ l := by
  induction l with
  | nil => exact Iff.rfl
  | cons b l ih =>
    unfold distinct
    split
    next hb =>
      rw [ih, List.mem_cons]
      exact ⟨Or.inr, fun h => h.elim (fun hab => hab ▸ List.contains_iff_mem.1 hb) id⟩
    next hb => rw [List.mem_cons, List.mem_cons, ih]

theorem nodup_distinct (l : List Nat) : (distinct l).Nodup := by
  induction l with
  | nil => exact List.nodup_nil
  | cons b l ih =>
    unfold distinct
    split
    next hb => exact ih
    next hb => exact List.nodup_cons.2 ⟨fun h => hb (List.contains_iff_mem.2 (mem_distinct.1 h)), ih⟩

/-! ## The first K in the order of keys -/

/-- The order of R122 on candidates with their keys. -/
def keyThenNumber (a b : Nat × Nat) : Bool := decide (a.1 < b.1) || (a.1 = b.1 && decide (a.2 ≤ b.2))

theorem keyThenNumber_iff (a b : Nat × Nat) : keyThenNumber a b = true ↔ a.1 < b.1 ∨ (a.1 = b.1 ∧ a.2 ≤ b.2) := by
  simp [keyThenNumber]

theorem keyThenNumber_trans (a b c : Nat × Nat) (h : keyThenNumber a b = true) (g : keyThenNumber b c = true) : keyThenNumber a c = true := by
  rw [keyThenNumber_iff] at *
  omega

theorem keyThenNumber_total (a b : Nat × Nat) (h : keyThenNumber a b = false) : keyThenNumber b a = true := by
  rw [← Bool.not_eq_true, keyThenNumber_iff] at h
  rw [keyThenNumber_iff]
  omega

section
variable (seed : Word64) (r : GeReq) (v : Nat)

/-- The key of a candidate. -/
def geKey (n : Nat) : Nat :=
  (mix64 (ctrDraw seed r.step (BitVec.ofNat 64 (2 ^ 63 + r.draw)) ^^^ BitVec.ofNat 64 (v * 2 ^ 32 + n))).toNat

theorem before_iff (a b : Nat) : Before seed r v a b ↔ geKey seed r v a < geKey seed r v b ∨ (geKey seed r v a = geKey seed r v b ∧ a < b) := Iff.rfl

/-- All candidates in their order. -/
def geOrdered (cands : List Nat) : List Nat := (sortBy keyThenNumber (cands.map (fun n => (geKey seed r v n, n)))).map (·.2)

theorem geChoose_eq (cands : List Nat) : geChoose seed r v cands = (geOrdered seed r v cands).take r.k := List.map_take

theorem geOrdered_perm (cands : List Nat) : (geOrdered seed r v cands).Perm cands := by
  have hback : (cands.map (fun n => (geKey seed r v n, n))).map (·.2) = cands := by
    rw [List.map_map]
    exact List.map_id cands
  have hperm := (sortBy_perm keyThenNumber (cands.map (fun n => (geKey seed r v n, n)))).map (·.2)
  rwa [hback] at hperm

theorem geOrdered_before {cands : List Nat} (h : cands.Nodup) : (geOrdered seed r v cands).Pairwise (Before seed r v) := by
  have hnodup : ((geOrdered seed r v cands).Pairwise (· ≠ ·)) := (geOrdered_perm seed r v cands).nodup_iff.2 h
  have hsorted := pairwise_sortBy keyThenNumber_trans keyThenNumber_total (cands.map (fun n => (geKey seed r v n, n)))
  have hkey : ∀ x ∈ sortBy keyThenNumber (cands.map (fun n => (geKey seed r v n, n))), x.1 = geKey seed r v x.2 := by
    intro x hx
    obtain ⟨n, _, rfl⟩ := List.mem_map.1 ((sortBy_perm ..).mem_iff.1 hx)
    rfl
  unfold geOrdered at *
  rw [List.pairwise_map] at *
  refine (hsorted.and hnodup).imp_of_mem fun {a b} ha hb ⟨hle, hne⟩ => ?_
  rw [keyThenNumber_iff, hkey a ha, hkey b hb] at hle
  rw [before_iff]
  omega

/-- What stands among the first K comes before what is left out, of which there is something only where K have been taken. -/
theorem geChoose_left {cands : List Nat} (h : cands.Nodup) {n : Nat} (hn : n ∈ cands) (hout : n ∉ geChoose seed r v cands) :
    (geChoose seed r v cands).length = r.k ∧ ∀ m ∈ geChoose seed r v cands, Before seed r v m n := by
  rw [geChoose_eq] at *
  have hsplit := List.take_append_drop r.k (geOrdered seed r v cands)
  have hdrop : n ∈ (geOrdered seed r v cands).drop r.k := by
    have hall := (geOrdered_perm seed r v cands).mem_iff.2 hn
    rw [← hsplit, List.mem_append] at hall
    exact hall.resolve_left hout
  have hordered := geOrdered_before seed r v h
  rw [← hsplit] at hordered
  refine ⟨?_, fun m hm => (List.pairwise_append.1 hordered).2.2 m hm n hdrop⟩
  have hlen := List.length_pos_of_mem hdrop
  rw [List.length_drop] at hlen
  rw [List.length_take]
  omega

theorem geChoose_length (cands : List Nat) : (geChoose seed r v cands).length ≤ r.k := by
  rw [geChoose_eq]
  exact List.length_take_le ..

theorem geChoose_before {cands : List Nat} (h : cands.Nodup) : (geChoose seed r v cands).Pairwise (Before seed r v) := by
  rw [geChoose_eq]
  exact (geOrdered_before seed r v h).sublist (List.take_sublist ..)

theorem mem_of_mem_geChoose {cands : List Nat} {n : Nat} (h : n ∈ geChoose seed r v cands) : n ∈ cands := by
  rw [geChoose_eq] at h
  exact (geOrdered_perm seed r v cands).mem_iff.1 (List.mem_of_mem_take h)

end

/-! ## One slot -/

section
variable {s t : State} (seed : Word64) (r : GeReq) (g : Graph) (v : Nat)

theorem memNum_of_mem (h : t.mem = s.mem) (a n : Nat) : memNum t a n = memNum s a n := congrArg leNat (memRead_of_mem h a n)

theorem numAt_memRead (s : State) (a : Nat) {k n m : Nat} (h : k + n ≤ m) : numAt (memRead s a m) k n = memNum s (a + k) n :=
  congrArg leNat (sliceB_memRead s a h)

theorem payloadLanes_getElem? (b : List Byte) {i : Nat} (h : i < b.length / 4) : (payloadLanes b)[i]? = some (numAt b (4 * i) 4) := by
  have hlen : i < (chunksB 4 (b.length / 4) b).length := by
    rw [← List.length_map (f := leNat)]
    exact h.trans_eq (payloadLanes_length b).symm
  have hchunk := chunksB_getD 4 b h
  rw [List.getD_eq_getElem _ _ hlen] at hchunk
  unfold payloadLanes numAt
  rw [List.getElem?_map, List.getElem?_eq_getElem hlen, hchunk]
  rfl

/-- The words of memory that lanes read. -/
theorem payloadLanes_memRead (s : State) (a n : Nat) : payloadLanes (memRead s a (4 * n)) = (upTo n).map (fun i => memNum s (a + 4 * i) 4) := by
  have hwords : (memRead s a (4 * n)).length / 4 = n := by rw [memRead_length]; omega
  refine List.ext_getElem? fun i => ?_
  by_cases h : i < n
  · rw [payloadLanes_getElem? _ (by rw [hwords]; exact h), numAt_memRead s a (by omega), upTo, List.getElem?_map, List.getElem?_range h]
    rfl
  · rw [List.getElem?_eq_none (by rw [payloadLanes_length, hwords]; omega),
      List.getElem?_eq_none (by rw [List.length_map, upTo, List.length_range]; omega)]

/-- The entries of a row from `lo` to `hi`. -/
def rowEntries (s : State) (g : Graph) (lo hi : Nat) : List Nat := (upTo (hi - lo)).map (fun i => memNum s (g.colidx + 4 * lo + 4 * i) 4)

theorem mem_rowEntries {lo hi n : Nat} : n ∈ rowEntries s g lo hi ↔ ∃ e, lo ≤ e ∧ e < hi ∧ memNum s (g.colidx + 4 * e) 4 = n := by
  unfold rowEntries upTo
  rw [List.mem_map]
  constructor
  · rintro ⟨i, hi, rfl⟩
    exact ⟨lo + i, by omega, by have := List.mem_range.1 hi; omega, by rw [Nat.mul_add, Nat.add_assoc]⟩
  · rintro ⟨e, hlo, hhi, rfl⟩
    exact ⟨e - lo, List.mem_range.2 (by omega), by rw [Nat.add_assoc, ← Nat.mul_add, Nat.add_sub_cancel' hlo]⟩

/-- What a row gives: its distinct candidates, the first K of them, its entries, and whether one names no node. -/
def rowSlot (s : State) (lo hi : Nat) : GeSlot :=
  ⟨false, false, (rowEntries s g lo hi).any (fun n => decide (g.nodes ≤ n)),
    geChoose seed r v (distinct ((rowEntries s g lo hi).filter (fun n => decide (n < g.nodes)))), hi - lo, none⟩

/-- What a seed gives in Root memory without error marks. -/
def seedSlot (s : State) : GeSlot :=
  let lo := memNum s (g.rowptr + 8 * v) 8
  let hi := memNum s (g.rowptr + 8 * v + 8) 8
  if g.nodes ≤ v then ⟨true, false, false, [], 0, none⟩
  else if hi < lo ∨ g.edges < hi then ⟨false, true, false, [], 0, none⟩ else rowSlot seed r g v s lo hi

theorem seedSlot_of_mem (h : t.mem = s.mem) : seedSlot seed r g v t = seedSlot seed r g v s := by
  have hnum : memNum t = memNum s := funext fun a => funext fun n => memNum_of_mem h a n
  unfold seedSlot rowSlot rowEntries
  rw [hnum]

theorem seedSlot_of_range (h : g.nodes ≤ v) : seedSlot seed r g v s = ⟨true, false, false, [], 0, none⟩ := if_pos h

theorem seedSlot_malformed (h : v < g.nodes) {lo hi : Nat} (hlo : lo = memNum s (g.rowptr + 8 * v) 8) (hhi : hi = memNum s (g.rowptr + 8 * v + 8) 8)
    (hbad : hi < lo ∨ g.edges < hi) : seedSlot seed r g v s = ⟨false, true, false, [], 0, none⟩ := by
  rw [hlo, hhi] at hbad
  exact (if_neg (Nat.not_le.2 h)).trans (if_pos hbad)

theorem seedSlot_row (h : v < g.nodes) {lo hi : Nat} (hlo : lo = memNum s (g.rowptr + 8 * v) 8) (hhi : hi = memNum s (g.rowptr + 8 * v + 8) 8)
    (hgood : ¬ (hi < lo ∨ g.edges < hi)) : seedSlot seed r g v s = rowSlot seed r g v s lo hi := by
  rw [hlo, hhi] at hgood ⊢
  exact (if_neg (Nat.not_le.2 h)).trans (if_neg hgood)

theorem geSlot_clean (h : s.ecc = []) : (geSlot s seed r g v).2 = seedSlot seed r g v s ∧ Counted s (geSlot s seed r g v).1 := by
  have hptr := rootRead_counted h (g.rowptr + 8 * v) 16
  have hlo : numAt (rootRead s (g.rowptr + 8 * v) 16).2.1 0 8 = memNum s (g.rowptr + 8 * v) 8 := by
    rw [rootRead_data, numAt_memRead s _ (by omega)]
    rfl
  have hhi : numAt (rootRead s (g.rowptr + 8 * v) 16).2.1 8 8 = memNum s (g.rowptr + 8 * v + 8) 8 := by
    rw [rootRead_data, numAt_memRead s _ (by omega)]
  unfold geSlot
  dsimp only
  rw [hlo, hhi, rootUe_clean h]
  by_cases hv : g.nodes ≤ v
  · rw [if_pos hv, seedSlot_of_range seed r g v hv]
    exact ⟨rfl, Counted.refl s⟩
  rw [if_neg hv]
  by_cases hbad : memNum s (g.rowptr + 8 * v + 8) 8 < memNum s (g.rowptr + 8 * v) 8 ∨ g.edges < memNum s (g.rowptr + 8 * v + 8) 8
  · rw [if_pos hbad, seedSlot_malformed seed r g v (Nat.lt_of_not_le hv) rfl rfl hbad]
    exact ⟨rfl, hptr⟩
  · rw [if_neg hbad, seedSlot_row seed r g v (Nat.lt_of_not_le hv) rfl rfl hbad, rootUe_clean h, rootRead_data, memRead_of_mem hptr.mem,
      payloadLanes_memRead]
    exact ⟨rfl, hptr.trans (rootRead_counted (hptr.ecc.trans h) _ _)⟩

theorem seedSlot_slotOf : SlotOf s seed r g v (seedSlot seed r g v s) := by
  intro lo hi entry hlo hhi hentry
  by_cases hv : g.nodes ≤ v
  · rw [seedSlot_of_range seed r g v hv]
    simp [hv]
  by_cases hbad : hi < lo ∨ g.edges < hi
  · rw [seedSlot_malformed seed r g v (by omega) hlo hhi hbad]
    simp [hv, hbad, Nat.lt_of_not_le hv]
  rw [seedSlot_row seed r g v (by omega) hlo hhi hbad]
  have hcands (n : Nat) : n ∈ distinct ((rowEntries s g lo hi).filter (fun n => decide (n < g.nodes)))
      ↔ n < g.nodes ∧ ∃ e, lo ≤ e ∧ e < hi ∧ entry e = n := by
    simp only [mem_distinct, List.mem_filter, mem_rowEntries, hentry, decide_eq_true_eq]
    exact And.comm
  refine ⟨rfl, by simp [rowSlot, hv], by simp [rowSlot, hbad], fun h => by simp [rowSlot] at h,
    fun _ _ => ⟨rfl, ?_, ?_, ?_, fun n hn => ?_, fun e hle hlt hnode hout => ?_⟩⟩
  · simp only [rowSlot, List.any_eq_true, mem_rowEntries, decide_eq_true_eq, hentry]
    exact ⟨fun ⟨_, ⟨e, h1, h2, he⟩, hn⟩ => ⟨e, h1, h2, he ▸ hn⟩, fun ⟨e, h1, h2, hn⟩ => ⟨_, ⟨e, h1, h2, rfl⟩, hn⟩⟩
  · exact geChoose_length ..
  · exact geChoose_before seed r v (nodup_distinct _)
  · exact (hcands n).1 (mem_of_mem_geChoose seed r v hn)
  · exact geChoose_left seed r v (nodup_distinct _) ((hcands _).2 ⟨hnode, e, hle, hlt, rfl⟩) hout

/-- No slot chooses more than K. -/
theorem seedSlot_chosen : (seedSlot seed r g v s).chosen.length ≤ r.k := by
  unfold seedSlot
  dsimp only
  split
  · exact Nat.zero_le _
  split
  · exact Nat.zero_le _
  · exact geChoose_length ..

theorem seedSlot_ue : (seedSlot seed r g v s).ue = none := by
  unfold seedSlot
  dsimp only
  split
  · rfl
  split <;> rfl

/-- Every slot in turn. -/
theorem geSlots_clean (h : s.ecc = []) (l : List Nat) : (geSlots seed r g s l).2 = l.map (fun v => seedSlot seed r g v s)
    ∧ Counted s (geSlots seed r g s l).1 := by
  have hfrom (l : List Nat) (t : State) (hc : Counted s t) :
      (geSlots seed r g t l).2 = l.map (fun v => seedSlot seed r g v s) ∧ Counted s (geSlots seed r g t l).1 := by
    induction l generalizing t with
    | nil => exact ⟨rfl, hc⟩
    | cons v l ih =>
      obtain ⟨hslot, hcount⟩ := geSlot_clean seed r g v (hc.ecc.trans h)
      obtain ⟨hslots, hrest⟩ := ih _ (hc.trans hcount)
      rw [geSlots, List.map_cons, ← hslots, ← seedSlot_of_mem seed r g v hc.mem, ← hslot]
      exact ⟨rfl, hrest⟩
  exact hfrom l s (Counted.refl s)

end

end Sys2Proof.Machine
end

section
/-! The unique list and the index rows of a gather (R123). -/

namespace Sys2Proof.Machine

/-! ## One slot's neighbours -/

theorem indexOf?_some {n : Nat} {u : List Nat} {i j : Nat} (h : indexOf? n u i = some j) : i ≤ j ∧ u[j - i]? = some n := by
  induction u generalizing i with
  | nil => exact absurd h nofun
  | cons a u ih =>
    unfold indexOf? at h
    split at h
    next ha =>
      obtain rfl := Option.some.inj h
      exact ⟨Nat.le_refl _, by rw [Nat.sub_self, ha]; rfl⟩
    next ha =>
      obtain ⟨hle, hget⟩ := ih h
      have hstep : j - i = j - (i + 1) + 1 := by omega
      exact ⟨by omega, by rw [hstep, List.getElem?_cons_succ, hget]⟩

theorem indexOf?_none {n : Nat} {u : List Nat} {i : Nat} (h : indexOf? n u i = none) : n ∉ u := by
  induction u generalizing i with
  | nil => exact List.not_mem_nil
  | cons a u ih =>
    unfold indexOf? at h
    split at h
    next ha => exact absurd h nofun
    next ha => exact fun hn => (List.mem_cons.1 hn).elim (fun e => ha e.symm) (ih h)

/-- The list `u'` takes the numbers `l` in after `u`, and the positions `index` name them there. -/
structure Listed (dedup : Bool) (u l u' index : List Nat) : Prop where
  length : index.length = l.length
  kept : u <+: u'
  named : ∀ m, m < l.length → u'[index.getD m 0]? = l[m]?
  all : dedup = false → u' = u ++ l
  nodup : dedup = true → u.Nodup → u'.Nodup
  bound : u'.length ≤ u.length + l.length

section
variable {dedup : Bool} {u l u' index : List Nat} {n : Nat}

theorem getElem?_of_prefix {a b : List Nat} (h : a <+: b) {i x : Nat} (hi : a[i]? = some x) : b[i]? = some x := by
  obtain ⟨c, rfl⟩ := h
  rw [List.getElem?_append_left (List.getElem?_eq_some_iff.1 hi).1, hi]

/-- A number the list holds is named where it stands. -/
theorem Listed.known {i : Nat} (h : Listed true u l u' index) (hi : u[i]? = some n) : Listed true u (n :: l) u' (i :: index) where
  length := congrArg (· + 1) h.length
  kept := h.kept
  named := fun m hm => by
    cases m with
    | zero => exact getElem?_of_prefix h.kept hi
    | succ m => exact h.named m (Nat.lt_of_succ_lt_succ hm)
  all := nofun
  nodup := h.nodup
  bound := h.bound.trans (by rw [List.length_cons]; omega)

/-- A number taken in is named at the end of the list. -/
theorem Listed.new (h : Listed dedup (u ++ [n]) l u' index) (hnew : dedup = true → n ∉ u) : Listed dedup u (n :: l) u' (u.length :: index) where
  length := congrArg (· + 1) h.length
  kept := (List.prefix_append u [n]).trans h.kept
  named := fun m hm => by
    cases m with
    | zero => exact getElem?_of_prefix h.kept List.getElem?_concat_length
    | succ m => exact h.named m (Nat.lt_of_succ_lt_succ hm)
  all := fun hd => by rw [h.all hd, List.append_assoc]; rfl
  nodup := fun hd hu => h.nodup hd (List.nodup_append.2 ⟨hu, List.nodup_singleton n,
    fun a ha b hb e => hnew hd (List.mem_singleton.1 hb ▸ e ▸ ha)⟩)
  bound := h.bound.trans (by rw [List.length_append, List.length_cons, List.length_nil, List.length_cons]; omega)

theorem geUnique_listed (dedup : Bool) (l u : List Nat) : Listed dedup u l (geUnique dedup u l).1 (geUnique dedup u l).2 := by
  induction l generalizing u with
  | nil => exact ⟨rfl, List.prefix_refl u, fun m hm => absurd hm (Nat.not_lt_zero m),
      fun _ => (List.append_nil u).symm, fun _ hu => hu, Nat.le_refl _⟩
  | cons n l ih =>
    unfold geUnique
    cases dedup with
    | false => exact (ih (u ++ [n])).new nofun
    | true =>
      dsimp only
      rw [if_pos rfl]
      cases hn : indexOf? n u 0 with
      | none => exact (ih (u ++ [n])).new (fun _ => indexOf?_none hn)
      | some i => exact (ih u).known (indexOf?_some hn).2

end

/-! ## The rows of all slots -/

/-- The list `u'` takes the neighbours of the slots in after `u`, and the index holds a row of `k` entries for each slot: the positions of its
neighbours, then 0xFFFF. -/
structure Indexed (dedup : Bool) (k : Nat) (u : List Nat) (slots : List GeSlot) (u' index : List Nat) : Prop where
  length : index.length = slots.length * k
  kept : u <+: u'
  row : ∀ i y, slots[i]? = some y → ∀ m, m < k → index[i * k + m]? = some (if m < y.chosen.length then index.getD (i * k + m) 0 else 0xFFFF)
    ∧ (m < y.chosen.length → u'[index.getD (i * k + m) 0]? = y.chosen[m]?)
  all : dedup = false → u' = u ++ slots.flatMap (·.chosen)
  nodup : dedup = true → u.Nodup → u'.Nodup
  bound : u'.length ≤ u.length + slots.length * k

section
variable {dedup : Bool} {k : Nat} {u v u' row index : List Nat} {y : GeSlot} {slots : List GeSlot}

/-- A row filled up to `k` entries. -/
def filledRow (k : Nat) (row : List Nat) : List Nat := row ++ List.replicate (k - row.length) 0xFFFF

theorem filledRow_length (h : row.length ≤ k) : (filledRow k row).length = k := by
  rw [filledRow, List.length_append, List.length_replicate]
  omega

theorem filledRow_getElem? {m : Nat} (hm : m < k) : (filledRow k row)[m]? = some (if m < row.length then (filledRow k row).getD m 0 else 0xFFFF) := by
  unfold filledRow
  split
  next h =>
    have hlt : m < (row ++ List.replicate (k - row.length) 0xFFFF).length := by rw [List.length_append]; omega
    rw [List.getElem?_eq_getElem hlt, List.getD_eq_getElem _ _ hlt]
  next h => rw [List.getElem?_append_right (by omega), List.getElem?_replicate, if_pos (by omega)]

theorem filledRow_getD {m : Nat} (hm : m < row.length) : (filledRow k row).getD m 0 = row.getD m 0 := by
  unfold filledRow
  rw [List.getD_eq_getElem?_getD, List.getElem?_append_left hm, List.getD_eq_getElem?_getD]

/-- A slot in front of the others. -/
theorem Indexed.cons (hk : y.chosen.length ≤ k) (hy : Listed dedup u y.chosen v row) (h : Indexed dedup k v slots u' index) :
    Indexed dedup k u (y :: slots) u' (filledRow k row ++ index) where
  length := by
    rw [List.length_append, filledRow_length (hy.length.trans_le hk), h.length, List.length_cons, Nat.succ_mul, Nat.add_comm]
  kept := hy.kept.trans h.kept
  row := fun i x hx m hm => by
    have hrow := filledRow_length (hy.length.trans_le hk)
    cases i with
    | zero =>
      obtain rfl := Option.some.inj hx
      have hm' : m < (filledRow k row).length := by rwa [hrow]
      rw [Nat.zero_mul, Nat.zero_add, List.getD_eq_getElem?_getD, List.getElem?_append_left hm', ← List.getD_eq_getElem?_getD, ← hy.length]
      refine ⟨filledRow_getElem? hm, fun hin => ?_⟩
      have hchosen : m < y.chosen.length := hy.length ▸ hin
      have hthere : v[row.getD m 0]? = some y.chosen[m] := (hy.named m hchosen).trans (List.getElem?_eq_getElem hchosen)
      rw [filledRow_getD hin, getElem?_of_prefix h.kept hthere, List.getElem?_eq_getElem hchosen]
    | succ i =>
      have hplace : (i + 1) * k + m = (filledRow k row).length + (i * k + m) := by rw [hrow, Nat.succ_mul]; omega
      have hskip : (filledRow k row ++ index)[(i + 1) * k + m]? = index[i * k + m]? := by
        rw [hplace, List.getElem?_append_right (Nat.le_add_right _ _), Nat.add_sub_cancel_left]
      rw [List.getD_eq_getElem?_getD, hskip, ← List.getD_eq_getElem?_getD]
      exact h.row i x hx m hm
  all := fun hd => by rw [h.all hd, hy.all hd, List.flatMap_cons, List.append_assoc]
  nodup := fun hd hu => h.nodup hd (hy.nodup hd hu)
  bound := by
    have hv := hy.bound
    have hu := h.bound
    rw [List.length_cons, Nat.succ_mul]
    omega

theorem geIndex_indexed (dedup : Bool) {k : Nat} {slots : List GeSlot} (h : ∀ y ∈ slots, y.chosen.length ≤ k) (u : List Nat) :
    Indexed dedup k u slots (geIndex dedup k u slots).1 (geIndex dedup k u slots).2 := by
  induction slots generalizing u with
  | nil =>
    exact ⟨(Nat.zero_mul k).symm, List.prefix_refl u, fun i y hy => absurd hy nofun,
      fun _ => (List.append_nil u).symm, fun _ hu => hu, Nat.le_add_right _ _⟩
  | cons y slots ih =>
    exact Indexed.cons (h y List.mem_cons_self) (geUnique_listed dedup y.chosen u) (ih (fun x hx => h x (List.mem_cons_of_mem _ hx)) _)

end

end Sys2Proof.Machine
end

section
/-! A well-formed gather request (R120, R122, R123, R125): its feature rows, the place of its output, and its service. -/

namespace Sys2Proof.Machine

open Sys2Proof.Claims (DataArrives Served SlotOf gatherParts seedsOf)

/-! ## Feature rows -/

/-- The bytes of one feature row, read or zero-filled. -/
def rowBytesOf (s : State) (r : GeReq) (g : Graph) (e : Nat × Bool) : List Byte :=
  if e.2 then memRead s (g.feat + e.1 * g.stride + r.featOffset) r.featBytes else List.replicate r.featBytes 0

theorem rowBytesOf_length (s : State) (r : GeReq) (g : Graph) (e : Nat × Bool) : (rowBytesOf s r g e).length = r.featBytes := by
  unfold rowBytesOf
  split
  · exact memRead_length ..
  · exact List.length_replicate

theorem geRows_clean (r : GeReq) (g : Graph) {s t : State} (h : s.ecc = []) (hc : Counted s t) (l : List (Nat × Bool)) :
    (geRows r g t l).2.1 = l.flatMap (rowBytesOf s r g) ∧ (geRows r g t l).2.2 = none ∧ Counted s (geRows r g t l).1 := by
  induction l generalizing t with
  | nil => exact ⟨rfl, rfl, hc⟩
  | cons e l ih =>
    obtain ⟨v, read⟩ := e
    cases read with
    | false =>
      obtain ⟨hdata, hue, hcount⟩ := ih hc
      exact ⟨congrArg (List.replicate r.featBytes 0 ++ ·) hdata, hue, hcount⟩
    | true =>
      have hclean := hc.ecc.trans h
      obtain ⟨hdata, hue, hcount⟩ := ih (hc.trans (rootRead_counted hclean (g.feat + v * g.stride + r.featOffset) r.featBytes))
      unfold geRows
      rw [if_pos rfl]
      dsimp only
      rw [hdata, hue, rootUe_clean hclean, rootRead_data, memRead_of_mem hc.mem]
      exact ⟨rfl, rfl, hcount⟩

/-- A slot without errors or neighbours. -/
def noSlot : GeSlot := ⟨false, false, false, [], 0, none⟩

/-- Each listed node with whether its row is read: that of a seed without its own row is not. -/
def rowFlagsOf (start : List Nat) (slots : List GeSlot) (unique : List Nat) : List (Nat × Bool) :=
  (List.zip unique (upTo unique.length)).map (fun e =>
    (e.1, if e.2 < start.length then !((slots.getD e.2 noSlot).seedRange || (slots.getD e.2 noSlot).malformed) else true))

/-- The list that the neighbours are taken into. -/
def geStart (r : GeReq) (seeds : List Nat) : List Nat := if geSelf r then seeds else []

theorem geStart_nil {r : GeReq} (h : geSelf r = false) (seeds : List Nat) : geStart r seeds = [] := if_neg (Bool.eq_false_iff.1 h)

theorem geStart_length (r : GeReq) (seeds : List Nat) : (geStart r seeds).length ≤ seeds.length := by
  unfold geStart
  split
  · exact Nat.le_refl _
  · exact Nat.zero_le _

theorem flatMap_zip_swap {α β γ : Type} (a : List α) (b : List β) (f : β × α → List γ) :
    (List.zip b a).flatMap f = (List.zip a b).flatMap (fun e => f e.swap) := by
  rw [← List.zip_swap a b, List.flatMap_map]

/-- The rows are those of the output's last part. -/
theorem rowFlagsOf_rows (s : State) (r : GeReq) (g : Graph) (seeds unique : List Nat) (slots : List GeSlot) :
    (rowFlagsOf (geStart r seeds) slots unique).flatMap (rowBytesOf s r g)
      = (List.zip (upTo unique.length) unique).flatMap (fun e => if geSelf r && decide (e.1 < seeds.length)
          && (slots[e.1]?).any (fun y => y.seedRange || y.malformed) then List.replicate r.featBytes 0
          else memRead s (g.feat + e.2 * g.stride + r.featOffset) r.featBytes) := by
  have hslot (i : Nat) : (slots[i]?).any (fun y => y.seedRange || y.malformed) 
      = ((slots.getD i noSlot).seedRange || (slots.getD i noSlot).malformed) := by
    rw [List.getD_eq_getElem?_getD]
    cases slots[i]? <;> rfl
  unfold rowFlagsOf
  rw [flatMap_zip_swap, List.flatMap_map]
  refine List.flatMap_congr fun e _ => ?_
  have hstart : (e.2 < (geStart r seeds).length) ↔ (geSelf r && decide (e.2 < seeds.length)) = true := by
    unfold geStart
    cases geSelf r <;> simp
  rw [Prod.fst_swap, Prod.snd_swap, hslot]
  unfold rowBytesOf
  dsimp only
  by_cases h : e.2 < (geStart r seeds).length
  · rw [if_pos h, hstart.1 h, Bool.true_and]
    cases (slots.getD e.2 noSlot).seedRange || (slots.getD e.2 noSlot).malformed <;> rfl
  · rw [if_neg h, Bool.eq_false_iff.2 (fun hs => h (hstart.2 hs)), Bool.false_and]
    rfl

/-! ## The output stays within its area -/

theorem ceilTo_mono (k : Nat) {a b : Nat} (h : a ≤ b) : ceilTo k a ≤ ceilTo k b :=
  Nat.mul_le_mul_right k (Nat.div_le_div_right (by omega))

theorem ceilTo_eight_le (n : Nat) : ceilTo 8 n ≤ ceilTo 64 n := by
  unfold ceilTo
  omega

theorem ceilTo_eight_of_mod {n : Nat} (h : n % 8 = 0) : ceilTo 8 n = n := by
  unfold ceilTo
  omega

section
variable {s : State} {p : PodId} {r : GeReq} {g : Graph} {seeds index unique : List Nat} {slots : List GeSlot}

/-- A part within the largest output of a request stays within the store and outside the node region. -/
theorem partFits_of_inside (h : geBadDst s p r = false) {e : Nat × List Byte} (hlo : r.dst ≤ e.1)
    (hhi : e.1 + ceilTo 8 e.2.length ≤ r.dst + geLimit r) : PartFits s p e := by
  unfold geBadDst touchesNodes at h
  simp only [Bool.or_eq_false_iff, decide_eq_false_iff_not] at h
  obtain ⟨⟨⟨hlimit, _⟩, hend⟩, hnodes⟩ := h
  refine ⟨by unfold podSize; omega, ?_⟩
  unfold touchesNodes
  simp only [Bool.and_eq_false_iff, decide_eq_false_iff_not] at hnodes ⊢
  rcases hnodes with (hoff | hbelow) | habove
  · exact Or.inl (Or.inl hoff)
  · exact Or.inl (Or.inr (by omega))
  · exact Or.inr (by omega)

theorem PartFits.of_regs {t : State} {e : Nat × List Byte} (h : PartFits s p e) (hr : t.regs = s.regs) : PartFits t p e :=
  ⟨h.1, (touchesNodes_regs hr ..).trans h.2⟩

theorem featBytes_of_request (h : geBadRequest r = false) : r.featBytes % 64 = 0 := by
  unfold geBadRequest at h
  simp only [Bool.or_eq_false_iff, decide_eq_false_iff_not, Decidable.not_not] at h
  exact h.1.1.1.2

theorem gatherRows_length (s : State) (r : GeReq) (g : Graph) (seeds unique : List Nat) (slots : List GeSlot) :
    ((List.zip (upTo unique.length) unique).flatMap (fun e => if geSelf r && decide (e.1 < seeds.length)
          && (slots[e.1]?).any (fun y => y.seedRange || y.malformed) then List.replicate r.featBytes 0
          else memRead s (g.feat + e.2 * g.stride + r.featOffset) r.featBytes)).length = unique.length * r.featBytes := by
  rw [← rowFlagsOf_rows, length_flatMap_const (rowBytesOf_length s r g), Nat.mul_comm]
  unfold rowFlagsOf upTo
  rw [List.length_map, List.length_zip, List.length_range, Nat.min_self]

/-- Every part of the output of a well-formed request fits. -/
theorem gatherParts_fit (h : geBadDst s p r = false) (hfeat : r.featBytes % 64 = 0) (hindex : index.length = r.count * r.k)
    (hunique : unique.length ≤ r.count * (r.k + 1)) : ∀ e ∈ gatherParts s r g seeds slots index unique, PartFits s p e := by
  have hindexEnd : ceilTo 8 (2 * index.length) ≤ ceilTo 64 (2 * r.count * r.k) := by
    rw [hindex, ← Nat.mul_assoc]
    exact ceilTo_eight_le _
  have hlistEnd := ceilTo_eight_le (4 * unique.length)
  have hlist : ceilTo 64 (4 * unique.length) ≤ ceilTo 64 (4 * (r.count * (r.k + 1))) := ceilTo_mono 64 (Nat.mul_le_mul_left 4 hunique)
  have hrows : ceilTo 8 (unique.length * r.featBytes) ≤ r.count * (r.k + 1) * r.featBytes := by
    rw [ceilTo_eight_of_mod (by rw [Nat.mul_mod, (by omega : r.featBytes % 8 = 0), Nat.mul_zero, Nat.zero_mod])]
    exact Nat.mul_le_mul_right _ hunique
  have hheader : ceilTo 8 64 = 64 := rfl
  have hlimit : geLimit r = 64 + ceilTo 64 (2 * r.count * r.k) + ceilTo 64 (4 * (r.count * (r.k + 1)))
      + (if geFetch r then r.count * (r.k + 1) * r.featBytes else 0) := rfl
  intro e he
  unfold gatherParts at he
  dsimp only at he
  rw [List.mem_append] at he
  rcases he with he | he
  · simp only [List.mem_cons, List.not_mem_nil, or_false] at he
    rcases he with rfl | rfl | rfl
    · refine partFits_of_inside h (Nat.le_refl _) ?_
      rw [geHeader_length, hheader]
      omega
    · refine partFits_of_inside h (Nat.le_add_right _ _) ?_
      dsimp only
      rw [length_flatMap_const (leBytes_length 2)]
      omega
    · refine partFits_of_inside h (by dsimp only; omega) ?_
      dsimp only
      rw [length_flatMap_const (leBytes_length 4)]
      omega
  · split at he
    next hf =>
      obtain rfl := List.mem_singleton.1 he
      refine partFits_of_inside h (by dsimp only; omega) ?_
      dsimp only
      rw [gatherRows_length, hlimit, if_pos hf]
      omega
    next hf => exact absurd he List.not_mem_nil

end

/-! ## The run -/

section
variable {s : State} {d : DieId} {p : PodId} {r : GeReq} {g : Graph} {seeds : List Nat}

/-- The slots of a request in Root memory without error marks. -/
def slotsOf (s : State) (r : GeReq) (g : Graph) (seeds : List Nat) : List GeSlot := seeds.map (fun v => seedSlot (seedEntry s r.seedIndex) r g v s)

/-- Its unique list and its index rows. -/
def listedOf (s : State) (r : GeReq) (g : Graph) (seeds : List Nat) : List Nat × List Nat :=
  geIndex (geDedup r) r.k (geStart r seeds) (slotsOf s r g seeds)

/-- The engine's counters after a run. -/
def gatherCounted (s : State) (d : DieId) (r : GeReq) (scanned rows : Nat) : State :=
  if geFetch r then add64 (add64 s (rGe d.val 0x10) scanned) (rGe d.val 0x08) rows else add64 s (rGe d.val 0x10) scanned

theorem slotsOf_ue (s : State) (r : GeReq) (g : Graph) (seeds : List Nat) : (slotsOf s r g seeds).filterMap (·.ue) = [] := by
  refine List.filterMap_eq_nil_iff.2 fun y hy => ?_
  obtain ⟨v, _, rfl⟩ := List.mem_map.1 hy
  exact seedSlot_ue ..

theorem listedOf_indexed (s : State) (r : GeReq) (g : Graph) (seeds : List Nat) :
    Indexed (geDedup r) r.k (geStart r seeds) (slotsOf s r g seeds) (listedOf s r g seeds).1 (listedOf s r g seeds).2 := by
  refine geIndex_indexed _ (fun y hy => ?_) _
  obtain ⟨v, _, rfl⟩ := List.mem_map.1 hy
  exact seedSlot_chosen ..

/-- The output for the bytes of the feature rows. -/
def outputParts (r : GeReq) (slots : List GeSlot) (index unique : List Nat) (rows : List Byte) : List (Nat × List Byte) :=
  let listAt := r.dst + 64 + ceilTo 64 (2 * r.count * r.k)
  [(r.dst, geHeader 0 unique.length (geMask (·.seedRange) slots) (geMask (·.malformed) slots) (geMask (·.nbrRange) slots)),
    (r.dst + 64, index.flatMap (leBytes 2)), (listAt, unique.flatMap (leBytes 4))]
    ++ (if geFetch r then [(listAt + ceilTo 64 (4 * unique.length), rows)] else [])

/-- A run without an uncorrectable unit: the slots, the list with the index, and the rows in turn. -/
theorem geRun_eq {u t : State} {slots : List GeSlot} {index unique : List Nat} {rows : List Byte}
    (hslots : geSlots (seedEntry s r.seedIndex) r g s seeds = (u, slots)) (hlist : geIndex (geDedup r) r.k (geStart r seeds) slots = (unique, index))
    (hrows : (if geFetch r then geRows r g u (rowFlagsOf (geStart r seeds) slots unique) else (u, [], none)) = (t, rows, none))
    (hue : slots.filterMap (·.ue) = []) (op : Nat) :
    geRun s d p op r seeds g = gatherCounted (geWrite t p op (outputParts r slots index unique rows)) d r ((slots.map (·.scanned)).sum) ((rowFlagsOf (geStart r seeds) slots unique).filter (·.2)).length := by
  unfold rowFlagsOf noSlot at hrows
  unfold geStart at hlist hrows
  unfold geRun
  dsimp only
  rw [hslots]
  dsimp only
  rw [hlist]
  dsimp only
  rw [hrows, hue]
  rfl

/-- With the feature rows of the listed nodes that is the output of R123. -/
theorem outputParts_rows {index unique : List Nat} {slots : List GeSlot} {rows : List Byte}
    (h : geFetch r = true → rows = (rowFlagsOf (geStart r seeds) slots unique).flatMap (rowBytesOf s r g)) :
    outputParts r slots index unique rows = gatherParts s r g seeds slots index unique := by
  unfold outputParts gatherParts
  dsimp only
  split
  next hf => rw [h hf, rowFlagsOf_rows]
  next hf => rfl

/-- Without error marks a run writes the output of R123 and counts. -/
theorem geRun_clean (h : s.ecc = []) (d : DieId) (p : PodId) (op : Nat) (r : GeReq) (seeds : List Nat) (g : Graph) : ∃ t rows, Counted s t
    ∧ geRun s d p op r seeds g = gatherCounted
      (geWrite t p op (gatherParts s r g seeds (slotsOf s r g seeds) (listedOf s r g seeds).2 (listedOf s r g seeds).1)) d r (((slotsOf s r g seeds).map (·.scanned)).sum) rows := by
  obtain ⟨hvalues, hcount⟩ := geSlots_clean (seedEntry s r.seedIndex) r g h seeds
  obtain ⟨hdata, hue, hrowsCount⟩ := geRows_clean r g h hcount (rowFlagsOf (geStart r seeds) (slotsOf s r g seeds) (listedOf s r g seeds).1)
  have hslots : geSlots (seedEntry s r.seedIndex) r g s seeds = ((geSlots (seedEntry s r.seedIndex) r g s seeds).1, slotsOf s r g seeds) :=
    Prod.ext rfl hvalues
  have hlist : geIndex (geDedup r) r.k (geStart r seeds) (slotsOf s r g seeds) = ((listedOf s r g seeds).1, (listedOf s r g seeds).2) := rfl
  by_cases hf : geFetch r = true
  · have hrows : (if geFetch r then geRows r g (geSlots (seedEntry s r.seedIndex) r g s seeds).1
        (rowFlagsOf (geStart r seeds) (slotsOf s r g seeds) (listedOf s r g seeds).1)
        else ((geSlots (seedEntry s r.seedIndex) r g s seeds).1, [], none))
        = (_, (rowFlagsOf (geStart r seeds) (slotsOf s r g seeds) (listedOf s r g seeds).1).flatMap (rowBytesOf s r g), none) :=
      (if_pos hf).trans (Prod.ext rfl (Prod.ext hdata hue))
    have hrun := geRun_eq (d := d) (p := p) hslots hlist hrows (slotsOf_ue s r g seeds) op
    rw [outputParts_rows (fun _ => rfl)] at hrun
    exact ⟨_, _, hrowsCount, hrun⟩
  · have hrun := geRun_eq (d := d) (p := p) hslots hlist (if_neg hf) (slotsOf_ue s r g seeds) op
    rw [outputParts_rows (fun hfetch => absurd hfetch hf)] at hrun
    exact ⟨_, _, hcount, hrun⟩

section
variable {u : State} (hm : u.mem = s.mem)
include hm

theorem slotsOf_congr (ha : seedEntry u r.seedIndex = seedEntry s r.seedIndex) : slotsOf u r g seeds = slotsOf s r g seeds := by
  unfold slotsOf
  rw [ha]
  exact List.map_congr_left fun v _ => seedSlot_of_mem _ r g v hm

theorem listedOf_congr (ha : seedEntry u r.seedIndex = seedEntry s r.seedIndex) : listedOf u r g seeds = listedOf s r g seeds := by
  unfold listedOf
  rw [slotsOf_congr hm ha]

theorem gatherParts_congr (slots : List GeSlot) (index unique : List Nat) :
    gatherParts u r g seeds slots index unique = gatherParts s r g seeds slots index unique := by
  have hread : memRead u = memRead s := funext fun a => funext fun n => memRead_of_mem hm a n
  unfold gatherParts
  rw [hread]

end

end

/-! ## A well-formed request -/

section
variable {s : State} {d : DieId} {r : GeReq}

theorem gatherCounted_frame (s : State) (d : DieId) (r : GeReq) (n rows : Nat) :
    gatherCounted s d r n rows = { s with regs := (gatherCounted s d r n rows).regs } := by
  unfold gatherCounted
  split <;> rfl

theorem reg64_gatherCounted (s : State) (d : DieId) (r : GeReq) (n rows : Nat) :
    reg64 (gatherCounted s d r n rows) (rGe d.val 0x10) = (reg64 s (rGe d.val 0x10) + n) % 2 ^ 64 := by
  unfold gatherCounted
  split
  · rw [reg64_add64_ne _ _ (by unfold rGe; omega), reg64_add64]
  · rw [reg64_add64]

theorem reg64_gatherCounted_ne (s : State) (d : DieId) (r : GeReq) (n rows : Nat) :
    reg64 (gatherCounted s d r n rows) (rGe d.val 0x18) = reg64 s (rGe d.val 0x18) := by
  have hscanned (t : State) : reg64 (add64 t (rGe d.val 0x10) n) (rGe d.val 0x18) = reg64 t (rGe d.val 0x18) :=
    reg64_add64_ne _ _ (by unfold rGe; omega)
  unfold gatherCounted
  split
  · rw [reg64_add64_ne _ _ (by unfold rGe; omega), hscanned]
  · rw [hscanned]

theorem maskNodes_length (s : State) (p : PodId) (o : Nat) (b : List Byte) : (maskNodes s p o b).length = b.length := by
  unfold maskNodes upTo
  split
  · rw [List.length_map, List.length_zip, List.length_range, Nat.min_self]
  · rfl

/-- The seeds of a request are as many as it counts. -/
theorem seedsOf_length (s : State) (p : PodId) {r : GeReq} {data : List Byte} (h : data.length = 64 + 4 * r.count) :
    (seedsOf s p r data).length = r.count := by
  unfold seedsOf
  rw [payloadLanes_length, maskNodes_length, List.length_drop]
  omega

end

section
variable {s : State} {d : DieId} {p : PodId} {g : GatherReq} {l : List GatherReq} {j : NetJob} {r : GeReq} {gr : Graph} {k : Token} {seeds : List Nat}

/-- The slots and the index rows are those that R122 and R123 name. -/
theorem listedOf_rows (s : State) (r : GeReq) (gr : Graph) (seeds : List Nat) {i : Nat} (hi : i < seeds.length) :
    ∃ y, (slotsOf s r gr seeds)[i]? = some y ∧ SlotOf s (seedEntry s r.seedIndex) r gr (seeds.getD i 0) y
    ∧ ∀ m, m < r.k → (listedOf s r gr seeds).2[i * r.k + m]?
        = some (if m < y.chosen.length then (listedOf s r gr seeds).2.getD (i * r.k + m) 0 else 0xFFFF)
      ∧ (m < y.chosen.length → (listedOf s r gr seeds).1[(listedOf s r gr seeds).2.getD (i * r.k + m) 0]? = y.chosen[m]?) := by
  have hslot : (slotsOf s r gr seeds)[i]? = some (seedSlot (seedEntry s r.seedIndex) r gr (seeds.getD i 0) s) := by
    unfold slotsOf
    rw [List.getElem?_map, List.getElem?_eq_getElem hi, List.getD_eq_getElem _ _ hi]
    rfl
  exact ⟨_, hslot, seedSlot_slotOf (seedEntry s r.seedIndex) r gr _, (listedOf_indexed s r gr seeds).row i _ hslot⟩

/-- The output of a well-formed request is on its way, and the engine counts what it has scanned (R120, R122, R123, R125). -/
theorem geRequestServe_samples (he : s.ecc = []) (hn : geNextPod s d = some p) (hg : (pod s p).gathers = g :: l) (hready : geReady s d p g = true)
    (hj : netJob s (.gather d g.op) = some j) (hd : netDone s j = true) (hr : r = geReqOf (maskNodes s p g.addr (j.data.take 64)) g.step)
    (hgr : gr = graphOf (memRead s r.graph 64)) (hlen : j.data.length = 64 + 4 * r.count) (hseeds : seeds = seedsOf s p r j.data)
    (hdst : geBadDst s p r = false) (hreq : geBadRequest r = false) (hearly : earlyStatuses s p r = []) (hlate : lateStatuses r gr = [])
    (hk : (outQ (pod s p) g.queue).tokens = [k]) (hop : k.op = g.op) : ∃ t : State, exec (.geRequestServe d) s = .next t ∧ Served s t d p l
      ∧ netJob t (.gather d g.op) = none
      ∧ DataArrives s t p g.queue k (gatherParts s r gr seeds (slotsOf s r gr seeds) (listedOf s r gr seeds).2 (listedOf s r gr seeds).1)
      ∧ reg64 t (rGe d.val 0x10) = (reg64 s (rGe d.val 0x10) + ((slotsOf s r gr seeds).map (·.scanned)).sum) % 2 ^ 64 := by
  have hmem : memRead s r.graph 64 = memRead (closeJob s (.gather d g.op)) r.graph 64 := (memRead_of_mem rfl _ _).symm
  have hread := rootRead_counted (s := closeJob s (.gather d g.op)) he r.graph 64
  have hactive : seedEntry (rootRead (closeJob s (.gather d g.op)) r.graph 64).1 r.seedIndex = seedEntry s r.seedIndex := by
    rw [hread]
    rfl
  obtain ⟨t, rows, hrun, heq⟩ := geRun_clean (hread.ecc.trans he) d p g.op r seeds gr
  have hstored : (rootRead (closeJob s (.gather d g.op)) r.graph 64).1.mem = s.mem := hread.mem
  rw [gatherParts_congr hstored, slotsOf_congr hstored hactive, listedOf_congr hstored hactive] at heq
  have hc := hread.trans hrun
  have hregs : t.regs = s.regs := hc.regs
  have hlisted := listedOf_indexed s r gr seeds
  have hslots : (slotsOf s r gr seeds).length = r.count := by
    rw [slotsOf, List.length_map, hseeds, seedsOf_length s p hlen]
  have hunique : (listedOf s r gr seeds).1.length ≤ r.count * (r.k + 1) := by
    have hbound := hlisted.bound
    have hstart := geStart_length r seeds
    rw [hslots] at hbound
    rw [hseeds, seedsOf_length s p hlen, ← hseeds] at hstart
    rw [Nat.mul_succ]
    omega
  have hfits := gatherParts_fit (g := gr) (seeds := seeds) (slots := slotsOf s r gr seeds) hdst (featBytes_of_request hreq)
    (hlisted.length.trans (by rw [hslots])) hunique
  rw [geWrite_fits g.op (fun e hin => (hfits e hin).of_regs hregs)] at heq
  have hmodel : payloadLanes (maskNodes (closeJob s (.gather d g.op)) p r.seeds (j.data.drop 64)) = seeds := hseeds.symm
  have hserve := geServe_runs (s := closeJob s (.gather d g.op)) (d := d) hr he (hmem ▸ hgr) hearly hlate
  rw [hmodel, heq] at hserve
  obtain ⟨hserved, hjob, harrives⟩ := geFinish_served hc hg hk hop (gatherCounted_frame ..)
    ((reg64_gatherCounted_ne ..).trans (reg64_regs hregs _))
  refine ⟨_, geRequestServe_serves hn hg hready hj hd, ?_⟩
  rw [hserve]
  refine ⟨hserved, hjob, harrives, ?_⟩
  rw [reg64_geFinish_ne, reg64_gatherCounted]
  exact congrArg (fun n => (n + _) % 2 ^ 64) (reg64_regs (t := arriveData t p g.op _) hregs _)

end

end Sys2Proof.Machine
end

section
/-! Obligation O52: transfers and gathers complete. -/

namespace Sys2Proof.Machine

/-- One rule broken gives one status, in the request or in the graph's descriptor. -/
theorem one_status {s : State} {p : PodId} {r : GeReq} {gr : Graph} {c : Nat}
    (h : (geBadDst s p r = true ∧ geBadGraph r = false ∧ geBadRequest r = false ∧ c = 1)
      ∨ (geBadDst s p r = false ∧ geBadGraph r = true ∧ geBadRequest r = false ∧ c = 2)
      ∨ (geBadDst s p r = false ∧ geBadGraph r = false ∧ geBadRequest r = true ∧ c = 3)
      ∨ (geBadDst s p r = false ∧ geBadGraph r = false ∧ geBadRequest r = false
        ∧ ((geBadArrays r gr = true ∧ geBadDescriptor r gr = false ∧ c = 2)
          ∨ (geBadArrays r gr = false ∧ geBadDescriptor r gr = true ∧ c = 3)))) :
    earlyStatuses s p r = [c] ∨ (earlyStatuses s p r = [] ∧ lateStatuses r gr = [c]) := by
  unfold earlyStatuses lateStatuses
  rcases h with ⟨h1, h2, h3, rfl⟩ | ⟨h1, h2, h3, rfl⟩ | ⟨h1, h2, h3, rfl⟩ | ⟨h1, h2, h3, ⟨h4, h5, rfl⟩ | ⟨h4, h5, rfl⟩⟩
  · exact Or.inl (by rw [h1, h2, h3]; rfl)
  · exact Or.inl (by rw [h1, h2, h3]; rfl)
  · exact Or.inl (by rw [h1, h2, h3]; rfl)
  · exact Or.inr (by rw [h1, h2, h3, h4, h5]; exact ⟨rfl, rfl⟩)
  · exact Or.inr (by rw [h1, h2, h3, h4, h5]; exact ⟨rfl, rfl⟩)

end Sys2Proof.Machine

open Sys2Proof.Machine in
/-- Settles O52: a transfer moves on by the state of its token; a gather by its slots, each the first K of its candidates in the order of their keys,
and by the list that takes them in. -/
theorem transfersAndGathersComplete : Obligations.TransfersAndGathersComplete := by
  unfold Obligations.TransfersAndGathersComplete
  refine ⟨?arrives, ?moves, ?unformed, ?stored, ?held, ?idle, ?asks, ?refused, ?served⟩
  case arrives => exact fun p q k s h hk hd hb hr ht hpos hlen => tokenComplete_arrives h hk hd hb hr ht hpos hlen
  case moves =>
    exact fun p q k s h hk hd hb => ⟨fun hv hq => tokenComplete_visible h hk hd hb hv hq,
      fun hv => tokenComplete_waits ((completeToken_begun h hk hd hb).trans (if_neg (Bool.eq_false_iff.1 hv)))⟩
  case unformed => exact fun p q k s h hk hd hb => tokenComplete_waits (completeToken_unformed h hk hd hb)
  case stored =>
    refine fun p q k s h hk hd => ⟨fun hs hr ht hend hq => tokenComplete_stored h hk hd hs hr ht hend hq, fun hs => tokenComplete_waits ?_⟩
    rw [completeToken_store h hk hd, hs, Bool.true_or, if_pos rfl]
  case held => exact fun p q k l s h hk hd hheld => tokenComplete_waits (completeToken_held h hk hd hheld)
  case idle => exact fun d s h => geRequestServe_idle h
  case asks =>
    refine fun d p g l s _ hn hg hr => ⟨fun hj => ?_, fun j hj hd => geRequestServe_waits hn hg hr (netRead_ungranted hj hd _)⟩
    obtain ⟨t, j, hread, hjob, hpod, hpieces, hdata, hgranted, hmem, hpods⟩ :=
      netRead_pair hj p (g.addr, 64) (reqField s p g.addr 0x10 4, 4 * reqField s p g.addr 0x1C 1) (Nat.succ_pos 63)
    exact ⟨t, j, geRequestServe_waits hn hg hr hread, hjob, hpod, hpieces, hpieces.symm ▸ hdata, hgranted, hpods, memByte_congr hmem⟩
  case refused =>
    exact fun d p g l j r gr k c s _ he hn hg hready hj hd hr hgr hk hop _ h =>
      geRequestServe_refused he hn hg hready hj hd hr hgr hk hop (one_status h)
  case served =>
    intro d p g l j r gr k seeds s _ he hn hg hready hj hd hr hgr hlen hseeds hdst hgraph hreq harrays hdesc hk hop _
    have hcount : seeds.length = r.count := hseeds ▸ seedsOf_length s p hlen
    have hslots : (slotsOf s r gr seeds).length = r.count := (List.length_map _).trans hcount
    have hlisted := listedOf_indexed s r gr seeds
    obtain ⟨t, ht, hserved, hjob, harrives, hscanned⟩ := geRequestServe_samples he hn hg hready hj hd hr hgr hlen hseeds hdst hreq
      (earlyStatuses_none hdst hgraph hreq) (lateStatuses_none harrays hdesc) hk hop
    exact ⟨t, slotsOf s r gr seeds, (listedOf s r gr seeds).1, (listedOf s r gr seeds).2, ht, hserved, hjob, hcount, hslots,
      fun i hi => listedOf_rows s r gr seeds (hcount.symm ▸ hi), hlisted.length.trans (by rw [hslots]), hlisted.kept, hlisted.all,
      fun hdedup hself => hlisted.nodup hdedup (geStart_nil hself seeds ▸ List.nodup_nil), harrives, hscanned⟩

end
